-- ==== Sys2Proof/Word.lean ====
section
/-! DEFINITION. Word.lean: the word types of the Larzor L8 (R5, R14) and nothing more. -/

namespace Sys2Proof

/-- One byte of memory. -/
abbrev Byte := BitVec 8

/-- One lane word of a vector register, and one instruction word. -/
abbrev Lane := BitVec 32

/-- One scalar register, one address. -/
abbrev Word := BitVec 64

/-- One mask register: a bit per lane for lanes 0 to 1,023 (R17). -/
abbrev Mask := BitVec 1024

end Sys2Proof
end

