-- ==== Sys2Proof/Config.lean ====
section
/-! DEFINITION. Config.lean: the constants an L8 implementation fixes (R1) and the free values, which the manual leaves
open: opaque constants without a body, so that no proof can use a value of theirs. -/

namespace Sys2Proof.Config

/-- Bytes of HBM on one die: two stacks of 48 GB (R1, R4, R98). -/
def dieBytes : Nat := 96000000000

/-- Width of a die-local offset (R96, R98); die `d`'s memory occupies the flat addresses from `d · 2^37`. -/
def dieSpan : Nat := 2 ^ 37

/-- Flat address of host physical address 0: the space after the eight dies. -/
def hostBase : Nat := 8 * 2 ^ 37

/-- Stash bytes of one core (R1). -/
def stashBytes : Nat := 768 * 1024

/-- Sectors of one core's L1 (R1: 1,024 KiB). -/
def l1Sectors : Nat := 16384

/-- Sectors of the cache of one core's fetch unit (R1: 128 KiB). -/
def fetchSectors : Nat := 2048

/-- VRF bytes of one core (R1). -/
def vrfBytes : Nat := 1024 * 1024

/-- FREE VALUE (log 5). Nanoseconds that pass before step number `n` of the machine: timing is not modelled. -/
opaque elapsed : Nat → Nat

/-- FREE VALUE (log 6). The clocks of a timing event, 1 or 8, that a core counts in a step (R390): by step number, event, die and core. -/
opaque perfClocks : Nat → Nat → Nat → Nat → Nat

/-- FREE VALUE (log 7). Whether the core expects the stall of operation `op` to last more than 64 clocks (R49). -/
opaque longStall : Nat → Bool

/-- FREE VALUE (log 8). Which entry of an inconsistent CONT run an access uses (R99): a number below 64, by step number and
virtual address. -/
opaque contPick : Nat → Nat → Nat

/-- FREE VALUE (log 9). The logical core number read by a team whose core left the presented mesh (R314 states none). -/
opaque coreOffMesh : Nat → BitVec 6

/-- FREE VALUE (log 10). Whether a cluster-stash access to a member that has left DRAINING completes (R86), by step
number, lane and stash address. -/
opaque formerStashCompletes : Nat → Nat → Nat → Bool

/-- FREE VALUE (log 11). A rounding of a transcendental result whose exact value the evaluator could not separate from a
rounding boundary (R223 gives the exact value; never needed for a value tried). Arguments: function, operand bits. -/
opaque sfuTie : Nat → Nat → Nat

/-- FREE VALUE (log 12). The bytes of an SPDM signature or key share (R376): cryptographic output, by response number. -/
opaque spdmBytes : Nat → List Byte

/-- FREE VALUE (log 12). The certificate chain of slot 0 (R376), whose alias certificate follows measurement registers 0 and 1 (R375): by
those registers. -/
opaque certChain : BitVec 512 → BitVec 512 → List Byte

/-- FREE VALUE (log 17). Which status ends a launch whose Brory route is lost, of 0x40 to 0x48: R387 says that it ends and not how. By
step number. -/
opaque routeLost : Nat → Nat

/-- FREE VALUE (log 37). Whether the host answers the copy path at a host physical address of the far store: R330 lets a translation or
permission be missing at FARBASE, and the host's own tables are no part of the package. By step number and host physical 4 KiB page. -/
opaque farServed : Nat → Nat → Bool

/-- FREE VALUE (log 13). Which copy a full L1, or a full fetch-unit cache, evicts: the manual gives no replacement rule. By step number. -/
opaque l1Victim : Nat → Nat

/-- Sectors of one L2 slice: 2 MiB (R1). -/
def sliceSectors : Nat := 32768

/-- FREE VALUE (log 13). What a full L2 slice evicts: the manual gives no replacement rule. By step number. -/
opaque l2Victim : Nat → Nat

/-- FREE VALUE (log 14). A stash byte that has left a window since a team wrote it as plain scratchpad: the manual states
what the window held, not what the bare byte holds afterwards (R108). By number of the change and offset. -/
opaque bareByte : Nat → Nat → Byte

/-- FREE VALUE (log 15). The bits of a rounding under a reserved RND code: an engine command captures one without a fault, and
the manual gives no result (R22, R388). Arguments: two numbers that tell the roundings apart. -/
opaque reservedRound : Nat → Nat → Nat

/-- FREE VALUE (log 16). Whether an engine read without the acquire flag sees a write that only its core or die sees yet (R126).
By command and flat address. -/
opaque engineEarly : Nat → Nat → Bool

/-- FREE VALUE (log 19). What measurement register 0 is extended with for the fuse contents (R375 gives no format). Arguments: the two
key hashes and the two fuse words. -/
opaque fuseMeasure : List Byte → List Byte → Nat → Nat → List Byte

/-- FREE VALUE (log 20). FCAUSE when boot stops at step 7, for which R371 lists no code: below 16. By step number. -/
opaque step7Cause : Nat → Nat

/-- FREE VALUE (log 22). The 96 bytes that stand for a semiring element in a save image: R308 stores tiles as XW records, which R75
defines for the exact accumulator alone. Arguments: the tag and the element. -/
opaque semiRecord : Nat → BitVec 32 → List Byte

/-- FREE VALUE (log 22). The semiring element that an edited record of a save image stands for. Arguments: the tag and the bytes. -/
opaque semiElement : Nat → List Byte → BitVec 32

/-- FREE VALUE (log 30). The IMPL bit (16) and the TAG (15:0) a restored context enters its atomic region with: neither stands in the
saved state (R29). By number of the restore. -/
opaque restoredEntry : Nat → BitVec 17

/-- FREE VALUE (log 30). Whether the codes of a team's closed atomic regions outlast a save: R29 names no such state and lets nothing else
survive, R249 keeps a lane closed until an XEND reports its code. By number of the restore. -/
opaque restoredCodes : Nat → Bool

end Sys2Proof.Config
end

