-- ==== Sys2Proof/Machine/Num.lean ====
section
/-! DEFINITION. Machine/Num.lean: the element types of spec 03 as exact values, the one rounding every unit shares (R65 to
R70), the draw of RSX (R67), conversions (R71), minima and maxima (R60), and the E2M1B block (R61 to R64). -/

namespace Sys2Proof.Machine

/-! ### Flags (R25, R70) -/

/-- The six bits of FPFL. -/
abbrev Flags := BitVec 6

/-- Invalid operation. -/
def fNV : Flags := 0b000001
/-- Division by zero. -/
def fDZ : Flags := 0b000010
/-- Overflow. -/
def fOF : Flags := 0b000100
/-- Underflow. -/
def fUF : Flags := 0b001000
/-- Inexact. -/
def fNX : Flags := 0b010000
/-- Saturation. -/
def fSX : Flags := 0b100000

/-- `f` when `b`, no flag otherwise. -/
def flagIf (b : Bool) (f : Flags) : Flags := if b then f else 0

/-! ### Type codes (R20, R56, R58) -/

/-- Width in bits of type code `t`; E2M1B has no width of its own and reads as 0. -/
def typeBits (t : Nat) : Nat :=
  match t with
  | 0 | 1 | 12 | 13 => 8
  | 2 | 3 | 8 | 9 => 16
  | 4 | 5 | 10 => 32
  | 6 | 7 | 11 => 64
  | _ => 0

/-- Whether `t` is an integer type. -/
def isIntType (t : Nat) : Bool := t < 8
/-- Whether `t` is a floating type. -/
def isFloatType (t : Nat) : Bool := 8 ≤ t && t ≤ 13
/-- Whether an integer type is signed. -/
def isSigned (t : Nat) : Bool := t % 2 == 0
/-- Whether elements of `t` occupy register pairs. -/
def isWide (t : Nat) : Bool := typeBits t == 64

/-! ### Integers -/

/-- Two's-complement reading of the low `w` bits of `n`. -/
def signedOf (w n : Nat) : Int :=
  let x := n % 2 ^ w
  if 2 ^ (w - 1) ≤ x then (x : Int) - (2 ^ w : Nat) else x

/-- The low `w` bits of an integer. -/
def wrapBits (w : Nat) (v : Int) : Nat := (v % ((2 ^ w : Nat) : Int)).toNat

/-- The value that the low bits of `n` hold as an element of integer type `t`. -/
def intOf (t n : Nat) : Int :=
  if isSigned t then signedOf (typeBits t) n else ((n % 2 ^ typeBits t : Nat) : Int)

/-- Least value of integer type `t`. -/
def intMin (t : Nat) : Int := if isSigned t then -((2 ^ (typeBits t - 1) : Nat) : Int) else 0
/-- Greatest value of integer type `t`. -/
def intMax (t : Nat) : Int :=
  if isSigned t then ((2 ^ (typeBits t - 1) : Nat) : Int) - 1 else ((2 ^ typeBits t : Nat) : Int) - 1

/-- `v` clamped to the range of `t`. -/
def clampInt (t : Nat) (v : Int) : Int := if v < intMin t then intMin t else if intMax t < v then intMax t else v

/-- Wrapping or saturating an exact integer result (R57): the element's bits and SX. -/
def intResult (t : Nat) (sat : Bool) (v : Int) : Nat × Flags :=
  if sat then (wrapBits (typeBits t) (clampInt t v), flagIf (clampInt t v != v) fSX)
  else (wrapBits (typeBits t) v, 0)

/-! ### Floating-point values (R58) -/

/-- A value: finite `(−1)^neg · m · 2^e`, an infinity, or NaN. -/
inductive FVal where
  | fin (neg : Bool) (m : Nat) (e : Int)
  | inf (neg : Bool)
  | nan
  deriving DecidableEq, Repr

/-- Fraction bits of floating type `t`. -/
def fracBits (t : Nat) : Nat :=
  match t with
  | 8 => 10
  | 9 => 7
  | 10 => 23
  | 11 => 52
  | 12 => 3
  | _ => 2

/-- Exponent bits of floating type `t`. -/
def expBits (t : Nat) : Nat := typeBits t - 1 - fracBits t
/-- Exponent bias of floating type `t`. -/
def bias (t : Nat) : Nat := 2 ^ (expBits t - 1) - 1
/-- Exponent of the smallest normal value. -/
def minExp (t : Nat) : Int := 1 - (bias t : Int)
/-- Exponent of the last place of a subnormal. -/
def lastPlace (t : Nat) : Int := minExp t - (fracBits t : Int)
/-- Exponent of the largest finite value: E4M3 uses its top exponent for numbers. -/
def maxExp (t : Nat) : Int := if t = 12 then 8 else (bias t : Int)
/-- Significand of the largest finite value, as an integer of `fracBits + 1` bits. -/
def maxSig (t : Nat) : Nat := if t = 12 then 14 else 2 ^ (fracBits t + 1) - 1

/-- The canonical NaN of each format (R59). -/
def canonNan (t : Nat) : Nat :=
  match t with
  | 8 => 0x7E00
  | 9 => 0x7FC0
  | 10 => 0x7FC00000
  | 11 => 0x7FF8000000000000
  | 12 => 0x7F
  | _ => 0x7E

/-- The sign bit of `t`, set or clear. -/
def signBit (t : Nat) (neg : Bool) : Nat := if neg then 2 ^ (typeBits t - 1) else 0

/-- Bits of the infinity of `t`; E4M3 has none. -/
def infBits (t : Nat) (neg : Bool) : Nat := signBit t neg + (2 ^ expBits t - 1) * 2 ^ fracBits t

/-- Bits of the largest finite value of `t`. -/
def maxBits (t : Nat) (neg : Bool) : Nat := if t = 12 then signBit t neg + 0x7E else infBits t neg - 1

/-- The value encoded by the low bits of `n` in floating type `t`. -/
def fdecode (t n : Nat) : FVal :=
  let f := n % 2 ^ fracBits t
  let e := n / 2 ^ fracBits t % 2 ^ expBits t
  let neg := n / 2 ^ (typeBits t - 1) % 2 == 1
  if t = 12 && e == 15 && f == 7 then .nan
  else if t ≠ 12 && e == 2 ^ expBits t - 1 then (if f = 0 then .inf neg else .nan)
  else if e = 0 then .fin neg f (lastPlace t)
  else .fin neg (2 ^ fracBits t + f) (lastPlace t + (e : Int) - 1)

/-- Whether the low bits of `n` encode a subnormal of `t`. -/
def isSubnormal (t n : Nat) : Bool :=
  n / 2 ^ fracBits t % 2 ^ expBits t == 0 && n % 2 ^ fracBits t != 0

/-- Whether FTZ acts on floating type `t` (R69). -/
def ftzType (t : Nat) : Bool := 8 ≤ t && t ≤ 11

/-- A source value under FTZ (R69). -/
def fdecodeFtz (ftz : Bool) (t n : Nat) : FVal :=
  if ftz && ftzType t && isSubnormal t n then .fin (n / 2 ^ (typeBits t - 1) % 2 == 1) 0 0 else fdecode t n

/-! ### Rounding (R65 to R70) -/

/-- Number of bits of `m`. -/
def bitLen (m : Nat) : Nat := if m = 0 then 0 else Nat.log2 m + 1

/-- Rounds the magnitude `m·2^e`, or when `sticky` a value strictly between `m·2^e` and `(m+1)·2^e`, to a multiple of `2^q`
under mode `rnd`: the multiple and whether it is inexact (R65; `u` is the draw of R67). A `sticky` value is given with at
least 24 bits below `2^q`. -/
def roundAt (neg : Bool) (m : Nat) (e : Int) (sticky : Bool) (q : Int) (rnd u : Nat) : Nat × Bool :=
  if q ≤ e then (m * 2 ^ (e - q).toNat, sticky)
  else
    let w := 2 ^ (q - e).toNat
    let lo := m / w
    let r := m % w
    let inexact := r != 0 || sticky
    let up :=
      inexact &&
        match rnd with
        | 0 => w < 2 * r || (2 * r == w && (sticky || lo % 2 == 1))
        | 1 => false
        | 2 => !neg
        | 3 => neg
        | 4 => w ≤ 2 * r
        | _ => u * w < r * 2 ^ 24 || (r * 2 ^ 24 == u * w && sticky)
    (if up then lo + 1 else lo, inexact)

/-- Whether an overflow of this sign goes to infinity under `rnd` (R66). -/
def overflowsToInf (rnd : Nat) (neg : Bool) : Bool :=
  match rnd with
  | 1 => false
  | 2 => !neg
  | 3 => neg
  | _ => true

/-- Bits of an infinite result (R66): E4M3 has its canonical NaN, and under SAT a conversion gives the largest value. -/
def infResult (t : Nat) (neg sat : Bool) : Nat :=
  if sat then maxBits t neg else if t = 12 then canonNan t else infBits t neg

/-- How one rounding is made: mode, draw of RSX, FTZ, and the saturation of a conversion. -/
structure Rnd where
  mode : Nat
  u : Nat := 0
  ftz : Bool := false
  sat : Bool := false
  deriving DecidableEq, Repr

/-- Rounds the exact nonzero value `(−1)^neg·m·2^e` (with `sticky` as in `roundAt`) to floating type `t`: bits and flags. -/
def roundFin (t : Nat) (r : Rnd) (neg : Bool) (m : Nat) (e : Int) (sticky : Bool) : Nat × Flags :=
  let top := (bitLen m : Int) - 1 + e
  let qn := top - (fracBits t : Int)
  let q := if qn < lastPlace t then lastPlace t else qn
  let (sig, inexact) := roundAt neg m e sticky q r.mode r.u
  let (sigU, _) := roundAt neg m e sticky qn r.mode r.u
  -- tiny: rounded with an unbounded exponent, the magnitude is below the smallest normal value
  let tiny := top < minExp t && !(top + 1 == minExp t && sigU == 2 ^ (fracBits t + 1))
  let qmax := maxExp t - (fracBits t : Int)
  let ovf := qmax < q || (q == qmax && maxSig t < sig)
  if ovf then
    if overflowsToInf r.mode neg then (infResult t neg r.sat, fOF ||| fNX ||| flagIf r.sat fSX)
    else (maxBits t neg, fOF ||| fNX)
  else if tiny && r.ftz && ftzType t then (signBit t neg, fUF ||| fNX)
  else
    let bits :=
      if sig = 0 then 0
      else if sig < 2 ^ fracBits t then sig
      else ((q - lastPlace t).toNat * 2 ^ fracBits t) + sig
    (signBit t neg + bits, flagIf inexact fNX ||| flagIf (inexact && tiny) fUF)

/-- Rounds a value to floating type `t` (R65, R66, R69, R70). Infinities and NaN carry over. -/
def roundVal (t : Nat) (r : Rnd) (v : FVal) : Nat × Flags :=
  match v with
  | .nan => (canonNan t, 0)
  | .inf neg => (infResult t neg r.sat, flagIf r.sat fSX)
  | .fin neg m e => if m = 0 then (signBit t neg, 0) else roundFin t r neg m e false

/-- Rounds a finite value to an integer under `rnd` (R65): the integer and whether it is inexact. -/
def roundToInt (rnd u : Nat) (neg : Bool) (m : Nat) (e : Int) : Int × Bool :=
  let (r, ix) := roundAt neg m e false 0 rnd u
  (if neg then -(r : Int) else r, ix)

/-! ### The draw of RSX (R67) -/

/-- The mixing function of R67. -/
def mix (x0 : Word) : Word :=
  let x := x0 + 0x9E3779B97F4A7C15
  let x := (x ^^^ (x >>> 30)) * 0xBF58476D1CE4E5B9
  let x := (x ^^^ (x >>> 27)) * 0x94D049BB133111EB
  x ^^^ (x >>> 31)

/-- U of R67 from SEED, G, C and e. -/
def rsxDraw (seed g c e : Word) : Nat :=
  let z := mix (seed ^^^ g)
  let z := mix (z ^^^ c)
  let z := mix (z ^^^ e)
  (z >>> 40).toNat

/-! ### Exact arithmetic on values -/

/-- The signed significand of a finite value over the exponent `e0`. -/
def sigAt (neg : Bool) (m : Nat) (e e0 : Int) : Int :=
  let x : Int := (m * 2 ^ (e - e0).toNat : Nat)
  if neg then -x else x

/-- Sign inverted. -/
def FVal.negate : FVal → FVal
  | .fin n m e => .fin (!n) m e
  | .inf n => .inf (!n)
  | .nan => .nan

/-- Sign cleared. -/
def FVal.abs : FVal → FVal
  | .fin _ m e => .fin false m e
  | .inf _ => .inf false
  | .nan => .nan

/-- Exact sum of two values, with the sign of an exact zero (R65) and NV for ∞ − ∞. -/
def fadd (rnd : Nat) (a b : FVal) : FVal × Flags :=
  match a, b with
  | .nan, _ => (.nan, 0)
  | _, .nan => (.nan, 0)
  | .inf n, .inf n' => if n = n' then (.inf n, 0) else (.nan, fNV)
  | .inf n, _ => (.inf n, 0)
  | _, .inf n => (.inf n, 0)
  | .fin n m e, .fin n' m' e' =>
    let e0 := if e < e' then e else e'
    let s := sigAt n m e e0 + sigAt n' m' e' e0
    if s = 0 then (.fin (if n = n' then n else rnd == 3) 0 0, 0)
    else (.fin (s < 0) s.natAbs e0, 0)

/-- Exact product of two values, with NV for 0 × ∞. -/
def fmul (a b : FVal) : FVal × Flags :=
  match a, b with
  | .nan, _ => (.nan, 0)
  | _, .nan => (.nan, 0)
  | .inf n, .inf n' => (.inf (n != n'), 0)
  | .inf n, .fin n' m _ => if m = 0 then (.nan, fNV) else (.inf (n != n'), 0)
  | .fin n m _, .inf n' => if m = 0 then (.nan, fNV) else (.inf (n != n'), 0)
  | .fin n m e, .fin n' m' e' => (.fin (n != n') (m * m') (e + e'), 0)

/-- Comparison of two values, none when either is NaN; −0 equals +0 (R219). -/
def fcompare (a b : FVal) : Option Ordering :=
  match a, b with
  | .nan, _ => none
  | _, .nan => none
  | .inf n, .inf n' => some (if n = n' then .eq else if n then .lt else .gt)
  | .inf n, _ => some (if n then .lt else .gt)
  | _, .inf n => some (if n then .gt else .lt)
  | .fin n m e, .fin n' m' e' =>
    let e0 := if e < e' then e else e'
    some (compare (sigAt n m e e0) (sigAt n' m' e' e0))

/-- Whether a value is a negative zero. -/
def FVal.isNegZero : FVal → Bool
  | .fin n m _ => n && m == 0
  | _ => false

/-- minimumNumber (R60): −0 orders below +0. -/
def fmin (a b : FVal) : FVal :=
  match fcompare a b with
  | none => if a = .nan then b else a
  | some .lt => a
  | some .gt => b
  | some .eq => if b.isNegZero then b else a

/-- maximumNumber (R60). -/
def fmax (a b : FVal) : FVal :=
  match fcompare a b with
  | none => if a = .nan then b else a
  | some .lt => b
  | some .gt => a
  | some .eq => if a.isNegZero then b else a

/-- Exact sum of a list of values as R77 states it: NaN, both infinities (NV), one infinity, the exact sum; all terms −0
give −0, and an exact zero of mixed signs follows R65. The empty sum is +0. -/
def fsum (rnd : Nat) (vs : List FVal) : FVal × Flags :=
  let p := vs.any (· == .inf false)
  let n := vs.any (· == .inf true)
  if p && n then (.nan, fNV)
  else if vs.any (· == .nan) then (.nan, 0)
  else if p then (.inf false, 0)
  else if n then (.inf true, 0)
  else
    match vs with
    | [] => (.fin false 0 0, 0)
    | v :: rest => rest.foldl (fun acc x => ((fadd rnd acc.1 x).1, 0)) (v, 0)

/-! ### Conversion (R71) -/

/-- Rounds a value to integer type `t` by the C rule of R71: clamp, NV and SX for a clamp or NaN, NX for an inexact value
in range. -/
def toIntC (t : Nat) (r : Rnd) (v : FVal) : Nat × Flags :=
  match v with
  | .nan => (0, fNV ||| fSX)
  | .inf neg => (wrapBits (typeBits t) (if neg then intMin t else intMax t), fNV ||| fSX)
  | .fin neg m e =>
    let (x, ix) := roundToInt r.mode r.u neg m e
    if clampInt t x = x then (wrapBits (typeBits t) x, flagIf ix fNX)
    else (wrapBits (typeBits t) (clampInt t x), fNV ||| fSX)

/-- An integer as a value. -/
def ofInt (v : Int) : FVal := .fin (v < 0) v.natAbs 0

/-- Rounds a value to floating type `t` as a conversion (the Q rule): also NV for ±∞ to E4M3 without SAT (R70). -/
def toFloatQ (t : Nat) (r : Rnd) (v : FVal) : Nat × Flags :=
  let (b, f) := roundVal t r v
  match v with
  | .inf _ => (b, f ||| flagIf (t == 12 && !r.sat) fNV)
  | _ => (b, f)

/-- The rule of R71 for a pair of types. -/
inductive Conv where
  | same
  | exact
  | wrap
  | quantise
  | clamp
  deriving DecidableEq, Repr

/-- The table of R71, by source and destination. -/
def convRule (s d : Nat) : Conv :=
  if s = d then .same
  else if isIntType s then
    if isIntType d then
      -- exact when the destination is wider and the source unsigned or the destination signed
      if typeBits s < typeBits d && (!isSigned s || isSigned d) then .exact else .wrap
    else
      let p := typeBits s - (if isSigned s then 1 else 0)
      if d < 12 && p ≤ fracBits d + 1 then .exact else .quantise
  else if isIntType d then .clamp
  else
    match s, d with
    | 8, 10 | 8, 11 | 9, 10 | 9, 11 | 10, 11 => .exact
    | 12, 8 | 12, 9 | 12, 10 | 12, 11 | 13, 8 | 13, 9 | 13, 10 | 13, 11 => .exact
    | _, _ => .quantise

/-- Converts the element `n` of type `s` to type `d` (R71). -/
def convert (s d : Nat) (r : Rnd) (n : Nat) : Nat × Flags :=
  match convRule s d with
  | .same => (n % 2 ^ typeBits d, 0)
  | .wrap => intResult d r.sat (intOf s n)
  | .clamp => toIntC d r (fdecodeFtz r.ftz s n)
  | .exact =>
    if isIntType d then (wrapBits (typeBits d) (intOf s n), 0)
    else roundVal d { r with mode := 0, sat := false } (if isIntType s then ofInt (intOf s n) else fdecodeFtz r.ftz s n)
  | .quantise => toFloatQ d r (if isIntType s then ofInt (intOf s n) else fdecodeFtz r.ftz s n)

/-! ### Classification (R220) -/

/-- The class word of the encoding `n` of type `t`. -/
def classOf (t n : Nat) : Nat :=
  match fdecode t n with
  | .nan => 2 ^ 8
  | .inf true => 2 ^ 0
  | .inf false => 2 ^ 7
  | .fin neg m _ =>
    if m = 0 then (if neg then 2 ^ 3 else 2 ^ 4)
    else if isSubnormal t n then (if neg then 2 ^ 2 else 2 ^ 5)
    else (if neg then 2 ^ 1 else 2 ^ 6)

/-! ### The E2M1B block (R61 to R64) -/

/-- Twice the magnitude of E2M1 code bits [2:0] (R61). -/
def e2m1Twice (c : Nat) : Nat :=
  match c % 8 with
  | 0 => 0
  | 1 => 1
  | 2 => 2
  | 3 => 3
  | 4 => 4
  | 5 => 6
  | 6 => 8
  | _ => 12

/-- The value of element code `c` of a block with scale code `s` and extra value `x` (R63). -/
def blockValue (c s x : Nat) : FVal :=
  let k : Int := (s : Int) - 127
  if s = 0xFF then .nan
  else if c = 8 then
    if x = 0 then .fin true 0 0
    else match fdecode 12 x with
      | .fin neg m e => .fin neg m (e + k)
      | v => v
  else .fin (8 ≤ c) (e2m1Twice c) (k - 1)

/-- Rounds a finite quotient to an E2M1 code with its magnitude doubled (R64): code, twice the rounded magnitude, flags. -/
def e2m1Round (rnd u : Nat) (neg : Bool) (m : Nat) (e : Int) : Nat × Nat × Flags :=
  if m = 0 then (0, 0, 0)
  else
    let top := (bitLen m : Int) - 1 + e
    -- one fraction bit, subnormal step 1/2: the last place is 2^(top−1), at least 2^−1
    let q := if top - 1 < -1 then -1 else top - 1
    let (sig, ix) := roundAt neg m e false q rnd u
    let tw := sig * 2 ^ (q + 1).toNat
    -- every magnitude above 6 saturates, whichever way it rounds (R64: "values in (6, 8) … saturate")
    if 12 < tw || (tw == 12 && 6 * 2 ^ (-e).toNat < m * 2 ^ e.toNat) then
      ((if neg then 15 else 7), 12, fSX ||| fNX)
    else
      let c := match tw with
        | 0 => 0
        | 1 => 1
        | 2 => 2
        | 3 => 3
        | 4 => 4
        | 6 => 5
        | 8 => 6
        | _ => 7
      ((if c = 0 then 0 else if neg then c + 8 else c), tw, flagIf ix fNX)

/-- The largest of a list of natural numbers. -/
def maxNat (l : List Nat) : Nat := l.foldl max 0

/-- VPACK's block (R64) of 32 values; `u i` is the draw for element `i`. Answers the 32 codes, s, X and the flags. -/
def packBlock (rnd : Nat) (u : Nat → Nat) (a : List FVal) : List Nat × Nat × Nat × Flags :=
  let zero := List.replicate 32 0
  if a.any (fun v => match v with | .fin _ _ _ => false | _ => true) then (zero, 0xFF, 0, fNV)
  else
    -- every value over one common exponent e0
    let e0 : Int := a.foldl (fun acc v => match v with | .fin _ m e => if m = 0 then acc else min acc e | _ => acc) 0
    let sig := a.map (fun v => match v with
      | .fin n m e => (n, if m = 0 then 0 else m * 2 ^ (e - e0).toNat)
      | _ => (false, 0))
    let m := maxNat (sig.map Prod.snd)
    if m = 0 then (zero, 0, 0, 0)
    else
      let ex : Int := (bitLen m : Int) - 1 + e0
      let s : Nat := if ex + 125 < 0 then 0 else if 254 < ex + 125 then 254 else (ex + 125).toNat
      let eq : Int := e0 - ((s : Int) - 127)
      let codes := (List.zipIdx sig).map (fun p => e2m1Round rnd (u p.2) p.1.1 p.1.2 eq)
      -- quotients, code values and errors as multiples of 2^ec
      let ec : Int := if eq < -10 then eq else -10
      let errs := (List.zip sig codes).map (fun p =>
        (sigAt false p.1.2 eq ec - sigAt false p.2.2.1 (-1) ec).natAbs)
      let worst := maxNat errs
      let fl := codes.foldl (fun f c => f ||| c.2.2) 0
      let cs := codes.map Prod.fst
      let j := errs.idxOf worst
      let (nj, mj) := sig.getD j (false, 0)
      let xb := (roundVal 12 { mode := 0, sat := true } (.fin nj mj eq)).1
      match fdecode 12 xb with
      | .fin nx mx exx =>
        if worst ≠ 0 && mx ≠ 0 && (sigAt nx mx exx ec - sigAt nj mj eq ec).natAbs < worst then (cs.set j 8, s, xb, fl)
        else (cs, s, 0, fl)
      | _ => (cs, s, 0, fl)

end Sys2Proof.Machine
end

