-- ==== Sys2Proof/Syntax.lean ====
section
/-! DEFINITION. Syntax.lean: the abstract syntax of the Larzor L8. `Instr` has one constructor for each row of the opcode
table: the instruction words of spec 07 to 11 (fields named as the table names them, register numbers and codes already
bounded), and the events of spec 95 (what the package, its hub, its host and its surroundings do), whose operands say
which party or which pending operation the event concerns. -/

namespace Sys2Proof

/-- A GET_MEASUREMENTS request: the certificate slot that signs, and the index of the measurement (R376). -/
structure MeasRequest where
  certSlot : Nat
  index : Nat
  deriving DecidableEq, Repr

/-- A secured SPDM message: its session, and whether it has arrived intact (R376, R377). -/
structure SecuredMsg where
  session : Nat
  intact : Bool
  deriving DecidableEq, Repr

/-- The loss of a Brory port: the port, and the launches that are cut off when it was the last (R387). -/
structure PortLoss where
  port : Nat
  cut : List Nat
  deriving DecidableEq, Repr

/-- What manufacture fuses into a package (R372, R374): the two key hashes, and the faulty cores of each die. -/
structure Manufacture where
  keyHash0 : List Byte
  keyHash1 : List Byte
  faulty : List (List Nat)
  deriving DecidableEq, Repr

/-- What the boot sequence of R370 finds when it runs: the outcome of each test that the manual leaves to the hardware.
Entry `d` of each list concerns die `d`; a missing entry counts as a failure. -/
structure BootInput where
  /-- step 1: the hub's own SRAM test passes and the fuses are read -/
  hubSelfTest : Bool
  /-- step 3: the die answers and its hub link trains -/
  linkUp : List Bool
  /-- step 5: the cores of each die that fail the boot test, as physical numbers 0-53 -/
  faultyCores : List (List Nat)
  /-- step 5: the SRAM arrays of the die pass their test -/
  sramOk : List Bool
  /-- step 6: both HBM4 stacks of the die train -/
  hbmOk : List Bool
  /-- step 8: the Brory ports that train -/
  brory : List Nat
  /-- step 7: the driver interface registers reset -/
  regReset : Bool
  /-- the hub and compute-die images that the driver has written to flash since the last boot, if any (R373) -/
  flash : Option (List Byte × List Byte)
  /-- what was fused at manufacture: for the first cold boot of a package (log 3) -/
  made : Option Manufacture
  deriving DecidableEq, Repr

/-- An array of a core that holds state of launches (R379). -/
inductive CoreArray where
  | vrf
  | l1
  | stash
  | accStore
  | termBuf
  deriving DecidableEq, Repr

/-- Where an uncorrectable memory error fell (R379). -/
inductive ErrorSite where
  /-- an array of a core -/
  | coreArray (array : CoreArray) (die core : Nat)
  /-- tentative data of a sector, in the L2 or in the Cistern -/
  | tentative (sector : Nat)
  /-- committed data, in L2 or HBM, of the 4 KiB frame that holds a die-local offset, and the launch that met the error -/
  | frame (die off : Nat) (met : Option Nat)
  /-- the save image of a team -/
  | image (launch team : Nat)
  deriving DecidableEq, Repr

/-- What fails the copy of a replica that has its translations (R330). -/
inductive CopyError where
  | mismatch
  | uncorrectable
  deriving DecidableEq, Repr

/-- Every row of the opcode table. -/
inductive Instr where
  /-- RET (R191) -/
  | ret (a : Fin 64)
  /-- SRD (R200) -/
  | srd (d : Fin 64) (b : Fin 64)
  /-- SWR (R201) -/
  | swr (a : Fin 64) (b : Fin 64)
  /-- SLICEOF (R202) -/
  | sliceof (d : Fin 64) (a : Fin 64)
  /-- MDRD (R189) -/
  | mdrd (d : Fin 64)
  /-- MODEV (R188) -/
  | modev (a : Fin 64)
  /-- MODE (R187) -/
  | mode (i : BitVec 26)
  /-- TRAP (R197) -/
  | trap (c : BitVec 16)
  /-- RGN (R199) -/
  | rgn (t : BitVec 16)
  /-- BRA (R190) -/
  | bra (o : BitVec 26)
  /-- CALL (R190) -/
  | call (o : BitVec 26)
  /-- BSZ (R192) -/
  | bsz (c : Fin 64) (o : BitVec 20)
  /-- BSNZ (R192) -/
  | bsnz (c : Fin 64) (o : BitVec 20)
  /-- BKZ (R193) -/
  | bkz (c : Fin 16) (o : BitVec 20)
  /-- BKNZ (R193) -/
  | bknz (c : Fin 16) (o : BitVec 20)
  /-- BKALL (R193) -/
  | bkall (c : Fin 16) (o : BitVec 20)
  /-- SADD (R203) -/
  | sadd (d : Fin 64) (a : Fin 64) (b : Fin 64)
  /-- SSUB (R203) -/
  | ssub (d : Fin 64) (a : Fin 64) (b : Fin 64)
  /-- SMUL (R203) -/
  | smul (d : Fin 64) (a : Fin 64) (b : Fin 64)
  /-- SMULHI (R203) -/
  | smulhi (d : Fin 64) (a : Fin 64) (b : Fin 64)
  /-- SMULHN (R203) -/
  | smulhn (d : Fin 64) (a : Fin 64) (b : Fin 64)
  /-- SAND (R203) -/
  | sand (d : Fin 64) (a : Fin 64) (b : Fin 64)
  /-- SOR (R203) -/
  | sor (d : Fin 64) (a : Fin 64) (b : Fin 64)
  /-- SXOR (R203) -/
  | sxor (d : Fin 64) (a : Fin 64) (b : Fin 64)
  /-- SANDN (R203) -/
  | sandn (d : Fin 64) (a : Fin 64) (b : Fin 64)
  /-- SSHL (R203) -/
  | sshl (d : Fin 64) (a : Fin 64) (b : Fin 64)
  /-- SSHR (R203) -/
  | sshr (d : Fin 64) (a : Fin 64) (b : Fin 64)
  /-- SSRA (R203) -/
  | ssra (d : Fin 64) (a : Fin 64) (b : Fin 64)
  /-- SMIN (R203) -/
  | smin (d : Fin 64) (a : Fin 64) (b : Fin 64)
  /-- SMAX (R203) -/
  | smax (d : Fin 64) (a : Fin 64) (b : Fin 64)
  /-- SMINN (R203) -/
  | sminn (d : Fin 64) (a : Fin 64) (b : Fin 64)
  /-- SMAXN (R203) -/
  | smaxn (d : Fin 64) (a : Fin 64) (b : Fin 64)
  /-- SSEQ (R203) -/
  | sseq (d : Fin 64) (a : Fin 64) (b : Fin 64)
  /-- SSLT (R203) -/
  | sslt (d : Fin 64) (a : Fin 64) (b : Fin 64)
  /-- SSLTN (R203) -/
  | ssltn (d : Fin 64) (a : Fin 64) (b : Fin 64)
  /-- SPOP (R203) -/
  | spop (d : Fin 64) (a : Fin 64)
  /-- SCLZ (R203) -/
  | sclz (d : Fin 64) (a : Fin 64)
  /-- SCTZ (R203) -/
  | sctz (d : Fin 64) (a : Fin 64)
  /-- SMOV (R203) -/
  | smov (d : Fin 64) (a : Fin 64)
  /-- SMOVL (R205) -/
  | smovl (d : Fin 64) (lit : BitVec 32)
  /-- SMOVL_SIGNED (R205) -/
  | smovlSigned (d : Fin 64) (lit : BitVec 32)
  /-- SMOVL_HIGH (R205) -/
  | smovlHigh (d : Fin 64) (a : Fin 64) (lit : BitVec 32)
  /-- SSHLI (R203) -/
  | sshli (d : Fin 64) (a : Fin 64) (n : Fin 64)
  /-- SSHRI (R203) -/
  | sshri (d : Fin 64) (a : Fin 64) (n : Fin 64)
  /-- SSRAI (R203) -/
  | ssrai (d : Fin 64) (a : Fin 64) (n : Fin 64)
  /-- SBFX (R204) -/
  | sbfx (d : Fin 64) (w : Fin 64) (p : Fin 64)
  /-- SADDI (R206) -/
  | saddi (d : Fin 64) (a : Fin 64) (i : BitVec 14)
  /-- SANDI (R206) -/
  | sandi (d : Fin 64) (a : Fin 64) (i : BitVec 14)
  /-- SORI (R206) -/
  | sori (d : Fin 64) (a : Fin 64) (i : BitVec 14)
  /-- SXORI (R206) -/
  | sxori (d : Fin 64) (a : Fin 64) (i : BitVec 14)
  /-- SSLTI (R206) -/
  | sslti (d : Fin 64) (a : Fin 64) (i : BitVec 14)
  /-- KAND (R207) -/
  | kand (d : Fin 16) (a : Fin 16) (b : Fin 16)
  /-- KOR (R207) -/
  | kor (d : Fin 16) (a : Fin 16) (b : Fin 16)
  /-- KXOR (R207) -/
  | kxor (d : Fin 16) (a : Fin 16) (b : Fin 16)
  /-- KANDN (R207) -/
  | kandn (d : Fin 16) (a : Fin 16) (b : Fin 16)
  /-- KNOT (R207) -/
  | knot (d : Fin 16) (a : Fin 16)
  /-- KMOV (R207) -/
  | kmov (d : Fin 16) (a : Fin 16)
  /-- KPOP (R207) -/
  | kpop (d : Fin 64) (a : Fin 16)
  /-- KFIRST (R207) -/
  | kfirst (d : Fin 64) (a : Fin 16)
  /-- KTOS (R207) -/
  | ktos (d : Fin 64) (a : Fin 16) (b : Fin 64)
  /-- KFROMS (R207) -/
  | kfroms (d : Fin 16) (a : Fin 64) (b : Fin 64)
  /-- KCLR (R207) -/
  | kclr (d : Fin 16)
  /-- KLIVE (R207) -/
  | klive (d : Fin 16)
  /-- KLD (R208) -/
  | kld (d : Fin 16) (a : Fin 64) (b : Fin 64) (l : Fin 16)
  /-- KST (R208) -/
  | kst (d : Fin 16) (a : Fin 64) (b : Fin 64) (l : Fin 16)
  /-- VADD (R213) -/
  | vadd (d : Fin 64) (a : Fin 64) (b : Fin 64)
  /-- VSUB (R213) -/
  | vsub (d : Fin 64) (a : Fin 64) (b : Fin 64)
  /-- VMUL (R213) -/
  | vmul (d : Fin 64) (a : Fin 64) (b : Fin 64)
  /-- VMULH (R213) -/
  | vmulh (d : Fin 64) (a : Fin 64) (b : Fin 64)
  /-- VAND (R213) -/
  | vand (d : Fin 64) (a : Fin 64) (b : Fin 64)
  /-- VOR (R213) -/
  | vor (d : Fin 64) (a : Fin 64) (b : Fin 64)
  /-- VXOR (R213) -/
  | vxor (d : Fin 64) (a : Fin 64) (b : Fin 64)
  /-- VANDN (R213) -/
  | vandn (d : Fin 64) (a : Fin 64) (b : Fin 64)
  /-- VSHL (R213) -/
  | vshl (d : Fin 64) (a : Fin 64) (b : Fin 64)
  /-- VSHR (R213) -/
  | vshr (d : Fin 64) (a : Fin 64) (b : Fin 64)
  /-- VSRA (R213) -/
  | vsra (d : Fin 64) (a : Fin 64) (b : Fin 64)
  /-- VMIN (R213) -/
  | vmin (d : Fin 64) (a : Fin 64) (b : Fin 64)
  /-- VMAX (R213) -/
  | vmax (d : Fin 64) (a : Fin 64) (b : Fin 64)
  /-- VABS (R213) -/
  | vabs (d : Fin 64) (a : Fin 64)
  /-- VNEG (R213) -/
  | vneg (d : Fin 64) (a : Fin 64)
  /-- VPOPC (R213) -/
  | vpopc (d : Fin 64) (a : Fin 64)
  /-- VCLZ (R213) -/
  | vclz (d : Fin 64) (a : Fin 64)
  /-- VMOV (R213) -/
  | vmov (d : Fin 64) (a : Fin 64)
  /-- VMOVS (R214) -/
  | vmovs (d : Fin 64) (a : Fin 64)
  /-- VIOTA (R213) -/
  | viota (d : Fin 64)
  /-- VSEL (R213) -/
  | vsel (d : Fin 64) (a : Fin 64) (b : Fin 16)
  /-- VCEQ (R215) -/
  | vceq (d : Fin 16) (a : Fin 64) (b : Fin 64)
  /-- VCNE (R215) -/
  | vcne (d : Fin 16) (a : Fin 64) (b : Fin 64)
  /-- VCLT (R215) -/
  | vclt (d : Fin 16) (a : Fin 64) (b : Fin 64)
  /-- VCLE (R215) -/
  | vcle (d : Fin 16) (a : Fin 64) (b : Fin 64)
  /-- VADDS (R213) -/
  | vadds (d : Fin 64) (a : Fin 64) (b : Fin 64)
  /-- VMULS (R213) -/
  | vmuls (d : Fin 64) (a : Fin 64) (b : Fin 64)
  /-- VADDI (R216) -/
  | vaddi (d : Fin 64) (a : Fin 64) (i : BitVec 14)
  /-- VMAD (R217) -/
  | vmad (d : Fin 64) (a : Fin 64) (b : Fin 64) (c : Fin 64)
  /-- VMSB (R217) -/
  | vmsb (d : Fin 64) (a : Fin 64) (b : Fin 64) (c : Fin 64)
  /-- VBFX (R217) -/
  | vbfx (d : Fin 64) (a : Fin 64) (b : Fin 64) (c : Fin 64)
  /-- VBFI (R217) -/
  | vbfi (d : Fin 64) (a : Fin 64) (b : Fin 64) (c : Fin 64)
  /-- VFADD (R218) -/
  | vfadd (d : Fin 64) (a : Fin 64) (b : Fin 64)
  /-- VFSUB (R218) -/
  | vfsub (d : Fin 64) (a : Fin 64) (b : Fin 64)
  /-- VFMUL (R218) -/
  | vfmul (d : Fin 64) (a : Fin 64) (b : Fin 64)
  /-- VFMIN (R218) -/
  | vfmin (d : Fin 64) (a : Fin 64) (b : Fin 64)
  /-- VFMAX (R218) -/
  | vfmax (d : Fin 64) (a : Fin 64) (b : Fin 64)
  /-- VFABS (R218) -/
  | vfabs (d : Fin 64) (a : Fin 64)
  /-- VFNEG (R218) -/
  | vfneg (d : Fin 64) (a : Fin 64)
  /-- VFCEQ (R219) -/
  | vfceq (d : Fin 16) (a : Fin 64) (b : Fin 64)
  /-- VFCLT (R219) -/
  | vfclt (d : Fin 16) (a : Fin 64) (b : Fin 64)
  /-- VFCLE (R219) -/
  | vfcle (d : Fin 16) (a : Fin 64) (b : Fin 64)
  /-- VFCUN (R219) -/
  | vfcun (d : Fin 16) (a : Fin 64) (b : Fin 64)
  /-- VFCLASS (R220) -/
  | vfclass (d : Fin 64) (a : Fin 64)
  /-- VCVT (R71) -/
  | vcvt (d : Fin 64) (a : Fin 64)
  /-- VPACK (R221) -/
  | vpack (d : Fin 64) (a : Fin 64)
  /-- VUNPK (R221) -/
  | vunpk (d : Fin 64) (a : Fin 64)
  /-- VFADDS (R218) -/
  | vfadds (d : Fin 64) (a : Fin 64) (b : Fin 64)
  /-- VFMULS (R218) -/
  | vfmuls (d : Fin 64) (a : Fin 64) (b : Fin 64)
  /-- VFMA (R222) -/
  | vfma (d : Fin 64) (a : Fin 64) (b : Fin 64) (c : Fin 64)
  /-- VFMS (R222) -/
  | vfms (d : Fin 64) (a : Fin 64) (b : Fin 64) (c : Fin 64)
  /-- VFNMA (R222) -/
  | vfnma (d : Fin 64) (a : Fin 64) (b : Fin 64) (c : Fin 64)
  /-- VFNMS (R222) -/
  | vfnms (d : Fin 64) (a : Fin 64) (b : Fin 64) (c : Fin 64)
  /-- VFDIV (R223) -/
  | vfdiv (d : Fin 64) (a : Fin 64) (b : Fin 64) (l : Fin 16)
  /-- VFSQRT (R223) -/
  | vfsqrt (d : Fin 64) (a : Fin 64) (l : Fin 16)
  /-- VFRCP (R223) -/
  | vfrcp (d : Fin 64) (a : Fin 64) (l : Fin 16)
  /-- VFRSQ (R223) -/
  | vfrsq (d : Fin 64) (a : Fin 64) (l : Fin 16)
  /-- VFEXP2 (R223) -/
  | vfexp2 (d : Fin 64) (a : Fin 64) (l : Fin 16)
  /-- VFLOG2 (R223) -/
  | vflog2 (d : Fin 64) (a : Fin 64) (l : Fin 16)
  /-- VFSINPI (R223) -/
  | vfsinpi (d : Fin 64) (a : Fin 64) (l : Fin 16)
  /-- VFCOSPI (R223) -/
  | vfcospi (d : Fin 64) (a : Fin 64) (l : Fin 16)
  /-- VFTANH (R223) -/
  | vftanh (d : Fin 64) (a : Fin 64) (l : Fin 16)
  /-- VPERM (R225) -/
  | vperm (d : Fin 64) (a : Fin 64) (b : Fin 64) (l : Fin 16)
  /-- VSHUP (R225) -/
  | vshup (d : Fin 64) (a : Fin 64) (b : Fin 64) (l : Fin 16)
  /-- VSHDN (R225) -/
  | vshdn (d : Fin 64) (a : Fin 64) (b : Fin 64) (l : Fin 16)
  /-- VSHX (R225) -/
  | vshx (d : Fin 64) (a : Fin 64) (b : Fin 64) (l : Fin 16)
  /-- VBCAST (R225) -/
  | vbcast (d : Fin 64) (a : Fin 64) (l : Fin 16)
  /-- VSCAN (R226) -/
  | vscan (d : Fin 64) (a : Fin 64) (o : Fin 6) (l : Fin 16)
  /-- VSCANX (R226) -/
  | vscanx (d : Fin 64) (a : Fin 64) (o : Fin 6) (l : Fin 16)
  /-- VRED (R226) -/
  | vred (d : Fin 64) (a : Fin 64) (o : Fin 6) (l : Fin 16)
  /-- VCMPR (R227) -/
  | vcmpr (d : Fin 64) (a : Fin 64) (l : Fin 16)
  /-- LBAL (R228) -/
  | lbal (d : Fin 64) (a : Fin 64) (b : Fin 64) (l : Fin 16)
  /-- LDS (R233) -/
  | lds (d : Fin 64) (a : Fin 64) (b : Fin 64) (c : Bool) (e : Bool) (z : Fin 4) (l : Fin 16)
  /-- STS (R233) -/
  | sts (d : Fin 64) (a : Fin 64) (b : Fin 64) (c : Bool) (z : Fin 4) (l : Fin 16)
  /-- LDG (R233) -/
  | ldg (d : Fin 64) (a : Fin 64) (b : Fin 64) (n : Bool) (e : Bool) (z : Fin 4) (l : Fin 16)
  /-- STG (R233) -/
  | stg (d : Fin 64) (a : Fin 64) (b : Fin 64) (n : Bool) (z : Fin 4) (l : Fin 16)
  /-- LDSC (R235) -/
  | ldsc (d : Fin 64) (a : Fin 64) (b : Fin 64) (s : Fin 4) (z : Fin 4) (l : Fin 16)
  /-- STSC (R235) -/
  | stsc (d : Fin 64) (a : Fin 64) (b : Fin 64) (s : Fin 4) (z : Fin 4) (l : Fin 16)
  /-- LDGS (R236) -/
  | ldgs (d : Fin 64) (a : Fin 64) (b : Fin 64) (z : Fin 4) (l : Fin 16)
  /-- STMAP (R238) -/
  | stmap (a : Fin 64) (n : Fin 64)
  /-- STUNMAP (R239) -/
  | stunmap (n : Fin 64)
  /-- STFLUSH (R239) -/
  | stflush (n : Fin 64)
  /-- STINV (R239) -/
  | stinv (n : Fin 64)
  /-- PREF (R240) -/
  | pref (a : Fin 64) (b : Fin 64)
  /-- STQRY (R241) -/
  | stqry (d : Fin 64) (n : Fin 64)
  /-- ATOM_ADD (R244) -/
  | atomAdd (d : Fin 64) (a : Fin 64) (b : Fin 64) (l : Fin 16)
  /-- ATOM_MIN (R244) -/
  | atomMin (d : Fin 64) (a : Fin 64) (b : Fin 64) (l : Fin 16)
  /-- ATOM_MAX (R244) -/
  | atomMax (d : Fin 64) (a : Fin 64) (b : Fin 64) (l : Fin 16)
  /-- ATOM_MINN (R244) -/
  | atomMinn (d : Fin 64) (a : Fin 64) (b : Fin 64) (l : Fin 16)
  /-- ATOM_MAXN (R244) -/
  | atomMaxn (d : Fin 64) (a : Fin 64) (b : Fin 64) (l : Fin 16)
  /-- ATOM_AND (R244) -/
  | atomAnd (d : Fin 64) (a : Fin 64) (b : Fin 64) (l : Fin 16)
  /-- ATOM_OR (R244) -/
  | atomOr (d : Fin 64) (a : Fin 64) (b : Fin 64) (l : Fin 16)
  /-- ATOM_XOR (R244) -/
  | atomXor (d : Fin 64) (a : Fin 64) (b : Fin 64) (l : Fin 16)
  /-- ATOM_EXCH (R244) -/
  | atomExch (d : Fin 64) (a : Fin 64) (b : Fin 64) (l : Fin 16)
  /-- ATOM_CAS (R244) -/
  | atomCas (d : Fin 64) (a : Fin 64) (b : Fin 64) (l : Fin 16)
  /-- ATOM_INCW (R244) -/
  | atomIncw (d : Fin 64) (a : Fin 64) (b : Fin 64) (l : Fin 16)
  /-- ATOM_ADDB (R244) -/
  | atomAddb (d : Fin 64) (a : Fin 64) (b : Fin 64) (l : Fin 16)
  /-- ATOM_EXCHQ (R245) -/
  | atomExchq (d : Fin 64) (a : Fin 64) (b : Fin 64) (l : Fin 16)
  /-- RED_ADD (R246) -/
  | redAdd (d : Fin 64) (a : Fin 64) (b : Fin 64) (l : Fin 16)
  /-- RED_MIN (R246) -/
  | redMin (d : Fin 64) (a : Fin 64) (b : Fin 64) (l : Fin 16)
  /-- RED_MAX (R246) -/
  | redMax (d : Fin 64) (a : Fin 64) (b : Fin 64) (l : Fin 16)
  /-- RED_MINN (R246) -/
  | redMinn (d : Fin 64) (a : Fin 64) (b : Fin 64) (l : Fin 16)
  /-- RED_MAXN (R246) -/
  | redMaxn (d : Fin 64) (a : Fin 64) (b : Fin 64) (l : Fin 16)
  /-- RED_AND (R246) -/
  | redAnd (d : Fin 64) (a : Fin 64) (b : Fin 64) (l : Fin 16)
  /-- RED_OR (R246) -/
  | redOr (d : Fin 64) (a : Fin 64) (b : Fin 64) (l : Fin 16)
  /-- RED_XOR (R246) -/
  | redXor (d : Fin 64) (a : Fin 64) (b : Fin 64) (l : Fin 16)
  /-- RED_FADD (R246) -/
  | redFadd (d : Fin 64) (a : Fin 64) (b : Fin 64) (l : Fin 16)
  /-- RED_FMIN (R246) -/
  | redFmin (d : Fin 64) (a : Fin 64) (b : Fin 64) (l : Fin 16)
  /-- RED_FMAX (R246) -/
  | redFmax (d : Fin 64) (a : Fin 64) (b : Fin 64) (l : Fin 16)
  /-- XEND (R248) -/
  | xend (d : Fin 16) (a : Fin 64)
  /-- FENCE_ACQ (R119) -/
  | fenceAcq (s : Fin 6)
  /-- FENCE_REL (R119) -/
  | fenceRel (s : Fin 6)
  /-- FENCE_FULL (R119) -/
  | fenceFull (s : Fin 6)
  /-- WAITC (R251) -/
  | waitc (a : Fin 64) (p : Fin 6)
  /-- BINIT (R252) -/
  | binit (a : Fin 64) (b : Fin 64)
  /-- BARV (R253) -/
  | barv (a : Fin 64)
  /-- BARC (R253) -/
  | barc (a : Fin 64) (p : Fin 6)
  /-- BWAIT (R254) -/
  | bwait (a : Fin 64) (b : Fin 64)
  /-- MZERO (R272) -/
  | mzero (d : Fin 4) (l : Fin 16)
  /-- MMA (R273) -/
  | mma (d : Fin 4) (a : Fin 64) (b : Fin 64) (l : Fin 16)
  /-- MSPLIT (R279) -/
  | msplit (d : Fin 4) (a : Fin 64) (l : Fin 16)
  /-- MMAS (R281) -/
  | mmas (d : Fin 4) (a : Fin 4) (b : Fin 64) (l : Fin 16)
  /-- MDRAIN (R275) -/
  | mdrain (d : Fin 64) (a : Fin 4) (b : Fin 64) (l : Fin 16)
  /-- MXPORT (R276) -/
  | mxport (d : Fin 4) (a : Fin 64) (b : Fin 64) (l : Fin 16)
  /-- MXLOAD (R276) -/
  | mxload (d : Fin 4) (a : Fin 64) (b : Fin 64) (l : Fin 16)
  /-- MSTAT (R277) -/
  | mstat (d : Fin 64) (a : Fin 4) (l : Fin 16)
  /-- VPOP (R286) -/
  | vpop (d : Fin 64) (a : Fin 4)
  /-- QSTAT (R287) -/
  | qstat (d : Fin 64) (a : Fin 4)
  /-- ASTR (R283) -/
  | astr (d : Fin 4) (a : Fin 64)
  /-- AQWAIT (R285) -/
  | aqwait (d : Fin 4)
  /-- HDEF (R289) -/
  | hdef (h : Fin 16) (a : Fin 64) (l : Fin 16)
  /-- FETCH (R290) -/
  | fetch (d : Fin 64) (h : Fin 16) (b : Fin 64) (l : Fin 16)
  /-- EPOOL (R291) -/
  | epool (d : Fin 64) (h : Fin 16) (b : Fin 64) (l : Fin 16)
  /-- ROUTE (R293) -/
  | route (d : Fin 64) (a : Fin 64) (b : Fin 64) (l : Fin 16)
  /-- ILLEGAL_INSTRUCTION (R162) -/
  | illegalInstruction (opcode : Bool)
  /-- COPY (R259) -/
  | copy (cmd : Nat) (parts : List Nat)
  /-- FILL (R259) -/
  | fill (cmd : Nat) (parts : List Nat)
  /-- FWARM (R260) -/
  | fwarm (cmd : Nat)
  /-- CRED (R261) -/
  | cred (cmd : Nat) (parts : List Nat)
  /-- CBCAST (R261) -/
  | cbcast (cmd : Nat) (parts : List Nat)
  /-- MERGE (R262) -/
  | merge (cmd : Nat) (parts : List Nat)
  /-- STREAM_ENTRY_APPEND (R283) -/
  | streamEntryAppend (die core slot : Nat) (q : Fin 4)
  /-- LOAD_COMPLETE (R172) -/
  | loadComplete (op : Nat) (lanes : List Nat)
  /-- STORE_PERFORMED (R117) -/
  | storePerformed (op : Nat) (lanes : List Nat) (dieOnly : Bool)
  /-- WINDOW_FILL (R105) -/
  | windowFill (op : Nat)
  /-- STASH_COPY_COMPLETE (R236) -/
  | stashCopyComplete (op : Nat) (lanes : List Nat)
  /-- OWNERSHIP_GRANT (R106) -/
  | ownershipGrant (op sector : Nat)
  /-- ATOM_PERFORMED (R127) -/
  | atomPerformed (op : Nat) (lanes : List Nat)
  /-- RED_MERGE (R93) -/
  | redMerge (op : Nat) (lanes : List Nat)
  /-- REGION_VALIDATION (R130) -/
  | regionValidation (op : Nat) (lanes : List Nat)
  /-- BARRIER_ARRIVAL (R124) -/
  | barrierArrival (arrival : Nat)
  /-- CLUSTER_ARRIVAL (R125) -/
  | clusterArrival (die core slot : Nat)
  /-- FENCE_COMPLETE (R120) -/
  | fenceComplete (die core slot : Nat) (kind : Fin 3)
  /-- TEAM_WAKE (R49) -/
  | teamWake (die core slot : Nat)
  /-- ACTIVE_ENTRY (R49) -/
  | activeEntry (die core : Nat)
  /-- ROTATION (R50) -/
  | rotation (die core slot : Nat)
  /-- TEAM_PLACEMENT (R34) -/
  | teamPlacement (launch cluster col row : Nat)
  /-- DRAINING_EXIT (R43) -/
  | drainingExit (die core slot : Nat)
  /-- DONE (R150) -/
  | doneReport (launch die : Nat)
  /-- PREPARE (R150) -/
  | prepare (launch die : Nat)
  /-- READY (R150) -/
  | ready (launch : Nat)
  /-- COMMIT (R143) -/
  | commit (launch die : Nat)
  /-- COMMIT_ACK (R150); `bad` names the replicas (domain, entry, die, slot) whose refresh fails its compare four times (R333) -/
  | commitAck (launch : Nat) (bad : List (Nat × Nat × Nat × Nat))
  /-- WINDOW_END (R327); `occupied` is the hub's measure of each die's occupancy (R329) -/
  | windowEnd (domain : Nat) (occupied : List Nat)
  /-- REPLICA_COPY_DONE (R330); `err` is what fails a copy that has its translations -/
  | replicaCopyDone (domain copyIx : Nat) (err : Option CopyError)
  /-- VERSION_PUBLISH (R330) -/
  | versionPublish (domain : Nat)
  /-- ABORT (R151) -/
  | abort (launch die : Nat)
  /-- ABORT_ACK (R153) -/
  | abortAck (launch : Nat)
  /-- LAUNCH (R361) -/
  | launch (queue : Nat)
  /-- RELEASE_STREAM (R360) -/
  | releaseStream (queue : Nat)
  /-- KILL (R360) -/
  | kill (queue : Nat)
  /-- QUEUE_NOP (R360) -/
  | queueNop (queue : Nat)
  /-- LAUNCH_ADMISSION (R138) -/
  | launchAdmission (launch : Nat) (lv : BitVec 16)
  /-- CONTEXT_SAVE (R306) -/
  | contextSave (die core slot : Nat)
  /-- FLUSH_AND_RESTART (R307) -/
  | flushAndRestart (die core slot : Nat)
  /-- BACK_INVALIDATION_ACK (R150) -/
  | backInvalidationAck (launch die : Nat)
  /-- REPLY_RESUME (R301) -/
  | replyResume (func : Nat)
  /-- REPLY_ABORT (R301) -/
  | replyAbort (func : Nat)
  /-- REPLY_SAVE (R302) -/
  | replySave (func : Nat)
  /-- REPLY_RESTORE (R302) -/
  | replyRestore (func : Nat)
  /-- CISTERN_EVICT (R155) -/
  | cisternEvict (sector : Nat)
  /-- CISTERN_COPYBACK (R143) -/
  | cisternCopyback (sector : Nat)
  /-- DOORBELL (R361) -/
  | doorbell (func lidx : Nat) (value : BitVec 32)
  /-- PREEMPTION (R304) -/
  | preemption (launch die : Nat)
  /-- TEAM_RESTORE (R312) -/
  | teamRestore (launch cluster col row : Nat)
  /-- KILL_BY_POLICY (R313) -/
  | killByPolicy (launch : Nat)
  /-- CORE_LOSS (R314) -/
  | coreLoss (die core : Nat)
  /-- REPLY_DOORBELL (R366) -/
  | replyDoorbell (func : Nat) (value : BitVec 32)
  /-- HOST_READ (R133) -/
  | hostRead (die off len : Nat)
  /-- HOST_WRITE (R133) -/
  | hostWrite (die off : Nat) (bytes : List (BitVec 8))
  /-- CONFIG_WRITE (R355) -/
  | configWrite (func bar off : Nat) (value : BitVec 64)
  /-- PERF_SELECT (R390) -/
  | perfSelect (counter : Fin 8) (value : BitVec 64)
  /-- QUEUE_ENABLE (R359) -/
  | queueEnable (queue : Nat) (value : BitVec 64)
  /-- FAULT_RING_ENABLE (R365) -/
  | faultRingEnable (func : Nat) (value : BitVec 64)
  /-- FAULT_RING_CONSUME (R365) -/
  | faultRingConsume (func : Nat) (value : BitVec 32)
  /-- REPLY_RING_ENABLE (R366) -/
  | replyRingEnable (func : Nat) (value : BitVec 64)
  /-- WINDLASS_DOMAIN_ENABLE (R367) -/
  | windlassDomainEnable (domain : Fin 16) (value : BitVec 64)
  /-- WINDLASS_DOMAIN_DISABLE (R367) -/
  | windlassDomainDisable (domain : Fin 16) (value : BitVec 64)
  /-- SVNUP (R373) -/
  | svnup (value : BitVec 64)
  /-- COLD_BOOT (R370) -/
  | coldBoot (input : BootInput)
  /-- WARM_RESET (R370) -/
  | warmReset (input : BootInput)
  /-- GET_VERSION (R376) -/
  | getVersion
  /-- GET_CAPABILITIES (R376) -/
  | getCapabilities
  /-- NEGOTIATE_ALGORITHMS (R376) -/
  | negotiateAlgorithms (p521 sha512 : Bool)
  /-- GET_DIGESTS (R376) -/
  | getDigests
  /-- GET_CERTIFICATE (R376) -/
  | getCertificate (certSlot : Nat)
  /-- CHALLENGE (R376) -/
  | challenge (certSlot : Nat)
  /-- GET_MEASUREMENTS (R376) -/
  | getMeasurements (req : MeasRequest)
  /-- KEY_EXCHANGE (R376) -/
  | keyExchange (certSlot : Nat)
  /-- FINISH (R376) -/
  | finish (msg : SecuredMsg)
  /-- END_SESSION (R376) -/
  | endSession (msg : SecuredMsg)
  /-- SPDM_UNSUPPORTED (R376) -/
  | spdmUnsupported (code : BitVec 8)
  /-- SUPPLY_VOLTAGE_EVENT (R377) -/
  | supplyVoltageEvent
  /-- CLOCK_FREQUENCY_EVENT (R377) -/
  | clockFrequencyEvent
  /-- TEMPERATURE_SHUTDOWN_EVENT (R377) -/
  | temperatureShutdownEvent (die : Nat)
  /-- SECURITY_CONTROLLER_FAULT (R377) -/
  | securityControllerFault
  /-- UNCORRECTABLE_ERROR (R379) -/
  | uncorrectableError (site : ErrorSite)
  /-- CORRECTED_ERROR (R379) -/
  | correctedError (die : Nat)
  /-- HUB_LINK_FAILURE (R385) -/
  | hubLinkFailure (die : Nat)
  /-- RING_LINK_FAILURE (R385) -/
  | ringLinkFailure (die : Nat)
  /-- TELEMETRY_REFRESH (R382) -/
  | telemetryRefresh (die : Fin 8) (pwr temp : BitVec 16) (throttled : Nat)
  /-- POWER_LOAN (R384) -/
  | powerLoan (lender borrower units : Nat)
  /-- LOAN_REPAY (R384) -/
  | loanRepay (loan units : Nat)
  /-- LOAN_RENEW (R384) -/
  | loanRenew (loan : Nat)
  /-- LOAN_EXPIRY (R384) -/
  | loanExpiry (loan : Nat)
  /-- CISTERN_LAZY_RECLAIM (R151) -/
  | cisternLazyReclaim (lv : BitVec 16)
  /-- READ_MARK_CLEAR (R147) -/
  | readMarkClear (sector : Nat)
  /-- LINK_RECOVERY (R385) -/
  | linkRecovery (hubLink : Bool) (die : Nat)
  /-- HUB_LOSS (R386) -/
  | hubLoss
  /-- BRORY_PORT_LOSS (R387) -/
  | broryPortLoss (loss : PortLoss)
  /-- BRORY_PEER_ACCESS (R110) -/
  | broryPeerAccess (write : Bool) (die off len : Nat) (bytes : List (BitVec 8))
  /-- NOP (R186) -/
  | nop
  /-- BRK (R196) -/
  | brk
  /-- END (R194) -/
  | endCtx
  /-- EXIT (R195) -/
  | exitLanes
  /-- XBEGIN (R247) -/
  | xbegin
  /-- XABORT (R249) -/
  | xabort
  /-- CBARA (R255) -/
  | cbara
  /-- CBARW (R255) -/
  | cbarw
  deriving DecidableEq, Repr

/-- Whether a row of the table is an event rather than an instruction word (spec 95). -/
def Instr.isEvent : Instr → Bool
  | .nop => false
  | .brk => false
  | .endCtx => false
  | .exitLanes => false
  | .ret _ => false
  | .srd _ _ => false
  | .swr _ _ => false
  | .sliceof _ _ => false
  | .mdrd _ => false
  | .modev _ => false
  | .mode _ => false
  | .trap _ => false
  | .rgn _ => false
  | .bra _ => false
  | .call _ => false
  | .bsz _ _ => false
  | .bsnz _ _ => false
  | .bkz _ _ => false
  | .bknz _ _ => false
  | .bkall _ _ => false
  | .sadd _ _ _ => false
  | .ssub _ _ _ => false
  | .smul _ _ _ => false
  | .smulhi _ _ _ => false
  | .smulhn _ _ _ => false
  | .sand _ _ _ => false
  | .sor _ _ _ => false
  | .sxor _ _ _ => false
  | .sandn _ _ _ => false
  | .sshl _ _ _ => false
  | .sshr _ _ _ => false
  | .ssra _ _ _ => false
  | .smin _ _ _ => false
  | .smax _ _ _ => false
  | .sminn _ _ _ => false
  | .smaxn _ _ _ => false
  | .sseq _ _ _ => false
  | .sslt _ _ _ => false
  | .ssltn _ _ _ => false
  | .spop _ _ => false
  | .sclz _ _ => false
  | .sctz _ _ => false
  | .smov _ _ => false
  | .smovl _ _ => false
  | .smovlSigned _ _ => false
  | .smovlHigh _ _ _ => false
  | .sshli _ _ _ => false
  | .sshri _ _ _ => false
  | .ssrai _ _ _ => false
  | .sbfx _ _ _ => false
  | .saddi _ _ _ => false
  | .sandi _ _ _ => false
  | .sori _ _ _ => false
  | .sxori _ _ _ => false
  | .sslti _ _ _ => false
  | .kand _ _ _ => false
  | .kor _ _ _ => false
  | .kxor _ _ _ => false
  | .kandn _ _ _ => false
  | .knot _ _ => false
  | .kmov _ _ => false
  | .kpop _ _ => false
  | .kfirst _ _ => false
  | .ktos _ _ _ => false
  | .kfroms _ _ _ => false
  | .kclr _ => false
  | .klive _ => false
  | .kld _ _ _ _ => false
  | .kst _ _ _ _ => false
  | .vadd _ _ _ => false
  | .vsub _ _ _ => false
  | .vmul _ _ _ => false
  | .vmulh _ _ _ => false
  | .vand _ _ _ => false
  | .vor _ _ _ => false
  | .vxor _ _ _ => false
  | .vandn _ _ _ => false
  | .vshl _ _ _ => false
  | .vshr _ _ _ => false
  | .vsra _ _ _ => false
  | .vmin _ _ _ => false
  | .vmax _ _ _ => false
  | .vabs _ _ => false
  | .vneg _ _ => false
  | .vpopc _ _ => false
  | .vclz _ _ => false
  | .vmov _ _ => false
  | .vmovs _ _ => false
  | .viota _ => false
  | .vsel _ _ _ => false
  | .vceq _ _ _ => false
  | .vcne _ _ _ => false
  | .vclt _ _ _ => false
  | .vcle _ _ _ => false
  | .vadds _ _ _ => false
  | .vmuls _ _ _ => false
  | .vaddi _ _ _ => false
  | .vmad _ _ _ _ => false
  | .vmsb _ _ _ _ => false
  | .vbfx _ _ _ _ => false
  | .vbfi _ _ _ _ => false
  | .vfadd _ _ _ => false
  | .vfsub _ _ _ => false
  | .vfmul _ _ _ => false
  | .vfmin _ _ _ => false
  | .vfmax _ _ _ => false
  | .vfabs _ _ => false
  | .vfneg _ _ => false
  | .vfceq _ _ _ => false
  | .vfclt _ _ _ => false
  | .vfcle _ _ _ => false
  | .vfcun _ _ _ => false
  | .vfclass _ _ => false
  | .vcvt _ _ => false
  | .vpack _ _ => false
  | .vunpk _ _ => false
  | .vfadds _ _ _ => false
  | .vfmuls _ _ _ => false
  | .vfma _ _ _ _ => false
  | .vfms _ _ _ _ => false
  | .vfnma _ _ _ _ => false
  | .vfnms _ _ _ _ => false
  | .vfdiv _ _ _ _ => false
  | .vfsqrt _ _ _ => false
  | .vfrcp _ _ _ => false
  | .vfrsq _ _ _ => false
  | .vfexp2 _ _ _ => false
  | .vflog2 _ _ _ => false
  | .vfsinpi _ _ _ => false
  | .vfcospi _ _ _ => false
  | .vftanh _ _ _ => false
  | .vperm _ _ _ _ => false
  | .vshup _ _ _ _ => false
  | .vshdn _ _ _ _ => false
  | .vshx _ _ _ _ => false
  | .vbcast _ _ _ => false
  | .vscan _ _ _ _ => false
  | .vscanx _ _ _ _ => false
  | .vred _ _ _ _ => false
  | .vcmpr _ _ _ => false
  | .lbal _ _ _ _ => false
  | .lds _ _ _ _ _ _ _ => false
  | .sts _ _ _ _ _ _ => false
  | .ldg _ _ _ _ _ _ _ => false
  | .stg _ _ _ _ _ _ => false
  | .ldsc _ _ _ _ _ _ => false
  | .stsc _ _ _ _ _ _ => false
  | .ldgs _ _ _ _ _ => false
  | .stmap _ _ => false
  | .stunmap _ => false
  | .stflush _ => false
  | .stinv _ => false
  | .pref _ _ => false
  | .stqry _ _ => false
  | .atomAdd _ _ _ _ => false
  | .atomMin _ _ _ _ => false
  | .atomMax _ _ _ _ => false
  | .atomMinn _ _ _ _ => false
  | .atomMaxn _ _ _ _ => false
  | .atomAnd _ _ _ _ => false
  | .atomOr _ _ _ _ => false
  | .atomXor _ _ _ _ => false
  | .atomExch _ _ _ _ => false
  | .atomCas _ _ _ _ => false
  | .atomIncw _ _ _ _ => false
  | .atomAddb _ _ _ _ => false
  | .atomExchq _ _ _ _ => false
  | .redAdd _ _ _ _ => false
  | .redMin _ _ _ _ => false
  | .redMax _ _ _ _ => false
  | .redMinn _ _ _ _ => false
  | .redMaxn _ _ _ _ => false
  | .redAnd _ _ _ _ => false
  | .redOr _ _ _ _ => false
  | .redXor _ _ _ _ => false
  | .redFadd _ _ _ _ => false
  | .redFmin _ _ _ _ => false
  | .redFmax _ _ _ _ => false
  | .xbegin => false
  | .xend _ _ => false
  | .xabort => false
  | .fenceAcq _ => false
  | .fenceRel _ => false
  | .fenceFull _ => false
  | .waitc _ _ => false
  | .binit _ _ => false
  | .barv _ => false
  | .barc _ _ => false
  | .bwait _ _ => false
  | .cbara => false
  | .cbarw => false
  | .mzero _ _ => false
  | .mma _ _ _ _ => false
  | .msplit _ _ _ => false
  | .mmas _ _ _ _ => false
  | .mdrain _ _ _ _ => false
  | .mxport _ _ _ _ => false
  | .mxload _ _ _ _ => false
  | .mstat _ _ _ => false
  | .vpop _ _ => false
  | .qstat _ _ => false
  | .astr _ _ => false
  | .aqwait _ => false
  | .hdef _ _ _ => false
  | .fetch _ _ _ _ => false
  | .epool _ _ _ _ => false
  | .route _ _ _ _ => false
  | .illegalInstruction _ => true
  | .copy _ _ => true
  | .fill _ _ => true
  | .fwarm _ => true
  | .cred _ _ => true
  | .cbcast _ _ => true
  | .merge _ _ => true
  | .streamEntryAppend _ _ _ _ => true
  | .loadComplete _ _ => true
  | .storePerformed _ _ _ => true
  | .windowFill _ => true
  | .stashCopyComplete _ _ => true
  | .ownershipGrant _ _ => true
  | .atomPerformed _ _ => true
  | .redMerge _ _ => true
  | .regionValidation _ _ => true
  | .barrierArrival _ => true
  | .clusterArrival _ _ _ => true
  | .fenceComplete _ _ _ _ => true
  | .teamWake _ _ _ => true
  | .activeEntry _ _ => true
  | .rotation _ _ _ => true
  | .cisternEvict _ => true
  | .cisternCopyback _ => true
  | .teamPlacement _ _ _ _ => true
  | .drainingExit _ _ _ => true
  | .doneReport _ _ => true
  | .prepare _ _ => true
  | .ready _ => true
  | .commit _ _ => true
  | .commitAck _ _ => true
  | .windowEnd _ _ => true
  | .replicaCopyDone _ _ _ => true
  | .versionPublish _ => true
  | .abort _ _ => true
  | .abortAck _ => true
  | .doorbell _ _ _ => true
  | .launch _ => true
  | .releaseStream _ => true
  | .kill _ => true
  | .queueNop _ => true
  | .launchAdmission _ _ => true
  | .preemption _ _ => true
  | .contextSave _ _ _ => true
  | .flushAndRestart _ _ _ => true
  | .teamRestore _ _ _ _ => true
  | .killByPolicy _ => true
  | .coreLoss _ _ => true
  | .replyDoorbell _ _ => true
  | .replyResume _ => true
  | .replyAbort _ => true
  | .replySave _ => true
  | .replyRestore _ => true
  | .hostRead _ _ _ => true
  | .hostWrite _ _ _ => true
  | .configWrite _ _ _ _ => true
  | .perfSelect _ _ => true
  | .queueEnable _ _ => true
  | .faultRingEnable _ _ => true
  | .faultRingConsume _ _ => true
  | .replyRingEnable _ _ => true
  | .windlassDomainEnable _ _ => true
  | .windlassDomainDisable _ _ => true
  | .svnup _ => true
  | .coldBoot _ => true
  | .warmReset _ => true
  | .getVersion => true
  | .getCapabilities => true
  | .negotiateAlgorithms _ _ => true
  | .getDigests => true
  | .getCertificate _ => true
  | .challenge _ => true
  | .getMeasurements _ => true
  | .keyExchange _ => true
  | .finish _ => true
  | .endSession _ => true
  | .spdmUnsupported _ => true
  | .supplyVoltageEvent => true
  | .clockFrequencyEvent => true
  | .temperatureShutdownEvent _ => true
  | .securityControllerFault => true
  | .uncorrectableError _ => true
  | .correctedError _ => true
  | .hubLinkFailure _ => true
  | .ringLinkFailure _ => true
  | .telemetryRefresh _ _ _ _ => true
  | .powerLoan _ _ _ => true
  | .loanRepay _ _ => true
  | .loanRenew _ => true
  | .loanExpiry _ => true
  | .backInvalidationAck _ _ => true
  | .cisternLazyReclaim _ => true
  | .readMarkClear _ => true
  | .linkRecovery _ _ => true
  | .hubLoss => true
  | .broryPortLoss _ => true
  | .broryPeerAccess _ _ _ _ _ => true

end Sys2Proof
end

