-- ==== Sys2Proof/Machine/State.lean ====
section
/-! DEFINITION. Machine/State.lean: everything the manual gives the Larzor L8 to hold, as plain data, the reasons a step
can stop, and the machine right after reset. Identities and counts are numbers; what software sees as a word is a bit
vector. In-flight work of every unit is a list, oldest first. -/

namespace Sys2Proof.Machine

/-- Why the machine stops. -/
inductive Fault where
  /-- Raised by `step` once the hub is lost: a loss of the hub stops the whole package (R386). Safe: nothing follows. -/
  | hubLost
  deriving DecidableEq, Repr

/-- Why an instruction has no meaning here. -/
inductive Refusal where
  /-- Raised by a refused arm of `exec`: no meaning written yet. Safe. -/
  | notModelled (mnemonic : String)
  /-- Raised by the meaning of an instruction word when `State.cur` names no running context: no party executes it. Safe;
  `step` never raises it, since it issues only for a context that exists. -/
  | noContext
  deriving DecidableEq, Repr

/-! ### Names -/

/-- The three kinds of execution context (R12). -/
inductive CtxKind where
  | team
  | matrix
  | access
  deriving DecidableEq, Repr

/-- A team slot: die, logical core at placement, slot 0-15 (R48). -/
structure TeamRef where
  die : Nat
  core : Nat
  slot : Nat
  deriving DecidableEq, Repr

/-- One execution context. -/
structure CtxRef where
  ref : TeamRef
  kind : CtxKind
  deriving DecidableEq, Repr

/-- The fault codes of R174. -/
inductive FaultCode where
  | illegalOpcode
  | illegalEncoding
  | illegalRegister
  | illegalContext
  | illegalLookahead
  | misaligned
  | stashRange
  | pageNotPresent
  | pagePermission
  | accessTable
  | illegalMode
  | engineCommand
  | matrixShape
  | barrierMisuse
  | queueMisuse
  | trap
  | brk
  deriving DecidableEq, Repr

/-- The six in-flight paths (R172). -/
inductive Path where
  | load
  | store
  | fill
  | engine
  | atom
  | red
  deriving DecidableEq, Repr

/-- The six scopes (R116). -/
inductive Scope where
  | team
  | core
  | cluster
  | die
  | device
  | system
  deriving DecidableEq, Repr

/-- The register names the lookahead check compares (R46). -/
inductive RegName where
  | s (n : Nat)
  | v (n : Nat)
  | k (n : Nat)
  | acc (n : Nat)
  | tb (n : Nat)
  deriving DecidableEq, Repr

/-- Memory: (flat address, byte) pairs, addresses strictly rising, no pair that holds 0, which an unlisted address reads as
(boot clears all HBM, R370; a stash allocation reads zero when placed, R86). -/
abbrev Memory := List Host.Cell

/-! ### One execution context (R14, R29) -/

/-- The window of a long-latency instruction (R45): the operation that writes its destinations, the instructions left, and
the names of its pending destinations. -/
structure Window where
  op : Nat
  left : Nat
  names : List RegName
  deriving DecidableEq, Repr

/-- Whether a context runs, is parked and on what, or has ended (R299, R309). -/
inductive RunState where
  | running
  | parkedFault
  | parkedTrap
  | parkedBrk
  | ended
  deriving DecidableEq, Repr

/-- What holds a context at issue until an event (R120, R248). -/
inductive Hold where
  /-- a fence: which orders it makes, its scope, and the first operation number it does not wait for -/
  | fence (acq rel : Bool) (scope : Scope) (upto : Nat)
  /-- an XEND whose decisions have not all returned -/
  | xend (op : Nat)
  deriving DecidableEq, Repr

/-- The scalar state of one context (R14). -/
structure Ctx where
  pc : Word
  isc : Word
  rgnpc : Word
  rgncnt : Word
  /-- the current region entry is implicit or the context's start (R295) -/
  impl : Bool
  /-- the tag of the current explicit region entry (R199) -/
  tag : BitVec 16
  md : BitVec 26
  fpfl : BitVec 6
  s : Vector Word 64
  run : RunState
  windows : List Window
  hold : Option Hold
  /-- an argument of an engine window stored since the context's last GO (R263) -/
  argPend : Bool
  deriving DecidableEq, Repr

/-! ### One team -/

/-- What a WAITING team waits for (R49). -/
inductive Wait where
  | boundary (op : Nat)
  | waitc (path : Path) (threshold : Nat)
  | bwait (owner : TeamRef) (off : Nat) (phase : Bool)
  | cbarw
  | vpop (q : Nat)
  | goFull (engine : Nat)
  deriving DecidableEq, Repr

/-- The states of an occupied slot (R48); a FREE slot holds no team. -/
inductive SlotState where
  | ready
  | active
  | waiting (w : Wait)
  | parked
  | draining
  deriving DecidableEq, Repr

/-- What the hub has decided for a team it pre-empts (R304): to let it run to its end, to save it, or to flush it. A save that a
reply asked for names, for the record's own team, the host buffer that receives the image (R302); a flush names the launch that
waits for the room (R305). -/
inductive Stop where
  | drain
  | save (byReply : Bool) (buffer : Option Word)
  | flush (waiter : Nat)
  deriving DecidableEq, Repr

/-- An element of the exact accumulator (R72). -/
structure Xa where
  v : BitVec 640
  pinf : Bool
  ninf : Bool
  nan : Bool
  deriving DecidableEq, Repr

/-- An accumulator tile of 64 × 64 elements, row by row: exact under the tag PLUS_TIMES, else 32-bit values under the
semiring code 1 to 5 (R82, R265). -/
inductive Tile where
  | exact (elems : List Xa)
  | semi (tag : Nat) (elems : List Lane)
  deriving DecidableEq, Repr

/-- A Siphon term buffer (R280, R311): the recorded shape and type, the tile with every dropped entry as +0 in the words of
an A fragment, and the MSTAT word. -/
structure TermBuf where
  valid : Bool
  typeA : Nat
  m : Nat
  k : Nat
  spat : Nat
  words : List Lane
  stat : Word
  deriving DecidableEq, Repr

/-- An active stream (R283): its eight descriptor scalars, the indices of its next entry, the first operation number its
reads do not follow (R284), whether a missing translation pauses it (R303), the words of its next entry that it has read, and the bytes
of the word that it is reading (R109, R283). -/
structure Stream where
  desc : List Word
  i0 : Nat
  i1 : Nat
  i2 : Nat
  upto : Nat
  paused : Bool
  words : List Lane := []
  part : List Byte := []
  deriving DecidableEq, Repr

/-- An operand queue (R282): entries, oldest first, of one word a lane. -/
structure OpQueue where
  entries : List (List Lane)
  closed : Bool
  stream : Option Stream
  deriving DecidableEq, Repr

/-- The atomic region of one lane (R247): its line once fixed, with the virtual address that named it, code 0 while open or the
nonzero code that closed it, the bytes it read and its held writes, newest last, by flat address. -/
structure LaneRegion where
  lane : Nat
  line : Option Nat
  va : Nat := 0
  code : Nat
  reads : List Host.Cell
  writes : List Host.Cell
  deriving DecidableEq, Repr

/-- A fetch handle (R289). -/
structure Handle where
  base : Word
  rstride : Nat
  cols : Nat
  rows : Nat
  clampZero : Bool
  fmt : Nat
  deriving DecidableEq, Repr

/-- A team's part in the cluster barrier (R125): a CBARA without its CBARW, the arrivals that have taken effect, the CBARWs
passed, and an arrival that still waits for the operations numbered below the given number. -/
structure ClusterBar where
  isOpen : Bool
  arrived : Nat
  passed : Nat
  pending : Option Nat
  deriving DecidableEq, Repr

/-- A resident team (R12, R29, R34). -/
structure Team where
  ref : TeamRef
  /-- serial number of its launch in the hub -/
  launch : Nat
  lv : BitVec 16
  /-- linear team index (R24) -/
  t : Nat
  cluster : Nat
  nl : Nat
  nv : Nat
  stashLen : Nat
  nq : Nat
  qdepth : Nat
  nacc : Nat
  nh : Nat
  slot : SlotState
  live : Mask
  k : Vector Mask 16
  /-- v0 to v(NV−1), one word for each of the NL lanes -/
  v : List (List Lane)
  /-- the bytes that an EPOOL about to issue has read of its bag (R109, R291) -/
  bag : List Byte := []
  /-- the vector registers as they stood at the team's end, which bound matrix reads return (R42) -/
  vEnd : Option (List (List Lane)) := none
  /-- stash bytes outside every window (R86, R103), by offset -/
  stash : Memory
  queues : List OpQueue
  tiles : List Tile
  tbs : List TermBuf
  regions : List LaneRegion
  handles : List (Nat × Handle)
  /-- ARG0-ARG3 of the four engine windows (R256) -/
  args : Vector (Vector Word 4) 4
  cbar : ClusterBar
  /-- no context has executed an instruction of R296 (R307) -/
  restartable : Bool
  /-- the pre-emption that the team awaits, if any (R304) -/
  stop : Option Stop
  /-- TIME when a context or stream of the team last advanced, 0 before (R313) -/
  progress : Word
  team : Ctx
  matrix : Option Ctx
  access : Option Ctx
  deriving DecidableEq, Repr

/-- The stash bytes of a team that has left DRAINING, while none of them has been given to another team (R86); the bytes of its
windows are held as they stood then. -/
structure FormerStash where
  ref : TeamRef
  launch : Nat
  cluster : Nat
  t : Nat
  stashLen : Nat
  stash : Memory
  deriving DecidableEq, Repr

/-! ### Caches, stash windows and homes -/

/-- Sector states (R89). -/
inductive CState where
  | M
  | O
  | E
  | S
  | U
  | I
  deriving DecidableEq, Repr

/-- A valid sector of a stash window: its number in the window, its state, the flat addresses its 64 bytes were filled from,
the bytes, and which of them are dirty. -/
structure WinSector where
  ix : Nat
  st : CState
  pas : List Nat
  bytes : List Byte
  dirty : BitVec 64
  deriving DecidableEq, Repr

/-- A mapping entry (R102, R104): core, number, launch, owner while attached, age, the four parameter scalars, valid
sectors. `home` is the team in whose stash allocation the window lies, also once that team has ended, until the allocation
is given away. -/
structure MapEntry where
  die : Nat
  core : Nat
  n : Nat
  lv : BitVec 16
  owner : Option TeamRef
  home : Option TeamRef
  age : Nat
  m0 : Word
  m1 : Word
  m2 : Word
  m3 : Word
  secs : List WinSector
  deriving DecidableEq, Repr

/-- A copy of a sector in an L1 (`core` given) or in the proxy L2 of a die (R89, R92). Its bytes are the home's newest. `fetch` says that
it lies in the cache of the core's fetch unit, which is part of the L1 for coherence and has a size of its own (R1, R292). -/
structure Copy where
  die : Nat
  core : Option Nat
  sector : Nat
  st : CState
  fetch : Bool := false
  deriving DecidableEq, Repr

/-- What the home keeps for a sector beside its committed bytes (R90, R91, R142, R147): the version record; the tentative
bytes of the whole sector; whether the committed value still lies in the Cistern (COMMITTED-C), and there its bytes; the
bound of an overflowed read mark. The coherence record of R90 is a view of the copies that exist: `cohRecord`. -/
structure SectorRec where
  sector : Nat
  lv : BitVec 16
  rlv : BitVec 16
  tent : Bool
  prep : Bool
  rmk : Bool
  rovf : Bool
  cis : Bool
  xt : Bool
  tbytes : Memory
  comC : Bool
  cbytes : Memory
  bound : List (BitVec 16)
  deriving DecidableEq, Repr

/-- A cell of an exact entry (R78, R79): offset in the sector, TYPE, virtual address, the sum in units of 2^−149, flags,
and whether the start and every contribution were −0. -/
structure ExCell where
  off : Nat
  ty : Nat
  va : Word
  v : BitVec 320
  pinf : Bool
  ninf : Bool
  nan : Bool
  negZero : Bool
  deriving DecidableEq, Repr

/-- An exact combining entry of a home slice (R79). -/
structure ExactEntry where
  sector : Nat
  lv : BitVec 16
  rnd : Nat
  seed : Word
  age : Nat
  cells : List ExCell
  deriving DecidableEq, Repr

/-! ### Operations in flight -/

/-- The bytes one access names: global, by virtual and flat address, or an offset in a team's stash. -/
inductive Place where
  | glob (va pa : Nat)
  | stash (owner : TeamRef) (off : Nat)
  deriving DecidableEq, Repr

/-- How far a write has been performed (R117): an engine has made it and no party sees it yet (R126; `after` holds under the
command's acquire flag, which orders it after what its context made), only its core sees it, its die sees it (in that order),
every party does. -/
inductive Stage where
  | engine (after : Bool)
  | issued
  | die (seq : Nat)
  | performed
  deriving DecidableEq, Repr

/-- One access of a load: the value once read. Pieces of one lane's access that are atomic apart (R109) follow each other with
lane numbers `lane`, `lane + 65536`, … `held` says that some of its bytes are the lane's own region's held writes, which no other lane
receives (R247), by their places in the access. -/
structure LoadLane where
  lane : Nat
  place : Place
  n : Nat
  val : Option Nat
  held : List Nat := []
  deriving DecidableEq, Repr

/-- One access of a store, and the contexts that have observed it while it was pending: they have read it, or synchronised
with what its core and die showed them (R119, R121). Each stands with the number of the operation that read it, or of the last before the
acquire, by which a later fence knows that the read comes before it. -/
structure StoreLane where
  lane : Nat
  place : Place
  bytes : List Byte
  stage : Stage
  obs : List (CtxRef × Nat) := []
  deriving DecidableEq, Repr

/-- Where a load's value goes. `mask`: the sixteen 8-byte units of a KLD image; `tile`: XW records, 8 bytes an access, for
rows `row0` to `row0 + nrow − 1` and `n` columns of an accumulator. -/
inductive LoadDst where
  | vec (d : Nat) (wide : Bool) (sext : Bool)
  | sca (d : Nat)
  | mask (d : Nat)
  | tile (d row0 nrow n : Nat)
  deriving DecidableEq, Repr

/-- One lane of an LDGS (R236). -/
structure LdgsLane where
  lane : Nat
  va : Nat
  pa : Nat
  off : Nat
  n : Nat
  deriving DecidableEq, Repr

/-- One lane of an ATOM, with the old value and the tag once performed (R244, R245). -/
structure AtomLane where
  lane : Nat
  va : Nat
  pa : Nat
  a : Word
  b : Word
  res : Option (Word × BitVec 16)
  deriving DecidableEq, Repr

/-- One contribution of a RED that has not merged at its home (R93, R246). -/
structure RedLane where
  lane : Nat
  va : Nat
  pa : Nat
  bits : Word
  deriving DecidableEq, Repr

/-- One lane of an XEND, with its code once decided (R248). -/
structure XendLane where
  lane : Nat
  region : LaneRegion
  res : Option Nat
  deriving DecidableEq, Repr

/-- One element read by FETCH or EPOOL (R290): outside the table under CLAMP = 1, or the pieces of memory (virtual and flat
address, bytes) it is decoded from, in order, and whether its code is the high half of a byte (E2M1B). -/
structure FetchEl where
  zero : Bool
  hi : Bool
  parts : List (Nat × Nat × Nat)
  deriving DecidableEq, Repr

/-- What an in-flight operation still has to do. -/
inductive OpKind where
  | load (dst : LoadDst) (lanes : List LoadLane) (na : Bool)
  | value (d : Nat) (lanes : List (Nat × Lane))
  | fetch (d fmt : Nat) (md : BitVec 26) (isc : Word) (lanes : List (Nat × FetchEl))
  | epool (d fmt : Nat) (md : BitVec 26) (isc : Word) (lanes : List (Nat × List (Lane × FetchEl)))
  | store (lanes : List StoreLane) (na : Bool) (granted : List Nat)
  /-- a fill of a window sector (R105), with the flat addresses its bytes translated to at the touch -/
  | fill (die core n ix : Nat) (pas : List Nat)
  /-- ownership of a window sector for a first write, with the global sectors granted so far (R106) -/
  | own (die core n ix : Nat) (granted : List Nat)
  /-- one lane of an LDGS (R236) -/
  | ldgs (lane : LdgsLane)
  | atom (sub : Nat) (wide : Bool) (d : Nat) (lanes : List AtomLane)
  | red (sub : Nat) (ty : Nat) (rnd : Nat) (seed : Word) (lanes : List RedLane)
  | xend (kd va : Nat) (lanes : List XendLane)
  /-- the definition of a fetch handle (R289) -/
  | hdef
  | engine (cmd : Nat)
  deriving DecidableEq, Repr

/-- An operation in flight. Its number rises in issue order; `path` is the counter it raised (R172), none for work that
counts on no path; a finished entry stays until every earlier entry of its path has finished. -/
structure Op where
  id : Nat
  own : CtxRef
  lv : BitVec 16
  path : Option Path
  kind : OpKind
  done : Bool
  deriving DecidableEq, Repr

/-- An engine command queued or running (R257): its captured arguments, GO fields and MD, the operations it follows under
its acquire flag, the parts already performed, whether an access pauses it, and the handle that an FWARM names (R260). -/
structure Cmd where
  id : Nat
  own : CtxRef
  lv : BitVec 16
  engine : Nat
  code : Nat
  opf : Nat
  dsp : Bool
  ssp : Bool
  rel : Option Scope
  acq : Option Scope
  args : Vector Word 4
  md : BitVec 26
  isc : Word
  upto : Nat
  parts : List Nat
  writes : List Nat
  paused : Bool
  handle : Option Handle := none
  deriving DecidableEq, Repr

/-- A barrier arrival that awaits application (R124, R253). -/
structure Arrival where
  id : Nat
  by_ : CtxRef
  owner : TeamRef
  off : Nat
  path : Option Path
  upto : Nat
  deriving DecidableEq, Repr

/-! ### The hub -/

/-- The launch record of R135, field by field. -/
structure LaunchRec where
  kdesc : Word
  lid : Word
  gx : Nat
  gy : Nat
  gz : Nat
  cw : Nat
  ch : Nat
  ppol : Nat
  idemp : Bool
  ser : Bool
  prio : Nat
  retry : Nat
  nl : Nat
  nv : Nat
  nq : Nat
  nacc : Nat
  actx : Bool
  mctx : Bool
  stash : Nat
  qdepth : Nat
  nh : Nat
  pin : Nat
  stream : Nat
  deps : List Word
  ranges : List (Nat × Nat)
  segends : List Nat
  nseg : Nat
  argn : Nat
  quota : Nat
  expic : Nat
  seed : Word
  compl : Word
  csetp : Word
  argp : Word
  deriving DecidableEq, Repr

/-- Where a launch stands (R138, R150, R151). -/
inductive LState where
  /-- taken, waiting for admission -/
  | waiting
  /-- open: its teams run -/
  | running
  /-- PREPARE sent for the current segment -/
  | preparing
  /-- past the commit point; COMMIT broadcast -/
  | committing
  /-- ABORT sent, with the status recorded first -/
  | aborting (status : Nat)
  deriving DecidableEq, Repr

/-- A launch the hub holds, from its taking to its completion record. -/
structure Launch where
  sid : Nat
  func : Nat
  queue : Nat
  asid : Nat
  hostmem : Bool
  irq : Bool
  qvec : Nat
  prio : Nat
  lrec : LaunchRec
  teamoff : Nat
  matoff : Nat
  accoff : Nat
  st : LState
  lv : BitVec 16
  adm : Nat
  /-- serials of the launches its DEP entries matched when it was taken -/
  deps : List Nat
  /-- launches of its stream with a lower serial are not its predecessors: they were taken before a RELEASE_STREAM (R152) -/
  base : Nat
  /-- the launch whose final outcome its re-admission waits for (R152) -/
  after : Option Nat
  /-- a launch it depends on has ended with a final abort (R138, R152) -/
  doomed : Bool
  /-- what ends it before its next segment: a cause that came after the commit point of this one (R150) -/
  later : Option Nat
  args : List Word
  coreSets : List (BitVec 64)
  /-- pinned domain and version (R324) -/
  pin : Option (Nat × Nat)
  tadm : Word
  seg : Nat
  retriesLeft : Nat
  rused : Nat
  exactLost : Bool
  csn : Word
  /-- clusters of the current segment not yet placed -/
  unplaced : List Nat
  /-- dies on which DRAIN holds back new teams, each with the launch that is to be placed there first (R305) -/
  held : List (Nat × Nat)
  doneDies : List Nat
  prepDies : List Nat
  biDies : List Nat
  ackDies : List Nat
  /-- ROUTE tokens of the current segment: die, entry, count (R327) -/
  tokens : List ((Nat × Nat) × Nat)
  /-- sectors that COMMIT of the current segment has made committed, for the refresh of R331 -/
  written : List Nat
  /-- 4 KiB frames, by flat address over 4096, whose committed data it has read since its admission (R379) -/
  readFrames : List Nat
  /-- TIME of its last engine step or reply, or of the placement since which it has had a resident team (R313) -/
  lastProgress : Word
  killPending : Bool
  deriving DecidableEq, Repr

/-- A stream of a function: failed (R152), the first serial after its last RELEASE_STREAM, and the version it holds (R325). -/
structure StreamRec where
  func : Nat
  stream : Nat
  failed : Bool
  base : Nat
  holds : Option (Nat × Nat)
  deriving DecidableEq, Repr

/-- A park record (R299), with the function whose ring receives it, the launch it belongs to, and the command behind a record of an
engine. -/
structure ParkRec where
  func : Nat
  sid : Nat
  lid : Word
  tcode : BitVec 16
  code : Nat
  ctx : Nat
  core : Nat
  team : Nat
  lane : Nat
  tag : BitVec 16
  impl : Bool
  x : Bool
  w : Bool
  svc : Bool
  die : Nat
  pc : Word
  rgnpc : Word
  rgncnt : Word
  addr : Word
  isc : Word
  ss : List Word
  cmd : Nat := 0
  deriving DecidableEq, Repr

/-- A reply the hub holds until its context is restored (R306), with the record it answers, which the image still shows (R309). -/
structure HeldReply where
  sid : Nat
  team : Nat
  ctx : Nat
  abort : Bool
  rv1 : Word
  rv2 : Word
  record : ParkRec
  deriving DecidableEq, Repr

/-- A saved team (R306, R308): its state, its attached mapping entries (number and four parameters), and whether a SAVE
reply holds it. -/
structure SavedTeam where
  launch : Nat
  cluster : Nat
  die : Nat
  team : Team
  entries : List (Nat × List Word)
  byReply : Bool
  deriving DecidableEq, Repr

/-- A work queue (R359). -/
structure Queue where
  qbase : Word
  en : Bool
  qerr : Bool
  lidx : Nat
  asid : Nat
  hostmem : Bool
  func : Nat
  qprio : Nat
  log2n : Nat
  ci : BitVec 32
  pi : BitVec 32
  qvec : Nat
  deriving DecidableEq, Repr

/-- An ASID table entry (R357). -/
structure Asid where
  valid : Bool
  rdie : Nat
  root : Nat
  domain : Nat
  domv : Bool
  func : Nat
  deriving DecidableEq, Repr

/-- The fault and reply ring registers of a function (R365). -/
structure FuncRegs where
  frbase : Word
  fren : Bool
  frlog2n : Nat
  frci : BitVec 32
  frpi : BitVec 32
  frlost : BitVec 32
  rrbase : Word
  rren : Bool
  rrlog2n : Nat
  rrpi : BitVec 32
  rrunm : BitVec 32
  rrci : BitVec 32
  fvec : Nat
  /-- records held because the ring is full or disabled -/
  held : List ParkRec
  deriving DecidableEq, Repr

/-- An access-table entry (R369); BASE and LIMIT in bytes. -/
structure AccessEntry where
  valid : Bool
  rd : Bool
  wr : Bool
  func : Nat
  base : Nat
  limit : Nat
  deriving DecidableEq, Repr

/-- The hub's command processor, commit controller and the package registers of PF BAR0. Tables are lists of (number,
entry) pairs; an entry not listed holds its reset value. -/
structure Hub where
  csn : Word
  adm : Nat
  sid : Nat
  launches : List Launch
  streams : List StreamRec
  commitLog : List (BitVec 16 × Word)
  /-- version tags of ended launches whose sectors are not all reclaimed (R139) -/
  busyTags : List (BitVec 16)
  parks : List ParkRec
  heldReplies : List HeldReply
  saved : List SavedTeam
  queues : List (Nat × Queue)
  /-- the queue served last at each QPRIO, for the round-robin of R362 -/
  served : Vector Nat 4
  asids : List (Nat × Asid)
  funcs : List (Nat × FuncRegs)
  access : List ((Nat × Nat) × AccessEntry)
  engMask : List (Nat × BitVec 4)
  perfSel : Vector (BitVec 8) 8
  cisBase : Vector Nat 8
  cisSize : Vector Nat 8
  spBase : Vector Nat 8
  spSize : Vector Nat 8
  klim : BitVec 32
  cfgerr : Bool
  /-- outcome counters of R383: commits, then ends with status 0x40 to 0x48 -/
  outcomes : Vector Word 10
  deriving DecidableEq, Repr

/-! ### The Windlass (R320 to R338) -/

/-- A live version of a domain (R322, R368): its number, its slot of the version area, withdrawn (R333). -/
structure Version where
  vnum : Nat
  slot : Nat
  withdrawn : Bool
  deriving DecidableEq, Repr

/-- One change of a decision (R328): entry, die; a grow names its slot and how its copy stands. -/
inductive Change where
  | grow (e die slot : Nat) (copied : Option Bool)
  | shrink (e die : Nat)
  deriving DecidableEq, Repr

/-- A decision that awaits publication (R330): the counted commit it was made at, and its changes. -/
structure Decision where
  made : Nat
  changes : List Change
  deriving DecidableEq, Repr

/-- Why a copy failed (R330): no translation or permission, a mismatch in the compare, or an uncorrectable error. -/
inductive DropCause where
  | noTranslation
  | copyError (e : CopyError)
  deriving DecidableEq, Repr

/-- A dropped change as it is logged (R330). -/
structure DropRecord where
  e : Nat
  die : Nat
  slot : Nat
  cause : DropCause
  deriving DecidableEq, Repr

/-- A Windlass domain (R321, R367). -/
structure Domain where
  en : Bool
  werr : Bool
  maxch : Nat
  cmax : Nat
  policy : Nat
  plead : Nat
  win : Nat
  cold : Nat
  hot : Nat
  slotsz : Nat
  farbase : Nat
  vdie : Nat
  varea : Nat
  wasid : Nat
  store : Vector Word 8
  nslot : Vector Nat 8
  wdraw : BitVec 16
  drop : BitVec 16
  skip : BitVec 16
  newestSlot : Nat
  newest : Nat
  counted : Nat
  /-- window counts T_d(e): die, entry, count (R327) -/
  counts : List ((Nat × Nat) × Nat)
  /-- counted commits k·WIN whose decision is still to be made -/
  windowDue : Bool
  versions : List Version
  pending : List Decision
  /-- CSN of the commit that may publish now (R330) -/
  publishCsn : Option Word
  /-- a version without withdrawn replicas that waits for a free slot: the withdrawn (entry, die, slot) triples (R333) -/
  withdrawals : List (Nat × Nat × Nat)
  /-- the log of the changes dropped on a failed copy (R330) -/
  dropLog : List DropRecord
  deriving DecidableEq, Repr

/-! ### Dies, boot, security, power -/

/-- The 24 bytes in which a die reports its state: the fields of one refresh (R382). -/
structure Report where
  link : BitVec 3
  temp : BitVec 16
  budget : BitVec 16
  pwr : BitVec 16
  retired : BitVec 12
  cecc : BitVec 32
  throt : Word
  deriving DecidableEq, Repr

/-- A compute die in service: the physical columns and rows of the presented mesh (R10, R314), fencing, links, retired
frames, telemetry (R382), and lost cores. -/
structure Die where
  cols : List Nat
  rows : List Nat
  lost : List Nat
  fenced : Bool
  hubLink : Bool
  /-- the ring link from this die to die + 1 mod 8 -/
  ringLink : Bool
  link : BitVec 3
  /-- retired frames, by die-local offset of the frame (R379) -/
  retired : List Nat
  pwr : BitVec 16
  temp : BitVec 16
  budget : Nat
  cecc : BitVec 32
  throt : Word
  /-- what a read of its telemetry returns -/
  report : Report
  /-- TIME of the last refresh of the report (R382) -/
  reportAt : Word := 0
  deriving DecidableEq, Repr

/-- Power units lent by one die to another until a deadline (R384). -/
structure Loan where
  id : Nat
  lender : Nat
  borrower : Nat
  units : Nat
  deadline : Word
  deriving DecidableEq, Repr

/-- The security alarm (R377, R378) and what its levels stop. -/
structure Alarm where
  src : BitVec 8
  cfg : BitVec 16
  level : Nat
  keylock : Bool
  cpStopped : Bool
  coresStopped : Bool
  /-- alarm records that follow the actions of level 2 (R378) -/
  due : List ParkRec
  deriving DecidableEq, Repr

/-- The fuses and flash of the package (R370 to R375): fused key hashes and SVN fuse bits by KIND, manufacture faults of
each die's cores, and the two firmware images in flash. -/
structure Fuses where
  keyHash0 : List Byte
  keyHash1 : List Byte
  svn0 : BitVec 64
  svn1 : BitVec 64
  faulty : List (List Nat)
  flashHub : List Byte
  flashDie : List Byte
  deriving DecidableEq, Repr

/-- BOOTST (R371), the SVNs of the images that booted, the measurement registers and the keys held (R375). -/
structure Boot where
  ready : Bool
  fstep : Nat
  fcause : Nat
  degr : BitVec 8
  dieok : BitVec 8
  bootSvn0 : Nat
  bootSvn1 : Nat
  meas : Vector (BitVec 512) 10
  aliasKey : Bool
  wrapKey : Bool
  brory : BitVec 18
  deriving DecidableEq, Repr

/-- Responses of the SPDM responder (R376). Key material and signatures are free values. -/
inductive SpdmResp where
  | version
  | capabilities
  | algorithms
  | digests (digest : List Byte)
  | certificate (chain : List Byte)
  | challengeAuth (signature : List Byte)
  | measurements (blocks : List (Nat × BitVec 512)) (signature : List Byte)
  | keyExchangeRsp (session : Nat) (share : List Byte)
  | finishRsp
  | endSessionAck
  | error
  deriving DecidableEq, Repr

/-- The SPDM responder: sessions being established and established, and the number of responses sent. -/
structure Spdm where
  pendingSessions : List Nat
  sessions : List Nat
  count : Nat
  deriving DecidableEq, Repr

/-- What the boot and security machinery holds. -/
structure Sec where
  fuses : Fuses
  boot : Boot
  spdm : Spdm
  deriving DecidableEq, Repr

/-- What leaves the package, oldest first: answers to host and peer reads, MSI-X signals, SPDM responses. -/
inductive Output where
  | hostData (die off : Nat) (bytes : List Byte)
  | peerData (die off : Nat) (bytes : List Byte)
  | irq (func vec : Nat)
  | spdm (r : SpdmResp)
  deriving DecidableEq, Repr

/-- Which party moves next (log 1): a context issues its next instruction, or an event of the table comes about. -/
inductive Turn where
  | issue (c : CtxRef)
  | event (i : Instr)
  deriving DecidableEq, Repr

/-- A committed sector before a change: the admissions the hub had made when it changed, and its bytes until then (R115). -/
structure OldCode where
  adm : Nat
  sector : Nat
  bytes : List Byte
  deriving DecidableEq, Repr

/-- A line of a translation table that a translation cache of a core or die holds (R101). -/
structure WalkCopy where
  die : Nat
  /-- the core, or none for the die's own cache -/
  core : Option Nat
  /-- the flat address of the line over 256 -/
  line : Nat
  deriving DecidableEq, Repr

/-- The whole package. -/
structure State where
  /-- MODEL'S OWN (log 1): the turns that come next, first first; the autopilot chooses when it is empty -/
  agenda : List Turn
  /-- MODEL'S OWN: the context whose instruction `exec` gives a meaning to -/
  cur : CtxRef
  /-- MODEL'S OWN: the autopilot's place in its round -/
  turn : Nat
  /-- MODEL'S OWN: step number, the argument of the free values -/
  tick : Nat
  /-- package TIME in ns (R26) -/
  time : Word
  mem : Memory
  sectors : List SectorRec
  /-- line sequence tags, by line; an unlisted line's tag is 0 (R128) -/
  tags : List (Nat × BitVec 16)
  exact : List ExactEntry
  copies : List Copy
  /-- table sectors from which translation caches hold entries (R101) -/
  walks : List WalkCopy
  /-- committed sectors as launches still open fetch them (R115), oldest change first -/
  codeLog : List OldCode
  /-- Cistern space of aborted launches that awaits reclaim: version tag and sector (R151) -/
  dead : List (BitVec 16 × Nat)
  maps : List MapEntry
  teams : List Team
  /-- former allocations that a cluster-stash access may still reach (R86) -/
  former : List FormerStash
  /-- the ready queues of the cores, head first (R50) -/
  readyQ : List TeamRef
  ops : List Op
  /-- next number of an operation, command, arrival, entry age or die acceptance; 0 names a result already written -/
  serial : Nat
  cmds : List Cmd
  arrivals : List Arrival
  hub : Hub
  windlass : Vector Domain 16
  dies : Vector Die 8
  loans : List Loan
  alarm : Alarm
  /-- PERF counts of the countable events: die, core, counter (R390) -/
  perf : List ((Nat × Nat × Nat) × Word)
  hubLost : Bool
  sec : Sec
  out : List Output
  deriving DecidableEq, Repr

/-! ### Reset -/

/-- A sector record with nothing but its committed value (R91). -/
def SectorRec.reset (sector : Nat) : SectorRec :=
  { sector := sector, lv := 0, rlv := 0, tent := false, prep := false, rmk := false, rovf := false, cis := false
    xt := false, tbytes := [], comC := false, cbytes := [], bound := [] }

/-- The scalar state a context starts with before its launch gives it PC and arguments (R15, R20, R137, R199). -/
def Ctx.fresh : Ctx :=
  { pc := 0, isc := 0, rgnpc := 0, rgncnt := 0, impl := true, tag := 0, md := 0, fpfl := 0
    s := Vector.replicate 64 0, run := .running, windows := [], hold := none
    argPend := false }

/-- A queue's registers at reset (R359). -/
def Queue.reset : Queue :=
  { qbase := 0, en := false, qerr := false, lidx := 0, asid := 0, hostmem := false, func := 0, qprio := 0, log2n := 0
    ci := 0, pi := 0, qvec := 0 }

/-- An ASID table entry at reset (R357). -/
def Asid.reset : Asid := { valid := false, rdie := 0, root := 0, domain := 0, domv := false, func := 0 }

/-- A function's ring registers at reset (R365). -/
def FuncRegs.reset : FuncRegs :=
  { frbase := 0, fren := false, frlog2n := 0, frci := 0, frpi := 0, frlost := 0, rrbase := 0, rren := false
    rrlog2n := 0, rrpi := 0, rrunm := 0, rrci := 0, fvec := 0, held := [] }

/-- An access-table entry at reset: invalid (R369). -/
def AccessEntry.reset : AccessEntry :=
  { valid := false, rd := false, wr := false, func := 0, base := 0, limit := 0 }

/-- The Cistern offset and size that boot gives each die (R356): 1/8 of the die's memory rounded down to 2 MiB units, at
the top of it. -/
def cisSizeBoot : Nat := Config.dieBytes / 8 / 2097152 * 2097152

/-- The hub at reset (R150, R356, R357, R359, R365, R369, R383, R390). -/
def Hub.reset : Hub :=
  { csn := 1, adm := 0, sid := 0, launches := [], streams := [], commitLog := [], busyTags := [], parks := []
    heldReplies := [], saved := [], queues := [], served := Vector.replicate 4 0, asids := [], funcs := [], access := [], engMask := []
    perfSel := Vector.replicate 8 0
    cisBase := Vector.replicate 8 ((Config.dieBytes - cisSizeBoot) / 2097152 * 2097152)
    cisSize := Vector.replicate 8 cisSizeBoot, spBase := Vector.replicate 8 0, spSize := Vector.replicate 8 0
    klim := 1000000, cfgerr := false, outcomes := Vector.replicate 10 0 }

/-- A Windlass domain at reset (R367). -/
def Domain.reset : Domain :=
  { en := false, werr := false, maxch := 0, cmax := 0, policy := 0, plead := 0, win := 0, cold := 0, hot := 0
    slotsz := 0, farbase := 0, vdie := 0, varea := 0, wasid := 0, store := Vector.replicate 8 0
    nslot := Vector.replicate 8 0, wdraw := 0, drop := 0, skip := 0, newestSlot := 0, newest := 0, counted := 0
    counts := [], windowDue := false, versions := [], pending := [], publishCsn := none, withdrawals := [], dropLog := [] }

/-- A die at reset: the full mesh, not fenced, links up, telemetry at its reset values (R11, R382, R384). -/
def Die.reset : Die :=
  { cols := List.range 8, rows := List.range 6, lost := [], fenced := false, hubLink := true, ringLink := true
    link := 0, retired := [], pwr := 0, temp := 0, budget := 265, cecc := 0, throt := 0
    report := { link := 0, temp := 0, budget := 265, pwr := 0, retired := 0, cecc := 0, throt := 0 }, reportAt := 0 }

/-- The alarm at reset (R377): every configured level at its source's minimum, 3 3 2 3 1 1 0 0. -/
def Alarm.reset : Alarm :=
  { src := 0, cfg := 0b0000010111101111, level := 0, keylock := false, cpStopped := false, coresStopped := false, due := [] }

/-- The fuses and flash the model starts from: nothing blown, empty flash (log 3). -/
def Fuses.reset : Fuses :=
  { keyHash0 := [], keyHash1 := [], svn0 := 0, svn1 := 0, faulty := [], flashHub := [], flashDie := [] }

/-- BOOTST and the measurement registers at reset (R371, R375). -/
def Boot.reset : Boot :=
  { ready := false, fstep := 0, fcause := 0, degr := 0, dieok := 0, bootSvn0 := 0, bootSvn1 := 0
    meas := Vector.replicate 10 0, aliasKey := false, wrapKey := false, brory := 0 }

/-- The security machinery at reset. -/
def Sec.reset : Sec :=
  { fuses := Fuses.reset, boot := Boot.reset, spdm := { pendingSessions := [], sessions := [], count := 0 } }

/-- The package right after reset, before its boot sequence has run (R370): no team, no launch, every register at its
reset value, all memory clear. -/
def State.reset : State :=
  { agenda := [], cur := { ref := { die := 0, core := 0, slot := 0 }, kind := .team }, turn := 0, tick := 0, time := 0
    mem := [], sectors := [], tags := [], exact := [], copies := [], walks := [], codeLog := [], dead := [], maps := [], teams := []
    former := [], readyQ := [], ops := []
    serial := 1, cmds := [], arrivals := [], hub := Hub.reset, windlass := Vector.replicate 16 Domain.reset
    dies := Vector.replicate 8 Die.reset, loans := [], alarm := Alarm.reset, perf := [], hubLost := false
    sec := Sec.reset, out := [] }

end Sys2Proof.Machine
end

