-- ==== Sys2Proof/Machine/Memory.lean ====
section
/-! DEFINITION. Machine/Memory.lean: the operations on memory as an ordered list of (address, byte) pairs, and the byte
order of every wider access (R5: the byte at the lowest address holds bits [7:0]). -/

namespace Sys2Proof.Machine

/-- The byte at an address; an unlisted address reads as 0. -/
def Memory.get : Memory → Nat → Byte
  | [], _ => 0
  | (b, v) :: r, a => if a = b then v else if a < b then 0 else Memory.get r a

/-- The memory with one byte written, in canonical form. -/
def Memory.set : Memory → Nat → Byte → Memory
  | [], a, v => if v = 0 then [] else [(a, v)]
  | (b, w) :: r, a, v =>
    if a < b then (if v = 0 then (b, w) :: r else (a, v) :: (b, w) :: r)
    else if a = b then (if v = 0 then r else (a, v) :: r)
    else (b, w) :: Memory.set r a v

/-- Canonical form: addresses rise strictly from above `lo`, and no listed byte is 0. -/
def Memory.wfFrom : Nat → Memory → Bool
  | _, [] => true
  | lo, (a, v) :: r => decide (lo ≤ a) && v != 0 && Memory.wfFrom (a + 1) r

/-- The canonical form of memory. -/
def Memory.wf (m : Memory) : Bool := Memory.wfFrom 0 m

/-- `n` bytes from an address. -/
def Memory.getN (m : Memory) (a : Nat) : Nat → List Byte
  | 0 => []
  | n + 1 => m.get a :: Memory.getN m (a + 1) n

/-- A list of bytes written from an address. -/
def Memory.setN (m : Memory) (a : Nat) : List Byte → Memory
  | [] => m
  | b :: r => Memory.setN (m.set a b) (a + 1) r

/-- A list of cells written, first first. -/
def Memory.setCells (m : Memory) : List Host.Cell → Memory
  | [] => m
  | (a, b) :: r => Memory.setCells (m.set a b) r

/-- The memory without the addresses from `lo` up to `hi`. -/
def Memory.clear (m : Memory) (lo hi : Nat) : Memory := m.filter (fun c => c.1 < lo || hi ≤ c.1)

/-- The number whose bytes, lowest first, are given. -/
def natOfBytes : List Byte → Nat
  | [] => 0
  | b :: r => b.toNat + 256 * natOfBytes r

/-- The `n` lowest bytes of a number, lowest first. -/
def bytesOfNat : Nat → Nat → List Byte
  | 0, _ => []
  | n + 1, x => BitVec.ofNat 8 x :: bytesOfNat n (x / 256)

/-- Bits [hi:lo] of a number. -/
def bits (x hi lo : Nat) : Nat := x / 2 ^ lo % 2 ^ (hi + 1 - lo)

/-- Bit i of a number. -/
def bitAt (x i : Nat) : Bool := x / 2 ^ i % 2 == 1

/-- `x` placed at bit `lo`. -/
def at_ (x lo : Nat) : Nat := x * 2 ^ lo

/-- Sign extension of the low `w` bits of a number to 64 bits. -/
def sextWord (w n : Nat) : Word := BitVec.ofInt 64 (let x := n % 2 ^ w; if 2 ^ (w - 1) ≤ x then (x : Int) - (2 ^ w : Nat) else x)

/-- The lookup in a list of (key, value) pairs, with a default. -/
def assoc {α β : Type} [DecidableEq α] (l : List (α × β)) (k : α) (d : β) : β :=
  match l.find? (fun p => p.1 = k) with
  | some p => p.2
  | none => d

/-- A list of (key, value) pairs with one key set. -/
def setAssoc {α β : Type} [DecidableEq α] (l : List (α × β)) (k : α) (v : β) : List (α × β) :=
  if l.any (fun p => p.1 = k) then l.map (fun p => if p.1 = k then (k, v) else p) else l ++ [(k, v)]

end Sys2Proof.Machine
end

