-- ==== Sys2Proof/Machine/Trans.lean ====
section
/-! DEFINITION. Machine/Trans.lean: from a virtual address to the byte's home: the page walk (R97 to R99), homing (R95, R96),
the permissions of R100 and the access tables of R369. A walk reads committed table entries only (R101). -/

namespace Sys2Proof.Machine

/-! ### Committed memory -/

/-- The sector record of a sector; one with only a committed value is not listed. -/
def State.sectorRec (s : State) (sector : Nat) : SectorRec :=
  match s.sectors.find? (fun r => r.sector = sector) with
  | some r => r
  | none => SectorRec.reset sector

/-- Sets a sector record; one equal to its reset value is dropped from the list. -/
def State.setRec (s : State) (r : SectorRec) : State :=
  let rest := s.sectors.filter (fun x => x.sector ≠ r.sector)
  { s with sectors := if r = SectorRec.reset r.sector then rest else rest ++ [r] }

/-- The committed byte at a flat address: from the Cistern in a COMMITTED-C sector, else from home memory (R142). -/
def committed (s : State) (pa : Nat) : Byte :=
  let r := s.sectorRec (pa / 64)
  if r.comC then r.cbytes.get pa else s.mem.get pa

/-- `n` committed bytes. -/
def committedN (s : State) (pa : Nat) : Nat → List Byte
  | 0 => []
  | n + 1 => committed s pa :: committedN s (pa + 1) n

/-- The flat address of a die-local offset. -/
def flat (die off : Nat) : Nat := die * Config.dieSpan + off
/-- The die of a flat address; 8 for host memory. -/
def dieOf (pa : Nat) : Nat := min (pa / Config.dieSpan) 8
/-- The die-local offset of a flat address. -/
def offOf (pa : Nat) : Nat := pa % Config.dieSpan

/-! ### The walk -/

/-- The page that translates an address: HOME, frame, size, base, permissions. -/
structure Leaf where
  home : Nat
  frame : Nat
  size : Nat
  base : Nat
  r : Bool
  w : Bool
  x : Bool
  deriving DecidableEq, Repr

/-- The table entry at a die-local offset. -/
def pte (s : State) (die off : Nat) : Nat := natOfBytes (committedN s (flat die off) 8)

/-- Frame field of an entry (R98). -/
def pteAddr (e : Nat) : Nat := bits e 36 12 * 4096
/-- HOME. -/
def pteHome (e : Nat) : Nat := bits e 63 60
/-- CONT. -/
def pteCont (e : Nat) : Nat := bits e 59 58
/-- LEAF. -/
def pteLeaf (e : Nat) : Bool := bitAt e 2

/-- The tests of R98 that every entry meets: V, reserved bits and codes, and ADDR within the die. -/
def pteOk (e frame : Nat) : Bool :=
  bitAt e 0 && bits e 57 37 == 0 && bits e 11 6 == 0 && !bitAt e 1 && pteHome e ≤ 8 && pteCont e ≤ 2 &&
  frame < Config.dieBytes

/-- Natural size of a leaf of a level (R97). -/
def leafSize (level : Nat) : Nat := 2 ^ (12 + 9 * level)

/-- Number of entries of a run with this CONT code (R98). -/
def runLen (cont : Nat) : Nat :=
  match cont with
  | 0 => 1
  | 1 => 16
  | _ => 64

/-- The first-of-run frame of entry `k` of a run (R99). -/
def runFrame (e k l : Nat) : Nat :=
  if pteHome e = 8 then pteAddr e else (pteAddr e + Config.dieSpan - k * l % Config.dieSpan) % Config.dieSpan

/-- The page of a leaf entry `e`, entry `k` of a run of `n` leaves of `level` (R98, R99), or none if a test fails: its own CONT is
tested for the level, whatever run the access lies in. -/
def leafPage (e level n k va : Nat) : Option Leaf :=
  let l := leafSize level
  let p := n * l
  let f := runFrame e k l
  let unit := if pteHome e = 8 then p / 8 else p
  if pteOk e f && pteLeaf e && level ≤ 3 && f % unit == 0 &&
      (n = 1 || level ≤ 2) && (n ≠ 64 || level = 0) && (pteCont e = 0 || level ≤ 2) && (pteCont e ≠ 2 || level = 0) then
    some { home := pteHome e, frame := f, size := p, base := va - va % p, r := bitAt e 3, w := bitAt e 4, x := bitAt e 5 }
  else none

/-- Whether every entry of a run agrees with its first as R99 asks. -/
def runAgrees (es : List Nat) (l : Nat) : Bool :=
  match es with
  | [] => true
  | e0 :: _ =>
    (List.zipIdx es).all (fun p =>
      pteHome p.1 == pteHome e0 && pteCont p.1 == pteCont e0 && bits p.1 5 3 == bits e0 5 3 &&
      pteAddr p.1 == (if pteHome e0 = 8 then pteAddr e0 else pteAddr e0 + p.2 * l) &&
      bitAt p.1 0 && pteLeaf p.1)

/-- The walk from `level` down (R97, R98). In a run whose entries differ, which entry translates is open (R99, log 8). An access
whose own entry has V = 0 or CONT = 0 uses that entry (DESIGN CHOICE, log 8). -/
def walkFrom (s : State) (va : Nat) : Nat → Nat → Nat → Option Leaf
  | level, die, table =>
    let ix := va / 2 ^ (12 + 9 * level) % 512
    let e := pte s die (table + 8 * ix)
    if !bitAt e 0 then none
    else if pteLeaf e then
      let n := runLen (pteCont e)
      if pteCont e = 3 then none
      else if n = 1 then leafPage e level 1 0 va
      else
        let first := ix - ix % n
        let es := (List.range n).map (fun k => pte s die (table + 8 * (first + k)))
        let k := if runAgrees es (leafSize level) then ix % n else Config.contPick s.tick va % n
        leafPage (es.getD k 0) level n k va
    else if pteOk e (pteAddr e) && pteHome e ≤ 7 && pteCont e = 0 then
      match level with
      | 0 => none
      | l + 1 => walkFrom s va l (pteHome e) (pteAddr e)
    else none

/-- The sectors of the table entries that the walk from `level` down reads (R97, R99, R101). -/
def walkSectors (s : State) (va : Nat) : Nat → Nat → Nat → List Nat
  | level, die, table =>
    let ix := va / 2 ^ (12 + 9 * level) % 512
    let at0 (i : Nat) : Nat := flat die (table + 8 * i) / 64
    let e := pte s die (table + 8 * ix)
    if !bitAt e 0 then [at0 ix]
    else if pteLeaf e then
      let n := runLen (pteCont e)
      (((List.range n).map (fun k => at0 (ix - ix % n + k)))).dedup
    else
      match level with
      | 0 => [at0 ix]
      | l + 1 => at0 ix :: walkSectors s va l (pteHome e) (pteAddr e)

/-- Canonical: bits [63:57] all equal bit 56 (R85). -/
def canonical (va : Word) : Bool :=
  let x := va.toNat / 2 ^ 56
  x == 0 || x == 255

/-- The page of a canonical address under an ASID. -/
def translate (s : State) (asid : Nat) (va : Nat) : Option Leaf :=
  let a := assoc s.hub.asids asid Asid.reset
  if a.valid then walkFrom s (va % 2 ^ 57) 4 a.rdie a.root else none

/-- The table sectors from which the translation of an address under an ASID is drawn. -/
def tableSectors (s : State) (asid : Nat) (va : Nat) : List Nat :=
  let a := assoc s.hub.asids asid Asid.reset
  if a.valid && canonical (BitVec.ofNat 64 va) then walkSectors s (va % 2 ^ 57) 4 a.rdie a.root else []

/-- Die and die-local offset of a byte of a page (R95). -/
def Leaf.place (l : Leaf) (va : Nat) : Nat × Nat :=
  let va := va % 2 ^ 57
  if l.home ≤ 7 then (l.home, l.frame + (va - l.base))
  else
    (va / 4096 % 8,
      if l.size = 4096 then l.frame + va % 4096 else l.frame + (va - l.base) / 2 ^ 15 * 4096 + va % 4096)

/-! ### Slices (R96) -/

/-- Five bits of the die-local offset from a place on. -/
def sliceField (o lo : Nat) : BitVec 5 := BitVec.ofNat 5 (o / 2 ^ lo)

/-- The home slice of a die-local offset. -/
def sliceOf (o : Nat) : Nat :=
  (sliceField o 8 ^^^ sliceField o 13 ^^^ sliceField o 18 ^^^ sliceField o 23 ^^^ sliceField o 28 ^^^
    BitVec.ofNat 5 (bits o 36 33)).toNat

/-- The HBM stack of a die-local offset. -/
def stackOf (o : Nat) : Bool := bitAt o 13 ^^ bitAt o 18 ^^ bitAt o 23 ^^ bitAt o 28 ^^ bitAt o 33

/-! ### Access tables (R369) -/

/-- Whether an offset lies in the die's Cistern or save pool, which every function is denied (R356). -/
def reservedRange (s : State) (die off : Nat) : Bool :=
  let d := Fin.ofNat 8 die
  (s.hub.cisBase[d] ≤ off && off < s.hub.cisBase[d] + s.hub.cisSize[d]) ||
  (s.hub.spBase[d] ≤ off && off < s.hub.spBase[d] + s.hub.spSize[d])

/-- Whether an access-table entry of the die grants a kind of access to a function at an offset. -/
def granted (s : State) (die off func : Nat) (write : Bool) : Bool :=
  !reservedRange s die off &&
  s.hub.access.any (fun p =>
    p.1.1 == die && p.2.valid && (p.2.func == func || p.2.func == 0x7F) && p.2.base ≤ off && off < p.2.limit &&
    (if write then p.2.wr else p.2.rd))

/-- What an access needs (R100). -/
structure Need where
  r : Bool := false
  w : Bool := false
  x : Bool := false
  deriving DecidableEq, Repr

/-- The flat address of a byte for an access of function `func` under `asid`, or the fault of R85, R98, R100 or R369. -/
def resolve (s : State) (asid func : Nat) (n : Need) (va : Word) : Except FaultCode Nat :=
  if !canonical va then .error .pagePermission
  else
    match translate s asid va.toNat with
    | none => .error .pageNotPresent
    | some l =>
      let (die, off) := l.place va.toNat
      if Config.dieBytes ≤ off then .error .pageNotPresent
      else if (n.r && !l.r) || (n.w && !l.w) || (n.x && !l.x) then .error .pagePermission
      else if ((n.r || n.x) && !granted s die off func false) || (n.w && !granted s die off func true) then
        .error .accessTable
      else .ok (flat die off)

/-- The word SLICEOF writes for an address (R28). -/
def sliceWord (s : State) (asid : Nat) (va : Word) : Word :=
  let no : Word := 0x8000000000000000
  if !canonical va then no
  else
    match translate s asid va.toNat with
    | none => no
    | some l =>
      let (die, off) := l.place va.toNat
      if Config.dieBytes ≤ off then no
      else BitVec.ofNat 64 (at_ l.home 12 + (if stackOf off then 256 else 0) + at_ die 5 + sliceOf off)

end Sys2Proof.Machine
end

