-- ==== Sys2Proof/Machine/Records.lean ====
section
/-! DEFINITION. Machine/Records.lean: park records in memory (R299) and the fault rings they go to (R365). -/

namespace Sys2Proof.Machine

/-- The flat address of a host physical address. -/
def hostPa (a : Nat) : Nat := Config.hostBase + a

/-- Bytes written to host memory. -/
def State.hostPut (s : State) (a : Nat) (bytes : List Byte) : State := { s with mem := s.mem.setN (hostPa a) bytes }

/-- A number in host memory. -/
def hostNat (s : State) (a n : Nat) : Nat := natOfBytes (s.mem.getN (hostPa a) n)

/-- One bit of a flag. -/
def flagBit (b : Bool) (i : Nat) : Nat := if b then 2 ^ i else 0

/-- The 128 bytes of a park record (R299). -/
def ParkRec.bytes (r : ParkRec) : List Byte :=
  bytesOfNat 8 r.lid.toNat ++
  bytesOfNat 8 (at_ r.tcode.toNat 48 + at_ r.code 40 + at_ r.ctx 38 + at_ (r.core % 64) 32 + r.team % 2 ^ 32) ++
  bytesOfNat 8 (at_ (r.lane % 65536) 32 + at_ r.tag.toNat 16 + flagBit r.impl 6 + flagBit r.x 5 + flagBit r.w 4 +
    flagBit r.svc 3 + r.die % 8) ++
  bytesOfNat 8 r.pc.toNat ++ bytesOfNat 8 r.rgnpc.toNat ++ bytesOfNat 8 r.rgncnt.toNat ++ bytesOfNat 8 r.addr.toNat ++
  bytesOfNat 8 r.isc.toNat ++ (List.range 8).flatMap (fun i => bytesOfNat 8 (r.ss.getD i 0).toNat)

/-- The ring registers of a function. -/
def State.func (s : State) (f : Nat) : FuncRegs := assoc s.hub.funcs f FuncRegs.reset

/-- The state with a function's ring registers replaced. -/
def State.setFunc (s : State) (f : Nat) (r : FuncRegs) : State := { s with hub := { s.hub with funcs := setAssoc s.hub.funcs f r } }

/-- Whether a fault ring has no room; a disabled ring counts as full (R365). -/
def FuncRegs.full (r : FuncRegs) : Bool := !r.fren || 2 ^ r.frlog2n ≤ (r.frpi - r.frci).toNat

/-- Writes one record into a fault ring, advances FRPI and signals FVEC (R365). -/
def State.ringPut (s : State) (r : ParkRec) : State :=
  let g := s.func r.func
  let s := s.hostPut (g.frbase.toNat + 128 * (g.frpi.toNat % 2 ^ g.frlog2n)) r.bytes
  let s := s.setFunc r.func { g with frpi := g.frpi + 1 }
  { s with out := s.out ++ [.irq r.func g.fvec] }

/-- A record that the hub receives: into the ring, or held while the ring is full; one without service that finds the ring and
the hold full is dropped and counted (R365). One with SVC = 1 is outstanding until a reply takes it (R300). -/
def State.raiseRecord (s : State) (r : ParkRec) : State :=
  let s := if r.svc then { s with hub := { s.hub with parks := s.hub.parks ++ [r] } } else s
  let g := s.func r.func
  if !g.full && g.held.isEmpty then s.ringPut r
  else if r.svc || g.held.length < 64 then s.setFunc r.func { g with held := g.held ++ [r] }
  else s.setFunc r.func { g with frlost := g.frlost + 1 }

/-- Moves held records into the ring, oldest first, while it has room (R365). -/
def State.flushHeld (s : State) (f : Nat) : State :=
  (s.func f).held.foldl
    (fun s r =>
      let g := s.func f
      if g.full then s
      else (s.setFunc f { g with held := g.held.drop 1 }).ringPut r)
    s

end Sys2Proof.Machine
end

