-- ==== Sys2Proof/Machine/Ops.lean ====
section
/-! DEFINITION. Machine/Ops.lean: the named operations every meaning is written over: finding and changing teams, contexts
and registers, how an instruction issues, completes or faults (R163), parking and resuming a context (R297 to R301), and
ending a launch (R151 to R153). -/

namespace Sys2Proof.Machine

/-! ### Teams and contexts -/

/-- The resident team in a slot. -/
def State.team? (s : State) (r : TeamRef) : Option Team := s.teams.find? (fun t => t.ref = r)

/-- The state with a resident team replaced by `t`, which keeps its slot. -/
def State.putTeam (s : State) (t : Team) : State :=
  { s with teams := s.teams.map (fun x => if x.ref = t.ref then t else x) }

/-- A context of a team. -/
def Team.ctx? (t : Team) (k : CtxKind) : Option Ctx :=
  match k with
  | .team => some t.team
  | .matrix => t.matrix
  | .access => t.access

/-- The team with one context replaced. -/
def Team.setCtx (t : Team) (k : CtxKind) (c : Ctx) : Team :=
  match k with
  | .team => { t with team := c }
  | .matrix => { t with matrix := some c }
  | .access => { t with access := some c }

/-- A launch in the hub by its serial. -/
def State.launch? (s : State) (sid : Nat) : Option Launch := s.hub.launches.find? (fun l => l.sid = sid)

/-- The state with one launch replaced. -/
def State.putLaunch (s : State) (l : Launch) : State :=
  { s with hub := { s.hub with launches := s.hub.launches.map (fun x => if x.sid = l.sid then l else x) } }

/-- The launch record of a team's launch, or an empty one. -/
def State.recordOf (s : State) (sid : Nat) : Option LaunchRec := (s.launch? sid).map (·.lrec)

/-- What an instruction executes in: a team and one of its contexts. -/
structure View where
  team : Team
  ctx : Ctx
  kind : CtxKind
  deriving DecidableEq, Repr

/-- The executing context. -/
def State.view (s : State) : Option View :=
  match s.team? s.cur.ref with
  | none => none
  | some t => (t.ctx? s.cur.kind).map (fun c => { team := t, ctx := c, kind := s.cur.kind })

/-- The reference of the executing context. -/
def View.ref (v : View) : CtxRef := { ref := v.team.ref, kind := v.kind }

/-- The state with the executing context and its team replaced. -/
def State.put (s : State) (v : View) (t : Team) (c : Ctx) : State := s.putTeam (t.setCtx v.kind c)

/-! ### Registers -/

/-- A scalar register; s0 reads zero (R14). -/
def Ctx.getS (c : Ctx) (n : Fin 64) : Word := if n = 0 then 0 else c.s[n]
/-- A scalar register by number. -/
def Ctx.getSN (c : Ctx) (n : Nat) : Word := c.getS (Fin.ofNat 64 n)
/-- Writes a scalar register; a write to s0 is discarded (R14). -/
def Ctx.setS (c : Ctx) (n : Fin 64) (x : Word) : Ctx := if n = 0 then c else { c with s := c.s.set n x }
/-- Writes a scalar register by number. -/
def Ctx.setSN (c : Ctx) (n : Nat) (x : Word) : Ctx := c.setS (Fin.ofNat 64 n) x

/-- The lanes 0 to NL − 1. -/
def lanesBelow (nl : Nat) : Mask := BitVec.ofNat 1024 (2 ^ nl - 1)

/-- Writes a mask register: lanes at or above NL are discarded (R17), and k0 is intersected with LIVE (R18). -/
def Team.setK (t : Team) (n : Fin 16) (m : Mask) : Team :=
  { t with k := t.k.set n (if n = 0 then m &&& lanesBelow t.nl &&& t.live else m &&& lanesBelow t.nl) }

/-- The summary word of a mask (R17): bit g is set exactly when group word g is nonzero. -/
def summary (m : Mask) : Nat :=
  (List.range 32).foldl (fun acc g => if m.toNat / 2 ^ (32 * g) % 2 ^ 32 = 0 then acc else acc + 2 ^ g) 0

/-- Whether a lane is in a mask. -/
def inMask (m : Mask) (l : Nat) : Bool := m.toNat.testBit l

/-- Number of lanes in a mask. -/
def maskCount (m : Mask) : Nat := (List.range 1024).foldl (fun n l => if inMask m l then n + 1 else n) 0

/-- The lanes of a mask below NL, ascending. -/
def lanesOf (nl : Nat) (m : Mask) : List Nat := (List.range nl).filter (fun l => inMask m l)

/-- MD fields of the team layout (R20). -/
def mdType (md : BitVec 26) : Nat := bits md.toNat 3 0
/-- SRCT. -/
def mdSrct (md : BitVec 26) : Nat := bits md.toNat 7 4
/-- RND. -/
def mdRnd (md : BitVec 26) : Nat := bits md.toNat 10 8
/-- GUARD. -/
def mdGuard (md : BitVec 26) : Nat := bits md.toNat 14 11
/-- SAT. -/
def mdSat (md : BitVec 26) : Bool := bitAt md.toNat 15
/-- FTZ. -/
def mdFtz (md : BitVec 26) : Bool := bitAt md.toNat 16

/-- The effective mask E (R39). -/
def View.eff (v : View) : Mask :=
  let g := mdGuard v.ctx.md
  let m := v.team.k[0] &&& v.team.live
  if g = 0 then m else m &&& v.team.k[Fin.ofNat 16 g]

/-- The lanes of E, ascending. -/
def View.lanes (v : View) : List Nat := lanesOf v.team.nl v.eff

/-- The mask registers a per-lane instruction reads (R46, R229): k0, and k[GUARD] when GUARD is nonzero. -/
def View.maskNames (v : View) : List RegName :=
  let g := mdGuard v.ctx.md
  if g = 0 then [.k 0] else [.k 0, .k g]

/-! ### Identity (R24) -/

/-- Cluster size of a launch record. -/
def LaunchRec.c (r : LaunchRec) : Nat := r.cw * r.ch

/-- Rank of a linear team index in its cluster. -/
def clrank (r : LaunchRec) (t : Nat) : Nat := t % (r.cw * r.ch)

/-- Logical core number of a core at placement number `core` in the mesh the die presents now (R10, R11, R314), or none when
the core has left the mesh. A core is named by its place (row × 8 + column) in the full mesh at placement. -/
def coreNow (d : Die) (core : Nat) : Option Nat :=
  let col := d.cols.idxOf (core % 8)
  let row := d.rows.idxOf (core / 8)
  if col < d.cols.length && row < d.rows.length then some (row * 8 + col) else none

/-- The die record of a number. -/
def State.die (s : State) (d : Nat) : Die := s.dies[Fin.ofNat 8 d]

/-- The state with a die record replaced. -/
def State.setDie (s : State) (d : Nat) (x : Die) : State := { s with dies := s.dies.set (Fin.ofNat 8 d) x }

/-! ### Streams of launches (R138) -/

/-- Whether `a` is a stream predecessor of `b`: taken earlier into the same stream of the same function, with no RELEASE_STREAM
between them (R138, R152). -/
def precedes (a b : Launch) : Bool :=
  a.func == b.func && a.lrec.stream == b.lrec.stream && a.sid < b.sid && b.base ≤ a.sid

/-- Whether a launch is open: admitted and not ended. -/
def Launch.isOpen (l : Launch) : Bool :=
  match l.st with
  | .waiting => false
  | _ => true

/-! ### Ending a launch (R151 to R153) -/

/-- Whether a cause that comes past a segment's commit point ends the launch before its next one: a memory error, a KILL, a lost die and
a mesh that its clusters no longer fit do (R35, R314, R360, R386). A conflict, an overflow and a host write are void then (R148, R150,
R155). -/
def outlastsCommit (status : Nat) : Bool := status == 0x43 || status == 0x44 || status == 0x45 || status == 0x46

/-- Marks an open launch for abort with a status, unless a cause was recorded before. Past the commit point of a segment the cause is
void, or ends it before its next one, if any (R148, R150). -/
def Launch.mark (l : Launch) (status : Nat) : Launch :=
  match l.st with
  | .running | .preparing => { l with st := .aborting status }
  | .committing =>
    if outlastsCommit status && l.seg + 1 < l.lrec.nseg && l.later.isNone then { l with later := some status } else l
  | _ => l

/-- A same-stream successor when predecessors abort, `sid` the youngest of them: it aborts as well if admitted, and is re-admitted after
the final outcome of each, which the youngest's comes last of (R152). -/
def Launch.follow (x : Launch) (sid : Nat) : Launch :=
  match x.st with
  | .running | .preparing | .aborting _ => { x.mark 0x47 with after := some (max sid (x.after.getD 0)) }
  | _ => x

/-- The youngest of the admitted launches that abort when `l` does, itself and its same-stream successors, before launch `x` (R152). -/
def State.fallenBefore (s : State) (l x : Launch) : Nat :=
  (s.hub.launches.filter (fun k => k.isOpen && precedes l k && precedes k x)).foldl (fun m k => max m k.sid) l.sid

/-- The hub aborts launch `sid` with `status`: the first cause stands (R153), and every admitted same-stream successor
aborts with ABORT_DEPENDENCY (R152). After its commit point only its later segments are affected (R150). -/
def State.requestAbort (s : State) (sid status : Nat) : State :=
  match s.launch? sid with
  | none => s
  | some l =>
    match l.st with
    | .running | .preparing =>
      { s with hub := { s.hub with launches := s.hub.launches.map (fun x =>
          if x.sid = sid then x.mark status else if precedes l x then x.follow (s.fallenBefore l x) else x) } }
    | .committing => s.putLaunch (l.mark status)
    | _ => s

/-! ### The security alarm (R377, R378) -/

/-- The configured level of an alarm source (R377). -/
def Alarm.levelOf (a : Alarm) (source : Nat) : Nat := bits a.cfg.toNat (2 * source + 1) (2 * source)

/-- The alarm record of a source (R380). -/
def alarmRecord (source level : Nat) (now : Word) : ParkRec :=
  { func := 0, sid := 0, lid := 0, tcode := 1, code := 0, ctx := 0, core := 0, team := 0xFFFFFFFF, lane := source, tag := 0
    impl := false, x := false, w := false, svc := false, die := 0, pc := 0, rgnpc := 0, rgncnt := 0
    addr := BitVec.ofNat 64 level, isc := now, ss := [] }

/-- The actions of level 3: the wrapping and session keys go, and KEYLOCK stands until a cold boot (R378). -/
def State.zeroise (s : State) : State :=
  { s with
    alarm := { s.alarm with keylock := true }
    sec := { s.sec with
      boot := { s.sec.boot with wrapKey := false }
      spdm := { s.sec.spdm with pendingSessions := [], sessions := [] } } }

/-- The actions of level 2: the command processor stops, every open launch short of its commit point ends with ABORT_KILLED and no
retry, later ones finish, and the cores stop (R378). The fence of CXL follows when no launch is open: `cxlFenced`. -/
def State.stopAll (s : State) : State :=
  { s with
    alarm := { s.alarm with cpStopped := true, coresStopped := true }
    hub := { s.hub with launches := s.hub.launches.map (fun l =>
      if l.isOpen then { l.mark 0x44 with killPending := true } else l) } }

/-- Whether CXL.mem, CXL.cache and the Brory ports are fenced: an alarm reached level 2 and every launch has ended (R378). -/
def State.cxlFenced (s : State) : Bool := s.alarm.cpStopped && s.hub.launches.all (fun l => !l.isOpen)

/-- Writes the alarm records that waited for the actions of level 2, once those are done (R378). -/
def State.reportAlarms (s : State) : State :=
  if !s.cxlFenced then s
  else
    let s' := s.alarm.due.foldl State.raiseRecord s
    { s' with alarm := { s'.alarm with due := [] } }

/-- A source fires: nothing at level 0, else its bit, the level, and the actions of its level and the lower ones, the highest first
(R377, R378). -/
def State.raiseAlarm (s : State) (source : Nat) : State :=
  let level := s.alarm.levelOf source
  if level = 0 then s
  else
    let s : State := { s with alarm := { s.alarm with
      src := s.alarm.src ||| BitVec.ofNat 8 (2 ^ source), level := max s.alarm.level level } }
    let s := if 3 ≤ level then s.zeroise else s
    let x := alarmRecord source s.alarm.level s.time
    if 2 ≤ level then { s.stopAll with alarm := { s.stopAll.alarm with due := s.stopAll.alarm.due ++ [x] } }.reportAlarms
    else s.raiseRecord x

/-- Notes progress of a launch (R313). -/
def State.progress (s : State) (sid : Nat) : State :=
  match s.launch? sid with
  | none => s
  | some l => s.putLaunch { l with lastProgress := s.time }

/-! ### Faults and parking (R163, R299, R300) -/

/-- A fault of an instruction: its code, and for an access the lane, address and need; the address of an engine window is no virtual
one, and no walk stands behind it (R87). -/
structure Flt where
  code : FaultCode
  lane : Option Nat := none
  addr : Word := 0
  engine : Bool := false
  w : Bool := false
  x : Bool := false
  deriving DecidableEq, Repr

/-- The 8-bit fault code (R174). -/
def FaultCode.toNat : FaultCode → Nat
  | .illegalOpcode => 0x01
  | .illegalEncoding => 0x02
  | .illegalRegister => 0x03
  | .illegalContext => 0x04
  | .illegalLookahead => 0x05
  | .misaligned => 0x06
  | .stashRange => 0x07
  | .pageNotPresent => 0x08
  | .pagePermission => 0x09
  | .accessTable => 0x0A
  | .illegalMode => 0x0B
  | .engineCommand => 0x0C
  | .matrixShape => 0x0E
  | .barrierMisuse => 0x0F
  | .queueMisuse => 0x10
  | .trap => 0x11
  | .brk => 0x12

/-- Whether the hub awaits a reply to a record (R300). -/
def serviced (code : FaultCode) (addr : Word) : Bool :=
  match code with
  | .pageNotPresent => true
  | .pagePermission => canonical addr
  | .trap | .brk => true
  | _ => false

/-- The CTX code of a context kind (R299). -/
def CtxKind.toNat : CtxKind → Nat
  | .team => 0
  | .matrix => 1
  | .access => 2

/-! ### Lost homes (R379, R386) -/

/-- Whether a sector's home is a die that has been fenced (R386). -/
def State.homeFenced (s : State) (sector : Nat) : Bool := dieOf (64 * sector) < 8 && (s.die (dieOf (64 * sector))).fenced

/-- Whether a sector lies in a retired frame (R379). -/
def State.homeRetired (s : State) (sector : Nat) : Bool :=
  dieOf (64 * sector) < 8 && (s.die (dieOf (64 * sector))).retired.contains (offOf (64 * sector) / 4096 * 4096)

/-- The abort that an access to a sector brings by itself: to a fenced die (R386) or a retired frame (R379). -/
def State.lostHome (s : State) (sector : Nat) : Option Nat :=
  if s.homeFenced sector then some 0x45 else if s.homeRetired sector then some 0x43 else none

/-- The abort that the walk for an address of a launch brings by itself: it reads a table in a lost home (R379, R386; log 32). -/
def State.lostTable (s : State) (l : Launch) (a : Word) : Option Nat := (tableSectors s l.asid a.toNat).findSome? s.lostHome

/-- The abort of a launch, by number, that the walk of an access which an access table denies has brought before the denial (R379, R386). -/
def State.lostWalk (s : State) (code : FaultCode) (sid : Nat) (a : Word) : Option Nat :=
  if code = .accessTable then (s.launch? sid).bind (fun l => s.lostTable l a) else none

/-- The launch ends with ABORT_FAULT for an access that no service resolves; a denial by an access table then raises its alarm (R300,
R315, R377): the launch's first cause is the fault, or the abort `lost` that the walk of the access has brought before (R379, R386). -/
def State.deny (s : State) (code : FaultCode) (sid : Nat) (lost : Option Nat := none) : State :=
  let s := s.requestAbort sid (lost.getD 0x42)
  if code = .accessTable then s.raiseAlarm 6 else s

/-- CORE of a record: the core's logical number now, or a free one within the presented mesh (R10, R11; log 9). -/
def coreName (d : Die) (core : Nat) : Nat :=
  (coreNow d core).getD
    ((Config.coreOffMesh core).toNat % (max 1 d.rows.length) * 8 + (Config.coreOffMesh core).toNat / 8 % (max 1 d.cols.length))

/-- Closes every open region of a team with a code, discarding its held writes (R249). -/
def Team.closeRegions (t : Team) (code : Nat) : Team :=
  { t with regions := t.regions.map (fun r => if r.code = 0 then { r with code := code, reads := [], writes := [] } else r) }

/-- The park record of the executing context (R299). -/
def parkRecord (s : State) (v : View) (f : Flt) (tcode : BitVec 16) (ss : List Word) : ParkRec :=
  let l := s.launch? v.team.launch
  { func := (l.map (·.func)).getD 0, sid := v.team.launch, lid := (l.map (·.lrec.lid)).getD 0
    tcode := tcode, code := f.code.toNat, ctx := v.kind.toNat
    core := coreName (s.die v.team.ref.die) v.team.ref.core
    team := v.team.t, lane := f.lane.getD 0xFFFF
    tag := if v.ctx.impl then 0 else v.ctx.tag, impl := v.ctx.impl, x := f.x, w := f.w
    svc := serviced f.code f.addr, die := v.team.ref.die, pc := v.ctx.pc
    rgnpc := v.ctx.rgnpc, rgncnt := v.ctx.rgncnt, addr := f.addr, isc := v.ctx.isc, ss := ss }

/-- The run state of a context parked by a record of this code (R309). -/
def parkState (code : FaultCode) : RunState :=
  match code with
  | .trap => .parkedTrap
  | .brk => .parkedBrk
  | _ => .parkedFault

/-- Taking a fault, TRAP or BRK (R299): the context stops with all its state as it was, a team context's slot becomes PARKED (R49), its
open atomic regions close with code 4, as they do at a TRAP of any context (R196, R249, R296), and the record goes to the hub. The hub
ends the launch at once when no reply can resolve the fault (R300). -/
def park (s : State) (v : View) (f : Flt) (tcode : BitVec 16) (ss : List Word) : State :=
  let c := { v.ctx with run := parkState f.code }
  let t := v.team.setCtx v.kind c
  let t := if v.kind = .team then { t with slot := .parked, bag := [] } else t
  let rec_ := parkRecord s v f tcode ss
  let lost := if f.engine then none else s.lostWalk f.code v.team.launch f.addr
  let t := if v.kind = .team || f.code = .trap then t.closeRegions 4 else t
  let s := (s.putTeam t).raiseRecord rec_
  if rec_.svc then s else s.deny f.code v.team.launch lost

/-! ### Lookahead (R44 to R47) -/

/-- Whether the instruction now issuing lies in a window one of whose pending names it reads or writes (R46). -/
def lookaheadHit (ws : List Window) (names : List RegName) : Bool :=
  ws.any (fun w => w.left ≠ 0 && w.names.any (fun n => names.contains n))

/-- The windows after one more instruction: each counts down, and one whose boundary has been passed goes. -/
def tickWindows (ws : List Window) : List Window :=
  ws.filterMap (fun w => if w.left = 0 then none else some { w with left := w.left - 1 })

/-- s0 is never a pending destination (R44). -/
def pendingNames (ns : List RegName) : List RegName := ns.filter (fun n => n ≠ .s 0)

/-! ### Issue and completion -/

/-- What the steps 3 to 7 of R163 test for one instruction: encoding tests that depend on the context, the contexts it runs
in (R13), register extents, mode values, and the register names it reads and writes (R46). -/
structure Req where
  ctxs : CtxKind → Bool := fun _ => true
  enc : Bool := true
  regs : Bool := true
  mode : Bool := true
  names : List RegName := []

/-- The first fault of steps 3 to 7 (R163). -/
def Req.fault (r : Req) (v : View) : Option FaultCode :=
  if !r.enc then some .illegalEncoding
  else if !r.ctxs v.kind then some .illegalContext
  else if !r.regs then some .illegalRegister
  else if !r.mode then some .illegalMode
  else if lookaheadHit v.ctx.windows r.names then some .illegalLookahead
  else none

/-- The team context alone (R13). -/
def teamOnly (k : CtxKind) : Bool := k == .team
/-- The matrix context alone. -/
def matrixOnly (k : CtxKind) : Bool := k == .matrix
/-- The access context alone. -/
def accessOnly (k : CtxKind) : Bool := k == .access

/-- One instruction of the executing context: the tests of R163, then its effect; a fault at any step parks the context. The
state is as it was before the instruction when it faults. -/
def instr (s : State) (req : View → Req) (body : View → Except Flt State) : Host.Outcome State Fault Refusal :=
  match s.view with
  | none => .refused .noContext
  | some v =>
    match (req v).fault v with
    | some code => .next (park s v { code := code } 0 [])
    | none =>
      match body v with
      | .ok s' => .next s'
      | .error f => .next (park s v f 0 [])

/-- The context after an instruction that continues at `npc`: ISC counts it (R27), every window counts down, and it may open
one of its own. -/
def Ctx.advance (c : Ctx) (npc : Word) (opened : Option Window) : Ctx :=
  { c with pc := npc, isc := c.isc + 1, windows := tickWindows c.windows ++ opened.toList }

/-- The context after an instruction that continues at PC + 4. -/
def Ctx.step4 (c : Ctx) : Ctx := c.advance (c.pc + 4) none

/-- The context after an instruction that ends its region (R295, R296). -/
def Ctx.endRegion (c : Ctx) : Ctx := { c with rgnpc := c.pc, rgncnt := c.isc, impl := true, tag := 0 }

/-- Completion: the executing context becomes `c` and its launch has made progress (R313). -/
def State.retire (s : State) (v : View) (t : Team) (c : Ctx) : State := s.put v { t with progress := s.time } c

/-- What every instruction of R296 does beside its effect: the region ends, the team is no longer restartable (R307), and
every open atomic region of the team closes with code 4 (R249). -/
def State.retireEnding (s : State) (v : View) (t : Team) (c : Ctx) : State :=
  s.retire v ({ t with restartable := false }.closeRegions 4) c.endRegion

/-- A window with its pending names, if there are any (R44, R47). -/
def openWindow (op la : Nat) (names : List RegName) : Option Window :=
  match pendingNames names with
  | [] => none
  | ns => some { op := op, left := la, names := ns }

/-! ### Operations in flight -/

/-- An operation by number. -/
def State.op? (s : State) (id : Nat) : Option Op := s.ops.find? (fun o => o.id = id)

/-- The state with one operation replaced. -/
def State.putOp (s : State) (o : Op) : State := { s with ops := s.ops.map (fun x => if x.id = o.id then o else x) }

/-- Issues an operation: it takes the next number. -/
def State.addOp (s : State) (own : CtxRef) (lv : BitVec 16) (path : Option Path) (kind : OpKind) : State :=
  { s with ops := s.ops ++ [{ id := s.serial, own := own, lv := lv, path := path, kind := kind, done := false }]
           serial := s.serial + 1 }

/-- Removes finished operations in issue order (R172): one that finished early stays until every earlier one of its team and
path has finished. -/
def sweepOps (ops : List Op) : List Op :=
  ops.filter (fun x => !x.done || (x.path.isSome &&
    ops.any (fun y => !y.done && y.id < x.id && y.path == x.path && y.own.ref == x.own.ref)))

/-- Marks an operation finished. -/
def State.finishOp (s : State) (id : Nat) : State :=
  { s with ops := sweepOps (s.ops.map (fun o => if o.id = id then { o with done := true } else o)) }

/-- The in-flight counter of a team's path (R172). -/
def State.counter (s : State) (r : TeamRef) (p : Path) : Nat :=
  (s.ops.filter (fun o => o.own.ref = r && o.path = some p)).length

/-- Whether the results of operation `id` have been written. -/
def State.written (s : State) (id : Nat) : Bool := s.ops.all (fun o => o.id ≠ id || o.done)

/-- The ready queue's tail receives a slot (R50). -/
def State.makeReady (s : State) (r : TeamRef) : State :=
  match s.team? r with
  | none => s
  | some t => { (s.putTeam { t with slot := .ready }) with readyQ := s.readyQ ++ [r] }

/-- A team context enters WAITING (R49); the instruction reissues later. Other contexts only stop issuing. -/
def State.await (s : State) (v : View) (w : Wait) : State :=
  match v.kind with
  | .team => s.putTeam { v.team with slot := .waiting w }
  | _ => s

/-- Removes the park records of a context of a launch's team. -/
def State.dropPark (s : State) (sid team ctx : Nat) : State :=
  { s with hub := { s.hub with parks := s.hub.parks.filter (fun r => !(r.sid == sid && r.team == team && r.ctx == ctx)) } }

/-- The context after resumption (R297, R301, R196, R197): from its region entry after a fault, after the instruction for
BRK and TRAP, the latter with the reply's results and a new region. No window stays open (R198). Whether the region is replayable is not
checked, and no register or memory is restored: a replay computes from what the partial run has left (R298). -/
def Ctx.resume (c : Ctx) (rv1 rv2 : Word) : Ctx :=
  let c := { c with windows := [], hold := none }
  match c.run with
  | .parkedFault => { c with pc := c.rgnpc, isc := c.rgncnt, run := .running }
  | .parkedTrap =>
    let c := (c.setSN 1 rv1).setSN 2 rv2
    ({ c with pc := c.pc + 4, isc := c.isc + 1, run := .running }).endRegion
  | .parkedBrk => { c with pc := c.pc + 4, isc := c.isc + 1, run := .running }
  | _ => c

/-- A team with a context of it resumed: one that goes back to its region entry discards the team's open atomic regions (R249, R297), and
everything else of the team is what the partial run has left (R298). -/
def Team.resumeCtx (t : Team) (k : CtxKind) (c : Ctx) (rv1 rv2 : Word) : Team :=
  let t := if c.run = .parkedFault then t.closeRegions 4 else t
  t.setCtx k (c.resume rv1 rv2)

end Sys2Proof.Machine
end

