-- ==== Sys2Proof/Machine/Flags.lean ====
section
/-! DEFINITION. Machine/Flags.lean: the sticky flags of a context (R25) and the draws of RSX that each rounding makes (R68). -/

namespace Sys2Proof.Machine

/-- ORs flags into FPFL (R25). -/
def Ctx.raise (c : Ctx) (f : Flags) : Ctx := { c with fpfl := c.fpfl ||| f }

/-- The OR of a list of flags. -/
def flagsOr (l : List Flags) : Flags := l.foldl (· ||| ·) 0

/-- SEED of the launch a team runs in (R23). -/
def seedOf (s : State) (t : Team) : Word := ((s.recordOf t.launch).map (·.seed)).getD 0

/-- The index G of a lane (R68). -/
def laneG (t : Team) (l : Nat) : Word := BitVec.ofNat 64 (t.t * 1024 + l)

/-- The draw for element `e` of lane `l` of a team vector instruction that issues at `isc` (R68). -/
def laneDraw (s : State) (t : Team) (isc : Word) (l e : Nat) : Nat :=
  rsxDraw (seedOf s t) (laneG t l) isc (BitVec.ofNat 64 e)

/-- How a team vector instruction under `md`, issued at `isc`, rounds element `e` of lane `l`. The draw is made for RSX
only. -/
def laneRnd (s : State) (t : Team) (md : BitVec 26) (isc : Word) (l e : Nat) : Rnd :=
  { mode := mdRnd md, u := if mdRnd md = 5 then laneDraw s t isc l e else 0, ftz := mdFtz md }

/-- Whether RND holds one of the six modes (R388). -/
def rndOk (md : BitVec 26) : Bool := mdRnd md ≤ 5

end Sys2Proof.Machine
end

