-- ==== Sys2Proof/Machine/Operands.lean ====
section
/-! DEFINITION. Machine/Operands.lean: every operand form: vector elements in lanes and pairs (R16, R56, R58, R210), packed
halves (R212), vector and scalar memory addresses (R230, R235), the register tests (R159), and the names of R46. -/

namespace Sys2Proof.Machine

/-! ### Vector registers -/

/-- The word of lane `l` of register `r`. -/
def Team.lane (t : Team) (r l : Nat) : Lane := (t.v.getD r []).getD l 0

/-- The bits of an element of lane `l` at register `r`: the lane word, or the pair with bits [31:0] in `r` (R16). -/
def Team.elem (t : Team) (wide : Bool) (r l : Nat) : Nat :=
  if wide then (t.lane r l).toNat + 2 ^ 32 * (t.lane (r + 1) l).toNat else (t.lane r l).toNat

/-- Rewrites the lanes of a register for which `f` answers. -/
def Team.setRow (t : Team) (r : Nat) (f : Nat → Option Lane) : Team :=
  { t with v := t.v.modify r (fun row => (List.zipIdx row).map (fun p => (f p.2).getD p.1)) }

/-- Writes `f l` into register `r`, or the pair at `r`, for each lane of `e` for which `f` answers; other lanes keep their
values (R38). -/
def Team.setElems (t : Team) (wide : Bool) (r : Nat) (e : Mask) (f : Nat → Option Nat) : Team :=
  let g (sh : Nat) (l : Nat) : Option Lane := if inMask e l then (f l).map (fun x => BitVec.ofNat 32 (x / 2 ^ sh)) else none
  if wide then (t.setRow r (g 0)).setRow (r + 1) (g 32) else t.setRow r (g 0)

/-- The lane word of an element of type `t`: sign-extended for signed integers, else with zeros above (R56, R58). -/
def wordOf (ty n : Nat) : Nat :=
  if isIntType ty && isSigned ty && typeBits ty < 32 then wrapBits 32 (signedOf (typeBits ty) n) else n % 2 ^ typeBits ty

/-- Whether register `r` may be named, as a pair when `wide` (R16). -/
def Team.vOk (t : Team) (wide : Bool) (r : Nat) : Bool := r < t.nv && (!wide || (r % 2 == 0 && r + 1 < t.nv))

/-- Whether `n` registers from `r` lie below NV. -/
def Team.vRange (t : Team) (r n : Nat) : Bool := r + n ≤ t.nv

/-- The names of a vector operand. -/
def vNames (wide : Bool) (r : Nat) : List RegName := if wide then [.v r, .v (r + 1)] else [.v r]

/-! ### Addresses -/

/-- x(l) := sA + zero-extend(vB[l]) (R230). -/
def laneAddr (v : View) (a : Fin 64) (b : Nat) (l : Nat) : Word :=
  v.ctx.getS a + BitVec.ofNat 64 (v.team.lane b l).toNat

/-- x := sA + sB (R230). -/
def scalarAddr (v : View) (a b : Fin 64) : Word := v.ctx.getS a + v.ctx.getS b

/-- Access size in bytes of a size code (R168). -/
def sizeBytes (z : Fin 4) : Nat := 2 ^ z.val

/-- Whether an address is aligned to `n` bytes (R85). -/
def aligned (x : Word) (n : Nat) : Bool := x.toNat % n == 0

/-- The launch of a view. -/
def State.launchOf (s : State) (v : View) : Option Launch := s.launch? v.team.launch

/-- ASID and function of a team's launch. -/
def State.asidOf (s : State) (t : Team) : Nat × Nat :=
  match s.launch? t.launch with
  | some l => (l.asid, l.func)
  | none => (0, 0)

/-- Translation and permission of an access of a team (R84, R100). -/
def State.resolveFor (s : State) (t : Team) (n : Need) (va : Word) : Except FaultCode Nat :=
  let (asid, func) := s.asidOf t
  resolve s asid func n va

/-- The team that a stash address names, with the offset in its allocation, or STASH_RANGE (R86): own stash has bit 31
clear; cluster stash has bit 31 set, a rank below C, and the member resident. -/
def stashPlace (s : State) (t : Team) (lane : Nat) (cluster : Bool) (x : Word) (n : Nat) : Except FaultCode (TeamRef × Nat) :=
  let a := x.toNat
  if 2 ^ 32 ≤ a then .error .stashRange
  else if !cluster then
    if a < 2 ^ 31 && a + n ≤ t.stashLen then .ok (t.ref, a) else .error .stashRange
  else if a < 2 ^ 31 then .error .stashRange
  else
    let rank := bits a 30 27
    let off := a % 2 ^ 27
    match s.recordOf t.launch with
    | none => .error .stashRange
    | some r =>
      if r.c ≤ rank || t.stashLen < off + n then .error .stashRange
      else
        match s.teams.find? (fun m => m.launch = t.launch && m.cluster = t.cluster && clrank r m.t = rank) with
        | some m => .ok (m.ref, off)
        | none =>
          -- a member that has left DRAINING: the access completes or faults, which is open (log 10)
          match s.former.find? (fun m => m.launch = t.launch && m.cluster = t.cluster && clrank r m.t = rank) with
          | some m => if Config.formerStashCompletes s.tick lane a then .ok (m.ref, off) else .error .stashRange
          | none => .error .stashRange

end Sys2Proof.Machine
end

