-- ==== Sys2Proof/Machine/Xacc.lean ====
section
/-! DEFINITION. Machine/Xacc.lean: the exact accumulator XA640 (R72 to R75), its 96-byte record, and the 320-bit cell of the
exact combining of reductions at memory (R78 to R80). -/

namespace Sys2Proof.Machine

/-! ### XA640 -/

/-- The element after MZERO (R73). -/
def Xa.zero : Xa := { v := 0, pinf := false, ninf := false, nan := false }

/-- Adds an exact multiple of 2^−298: a sum outside [−2^639, 2^639) keeps its low bits and sets the flag of its sign (R73). -/
def Xa.addInt (x : Xa) (n : Int) : Xa :=
  let sum := x.v.toInt + n
  { x with
    v := BitVec.ofInt 640 sum
    pinf := x.pinf || decide ((2 ^ 639 : Nat) ≤ sum)
    ninf := x.ninf || decide (sum < -((2 ^ 639 : Nat) : Int)) }

/-- Adds an exact value (R73). A finite value is a multiple of 2^−298. -/
def Xa.add (x : Xa) (v : FVal) : Xa :=
  match v with
  | .nan => { x with nan := true }
  | .inf neg => if neg then { x with ninf := true } else { x with pinf := true }
  | .fin neg m e => x.addInt (sigAt neg m e (-298))

/-- Adds another element, its flags included. -/
def Xa.join (x y : Xa) : Xa :=
  let z := x.addInt y.v.toInt
  { z with pinf := z.pinf || y.pinf, ninf := z.ninf || y.ninf, nan := z.nan || y.nan }

/-- The value an element drains (R74). -/
def Xa.value (x : Xa) : FVal :=
  if x.nan || (x.pinf && x.ninf) then .nan
  else if x.pinf then .inf false
  else if x.ninf then .inf true
  else .fin (x.v.toInt < 0) x.v.toInt.natAbs (-298)

/-- Drains an element to a type (R74): one rounding, by the rules C and Q of R71. -/
def Xa.drain (x : Xa) (ty : Nat) (r : Rnd) : Nat × Flags :=
  if isIntType ty then toIntC ty r x.value else toFloatQ ty r x.value

/-- The flags word of a record (R75). -/
def Xa.flagWord (x : Xa) : Nat := (if x.pinf then 1 else 0) + (if x.ninf then 2 else 0) + (if x.nan then 4 else 0)

/-- The XW record of an element (R75). -/
def Xa.record (x : Xa) : List Byte :=
  bytesOfNat 80 x.v.toNat ++ bytesOfNat 4 x.flagWord ++ List.replicate 12 0

/-- The element of an XW record; reserved bits and bytes are ignored (R75). -/
def Xa.ofRecord (b : List Byte) : Xa :=
  let f := natOfBytes ((b.drop 80).take 4)
  { v := BitVec.ofNat 640 (natOfBytes (b.take 80)), pinf := bitAt f 0, ninf := bitAt f 1, nan := bitAt f 2 }

/-! ### Cells of exact combining (R78, R79) -/

/-- A cell that starts at the exact value of an element. -/
def ExCell.start (off ty : Nat) (va : Word) (bits : Nat) : ExCell :=
  let c : ExCell := { off := off, ty := ty, va := va, v := 0, pinf := false, ninf := false, nan := false, negZero := false }
  match fdecode ty bits with
  | .nan => { c with nan := true }
  | .inf neg => if neg then { c with ninf := true } else { c with pinf := true }
  | .fin neg m e => { c with v := BitVec.ofInt 320 (sigAt neg m e (-149)), negZero := neg && m == 0 }

/-- Adds a contribution, taken exactly (R246). -/
def ExCell.contribute (c : ExCell) (bits : Nat) : ExCell :=
  match fdecode c.ty bits with
  | .nan => { c with nan := true, negZero := false }
  | .inf neg => if neg then { c with ninf := true, negZero := false } else { c with pinf := true, negZero := false }
  | .fin neg m e =>
    { c with v := c.v + BitVec.ofInt 320 (sigAt neg m e (-149)), negZero := c.negZero && neg && m == 0 }

/-- The value of a cell: an exact zero is −0 when everything in it was −0 or the recorded RND is RDN (R79). -/
def ExCell.value (c : ExCell) (rnd : Nat) : FVal :=
  if c.nan || (c.pinf && c.ninf) then .nan
  else if c.pinf then .inf false
  else if c.ninf then .inf true
  else if c.v = 0 then .fin (c.negZero || rnd == 3) 0 0
  else .fin (c.v.toInt < 0) c.v.toInt.natAbs (-149)

/-- The bits any access observes: the cell rounded once under the entry's RND, with the SEED of its launch (R79, R68). -/
def ExCell.observe (c : ExCell) (rnd : Nat) (seed : Word) : Nat :=
  if 5 < rnd then Config.reservedRound c.va.toNat c.v.toNat % 2 ^ typeBits c.ty
  else (roundVal c.ty { mode := rnd, u := if rnd = 5 then rsxDraw seed c.va 0 0 else 0 } (c.value rnd)).1

end Sys2Proof.Machine
end

