-- ==== Sys2Proof/Machine/Access.lean ====
section
/-! DEFINITION. Machine/Access.lean: what an access does at the home of a sector and what each party reads: version records
and conflicts (R141 to R148, R389), copies and their owners (R89 to R93), stash windows (R103 to R108), exact combining
entries (R79, R80), and the pending writes that a core or a die sees early (R117, R118). A function that answers
`Except State State` answers `.ok` when the access has been made and `.error` when it waits, with what it set in motion. -/

namespace Sys2Proof.Machine

/-! ### Parties -/

/-- Who makes an access: its launch (none for the host and Brory peers), and the die and core whose early writes it sees; of its core's
only those issued before a given operation, when its own context has a later store of the location in flight (R113). -/
structure Who where
  launch : Option Launch
  die : Option Nat
  core : Option Nat
  before : Option Nat := none
  deriving DecidableEq, Repr

/-- The host, or a peer package (R133). -/
def Who.host : Who := { launch := none, die := none, core := none }

/-- A context of a team. -/
def State.whoOf (s : State) (t : Team) : Who :=
  { launch := s.launch? t.launch, die := some t.ref.die, core := some t.ref.core }

/-- Whether an open launch still makes accesses: it is not being aborted (R151). -/
def Launch.acts (l : Launch) : Bool :=
  match l.st with
  | .running | .preparing | .committing => true
  | .waiting | .aborting _ => false

/-- The open launch that holds a version tag and is not being aborted. -/
def State.holder (s : State) (lv : BitVec 16) : Option Launch :=
  if lv = 0 then none else s.hub.launches.find? (fun l => l.acts && l.lv == lv)

/-- Whether a party sees the tentative data of a version: its own launch's or a stream predecessor's (R144). -/
def State.sees (s : State) (w : Who) (lv : BitVec 16) : Bool :=
  match w.launch with
  | none => false
  | some l => lv != 0 && (lv == l.lv || ((s.holder lv).map (fun k => precedes k l)).getD false)

/-! ### Stash windows as locations (R103) -/

/-- Field width, stride and offset of an entry's parameters (R102). -/
def MapEntry.w (m : MapEntry) : Nat := bits m.m3.toNat 40 32
/-- Record stride. -/
def MapEntry.stride (m : MapEntry) : Nat := bits m.m2.toNat 39 0
/-- Field offset. -/
def MapEntry.f (m : MapEntry) : Nat := bits m.m3.toNat 31 0
/-- Window offset in the stash. -/
def MapEntry.woff (m : MapEntry) : Nat := bits m.m0.toNat 31 0
/-- Window length. -/
def MapEntry.len (m : MapEntry) : Nat := bits m.m0.toNat 63 32

/-- G(j), the global byte of window byte j (R103). -/
def MapEntry.g (m : MapEntry) (j : Nat) : Word :=
  m.m1 + BitVec.ofNat 64 (j / m.w * m.stride + m.f + j % m.w)

/-- The entry whose window holds a byte of a resident team's stash allocation; a former allocation's bytes stand for nothing but
themselves (R86). -/
def State.windowOf (s : State) (r : TeamRef) (off : Nat) : Option MapEntry :=
  if (s.team? r).isSome then s.maps.find? (fun m => m.home == some r && m.woff ≤ off && off < m.woff + m.len) else none

/-- Whether any byte of a stash range lies in a window of the team. -/
def State.inWindow (s : State) (r : TeamRef) (off n : Nat) : Bool :=
  (s.team? r).isSome && s.maps.any (fun m => m.home == some r && m.woff < off + n && off < m.woff + m.len)

/-- A valid sector of an entry. -/
def MapEntry.sec? (m : MapEntry) (ix : Nat) : Option WinSector := m.secs.find? (fun x => x.ix = ix)

/-- The entry with a sector replaced or added. -/
def MapEntry.setSec (m : MapEntry) (x : WinSector) : MapEntry :=
  { m with secs := m.secs.filter (fun y => y.ix ≠ x.ix) ++ [x] }

/-- The entry without a sector: invalid. -/
def MapEntry.dropSec (m : MapEntry) (ix : Nat) : MapEntry := { m with secs := m.secs.filter (fun y => y.ix ≠ ix) }

/-- Whether two entries are the same entry: core, launch, number (R104). -/
def MapEntry.same (a b : MapEntry) : Bool := a.die == b.die && a.core == b.core && a.lv == b.lv && a.n == b.n

/-- The entry of a launch on a core. -/
def State.map? (s : State) (die core : Nat) (lv : BitVec 16) (n : Nat) : Option MapEntry :=
  s.maps.find? (fun m => m.die == die && m.core == core && m.lv == lv && m.n == n)

/-- The state with one entry replaced. -/
def State.putMap (s : State) (m : MapEntry) : State :=
  { s with maps := s.maps.map (fun x => if x.same m then m else x) }

/-- Whether a window sector owns its global sectors (R106). -/
def WinSector.owns (x : WinSector) : Bool := x.st == .M || x.st == .O

/-- The dirty byte a window sector holds of a flat address. -/
def WinSector.dirtyByte (x : WinSector) (pa : Nat) : Option Byte :=
  let i := x.pas.idxOf pa
  if i < x.pas.length && x.dirty.getLsbD i then some (x.bytes.getD i 0) else none

/-- The order of the access faults. -/
def accessRank (c : FaultCode) : Nat :=
  match c with
  | .misaligned => 0
  | .stashRange => 1
  | .pageNotPresent | .pagePermission => 2
  | _ => 3

/-- The fault reported among those of several bytes: the first kind in the order of step 9, of the first byte that has it. -/
def worstAccess (l : List (FaultCode × Word)) : Option (FaultCode × Word) :=
  l.foldl
    (fun b e =>
      match b with
      | none => some e
      | some x => if accessRank e.1 < accessRank x.1 then some e else some x) none

/-- The translation of each byte of a window sector under the launch of its entry, or the first fault. -/
def windowPas (s : State) (m : MapEntry) (ix : Nat) (n : Need) : Except (FaultCode × Word) (List Nat) :=
  let l := s.holder m.lv
  let asid := (l.map (·.asid)).getD 0
  let func := (l.map (·.func)).getD 0
  (List.range 64).foldl
    (fun acc i =>
      match acc with
      | .error e => .error e
      | .ok ps =>
        let va := m.g (64 * ix + i)
        match resolve s asid func n va with
        | .ok pa => .ok (ps ++ [pa])
        | .error e => .error (e, va))
    (.ok [])

/-! ### Locations -/

/-- A location (R110): a global byte, or a stash byte outside every window. -/
inductive Loc where
  | g (pa : Nat)
  | s (owner : TeamRef) (off : Nat)
  deriving DecidableEq, Repr

/-- The location of a stash byte: the global byte it stands for inside a window (R103). -/
def State.stashLoc (s : State) (r : TeamRef) (off : Nat) : Loc :=
  match s.windowOf r off with
  | none => .s r off
  | some m =>
    let l := s.holder m.lv
    match resolve s ((l.map (·.asid)).getD 0) ((l.map (·.func)).getD 0) {} (m.g (off - m.woff)) with
    | .ok pa => .g pa
    | .error _ => .s r off

/-- The locations of `n` bytes of a place. -/
def State.locs (s : State) (p : Place) (n : Nat) : List Loc :=
  match p with
  | .glob _ pa => (List.range n).map (fun i => .g (pa + i))
  | .stash r off => (List.range n).map (fun i => s.stashLoc r (off + i))

/-- Whether two lists of locations meet. -/
def meets (a b : List Loc) : Bool := a.any (fun x => b.contains x)

/-- Inserts an element into a list sorted by a key. -/
def insertBy {α : Type} (key : α → Nat) (x : α) : List α → List α
  | [] => [x]
  | y :: r => if key x < key y then x :: y :: r else y :: insertBy key x r

/-- A list sorted by a key; equal keys keep their order. -/
def sortBy {α : Type} (key : α → Nat) (l : List α) : List α := l.foldl (fun acc x => insertBy key x acc) []

/-! ### Pending writes that a core or die sees (R117, R118) -/

/-- Whether a party may see a write of its core that was issued as this operation. -/
def Who.issuedBefore (w : Who) (id : Nat) : Bool := w.before.all (fun n => id < n)

/-- The pending writes a party sees, latest last: those its die has accepted, in the order of acceptance, then those issued
on its core, in order of issue: a store is visible to its own core from its issue, all lanes at once (DESIGN CHOICE, log 1); an engine's
write without release to nobody before it is performed (DESIGN CHOICE, log 16). -/
def State.pendingSeen (s : State) (w : Who) : List StoreLane :=
  let stores := s.ops.filterMap (fun o =>
    match o.kind with
    | .store lanes _ _ => if o.done || !s.sees w o.lv then none else some (o, lanes)
    | _ => none)
  let accepted := stores.flatMap (fun p => p.2.filterMap (fun l =>
    match l.stage with
    | .die q => if w.die = some p.1.own.ref.die then some (q, l) else none
    | _ => none))
  let issued := stores.flatMap (fun p => p.2.filter (fun l =>
    l.stage == .issued && w.die == some p.1.own.ref.die && w.core == some p.1.own.ref.core && w.issuedBefore p.1.id))
  (sortBy (·.1) accepted).map (·.2) ++ issued

/-- Whether a party sees a pending write. -/
def State.laneSeen (s : State) (w : Who) (o : Op) (l : StoreLane) : Bool :=
  !o.done && s.sees w o.lv &&
  match l.stage with
  | .die _ => w.die == some o.own.ref.die
  | .issued => w.die == some o.own.ref.die && w.core == some o.own.ref.core && w.issuedBefore o.id
  | .engine _ | .performed => false

/-- Whether a context has observed a pending write by an access that stands before operation `upto` of it (R119). -/
def StoreLane.observedBy (l : StoreLane) (c : CtxRef) (upto : Nat) : Bool := l.obs.any (fun x => x.1 == c && x.2 < upto)

/-- A context observes, by its operation `id`, the pending writes it sees at locations that `at_` picks (R119). -/
def State.observe (s : State) (w : Who) (c : CtxRef) (id : Nat) (at_ : List Loc → Bool) : State :=
  let sees (o : Op) (l : StoreLane) : Bool :=
    s.laneSeen w o l && !l.observedBy c (id + 1) && at_ (s.locs l.place l.bytes.length)
  { s with ops := s.ops.map (fun o =>
      match o.kind with
      | .store lanes na g =>
        { o with kind := .store (lanes.map (fun l => if sees o l then { l with obs := l.obs ++ [(c, id)] } else l)) na g }
      | _ => o) }

/-- A context has read these locations by its operation `id`. -/
def State.observeAt (s : State) (w : Who) (c : CtxRef) (id : Nat) (ls : List Loc) : State := s.observe w c id (fun x => meets x ls)

/-- A context has synchronised, before its operation `upto`, with what its core and die show it (R121): it counts as having observed all
of it, also what it has not read and what no release orders before it (log 1). -/
def State.observeAll (s : State) (w : Who) (c : CtxRef) (upto : Nat) : State := s.observe w c (upto - 1) (fun _ => true)

/-- The locations and bytes of one store access. -/
def State.laneBytes (s : State) (l : StoreLane) : List (Loc × Byte) := (s.locs l.place l.bytes.length).zip l.bytes

/-- Whether a pending write that the party sees covers one of these locations. -/
def State.seesPending (s : State) (w : Who) (ls : List Loc) : Bool :=
  (s.pendingSeen w).any (fun l => meets (s.locs l.place l.bytes.length) ls)

/-! ### The home -/

/-- Advances a line's sequence tag (R128). -/
def State.bumpTag (s : State) (line : Nat) : State :=
  let t := assoc s.tags line 0 + 1
  { s with tags := if t = 0 then s.tags.filter (fun p => p.1 ≠ line) else setAssoc s.tags line t }

/-- The line sequence tag of a line. -/
def State.tag (s : State) (line : Nat) : BitVec 16 := assoc s.tags line 0

/-- The committed value copied from the Cistern to home memory: COMMITTED-C becomes COMMITTED (R143). -/
def State.settle (s : State) (sector : Nat) : State :=
  let r := s.sectorRec sector
  if r.comC then
    ({ s with mem := s.mem.setN (64 * sector) (committedN s (64 * sector) 64) }).setRec
      { r with comC := false, cis := false, cbytes := [] }
  else s

/-! ### Copies (R89, R92) -/

/-- The copies of a sector. -/
def State.copiesOf (s : State) (sector : Nat) : List Copy := s.copies.filter (fun c => c.sector = sector)

/-- The state of an L1 copy. -/
def State.l1State (s : State) (die core sector : Nat) : CState :=
  match s.copies.find? (fun c => c.sector = sector && c.die = die && c.core = some core) with
  | some c => c.st
  | none => .I

/-- The state of the proxy L2's copy of a sector homed on another die. -/
def State.proxyState (s : State) (die sector : Nat) : CState :=
  match s.copies.find? (fun c => c.sector = sector && c.die = die && c.core = none) with
  | some c => c.st
  | none => .I

/-- Removes the copies of a sector that a test picks. -/
def State.dropCopies (s : State) (sector : Nat) (p : Copy → Bool) : State :=
  { s with copies := s.copies.filter (fun c => !(c.sector == sector && p c)) }

/-! ### The Cistern (R141, R143, R155) -/

/-- The sectors that lie in a die's Cistern. -/
def inCistern (s : State) (die : Nat) : List SectorRec := s.sectors.filter (fun r => r.cis && dieOf (64 * r.sector) = die)

/-- Sectors of a die's Cistern that are taken: those that lie there, and those of aborted launches that await reclaim (R151). -/
def cisternUse (s : State) (die : Nat) : Nat :=
  (inCistern s die).length + (s.dead.filter (fun p => dieOf (64 * p.2) = die)).length

/-- Whether a launch's segment would exceed its quota with one more Cistern sector (R155). -/
def overQuota (s : State) (l : Launch) : Bool :=
  l.lrec.quota ≠ 0 && l.lrec.quota < (s.sectors.filter (fun r => r.tent && r.cis && r.lv = l.lv)).length + 1

/-- The youngest open launch that holds sectors in a die's Cistern and is not past its commit point, after which nothing aborts it (R150,
R155). -/
def youngestIn (s : State) (die : Nat) : Option Launch :=
  (s.hub.launches.filter (fun l => l.acts && l.st != .committing && (inCistern s die).any (fun r => r.tent && r.lv = l.lv))).foldl
    (fun (b : Option Launch) l =>
      match b with
      | none => some l
      | some x => if x.adm < l.adm then some l else some x) none

/-- The home L2 evicts a TENTATIVE sector to the Cistern (R143), unless the quota or the room is exceeded (R155). -/
def State.cisternEvict (s : State) (sector : Nat) : State :=
  let r := s.sectorRec sector
  let die := dieOf (64 * sector)
  if !r.tent || r.cis || r.prep then s
  else
    match s.holder r.lv with
    | none => s
    | some l =>
      if overQuota s l then s.requestAbort l.sid 0x41
      else if s.hub.cisSize[Fin.ofNat 8 die] / 64 ≤ cisternUse s die then
        match youngestIn s die with
        | some k => s.requestAbort k.sid 0x41
        | none => s
      else s.setRec { r with cis := true }

/-- The L2 slice of a die that holds a sector, as home or as proxy (R92, R96). -/
def sliceFor (sector : Nat) : Nat := sliceOf (offOf (64 * sector))

/-- What the data of a die's L2 slice is taken by, beside clean copies it may drop: tentative sectors it homes, and copies of
sectors homed elsewhere (`true`). A sector in U has no data (R89). -/
def sliceHeld (s : State) (die slice : Nat) : List (Nat × Bool) :=
  (s.sectors.filter (fun r => r.tent && !r.cis && dieOf (64 * r.sector) = die && sliceFor r.sector = slice)).map
      (fun r => (r.sector, false)) ++
    (s.copies.filter (fun c => c.core.isNone && c.st != .U && c.die = die && sliceFor c.sector = slice)).map
      (fun c => (c.sector, true))

/-- Room for one more sector in its slice of a die (R1): a full slice evicts a tentative sector to the Cistern, or drops a copy
with those of its die's cores below it. -/
def State.sliceRoom (s : State) (die sector : Nat) : State :=
  if s.sectors.length + s.copies.length < Config.sliceSectors then s
  else
    let held := sliceHeld s die (sliceFor sector)
    if held.length < Config.sliceSectors then s
    else
      let victims := held.filter (fun v => v.2 || !(s.sectorRec v.1).prep)
      match victims[Config.l2Victim s.tick % victims.length]? with
      | some (x, true) => s.dropCopies x (fun c => c.die == die)
      | some (x, false) => s.cisternEvict x
      | none => s

/-! ### Tentative data -/

/-- The sector becomes TENTATIVE of a version, with its committed value to start from, in the L2 of its home (R143). A
COMMITTED-C value is copied to home memory first (DESIGN CHOICE, log 50). -/
def State.makeTentative (s : State) (lv : BitVec 16) (sector : Nat) : State :=
  let s := s.settle sector
  let r := s.sectorRec sector
  if r.tent then
    if r.cis && !r.prep then
      let s := s.sliceRoom (dieOf (64 * sector)) sector
      s.setRec { s.sectorRec sector with cis := false }
    else s
  else
    let s := s.sliceRoom (dieOf (64 * sector)) sector
    s.setRec { r with
      tent := true, lv := lv, cis := false
      tbytes := Memory.setN [] (64 * sector) (committedN s (64 * sector) 64) }

/-- Element bits of the tentative value at a flat address. -/
def tentBits (r : SectorRec) (pa n : Nat) : Nat := natOfBytes (r.tbytes.getN pa n)

/-- The element values of an exact entry written as tentative bytes. -/
def State.showEntry (s : State) (e : ExactEntry) : State :=
  let r := s.sectorRec e.sector
  let tb := e.cells.foldl
    (fun (b : Memory) c => b.setN (64 * e.sector + c.off) (bytesOfNat (typeBits c.ty / 8) (c.observe e.rnd e.seed))) r.tbytes
  s.setRec { r with tbytes := tb, xt := true }

/-- The values that accesses to a sector observe: those of the cells of its exact entry, each rounded once (R79). -/
def State.showCells (s : State) (sector : Nat) : State :=
  match s.exact.find? (fun e => e.sector = sector) with
  | some e => s.showEntry e
  | none => s

/-- Writes tentative bytes of one sector; a cell they touch takes the element's value exactly (R79). -/
def State.putRaw (s : State) (pa : Nat) (bytes : List Byte) : State :=
  let sector := pa / 64
  let r := s.sectorRec sector
  let r := { r with tbytes := r.tbytes.setN pa bytes }
  let fix (c : ExCell) : ExCell :=
    let a := 64 * sector + c.off
    let n := typeBits c.ty / 8
    if a < pa + bytes.length && pa < a + n then ExCell.start c.off c.ty c.va (tentBits r a n) else c
  { (s.setRec r) with
    exact := s.exact.map (fun e => if e.sector = sector then { e with cells := e.cells.map fix } else e) }

/-- A write of bytes of one sector at its home: the bytes it leaves are those that an access observes (R79). -/
def State.putHome (s : State) (pa : Nat) (bytes : List Byte) : State := (s.putRaw pa bytes).showCells (pa / 64)

/-- One write of several bytes at their homes: the cells they touch take their elements' values after all of them (R79). -/
def State.putCells (s : State) (cs : List Host.Cell) : State :=
  ((cs.map (fun c => c.1 / 64)).dedup).foldl State.showCells (cs.foldl (fun s c => s.putRaw c.1 [c.2]) s)

/-! ### New copies (R89, R92) -/

/-- Adds a copy; a full L1, fetch-unit cache or L2 slice evicts first. Its data is the home's, so the eviction only frees it. A sector in U lies in the
combining buffer, which evicts its own (R78). -/
def State.addCopy (s : State) (c : Copy) : State :=
  let s := s.dropCopies c.sector (fun x => x.die == c.die && x.core == c.core)
  let s := if c.core.isNone then s.sliceRoom c.die c.sector else s
  let mine := s.copies.filter (fun x => x.die == c.die && x.core == c.core && x.st != .U && x.fetch == c.fetch)
  let s :=
    if c.core.isSome && c.st != .U && (if c.fetch then Config.fetchSectors else Config.l1Sectors) ≤ mine.length then
      match mine[Config.l1Victim s.tick % mine.length]? with
      | some v => s.dropCopies v.sector (fun x => x.die == v.die && x.core == v.core)
      | none => s
    else s
  { s with copies := s.copies ++ [c] }

/-- Whether any window holds a valid sector with a byte of this global sector. -/
def State.windowSharers (s : State) (sector : Nat) : Bool :=
  s.maps.any (fun m => m.secs.any (fun x => x.pas.any (fun p => p / 64 = sector)))

/-- Whether a translation cache holds entries of the line of a sector (R101). -/
def State.walkers (s : State) (sector : Nat) : Bool := s.walks.any (fun k => k.line = sector / 4)

/-- The line of a sector leaves every translation cache: a sector of it is written (R101). -/
def State.dropWalks (s : State) (sector : Nat) : State :=
  if s.walkers sector then { s with walks := s.walks.filter (fun k => k.line ≠ sector / 4) } else s

/-- The state of a copy whose dirty bytes have been written back: it owns nothing any longer (R89, R107). -/
def CState.cleaned (st : CState) : CState :=
  match st with
  | .M => .E
  | .O => .S
  | x => x

/-- A die's proxy copies of sectors that a core of it has written back are clean (R92, R107). -/
def State.cleanProxy (s : State) (die : Nat) (secs : List Nat) : State :=
  { s with copies := s.copies.map (fun c =>
      if c.die == die && c.core.isNone && secs.contains c.sector then { c with st := c.st.cleaned } else c) }

/-- The state of a copy once another copy of the same data exists (R89). -/
def CState.shared (st : CState) : CState :=
  match st with
  | .M => .O
  | .E => .S
  | x => x

/-- Whether what a party reads of a sector is its newest data: not the committed value behind another launch's tentative one. -/
def State.readsNewest (s : State) (w : Who) (sector : Nat) : Bool :=
  let r := s.sectorRec sector
  !r.tent || s.sees w r.lv

/-- Every copy of a sector shares it: M becomes O and E becomes S, in stash windows too, and a window that has been granted the sector but
not its others asks for it again (R89, R106). -/
def State.shareAll (s : State) (sector : Nat) : State :=
  { s with
    ops := s.ops.map (fun o =>
      match o.kind with
      | .own d k n ix got => if got.contains sector then { o with kind := .own d k n ix (got.filter (· ≠ sector)) } else o
      | _ => o)
    copies := s.copies.map (fun c => if c.sector = sector then { c with st := c.st.shared } else c)
    maps := s.maps.map (fun m => { m with secs := m.secs.map (fun x =>
      if x.pas.any (fun p => p / 64 = sector) then { x with st := x.st.shared } else x) }) }

/-- A die's proxy L2 obtains a copy of a sector homed elsewhere, unless it has one as good (R92). -/
def State.addProxy (s : State) (die sector : Nat) (st : CState) : State :=
  if dieOf (64 * sector) = die || s.proxyState die sector = st || (st = .S && s.proxyState die sector ≠ .I) then s
  else s.addCopy { die := die, core := none, sector := sector, st := st }

/-- A core obtains a copy; its die's proxy L2 obtains one of a remote sector as well, unless it has one (R92). -/
def State.addCore (s : State) (die core sector : Nat) (st : CState) (fetch : Bool := false) : State :=
  (s.addCopy { die := die, core := some core, sector := sector, st := st, fetch := fetch }).addProxy die sector st

/-- What a party's read leaves in the L1 of a core, or in the cache of its fetch unit, and in its die's proxy L2: E when no other copy exists, else S, and every
other copy of the data shares (R89, R92). A read of a committed value behind tentative data leaves the owners as they are. -/
def State.shareCopy (s : State) (w : Who) (die core sector : Nat) (fetch : Bool := false) : State :=
  match s.l1State die core sector with
  | .I | .U =>
    let others := (s.copiesOf sector).filter (fun c => !(c.die == die && c.core == none))
    if others.isEmpty && !s.windowSharers sector && !s.walkers sector && s.readsNewest w sector then s.addCore die core sector .E fetch
    else (if s.readsNewest w sector then s.shareAll sector else s).addCore die core sector .S fetch
  | _ => s

/-- The coherence record the home slice keeps (R90), read off the copies that exist. -/
structure CohRec where
  hst : BitVec 3
  stb : Bool
  rdown : Bool
  ownd : BitVec 3
  ownc : BitVec 6
  rdv : BitVec 8
  qsh : BitVec 12
  deriving DecidableEq, Repr

/-- The quad of a core (R10). -/
def quadOf (core : Nat) : Nat := core / 8 / 2 * 4 + core % 8 / 2

/-- The code of a state in HST (R90). -/
def CState.code (x : CState) : BitVec 3 :=
  match x with
  | .I => 0
  | .S => 1
  | .E => 2
  | .M => 3
  | .O => 4
  | .U => 5

/-- A set of numbers as bits. -/
def bitsOfNats (w : Nat) (l : List Nat) : BitVec w := l.foldl (fun b i => b ||| BitVec.ofNat w (2 ^ i)) 0

/-- A holder of a sector: its die, its core (none for a proxy L2), whether it is a stash window, its state. -/
structure Holder where
  die : Nat
  core : Option Nat
  stash : Bool
  st : CState
  deriving DecidableEq, Repr

/-- Every holder of a sector: L1 and proxy copies, stash windows, and translation caches of table entries, which share it. -/
def holdersOf (s : State) (sector : Nat) : List Holder :=
  (s.copiesOf sector).map (fun c => { die := c.die, core := c.core, stash := false, st := c.st }) ++
  s.maps.flatMap (fun m => (m.secs.filter (fun x => x.pas.any (fun p => p / 64 = sector))).map
    (fun x => { die := m.die, core := some m.core, stash := true, st := x.st })) ++
  (s.walks.filter (fun k => k.line = sector / 4)).map (fun k => { die := k.die, core := k.core, stash := false, st := .S })

/-- The coherence record that the slice of `die` keeps for some holders: those of its own die by core and quad, the others by
die. -/
def cohOf (die : Nat) (hs : List Holder) : CohRec :=
  let owner := (hs.find? (fun h => h.stash && (h.st == .M || h.st == .O || h.st == .E))).or
    ((hs.find? (fun h => h.core.isSome && (h.st == .M || h.st == .O || h.st == .E))).or
      (hs.find? (fun h => h.st == .M || h.st == .O || h.st == .E)))
  let remote (h : Holder) : Bool := h.die ≠ die
  let any (st : CState) : Bool := hs.any (fun h => h.st == st)
  { hst := match owner with
      | some h => h.st.code
      | none => if any .U then CState.U.code else if hs.isEmpty then CState.I.code else CState.S.code
    stb := (owner.map (·.stash)).getD false
    rdown := (owner.map remote).getD false
    ownd := match owner with | some h => if remote h then BitVec.ofNat 3 h.die else 0 | none => 0
    ownc := match owner with | some h => if remote h then 0x3F else BitVec.ofNat 6 (h.core.getD 0x3F) | none => 0x3F
    rdv := bitsOfNats 8 ((hs.filter remote).map (·.die))
    qsh := bitsOfNats 12 ((hs.filter (fun h => !remote h)).filterMap (fun h => h.core.map quadOf)) }

/-- The coherence record of a sector at its home (R90). -/
def cohRecord (s : State) (sector : Nat) : CohRec := cohOf (dieOf (64 * sector)) (holdersOf s sector)

/-- The coherence record that the proxy slice of a die keeps for its copy of a remote sector: the holders below it (R92). -/
def proxyRecord (s : State) (die sector : Nat) : CohRec :=
  cohOf die ((holdersOf s sector).filter (fun h => h.die = die))

/-! ### Conflicts (R145 to R148) -/

/-- Whether one launch is a stream predecessor of the other. -/
def related (a b : Launch) : Bool := precedes a b || precedes b a

/-- The hub aborts the younger of two launches with ABORT_CONFLICT (R146). -/
def State.abortYounger (s : State) (a b : Launch) : State :=
  s.requestAbort (if a.adm < b.adm then b.sid else a.sid) 0x40

/-- The SER launches that are open (R147). -/
def State.serOpen (s : State) : List (BitVec 16) :=
  (s.hub.launches.filter (fun l => l.isOpen && l.lrec.ser)).map (·.lv)

/-- The read mark an SER read leaves (R147). -/
def State.markRead (s : State) (l : Launch) (sector : Nat) : State :=
  if !l.lrec.ser then s
  else
    let r := s.sectorRec sector
    if !r.rmk then s.setRec { r with rmk := true, rlv := l.lv }
    else if r.rovf then s.setRec { r with bound := (r.bound ++ s.serOpen).dedup }
    else if r.rlv = l.lv then s
    else s.setRec { r with rovf := true, bound := s.serOpen.dedup }

/-- Notes that a launch has read committed data of a sector's frame (R379). -/
def State.noteRead (s : State) (l : Launch) (sector : Nat) : State :=
  match s.launch? l.sid with
  | some k => if k.readFrames.contains (sector / 64) then s else s.putLaunch { k with readFrames := k.readFrames ++ [sector / 64] }
  | none => s

/-- A read of a sector by a launch: the conflicts of R146 and the stall of R144, and its mark. An access to a fenced die or a
retired frame ends the launch (R379, R386). -/
def State.admitRead (s : State) (l : Launch) (sector : Nat) : Except State State :=
  let r := s.sectorRec sector
  if (s.lostHome sector).isSome then .error (s.requestAbort l.sid ((s.lostHome sector).getD 0))
  else if r.tent && r.lv ≠ l.lv then
    match s.holder r.lv with
    | none => .error s
    | some k =>
      if precedes k l then .ok ((s.markRead l sector).noteRead l sector)
      else if !related k l && l.lrec.ser then .error (s.abortYounger k l)
      else if r.prep then .error s
      else .ok ((s.markRead l sector).noteRead l sector)
  else .ok ((s.markRead l sector).noteRead l sector)

/-- A write of a sector by a launch: the hold of R145 and the conflicts of R146. -/
def State.admitWrite (s : State) (l : Launch) (sector : Nat) : Except State State :=
  let r := s.sectorRec sector
  if (s.lostHome sector).isSome then .error (s.requestAbort l.sid ((s.lostHome sector).getD 0))
  else if r.tent && r.lv ≠ l.lv then
    match s.holder r.lv with
    | none => .error s
    | some k => if related k l then .error s else .error (s.abortYounger k l)
  else if r.rovf then
    if s.hub.launches.all (fun k => !k.isOpen || l.adm ≤ k.adm) then .ok s else .error (s.requestAbort l.sid 0x40)
  else if r.rmk && r.rlv ≠ l.lv then
    match s.hub.launches.find? (fun k => k.isOpen && k.lv == r.rlv) with
    | none => .ok s
    -- the access waits until COMMIT or ABORT of the marking launch has reached the slice (R148)
    | some k => if related k l then .ok s else if k.acts then .error (s.abortYounger k l) else .error s
  else .ok s

/-! ### Order between the accesses of one context (R113, R232) -/

/-- Locations of the pieces of a FETCH element. -/
def FetchEl.locs (e : FetchEl) : List Loc := e.parts.flatMap (fun p => (List.range p.2.2).map (fun i => .g (p.2.1 + i)))

/-- The locations an operation has still to access. -/
def State.pendingLocs (s : State) (o : Op) : List Loc :=
  let g (pa n : Nat) : List Loc := (List.range n).map (fun i => .g (pa + i))
  if o.done then []
  else
    match o.kind with
    | .load _ lanes _ => lanes.flatMap (fun l => if l.val.isNone then s.locs l.place l.n else [])
    | .store lanes _ _ => lanes.flatMap (fun l => if l.stage = .performed then [] else s.locs l.place l.bytes.length)
    | .ldgs l => g l.pa l.n ++ s.locs (.stash o.own.ref l.off) l.n
    | .atom _ wide _ lanes => lanes.flatMap (fun l => if l.res.isNone then g l.pa (if wide then 8 else 4) else [])
    | .red _ ty _ _ lanes => lanes.flatMap (fun l => g l.pa (typeBits ty / 8))
    | .xend _ _ lanes =>
      lanes.flatMap (fun l => if l.res.isNone then (l.region.reads ++ l.region.writes).map (fun c => .g c.1) else [])
    | .fetch _ _ _ _ lanes => lanes.flatMap (fun l => l.2.locs)
    | .epool _ _ _ _ lanes => lanes.flatMap (fun l => l.2.flatMap (fun e => e.2.locs))
    | _ => []

/-- Whether an access of a context to these locations waits for an earlier access of the same context: one numbered below
`upto` that has not completed. Engine work (no path) is another party's. -/
def State.held (s : State) (c : CtxRef) (upto : Nat) (ls : List Loc) : Bool :=
  s.ops.any (fun o => o.own = c && o.id < upto && o.path.isSome && !o.done && meets (s.pendingLocs o) ls)

/-- The first later store of the same context to these locations that is in flight: a read of an operation sees no write of its core
that was issued after it (R113). -/
def State.laterStore (s : State) (o : Op) (ls : List Loc) : Option Nat :=
  (s.ops.find? (fun p => p.own = o.own && o.id < p.id && !p.done &&
    match p.kind with
    | .store lanes _ _ => lanes.any (fun l => l.stage != .performed && meets (s.locs l.place l.bytes.length) ls)
    | _ => false)).map (·.id)

/-! ### Exact combining (R78 to R80) -/

/-- Folds an entry: its rounded values are the launch's tentative data, and the launch is marked EXACTLOST (R80). -/
def State.foldEntry (s : State) (e : ExactEntry) : State :=
  let s := { s with exact := s.exact.filter (fun x => x.sector ≠ e.sector) }
  let s := s.setRec { s.sectorRec e.sector with xt := false }
  match s.hub.launches.find? (fun l => l.isOpen && l.lv == e.lv) with
  | some l => s.putLaunch { l with exactLost := true }
  | none => s

/-- Room for one more entry in the table of a sector's slice: a full table folds its oldest entry (R80). -/
def State.exactRoom (s : State) (sector : Nat) : State :=
  let key (x : Nat) := (dieOf (64 * x), sliceOf (offOf (64 * x)))
  let mine := s.exact.filter (fun e => key e.sector = key sector)
  if mine.length < 4096 then s
  else
    match mine.foldl (fun (b : Option ExactEntry) e =>
        match b with
        | none => some e
        | some x => if e.age < x.age then some e else some x) none with
    | some e => s.foldEntry e
    | none => s

/-- The cells of a new entry: one for each element of the sector, of the TYPE of the RED that creates it, at the exact value the
element has now (R79). `va` is the virtual address of the sector's first byte. -/
def startCells (r : SectorRec) (ty va : Nat) : List ExCell :=
  let n := typeBits ty / 8
  (List.range (64 / n)).map (fun i =>
    ExCell.start (i * n) ty (BitVec.ofNat 64 (va + i * n)) (tentBits r (64 * r.sector + i * n) n))

/-- The exact entry of a sector; a new one records RND and SEED of the RED that creates it (R79). -/
def State.exactEntry (s : State) (lv : BitVec 16) (sector ty va rnd : Nat) (seed : Word) : State :=
  if s.exact.any (fun e => e.sector = sector) then s
  else
    let s := s.exactRoom sector
    { s with
      exact := s.exact ++ [{ sector := sector, lv := lv, rnd := rnd, seed := seed, age := s.serial,
                             cells := startCells (s.sectorRec sector) ty va }]
      serial := s.serial + 1 }

/-- One RED.FADD contribution at the home (R78, R79); the sector is tentative for the launch. A cell of another TYPE over the
same bytes gives way to the value it shows. -/
def State.mergeExact (s : State) (lv : BitVec 16) (va pa ty rnd : Nat) (seed : Word) (x : Nat) : State :=
  let sector := pa / 64
  let s := s.exactEntry lv sector ty (va - pa % 64) rnd seed
  match s.exact.find? (fun e => e.sector = sector) with
  | none => s
  | some e =>
    let off := pa % 64
    let n := typeBits ty / 8
    let old := (e.cells.find? (fun c => c.off = off && c.ty = ty)).getD
      (ExCell.start off ty (BitVec.ofNat 64 va) (tentBits (s.sectorRec sector) pa n))
    let apart (c : ExCell) : Bool := c.off + typeBits c.ty / 8 ≤ off || off + n ≤ c.off
    let e := { e with cells := e.cells.filter apart ++ [old.contribute x] }
    let put (y : ExactEntry) : ExactEntry := if y.sector = sector then e else y
    { s with exact := s.exact.map put }.showEntry e

/-- The new element of a RED that is not FADD (R246): integers under SUB 0 to 7, FMIN and FMAX. -/
def redValue (sub ty old x : Nat) : Nat :=
  let w := typeBits ty
  let a := old % 2 ^ w
  let b := x % 2 ^ w
  match sub with
  | 0 => (a + b) % 2 ^ w
  | 1 => if signedOf w a ≤ signedOf w b then a else b
  | 2 => if signedOf w a ≤ signedOf w b then b else a
  | 3 => min a b
  | 4 => max a b
  | 5 => a &&& b
  | 6 => a ||| b
  | 7 => a ^^^ b
  | 9 => (roundVal ty { mode := 0 } (fmin (fdecode ty a) (fdecode ty b))).1
  | _ => (roundVal ty { mode := 0 } (fmax (fdecode ty a) (fdecode ty b))).1

/-- One contribution applied at the home, the sector being tentative for the launch. -/
def State.applyRed (s : State) (lv : BitVec 16) (sub ty rnd : Nat) (seed : Word) (va pa : Nat) (x : Word) : State :=
  if sub = 8 then s.mergeExact lv va pa ty rnd seed (x.toNat % 2 ^ typeBits ty)
  else
    let n := typeBits ty / 8
    s.putHome pa (bytesOfNat n (redValue sub ty (tentBits (s.sectorRec (pa / 64)) pa n) x.toNat))

/-! ### Gathering U copies (R93) -/

/-- Whether no pending write must be at the home before an access of operation `upto` of a context to these locations: one that an
earlier operation of the context has made or read, whenever another context issued it (R111). -/
def State.clear (s : State) (w : Who) (c : CtxRef) (upto : Nat) (ls : List Loc) : Bool :=
  !s.ops.any (fun o =>
    match o.kind with
    | .store lanes _ _ =>
      lanes.any (fun l => s.laneSeen w o l && ((o.own == c && o.id < upto) || l.observedBy c upto) &&
        meets (s.locs l.place l.bytes.length) ls)
    | _ => false)

/-- Whether a core holds a sector in M or E, so that it applies a RED in place (R93). -/
def State.holdsME (s : State) (die core sector : Nat) : Bool :=
  match s.l1State die core sector with
  | .M | .E => true
  | _ => false

/-- Whether a contribution of an operation is ready for its home: no earlier access of its context (R232) nor an earlier write that
it made or observed (R111) still precedes it. -/
def redReady (s : State) (o : Op) (ty : Nat) (x : RedLane) : Bool :=
  let ls := (List.range (typeBits ty / 8)).map (fun i => Loc.g (x.pa + i))
  let w : Who := { launch := s.holder o.lv, die := some o.own.ref.die, core := some o.own.ref.core }
  !(o.path.isSome && s.held o.own o.id ls) && s.clear w o.own o.id ls

/-- One contribution applied to its sector, unless it must wait (R129, R146). -/
def State.mergeLane (s : State) (o : Op) (sub ty rnd : Nat) (seed : Word) (x : RedLane) : Except State State :=
  match s.holder o.lv with
  | none => .error s
  | some l =>
    match s.admitWrite l (x.pa / 64) with
    | .error s => .error s
    | .ok s => .ok ((s.makeTentative o.lv (x.pa / 64)).applyRed o.lv sub ty rnd seed x.va x.pa x.bits)

/-- An operation after some of its RED contributions have merged: finished when none is left. -/
def State.leaveReds (s : State) (o : Op) (sub ty rnd : Nat) (seed : Word) (left : List RedLane) : State :=
  if left.isEmpty then s.finishOp o.id else s.putOp { o with kind := .red sub ty rnd seed left }

/-- The contributions of one operation to a sector merge in ascending lane order, those that are ready: the state, whether one
has merged, and whether one has to wait at the home. -/
def State.mergeOp (s : State) (o : Op) (sector : Nat) : State × Bool × Bool :=
  match o.kind with
  | .red sub ty rnd seed lanes =>
    if o.done || !lanes.any (fun x => x.pa / 64 = sector) then (s, false, false)
    else
      let r := lanes.foldl
        (fun (acc : State × List RedLane × Bool × Bool) x =>
          let (s, left, merged, stuck) := acc
          if x.pa / 64 ≠ sector || !redReady s o ty x then (s, left ++ [x], merged, stuck)
          else
            match s.mergeLane o sub ty rnd seed x with
            | .ok s => (s, left, true, stuck)
            | .error s => (s, left ++ [x], merged, true))
        (s, [], false, false)
      (r.1.leaveReds o sub ty rnd seed r.2.1, r.2.2.1, r.2.2.2)
  | _ => (s, false, false)

/-- Whether an operation is a RED of a core with contributions to a sector: an engine's are no part of a core's copy. -/
def isCoreRed (die core sector : Nat) (o : Op) : Bool :=
  o.path.isSome && o.own.ref.die == die && o.own.ref.core == core && !o.done &&
  match o.kind with
  | .red _ _ _ _ lanes => lanes.any (fun x => x.pa / 64 = sector)
  | _ => false

/-- The U copy of a sector that a core holds merges at its home, which advances the line's tag once (R93, R128), and is gone:
contributions that are not ready, or that the home cannot take yet, have not been accumulated and ask for U again (log 47). Contributions
to a sector in M or E are applied in place, and the copy is dirty then (R89). The second part of the result says that a merge waits. -/
def State.mergeU (s : State) (die core sector : Nat) : State × Bool :=
  let place := s.holdsME die core sector
  let r := (s.ops.filter (isCoreRed die core sector)).foldl
    (fun (acc : State × Bool × Bool) o =>
      let (s, m, k) := acc.1.mergeOp o sector
      (s, acc.2.1 || m, acc.2.2 || k))
    (s, false, false)
  let (s, merged, stuck) := r
  if place then (if merged then s.addCore die core sector .M else s, stuck)
  else
    let s := if merged then s.bumpTag (sector / 4) else s
    (s.dropCopies sector (fun c => c.st == .U && c.die == die && (c.core == some core ||
      (c.core.isNone && !s.copies.any (fun k => k.sector = sector && k.die = die && k.core.isSome && k.core ≠ some core)))), stuck)

/-- The cores that hold a sector in U. -/
def State.holdersU (s : State) (sector : Nat) : List (Nat × Nat) :=
  (s.copiesOf sector).filterMap (fun c => if c.st = .U then c.core.map (fun k => (c.die, k)) else none)

/-- Gathers the U copies of a sector that `pick` names by the launches whose data they hold, before another access to it (R93). A
copy whose merge must wait holds the access back only when the party sees that data. -/
def State.gatherIf (s : State) (w : Who) (sector : Nat) (pick : BitVec 16 → Bool) : Except State State :=
  let r := (s.holdersU sector).foldl
    (fun (acc : State × Bool) h =>
      let lvs := (acc.1.ops.filter (isCoreRed h.1 h.2 sector)).map (·.lv)
      if !lvs.isEmpty && !lvs.any pick then acc
      else
        let (s', stuck) := acc.1.mergeU h.1 h.2 sector
        (s', acc.2 || (stuck && lvs.any (fun lv => s.sees w lv))))
    (s, false)
  if r.2 then .error r.1 else .ok r.1

/-- Gathers every U copy of a sector. -/
def State.gather (s : State) (w : Who) (sector : Nat) : Except State State := s.gatherIf w sector (fun _ => true)

/-- Gathers the U copies of some sectors for an access to their committed data, which no merge that must wait holds back (R93, R129). -/
def State.gathered (s : State) (sectors : List Nat) : State :=
  sectors.foldl (fun s x => match s.gather Who.host x with | .ok s | .error s => s) s

/-! ### Walks (R101, R379) -/

/-- The table sectors from which the translations of some addresses of a launch are drawn. -/
def State.tablesFor (s : State) (l : Launch) (vas : List Nat) : List Nat :=
  ((((vas.map (fun a => a / 4096 * 4096)).dedup).flatMap (tableSectors s l.asid))).dedup

/-- A translation cache obtains a sector of a table line: a read at the home, which gathers U copies, and a sharer of committed data
(R89, R93, R101). -/
def State.shareWalk (s : State) (sector : Nat) : State :=
  let s := s.gathered [sector]
  if (s.sectorRec sector).tent then s else s.shareAll sector

/-- A walk for addresses of a launch, made for a core or for a unit of the die: its translation caches register as sharers of the table
lines; a table in a lost home ends the launch, and the frames of the tables have been read (R101, R379; log 32). -/
def State.noteWalk (s : State) (l : Launch) (die : Nat) (core : Option Nat) (vas : List Nat) : State :=
  let secs := s.tablesFor l vas
  let caches : List (Option Nat) := if core.isSome then [none, core] else [none]
  let new := (((secs.map (· / 4)).dedup).flatMap (fun x => caches.map (fun c => ({ die := die, core := c, line := x } : WalkCopy)))).filter
    (fun k => !s.walks.contains k)
  let s := ((new.map (·.line)).dedup).foldl (fun s x => (List.range 4).foldl (fun s i => s.shareWalk (4 * x + i)) s) s
  let s := secs.foldl (fun s x => s.noteRead l x) { s with walks := s.walks ++ new }
  match secs.findSome? s.lostHome with
  | some status => s.requestAbort l.sid status
  | none => s

/-! ### Owners and sharers of a sector -/

/-- The virtual addresses of the dirty bytes of a window sector. -/
def MapEntry.dirtyVas (m : MapEntry) (x : WinSector) : List Nat :=
  (List.range 64).filterMap (fun i => if x.dirty.getLsbD i then some (m.g (64 * x.ix + i)).toNat else none)

/-- What a write-back of a window sector meets at its dirty bytes: a missing translation or permission (R100). -/
def backFault (s : State) (m : MapEntry) (x : WinSector) : Option (FaultCode × Word) :=
  let l := s.holder m.lv
  worstAccess ((List.range 64).filterMap (fun i =>
    if !x.dirty.getLsbD i then none
    else
      let va := m.g (64 * x.ix + i)
      match resolve s ((l.map (·.asid)).getD 0) ((l.map (·.func)).getD 0) { w := true } va with
      | .ok _ => none
      | .error c => some (c, va)))

/-- Writes back the dirty bytes of one window sector at their homes (R107), or ends the launch when a translation or
permission is missing (R100) or a home is lost (R379, R386); the die's proxy L2 owns the sectors no longer. The dirty bytes of a launch
being aborted are discarded (R108). -/
def State.writeBack (s : State) (m : MapEntry) (x : WinSector) : State :=
  match s.holder m.lv with
  | none => s
  | some l =>
    let s := if x.dirty = 0 then s else s.noteWalk l m.die (some m.core) (m.dirtyVas x)
    match (if x.dirty = 0 then none else backFault s m x) with
    | some (code, _) => s.deny code l.sid
    | none =>
      let cs : List Host.Cell := (List.range 64).filterMap (fun i =>
        match x.pas[i]? with
        | some pa => if x.dirty.getLsbD i then some (pa, x.bytes.getD i 0) else none
        | none => none)
      let secs := (cs.map (fun c => c.1 / 64)).dedup
      match secs.findSome? s.lostHome with
      | some status => s.requestAbort l.sid status
      | none =>
        ((secs.foldl (fun s g => s.makeTentative m.lv g) s).putCells cs).cleanProxy m.die
          (if x.owns then x.pas.map (· / 64) else [])

/-- Recalls window sectors that hold bytes of a global sector, before a write there by another party: an owner writes back
all its dirty bytes, and every one is invalidated (R105, R106). `keep` names the window sector that makes the write. -/
def State.recallWindows (s : State) (sector : Nat) (keep : MapEntry → WinSector → Bool) : State :=
  s.maps.foldl
    (fun s m =>
      m.secs.foldl
        (fun s x =>
          if x.pas.any (fun p => p / 64 = sector) && !keep m x then
            let s := if x.owns then s.writeBack m x else s
            match s.map? m.die m.core m.lv m.n with
            | some m' => s.putMap (m'.dropSec x.ix)
            | none => s
          else s)
        s)
    s

/-- Forwarding of a global read by an owner window sector to a party that sees its launch's tentative state: M becomes O (R106). -/
def State.shareWindows (s : State) (w : Who) (sector : Nat) : State :=
  { s with maps := s.maps.map (fun m =>
      if !s.sees w m.lv then m else { m with secs := m.secs.map (fun x =>
          if x.st == .M && x.pas.any (fun p => p / 64 = sector) then { x with st := .O } else x) }) }

/-! ### The combining buffer (R78, R93) -/

/-- A walk for addresses of a team, made for its core. -/
def State.noteTeam (s : State) (t : Team) (vas : List Nat) : State :=
  match s.launch? t.launch with
  | some l => s.noteWalk l t.ref.die (some t.ref.core) vas
  | none => s

/-- The sectors in a core's combining buffer, oldest first: those it holds in U (R78, R93, R141). -/
def State.bufferedSectors (s : State) (die core : Nat) : List Nat :=
  (s.copies.filter (fun c => c.st == .U && c.die == die && c.core == some core)).map (·.sector)

/-- Whether a core's combining buffer of 64 sectors has room for one more. -/
def State.bufferRoom (s : State) (die core : Nat) : Bool := (s.bufferedSectors die core).length < 64

/-- A full combining buffer evicts its oldest sectors, whose deltas merge into the home entries (R78). -/
def State.evictBuffer (s : State) (die core : Nat) : State :=
  let secs := s.bufferedSectors die core
  (secs.take (secs.length - 63)).foldl (fun s x => (s.mergeU die core x).1) s

/-- The home grants a core U state of a sector for a launch (R93, R389): owners are recalled, U copies with data of another launch
gathered, conflicts tested, the core's combining buffer makes room, and every copy but U copies is invalidated; a core that has the
sector in M, E or U needs none. -/
def State.grantU (s : State) (w : Who) (l : Launch) (die core sector : Nat) : Except State State :=
  match s.l1State die core sector with
  | .M | .E | .U => .ok s
  | _ =>
    let s := s.recallWindows sector (fun _ _ => false)
    match s.gatherIf w sector (fun lv => lv != l.lv) with
    | .error s => .error s
    | .ok s =>
      match s.admitWrite l sector with
      | .error s => .error s
      | .ok s =>
        let s := s.evictBuffer die core
        if s.bufferRoom die core then .ok (((s.dropWalks sector).dropCopies sector (fun c => c.st != .U)).addCore die core sector .U) else .error s

/-! ### Reads and writes of global bytes -/

/-- The byte a party reads at the home, a stash owner's dirty byte included (R106, R144). -/
def State.homeByte (s : State) (w : Who) (pa : Nat) : Byte :=
  let owned := s.maps.findSome? (fun m =>
    if s.sees w m.lv then m.secs.findSome? (fun x => if x.owns then x.dirtyByte pa else none) else none)
  match owned with
  | some b => b
  | none =>
    let r := s.sectorRec (pa / 64)
    if r.tent && s.sees w r.lv then r.tbytes.get pa else committed s pa

/-- The latest pending write at a location that a party sees. -/
def State.pendingByte (s : State) (w : Who) (x : Loc) : Option Byte :=
  (((s.pendingSeen w).flatMap s.laneBytes).reverse.find? (fun p => p.1 = x)).map (·.2)

/-- The byte a party reads at a location of global memory: the latest pending write it sees, else the home's. -/
def State.seenByte (s : State) (w : Who) (pa : Nat) : Byte := (s.pendingByte w (.g pa)).getD (s.homeByte w pa)

/-- `n` bytes a party reads. -/
def State.seenBytes (s : State) (w : Who) (pa n : Nat) : List Byte := (List.range n).map (fun i => s.seenByte w (pa + i))

/-- The sectors a range of bytes lies in. -/
def sectorsOf (pa n : Nat) : List Nat := ((List.range n).map (fun i => (pa + i) / 64)).dedup

/-- Makes a read of a sector possible for a launch's party: U copies gathered, conflicts tested, the mark left, owners
sharing. -/
def State.readSector (s : State) (w : Who) (l : Launch) (sector : Nat) : Except State State :=
  match s.gather w sector with
  | .error s => .error s
  | .ok s =>
    match s.admitRead l sector with
    | .error s => .error s
    | .ok s =>
      let s := s.shareWindows w sector
      let r := s.sectorRec sector
      .ok (if r.tent && r.cis && !r.prep && s.sees w r.lv then
          let s := s.sliceRoom (dieOf (64 * sector)) sector
          s.setRec { s.sectorRec sector with cis := false }
        else s)

/-- Makes a write of a sector possible: owners recalled, U copies gathered, conflicts tested (R389), copies invalidated, those of
translation caches among them (R89, R101), the sector tentative for the launch. `keepW` and `keepC` name what stays. -/
def State.writeSector (s : State) (w : Who) (l : Launch) (sector : Nat) (keepW : MapEntry → WinSector → Bool)
    (keepC : Copy → Bool) : Except State State :=
  let s := s.recallWindows sector keepW
  match s.gather w sector with
  | .error s => .error s
  | .ok s =>
    match s.admitWrite l sector with
    | .error s => .error s
    | .ok s => .ok (((s.makeTentative l.lv sector).dropWalks sector).dropCopies sector (fun c => !keepC c))

/-- Each sector (or other item) of a list in turn, stopping at the first that waits. -/
def eachSector {α : Type} (s : State) (f : State → α → Except State State) : List α → Except State State
  | [] => .ok s
  | x :: r =>
    match f s x with
    | .ok s => eachSector s f r
    | .error s => .error s

/-! ### Plain stash bytes -/

/-- The plain byte of a team's stash, or of a former allocation (R86). -/
def State.stashByte (s : State) (r : TeamRef) (off : Nat) : Byte :=
  match s.team? r with
  | some t => t.stash.get off
  | none =>
    match s.former.find? (fun f => f.ref = r) with
    | some f => f.stash.get off
    | none => 0

/-- Writes plain stash bytes. -/
def State.setStash (s : State) (r : TeamRef) (off : Nat) (bytes : List Byte) : State :=
  { s with
    teams := s.teams.map (fun t => if t.ref = r then { t with stash := t.stash.setN off bytes } else t)
    former := s.former.map (fun f => if f.ref = r then { f with stash := f.stash.setN off bytes } else f) }

/-- The byte a party reads at a plain stash location: the latest pending write it sees, else the stash's. -/
def State.seenStash (s : State) (w : Who) (r : TeamRef) (off : Nat) : Byte :=
  (s.pendingByte w (.s r off)).getD (s.stashByte r off)

/-- The byte of a valid window sector, or the latest pending write at the same location that the party sees. -/
def windowByte (s : State) (w : Who) (m : MapEntry) (j : Nat) : Byte :=
  match m.sec? (j / 64) with
  | none => 0
  | some x => ((x.pas[j % 64]?).bind (fun pa => s.pendingByte w (.g pa))).getD (x.bytes.getD (j % 64) 0)

/-- The byte a party reads at a stash offset of a team. -/
def stashSeen (s : State) (w : Who) (r : TeamRef) (off : Nat) : Byte :=
  match s.windowOf r off with
  | none => s.seenStash w r off
  | some m => windowByte s w m (off - m.woff)

/-! ### Scopes (R116, R117) -/

/-- Whether a pending write is performed for a scope. A stash byte is taken by its stash at once for the core; a global byte
needs its die for CLUSTER and DIE. -/
def Stage.performedFor (st : Stage) (sc : Scope) (p : Place) : Bool :=
  match sc with
  | .team | .core => true
  | .cluster | .die => st == .performed || (match st, p with | .die _, .glob .. => true | _, _ => false)
  | .device | .system => st == .performed

/-- Whether every access of an operation is performed for a scope. -/
def Op.performedFor (o : Op) (sc : Scope) : Bool :=
  o.done ||
    match o.kind with
    | .store lanes _ _ => lanes.all (fun l => l.stage.performedFor sc l.place)
    | .own .. => sc == .team || sc == .core
    | _ => false

/-- Whether the writes that a context has observed before its operation `upto` are performed for a scope (R119), whenever they were
issued. -/
def State.observedPerformed (s : State) (c : CtxRef) (sc : Scope) (upto : Nat) : Bool :=
  s.ops.all (fun o =>
    o.done ||
    match o.kind with
    | .store lanes _ _ => lanes.all (fun l => !l.observedBy c upto || l.stage.performedFor sc l.place)
    | _ => true)

/-- The scope of a code (R116). -/
def scopeOf (n : Nat) : Scope :=
  match n with
  | 0 => .team
  | 1 => .core
  | 2 => .cluster
  | 3 => .die
  | 4 => .device
  | _ => .system

end Sys2Proof.Machine
end

