-- ==== Sys2Proof/Machine/MemOps.lean ====
section
/-! DEFINITION. Machine/MemOps.lean: loads and stores (R208, R230 to R236), the tests every access passes first (R231), region
accesses (R247), and the engine windows with GO (R87, R256 to R258). -/

namespace Sys2Proof.Machine

/-! ### The tests of step 9 (R163) -/

/-- The fault reported among those of several accesses, given in lane order: the first kind in the order of step 9, of the
lowest lane that has it. -/
def worstFlt (fs : List Flt) : Option Flt :=
  fs.foldl (fun b f =>
    match b with
    | none => some f
    | some g => if accessRank f.code < accessRank g.code then some f else some g) none

/-- All the results, or the fault to report. -/
def testAll {α : Type} (l : List (Except Flt α)) : Except Flt (List α) :=
  match worstFlt (l.filterMap (fun x => match x with | .error f => some f | .ok _ => none)) with
  | some f => .error f
  | none => .ok (l.filterMap (fun x => match x with | .ok a => some a | .error _ => none))

/-- A global access: alignment, then translation, permission and access table. -/
def globTest (s : State) (t : Team) (lane : Option Nat) (va : Word) (align : Nat) (n : Need) : Except Flt Place :=
  if !aligned va align then .error { code := .misaligned, lane := lane, addr := va, w := n.w }
  else
    match s.resolveFor t n va with
    | .ok pa => .ok (.glob va.toNat pa)
    | .error c => .error { code := c, lane := lane, addr := va, w := n.w }

/-- The window sectors a stash range lies in, in order. -/
def State.touched (s : State) (r : TeamRef) (off n : Nat) : List (MapEntry × Nat) :=
  ((List.range n).filterMap (fun i => (s.windowOf r (off + i)).map (fun m => (m, (off + i - m.woff) / 64)))).dedup

/-- What a touch of a window sector needs: R for a fill, W for a first write (R105, R106). -/
def touchNeed (m : MapEntry) (ix : Nat) (write : Bool) : Need :=
  match m.sec? ix with
  | none => { r := true, w := write }
  | some x => { w := write && !x.owns }

/-- The bytes of a window sector in the order the tests take them: those of the access first, then the rest of the sector (R105). -/
def sectorBytes (m : MapEntry) (ix off n : Nat) : List Word :=
  let js := (List.range n).filterMap (fun i =>
    let j := off + i - m.woff
    if m.woff ≤ off + i && j / 64 = ix && j < m.len then some j else none)
  (js ++ ((List.range 64).map (fun i => 64 * ix + i)).filter (fun j => !js.contains j)).map m.g

/-- The virtual addresses that a stash access translates: those of the window sectors that it fills or takes ownership of (R102). -/
def State.windowVas (s : State) (r : TeamRef) (off n : Nat) (write : Bool) : List Nat :=
  (s.touched r off n).flatMap (fun p =>
    let need := touchNeed p.1 p.2 write
    if !need.r && !need.w then [] else (List.range 64).map (fun i => (p.1.g (64 * p.2 + i)).toNat))

/-- The fault of the fills and ownership that a stash access needs: the first kind in the order of step 9, of the first byte that
has it; the address is the global byte's (R163, R231). -/
def windowFault (s : State) (r : TeamRef) (off n : Nat) (write : Bool) : Option (FaultCode × Word) :=
  let found := (s.touched r off n).flatMap (fun p =>
    let need := touchNeed p.1 p.2 write
    if !need.r && !need.w then []
    else
      let l := s.holder p.1.lv
      (sectorBytes p.1 p.2 off n).filterMap (fun va =>
        match resolve s ((l.map (·.asid)).getD 0) ((l.map (·.func)).getD 0) need va with
        | .ok _ => none
        | .error c => some (c, va)))
  worstAccess found

/-- A stash access: alignment, range, then what its window sectors need. -/
def stashTest (s : State) (t : Team) (lane : Option Nat) (cluster : Bool) (x : Word) (n align : Nat) (write : Bool) :
    Except Flt Place :=
  if !aligned x align then .error { code := .misaligned, lane := lane, addr := x, w := write }
  else
    match stashPlace s t (lane.getD 0) cluster x n with
    | .error c => .error { code := c, lane := lane, addr := x, w := write }
    | .ok (r, off) =>
      match windowFault s r off n write with
      | some (c, va) => .error { code := c, lane := lane, addr := va, w := write }
      | none => .ok (.stash r off)

/-! ### Issuing accesses -/

/-- Whether a counter has room for some more entries (R172): an instruction that raises several waits until all of them fit
(log 41). -/
def State.roomN (s : State) (r : TeamRef) (p : Path) (n : Nat) : Bool := s.counter r p + n ≤ 65535

/-- Whether counters have room for one entry each. -/
def State.room (s : State) (r : TeamRef) (ps : List Path) : Bool := ps.all (fun p => s.roomN r p 1)

/-- The window sectors that accesses touch. -/
def State.touchedBy (s : State) (ps : List (Place × Nat)) : List (MapEntry × Nat) :=
  (ps.flatMap (fun p =>
    match p.1 with
    | .glob .. => []
    | .stash r off => s.touched r off p.2)).dedup

/-- Whether a fill of a window sector is under way. -/
def State.filling (s : State) (m : MapEntry) (ix : Nat) : Bool :=
  s.ops.any (fun o => !o.done && o.lv == m.lv &&
    match o.kind with
    | .fill d k n i _ => d == m.die && k == m.core && n == m.n && i == ix
    | _ => false)

/-- Whether ownership of a window sector is being taken. -/
def State.owning (s : State) (m : MapEntry) (ix : Nat) : Bool :=
  s.ops.any (fun o => !o.done && o.lv == m.lv &&
    match o.kind with
    | .own d k n i _ => d == m.die && k == m.core && n == m.n && i == ix
    | _ => false)

/-- Whether a touch of a window sector starts a fill (R105). -/
def State.startsFill (s : State) (q : MapEntry × Nat) : Bool := (q.1.sec? q.2).isNone && !s.filling q.1 q.2

/-- Whether a write of a window sector starts to take its ownership (R106). -/
def State.startsOwn (s : State) (q : MapEntry × Nat) : Bool :=
  !((q.1.sec? q.2).map (·.owns)).getD false && !s.owning q.1 q.2

/-- Whether the counters that touches would raise have room: FILL for fills, STORE for ownership (R105, R106, R172). -/
def State.roomTouch (s : State) (r : TeamRef) (qs : List (MapEntry × Nat)) (write : Bool) (more : Nat) : Bool :=
  (qs.all (fun q => !s.startsFill q) || s.roomN r .fill (qs.countP s.startsFill)) &&
  (more = 0 && (!write || qs.all (fun q => !s.startsOwn q)) ||
    s.roomN r .store ((if write then qs.countP s.startsOwn else 0) + more))

/-- Whether the counters that the accesses of an instruction on `path` would raise have room: none for no access (R38, R172). -/
def State.roomFor (s : State) (r : TeamRef) (path : Path) (ps : List (Place × Nat)) : Bool :=
  ps.isEmpty || ((path == .store || s.room r [path]) &&
    s.roomTouch r (s.touchedBy ps) (path == .store) (if path == .store then 1 else 0))

/-- Starts the fill or the taking of ownership of one window sector that an access of a context touches (R105, R106), unless
one is under way. A fill without a translation is dropped (R240); a touching instruction has been tested before. `need` is what the
fill's translations must allow. -/
def State.startSector (s : State) (c : CtxRef) (m : MapEntry) (ix : Nat) (write : Bool) (need : Need := { r := true }) : State :=
  let own := write && s.startsOwn (m, ix)
  let s1 :=
    if s.startsFill (m, ix) then
      match windowPas s m ix need with
      | .ok pas => s.addOp c m.lv (some .fill) (.fill m.die m.core m.n ix pas)
      | .error _ => s
    else s
  if own then s1.addOp c m.lv (some .store) (.own m.die m.core m.n ix []) else s1

/-- Touches every window sector of an access. -/
def State.startTouch (s : State) (c : CtxRef) (p : Place) (n : Nat) (write : Bool) : State :=
  match p with
  | .glob .. => s
  | .stash r off => (s.touched r off n).foldl (fun s q => s.startSector c q.1 q.2 write) s

/-- The touch that an access in flight renews after its window sector has been recalled (R105, R106): it waits for room on the
counters. The access was tested at its issue and stands (R369), and a store to a table entry waits for it (R101), so its fill is not
tested again; where a COMMIT that it waits for has taken its translation away the launch ends (log 48). -/
def State.renewTouch (s : State) (o : Op) (r : TeamRef) (off n : Nat) (write : Bool) : State :=
  let qs := s.touched r off n
  let lost := qs.findSome? (fun q =>
    match windowPas s q.1 q.2 {} with
    | .error e => if s.startsFill q then some e else none
    | .ok _ => none)
  match lost with
  | some (code, va) =>
    match s.holder o.lv with
    | some l => s.deny code l.sid (s.lostWalk code l.sid va)
    | none => s
  | none => if s.roomTouch o.own.ref qs write 0 then qs.foldl (fun s q => s.startSector o.own q.1 q.2 write {}) s else s

/-! ### Single-copy atomicity of stash accesses (R109, R112) -/

/-- Whether an access is atomic as a whole: one that lies in a window must lie in one field and in one aligned 8-byte global unit. -/
def State.isWhole (s : State) (p : Place) (n : Nat) : Bool :=
  match p with
  | .glob .. => true
  | .stash r off =>
    match s.windowOf r off with
    | none => true
    | some m =>
      let j := off - m.woff
      j / m.w == (j + n - 1) / m.w && (m.g j).toNat % 8 + n ≤ 8

/-- The place of a byte of an access. -/
def Place.byte (p : Place) (i : Nat) : Place :=
  match p with
  | .glob va pa => .glob (va + i) (pa + i)
  | .stash r off => .stash r (off + i)

/-- A load access as the pieces that are atomic apart. -/
def splitLoad (s : State) (l : LoadLane) : List LoadLane :=
  if s.isWhole l.place l.n then [l]
  else (List.range l.n).map (fun i => { lane := l.lane + 65536 * i, place := l.place.byte i, n := 1, val := none })

/-- A store access as the pieces that are atomic apart. -/
def splitStore (s : State) (l : StoreLane) : List StoreLane :=
  if s.isWhole l.place l.bytes.length then [l]
  else l.bytes.zipIdx.map (fun p =>
    { lane := l.lane + 65536 * p.2, place := l.place.byte p.2, bytes := [p.1], stage := l.stage })

/-- The accesses of a load with the pieces of each put together again. -/
def joinLoads : List LoadLane → List LoadLane
  | [] => []
  | l :: rest =>
    match joinLoads rest with
    | [] => [l]
    | m :: more =>
      if 65536 ≤ m.lane && m.lane % 65536 = l.lane % 65536 then
        { l with n := l.n + m.n, val := l.val.bind (fun x => m.val.map (fun y => x + y * 2 ^ (8 * l.n))) } :: more
      else l :: m :: more

/-- The version tag of a team's launch. -/
def Team.version (t : Team) : BitVec 16 := t.lv

/-- Issues a load: its accesses and its window, and the context goes on. No access raises no counter (R38). -/
def issueLoad (s : State) (v : View) (dst : LoadDst) (names : List RegName) (la : Nat) (na : Bool) (lanes : List LoadLane) :
    State :=
  if lanes.isEmpty then s.retire v v.team (v.ctx.advance (v.ctx.pc + 4) (openWindow 0 la names))
  else
    let pieces := lanes.flatMap (splitLoad s)
    let s := lanes.foldl (fun s l => s.startTouch v.ref l.place l.n false) s
    let id := s.serial
    let s := s.addOp v.ref v.team.lv (some .load) (.load dst pieces na)
    s.retire v v.team (v.ctx.advance (v.ctx.pc + 4) (openWindow id la names))

/-- Issues a store. -/
def issueStore (s : State) (v : View) (na : Bool) (lanes : List StoreLane) : State :=
  if lanes.isEmpty then s.retire v v.team v.ctx.step4
  else
    let pieces := lanes.flatMap (splitStore s)
    let s := lanes.foldl (fun s l => s.startTouch v.ref l.place l.bytes.length true) s
    let s := s.addOp v.ref v.team.lv (some .store) (.store pieces na [])
    s.retire v v.team v.ctx.step4

/-! ### Vector loads and stores of the stash (R233, R234) -/

/-- What a vector memory form requires: its data register (a pair for 8 bytes) and its index register. -/
def vmemReq (v : View) (wide : Bool) (d b : Nat) (a : Fin 64) : Req :=
  { ctxs := teamOnly, regs := v.team.vOk wide d && v.team.vOk false b
    names := vNames wide d ++ [.s a.val] ++ vNames false b ++ v.maskNames }

/-- A store access of a lane. -/
def mkStore (lane : Nat) (p : Place) (n x : Nat) : StoreLane :=
  { lane := lane, place := p, bytes := bytesOfNat n x, stage := .issued }

/-- LDS (R233). -/
def execLds (d a b : Fin 64) (c e : Bool) (z : Fin 4) (l : Fin 16) (s : State) : Host.Outcome State Fault Refusal :=
  let n := sizeBytes z
  instr s (fun v => vmemReq v (n == 8) d b a) (fun v =>
    match testAll (v.lanes.map (fun i =>
        (stashTest s v.team (some i) c (laneAddr v a b i) n n false).map (fun p => ({ lane := i, place := p, n := n, val := none } : LoadLane)))) with
    | .error f => .error f
    | .ok lanes =>
      if !s.roomFor v.team.ref .load (lanes.map (fun l => (l.place, l.n))) then .ok s
      else .ok (issueLoad s v (.vec d (n == 8) e) (vNames (n == 8) d) l false lanes))

/-- STS (R233). -/
def execSts (d a b : Fin 64) (c : Bool) (z : Fin 4) (_l : Fin 16) (s : State) : Host.Outcome State Fault Refusal :=
  let n := sizeBytes z
  instr s (fun v => vmemReq v (n == 8) d b a) (fun v =>
    match testAll (v.lanes.map (fun i =>
        (stashTest s v.team (some i) c (laneAddr v a b i) n n true).map
          (fun p => mkStore i p n (v.team.elem (n == 8) d i)))) with
    | .error f => .error f
    | .ok lanes =>
      if !s.roomFor v.team.ref .store (lanes.map (fun l => (l.place, l.bytes.length))) then .ok s
      else .ok (issueStore s v false lanes))

/-! ### Region accesses (R247) -/

/-- The region of a lane. -/
def Team.region? (t : Team) (lane : Nat) : Option LaneRegion := t.regions.find? (fun r => r.lane = lane)

/-- The team with a lane's region replaced. -/
def Team.setRegion (t : Team) (r : LaneRegion) : Team :=
  { t with regions := t.regions.map (fun x => if x.lane = r.lane then r else x) }

/-- What an access of a lane needs: R and W between XBEGIN and XEND (R100), also of a lane whose region is closed, which is tested and
then not performed (R231, R247; log 34). -/
def Team.regionNeed (t : Team) (lane : Nat) (n : Need) : Need :=
  if (t.region? lane).isSome then { r := true, w := true } else n

/-- A region access names its line: the first fixes it, and another line closes the region with code 1. -/
def LaneRegion.touch (r : LaneRegion) (va pa : Nat) : LaneRegion :=
  if r.code ≠ 0 then r
  else
    match r.line with
    | none => { r with line := some (pa / 256), va := va }
    | some x => if x = pa / 256 then r else { r with code := 1, reads := [], writes := [] }

/-- The byte a region's lane last stored at a flat address. -/
def LaneRegion.heldByte (r : LaneRegion) (pa : Nat) : Option Byte :=
  (r.writes.reverse.find? (fun c => c.1 = pa)).map (·.2)

/-- One region load of a lane: the bytes it returns, its own held writes first, and the region that records the others. -/
def LaneRegion.load (r : LaneRegion) (pa : Nat) (seen : List Byte) : LaneRegion × List Byte :=
  let cells := seen.zipIdx.map (fun p => (pa + p.2, p.1))
  let own := cells.map (fun c => (c, r.heldByte c.1))
  ({ r with reads := r.reads ++ own.filterMap (fun p => if p.2.isNone then some p.1 else none) },
    own.map (fun p => p.2.getD p.1.2))

/-- The region loads of an LDG, lane by lane: each reads at the core now. `.error` when one must wait; it leaves out the
lanes whose region is closed. -/
def regionLoads (v : View) (n : Nat) : State → Team → List (Nat × Place) → Except State (State × Team × List LoadLane)
  | s, t, [] => .ok (s, t, [])
  | s, t, (i, p) :: rest =>
    match t.region? i, p with
    | some r, .glob va pa =>
      let r := r.touch va pa
      if r.code ≠ 0 then regionLoads v n s (t.setRegion r) rest
      else
        let w := s.whoOf t
        match w.launch with
        | none => .error s
        | some l =>
          if s.held v.ref s.serial (s.locs p n) then .error s
          else
            match s.readSector w l (pa / 64) with
            | .error s => .error s
            | .ok s =>
              let s := s.observeAt w v.ref s.serial (s.locs p n)
              let own := (List.range n).filter (fun k => (r.heldByte (pa + k)).isSome)
              let (r, bytes) := r.load pa (s.seenBytes w pa n)
              match regionLoads v n s (t.setRegion r) rest with
              | .error s => .error s
              | .ok (s, t, ls) => .ok (s, t, { lane := i, place := p, n := n, val := some (natOfBytes bytes), held := own } :: ls)
    | _, _ =>
      match regionLoads v n s t rest with
      | .error s => .error s
      | .ok (s, t, ls) => .ok (s, t, { lane := i, place := p, n := n, val := none } :: ls)

/-- LDG (R233, R234, R247). -/
def execLdg (d a b : Fin 64) (na e : Bool) (z : Fin 4) (l : Fin 16) (s : State) : Host.Outcome State Fault Refusal :=
  let n := sizeBytes z
  instr s (fun v => vmemReq v (n == 8) d b a) (fun v =>
    match testAll (v.lanes.map (fun i =>
        (globTest s v.team (some i) (laneAddr v a b i) n (v.team.regionNeed i { r := true })).map (fun p => (i, p)))) with
    | .error f => .error f
    | .ok places =>
      if !s.roomFor v.team.ref .load (places.map (fun p => (p.2, n))) then .ok s
      else
        match regionLoads v n s v.team places with
        | .error s => .ok s
        | .ok (s, t, lanes) => .ok (issueLoad s { v with team := t } (.vec d (n == 8) e) (vNames (n == 8) d) l na lanes))

/-- The region stores of an STG: held bytes join their regions, and the other lanes' accesses are left. -/
def regionStores (t : Team) : List StoreLane → Team × List StoreLane
  | [] => (t, [])
  | x :: rest =>
    match t.region? x.lane, x.place with
    | some r, .glob va pa =>
      let r := r.touch va pa
      let r := if r.code ≠ 0 then r else { r with writes := r.writes ++ x.bytes.zipIdx.map (fun p => (pa + p.2, p.1)) }
      regionStores (t.setRegion r) rest
    | _, _ =>
      let (t, ls) := regionStores t rest
      (t, x :: ls)

/-- STG (R233, R234, R247). -/
def execStg (d a b : Fin 64) (na : Bool) (z : Fin 4) (_l : Fin 16) (s : State) : Host.Outcome State Fault Refusal :=
  let n := sizeBytes z
  instr s (fun v => vmemReq v (n == 8) d b a) (fun v =>
    match testAll (v.lanes.map (fun i =>
        (globTest s v.team (some i) (laneAddr v a b i) n (v.team.regionNeed i { w := true })).map
          (fun p => mkStore i p n (v.team.elem (n == 8) d i)))) with
    | .error f => .error f
    | .ok lanes =>
      if !s.roomFor v.team.ref .store (lanes.map (fun l => (l.place, l.bytes.length))) then .ok s
      else
        let (t, lanes) := regionStores v.team lanes
        .ok (issueStore s { v with team := t } na lanes))

/-! ### Mask images (R208) -/

/-- The sixteen 8-byte units of an image of 128 bytes at a stash address. -/
def imageUnits (p : Place) : List (Nat × Place) :=
  (List.range 16).map (fun i => (i, match p with | .stash r off => .stash r (off + 8 * i) | q => q))

/-- KLD (R208). -/
def execKld (d : Fin 16) (a b : Fin 64) (l : Fin 16) (s : State) : Host.Outcome State Fault Refusal :=
  instr s (fun _ => { ctxs := teamOnly, names := [.k d, .s a, .s b] }) (fun v =>
    match stashTest s v.team none false (scalarAddr v a b) 128 8 false with
    | .error f => .error f
    | .ok p =>
      if !s.roomFor v.team.ref .load [(p, 128)] then .ok s
      else
        let lanes := (imageUnits p).map (fun u => ({ lane := u.1, place := u.2, n := 8, val := none } : LoadLane))
        .ok (issueLoad s v (.mask d) [.k d] l false lanes))

/-- KST (R208). -/
def execKst (d : Fin 16) (a b : Fin 64) (_l : Fin 16) (s : State) : Host.Outcome State Fault Refusal :=
  instr s (fun _ => { ctxs := teamOnly, names := [.k d, .s a, .s b] }) (fun v =>
    match stashTest s v.team none false (scalarAddr v a b) 128 8 true with
    | .error f => .error f
    | .ok p =>
      if !s.roomFor v.team.ref .store [(p, 128)] then .ok s
      else
        let x := v.team.k[d].toNat
        .ok (issueStore s v false ((imageUnits p).map (fun u => mkStore u.1 u.2 8 (x / 2 ^ (64 * u.1))))))

/-! ### Engine windows (R87, R256 to R258) -/

/-- The engine and register an engine-window address names (R87): 0 to 3 are ARG0 to ARG3, 4 is GO. -/
def engineReg (x : Word) : Option (Nat × Nat) :=
  let a := x.toNat
  if a < 1024 && a % 256 ≤ 0x20 && a % 8 == 0 then some (a / 256, a % 256 / 8) else none

/-- Whether a function may use an engine (R369). -/
def State.engineAllowed (s : State) (t : Team) (e : Nat) : Bool :=
  bitAt (assoc s.hub.engMask (s.asidOf t).2 (0 : BitVec 4)).toNat e

/-- Whether a stash side of a COPY lies below the `.stash` bytes. -/
def copyRangeOk (t : Team) (base len rows stride : Nat) : Bool :=
  len == 0 || rows == 0 || base + (rows - 1) * stride + len ≤ t.stashLen

/-- The tests of a GO word with the arguments it captures (R258, R260 to R262). Argument bits that no fault is stated for are ignored
(log 51). -/
def goOk (t : Team) (e : Nat) (g : Nat) (args : Vector Word 4) (md : BitVec 26) : Bool :=
  let cmd := bits g 7 0
  let ty := mdType md
  let op := bits g 35 32
  let a2 := args[2].toNat
  let a3 := args[3].toNat
  let len := bits a2 31 0
  let rows := bits a2 63 32
  let isCopy := e == 0 && cmd == 1
  let isCred := e == 2 && cmd == 1
  let isMerge := e == 3 && cmd == 2
  bits g 63 36 == 0 && bits g 31 18 == 0 &&
  (match e with | 0 => cmd == 1 || cmd == 2 | 1 => cmd == 1 | 2 => cmd == 1 || cmd == 2 | _ => cmd == 2) &&
  (if bitAt g 15 then bits g 14 12 ≤ 5 else bits g 14 12 == 0) &&
  (if bitAt g 11 then bits g 10 8 ≤ 5 else bits g 10 8 == 0) &&
  (isCopy || bits g 17 16 == 0) &&
  (if isCred then op ≤ 10 else if isMerge then op ≤ 1 else op == 0) &&
  (!isCred || (if op ≤ 7 then 4 ≤ ty && ty ≤ 7 else 8 ≤ ty && ty ≤ 10)) &&
  (!isMerge || (8 ≤ ty && ty ≤ 10 && args[1].toNat < 4096)) &&
  (!(isCopy && bitAt g 16) || copyRangeOk t args[0].toNat len rows (bits a3 31 0)) &&
  (!(isCopy && bitAt g 17) || copyRangeOk t args[1].toNat len rows (bits a3 63 32)) &&
  (e ≠ 1 ||
    (args[0].toNat < 16 && a3 == 0 && args[0].toNat < t.nh && t.handles.any (fun h => h.1 == args[0].toNat)))

/-- Commands of a team queued or running on an engine (R256). -/
def State.cmdCount (s : State) (r : TeamRef) (e : Nat) : Nat :=
  (s.cmds.filter (fun c => c.own.ref = r && c.engine = e)).length

/-- A scope field under its flag. -/
def goScope (g flag hi lo : Nat) : Option Scope := if bitAt g flag then some (scopeOf (bits g hi lo)) else none

/-- A store of GO: the command is queued, with its ENGINE entry (R256, R257). -/
def issueGo (s : State) (v : View) (e g : Nat) : State :=
  let id := s.serial
  let cmd : Cmd :=
    { id := id, own := v.ref, lv := v.team.lv, engine := e, code := bits g 7 0, opf := bits g 35 32
      dsp := bitAt g 17, ssp := bitAt g 16, rel := goScope g 15 14 12, acq := goScope g 11 10 8
      args := v.team.args[Fin.ofNat 4 e], md := v.ctx.md, isc := v.ctx.isc, upto := id, parts := [], writes := []
      paused := false
      handle := if e = 1 then (v.team.handles.find? (fun p => p.1 = (v.team.args[Fin.ofNat 4 e])[(0 : Fin 4)].toNat)).map (·.2) else none }
  let s := s.addOp v.ref v.team.lv (some .engine) (.engine id)
  { s with cmds := s.cmds ++ [cmd] }.retireEnding v v.team { v.ctx.step4 with argPend := false }

/-- An STSC in space 3. -/
def engineStore (s : State) (v : View) (x val : Word) : Except Flt State :=
  match engineReg x with
  | none => .error { code := .engineCommand, addr := x }
  | some (e, r) =>
    if r = 4 then
      if !goOk v.team e val.toNat v.team.args[Fin.ofNat 4 e] v.ctx.md then
        .error { code := .engineCommand, addr := x }
      else if !s.engineAllowed v.team e then .error { code := .accessTable, addr := x, engine := true }
      else if 16 ≤ s.cmdCount v.team.ref e then .ok (s.await v (.goFull e))
      else if !s.room v.team.ref [.engine] then .ok s
      else .ok (issueGo s v e val.toNat)
    else if !s.engineAllowed v.team e then .error { code := .accessTable, addr := x, engine := true }
    else
      let t := { v.team with
        args := v.team.args.set (Fin.ofNat 4 e) ((v.team.args[Fin.ofNat 4 e]).set (Fin.ofNat 4 r) val) }
      .ok (s.retire v t { v.ctx.step4 with argPend := true })

/-- An LDSC in space 3. -/
def engineLoad (s : State) (v : View) (x : Word) (d : Fin 64) (la : Nat) : Except Flt State :=
  match engineReg x with
  | none => .error { code := .engineCommand, addr := x }
  | some (e, r) =>
    if !s.engineAllowed v.team e then .error { code := .accessTable, addr := x, engine := true }
    else
      let val := if r = 4 then BitVec.ofNat 64 (s.cmdCount v.team.ref e) else v.team.args[Fin.ofNat 4 e][Fin.ofNat 4 r]
      .ok (s.retire v v.team ((v.ctx.setS d val).advance (v.ctx.pc + 4) (openWindow 0 la [.s d])))

/-! ### Scalar loads and stores (R235) -/

/-- The access of a scalar form in spaces 0 to 2. -/
def scalarPlace (s : State) (v : View) (sp : Fin 4) (x : Word) (n : Nat) (write : Bool) : Except Flt Place :=
  if sp = 0 then globTest s v.team none x n (if write then { w := true } else { r := true })
  else stashTest s v.team none (sp = 2) x n n write

/-- LDSC (R235). -/
def execLdsc (d a b : Fin 64) (sp z : Fin 4) (l : Fin 16) (s : State) : Host.Outcome State Fault Refusal :=
  let n := sizeBytes z
  instr s (fun _ => { enc := sp != 3 || z == 3, names := [.s d, .s a, .s b] }) (fun v =>
    let x := scalarAddr v a b
    if sp = 3 then engineLoad s v x d l
    else
      match scalarPlace s v sp x n false with
      | .error f => .error f
      | .ok p =>
        if !s.roomFor v.team.ref .load [(p, n)] then .ok s
        else .ok (issueLoad s v (.sca d) [.s d] l false [{ lane := 0, place := p, n := n, val := none }]))

/-- STSC (R235). -/
def execStsc (d a b : Fin 64) (sp z : Fin 4) (_l : Fin 16) (s : State) : Host.Outcome State Fault Refusal :=
  let n := sizeBytes z
  instr s (fun _ => { enc := sp != 3 || z == 3, names := [.s d, .s a, .s b] }) (fun v =>
    let x := scalarAddr v a b
    if sp = 3 then engineStore s v x (v.ctx.getS d)
    else
      match scalarPlace s v sp x n true with
      | .error f => .error f
      | .ok p =>
        if !s.roomFor v.team.ref .store [(p, n)] then .ok s
        else .ok (issueStore s v false [mkStore 0 p n (v.ctx.getS d).toNat]))

/-! ### Global to stash (R236) -/

/-- One lane of an LDGS. -/
def ldgsTest (s : State) (v : View) (d a b : Fin 64) (n i : Nat) : Except Flt LdgsLane :=
  let x := laneAddr v a b i
  let off := v.team.lane d i
  let o : Word := off.zeroExtend 64
  if !aligned x n then .error { code := .misaligned, lane := some i, addr := x }
  else if !aligned o n then .error { code := .misaligned, lane := some i, addr := o }
  else
    match stashPlace s v.team i false o n with
    | .error c => .error { code := c, lane := some i, addr := o }
    | .ok (r, k) =>
      if s.inWindow r k n then .error { code := .stashRange, lane := some i, addr := o }
      else
        match s.resolveFor v.team { r := true } x with
        | .error c => .error { code := c, lane := some i, addr := x }
        | .ok pa => .ok { lane := i, va := x.toNat, pa := pa, off := k, n := n }

/-- LDGS (R236); it closes the open regions of the team (R249). It stalls until all its lanes fit the counter (R172; DESIGN CHOICE,
log 41). -/
def execLdgs (d a b : Fin 64) (z : Fin 4) (_l : Fin 16) (s : State) : Host.Outcome State Fault Refusal :=
  let n := sizeBytes z
  instr s
    (fun v =>
      { ctxs := teamOnly, regs := v.team.vOk false d && v.team.vOk false b
        names := vNames false d ++ [.s a] ++ vNames false b ++ v.maskNames })
    (fun v =>
      match testAll (v.lanes.map (ldgsTest s v d a b n)) with
      | .error f => .error f
      | .ok lanes =>
        if !lanes.isEmpty && !s.roomN v.team.ref .fill lanes.length then .ok s
        else
          let s := lanes.foldl (fun s x => s.addOp v.ref v.team.lv (some .fill) (.ldgs x)) s
          .ok (s.retire v (v.team.closeRegions 4) v.ctx.step4))

end Sys2Proof.Machine
end

