-- ==== Sys2Proof/Machine/Scalar.lean ====
section
/-! DEFINITION. Machine/Scalar.lean: the scalar ALU and its immediates (R184, R203 to R206): 64-bit two's complement, every
result modulo 2^64, MD not read. -/

namespace Sys2Proof.Machine

/-- A scalar instruction of the executing context that reads the named registers and writes `f` of the context to sD. -/
def scalarOp (s : State) (d : Fin 64) (reads : List (Fin 64)) (f : Ctx → Word) : Host.Outcome State Fault Refusal :=
  instr s (fun _ => { names := .s d :: reads.map (fun r => RegName.s r.val) })
    (fun v => .ok (s.retire v v.team (v.ctx.setS d (f v.ctx)).step4))

/-- sD from sA and sB. -/
def scalar3 (s : State) (d a b : Fin 64) (f : Word → Word → Word) : Host.Outcome State Fault Refusal :=
  scalarOp s d [a, b] (fun c => f (c.getS a) (c.getS b))

/-- sD from sA. -/
def scalar2 (s : State) (d a : Fin 64) (f : Word → Word) : Host.Outcome State Fault Refusal :=
  scalarOp s d [a] (fun c => f (c.getS a))

/-- 1 for a true comparison, else 0. -/
def boolWord (b : Bool) : Word := if b then 1 else 0
/-- Bits [127:64] of the signed product. -/
def mulHiS (a b : Word) : Word := BitVec.ofInt 64 (a.toInt * b.toInt / 2 ^ 64)
/-- Bits [127:64] of the unsigned product. -/
def mulHiU (a b : Word) : Word := BitVec.ofNat 64 (a.toNat * b.toNat / 2 ^ 64)
/-- Shift left by b[5:0]. -/
def shlW (a b : Word) : Word := a <<< (b.toNat % 64)
/-- Logical shift right by b[5:0]. -/
def shrW (a b : Word) : Word := a >>> (b.toNat % 64)
/-- Arithmetic shift right by b[5:0]. -/
def sraW (a b : Word) : Word := a.sshiftRight (b.toNat % 64)
/-- Number of set bits among the low `w` bits. -/
def popBits (w n : Nat) : Nat := (List.range w).foldl (fun c i => if n.testBit i then c + 1 else c) 0
/-- Leading zero bits within width `w`. -/
def clzBits (w n : Nat) : Nat := w - bitLen (n % 2 ^ w)
/-- Trailing zero bits within width `w`; `w` for 0. -/
def ctzBits (w n : Nat) : Nat := ((List.range w).find? (fun i => n.testBit i)).getD w
/-- An immediate, sign-extended to 64 bits (R160, R206). -/
def immW (i : BitVec 14) : Word := i.signExtend 64

/-- SADD (R203). -/
def execSadd (d a b : Fin 64) (s : State) : Host.Outcome State Fault Refusal := scalar3 s d a b (fun a b => a + b)

/-- SSUB (R203). -/
def execSsub (d a b : Fin 64) (s : State) : Host.Outcome State Fault Refusal := scalar3 s d a b (fun a b => a - b)

/-- SMUL (R203). -/
def execSmul (d a b : Fin 64) (s : State) : Host.Outcome State Fault Refusal := scalar3 s d a b (fun a b => a * b)

/-- SMULHI (R203). -/
def execSmulhi (d a b : Fin 64) (s : State) : Host.Outcome State Fault Refusal := scalar3 s d a b (fun a b => mulHiS a b)

/-- SMULHN (R203). -/
def execSmulhn (d a b : Fin 64) (s : State) : Host.Outcome State Fault Refusal := scalar3 s d a b (fun a b => mulHiU a b)

/-- SAND (R203). -/
def execSand (d a b : Fin 64) (s : State) : Host.Outcome State Fault Refusal := scalar3 s d a b (fun a b => a &&& b)

/-- SOR (R203). -/
def execSor (d a b : Fin 64) (s : State) : Host.Outcome State Fault Refusal := scalar3 s d a b (fun a b => a ||| b)

/-- SXOR (R203). -/
def execSxor (d a b : Fin 64) (s : State) : Host.Outcome State Fault Refusal := scalar3 s d a b (fun a b => a ^^^ b)

/-- SANDN (R203). -/
def execSandn (d a b : Fin 64) (s : State) : Host.Outcome State Fault Refusal := scalar3 s d a b (fun a b => a &&& ~~~ b)

/-- SSHL (R203). -/
def execSshl (d a b : Fin 64) (s : State) : Host.Outcome State Fault Refusal := scalar3 s d a b (fun a b => shlW a b)

/-- SSHR (R203). -/
def execSshr (d a b : Fin 64) (s : State) : Host.Outcome State Fault Refusal := scalar3 s d a b (fun a b => shrW a b)

/-- SSRA (R203). -/
def execSsra (d a b : Fin 64) (s : State) : Host.Outcome State Fault Refusal := scalar3 s d a b (fun a b => sraW a b)

/-- SMIN (R203). -/
def execSmin (d a b : Fin 64) (s : State) : Host.Outcome State Fault Refusal := scalar3 s d a b (fun a b => if a.slt b then a else b)

/-- SMAX (R203). -/
def execSmax (d a b : Fin 64) (s : State) : Host.Outcome State Fault Refusal := scalar3 s d a b (fun a b => if a.slt b then b else a)

/-- SMINN (R203). -/
def execSminn (d a b : Fin 64) (s : State) : Host.Outcome State Fault Refusal := scalar3 s d a b (fun a b => if a.ult b then a else b)

/-- SMAXN (R203). -/
def execSmaxn (d a b : Fin 64) (s : State) : Host.Outcome State Fault Refusal := scalar3 s d a b (fun a b => if a.ult b then b else a)

/-- SSEQ (R203). -/
def execSseq (d a b : Fin 64) (s : State) : Host.Outcome State Fault Refusal := scalar3 s d a b (fun a b => boolWord (a == b))

/-- SSLT (R203). -/
def execSslt (d a b : Fin 64) (s : State) : Host.Outcome State Fault Refusal := scalar3 s d a b (fun a b => boolWord (a.slt b))

/-- SSLTN (R203). -/
def execSsltn (d a b : Fin 64) (s : State) : Host.Outcome State Fault Refusal := scalar3 s d a b (fun a b => boolWord (a.ult b))

/-- SPOP (R203). -/
def execSpop (d a : Fin 64) (s : State) : Host.Outcome State Fault Refusal := scalar2 s d a (fun a => BitVec.ofNat 64 (popBits 64 a.toNat))

/-- SCLZ (R203). -/
def execSclz (d a : Fin 64) (s : State) : Host.Outcome State Fault Refusal := scalar2 s d a (fun a => BitVec.ofNat 64 (clzBits 64 a.toNat))

/-- SCTZ (R203). -/
def execSctz (d a : Fin 64) (s : State) : Host.Outcome State Fault Refusal := scalar2 s d a (fun a => BitVec.ofNat 64 (ctzBits 64 a.toNat))

/-- SMOV (R203). -/
def execSmov (d a : Fin 64) (s : State) : Host.Outcome State Fault Refusal := scalar2 s d a (fun a => a)

/-- SSHLI (R203): the count stands in the B field. -/
def execSshli (d a n : Fin 64) (s : State) : Host.Outcome State Fault Refusal := scalar2 s d a (fun a => shlW a (BitVec.ofNat 64 n.val))

/-- SSHRI (R203): the count stands in the B field. -/
def execSshri (d a n : Fin 64) (s : State) : Host.Outcome State Fault Refusal := scalar2 s d a (fun a => shrW a (BitVec.ofNat 64 n.val))

/-- SSRAI (R203): the count stands in the B field. -/
def execSsrai (d a n : Fin 64) (s : State) : Host.Outcome State Fault Refusal := scalar2 s d a (fun a => sraW a (BitVec.ofNat 64 n.val))

/-- A literal load: PC passes the literal word too (R161). -/
def literalOp (s : State) (d : Fin 64) (reads : List (Fin 64)) (f : Ctx → Word) : Host.Outcome State Fault Refusal :=
  instr s (fun _ => { names := .s d :: reads.map (fun r => RegName.s r.val) })
    (fun v => .ok (s.retire v v.team ((v.ctx.setS d (f v.ctx)).advance (v.ctx.pc + 8) none)))

/-- SMOVL with B = 0: the literal zero-extended (R205). -/
def execSmovl (d : Fin 64) (lit : BitVec 32) (s : State) : Host.Outcome State Fault Refusal :=
  literalOp s d [] (fun _ => lit.zeroExtend 64)

/-- SMOVL with B = 1: the literal sign-extended (R205). -/
def execSmovlSigned (d : Fin 64) (lit : BitVec 32) (s : State) : Host.Outcome State Fault Refusal :=
  literalOp s d [] (fun _ => lit.signExtend 64)

/-- SMOVL with B = 2: the literal over the low half of sA (R205). -/
def execSmovlHigh (d a : Fin 64) (lit : BitVec 32) (s : State) : Host.Outcome State Fault Refusal :=
  literalOp s d [a] (fun c => lit ++ (c.getS a).truncate 32)

/-- SBFX (R204): width w + 1 from bit p of sD, in place; a field beyond bit 63 is a reserved encoding. -/
def execSbfx (d w p : Fin 64) (s : State) : Host.Outcome State Fault Refusal :=
  instr s (fun _ => { enc := p.val + w.val + 1 ≤ 64, names := [.s d] })
    (fun v =>
      let x := BitVec.ofNat 64 (bits (v.ctx.getS d).toNat (p.val + w.val) p.val)
      .ok (s.retire v v.team (v.ctx.setS d x).step4))

/-- SADDI (R206). -/
def execSaddi (d a : Fin 64) (i : BitVec 14) (s : State) : Host.Outcome State Fault Refusal := scalar2 s d a (fun a => a + immW i)

/-- SANDI (R206). -/
def execSandi (d a : Fin 64) (i : BitVec 14) (s : State) : Host.Outcome State Fault Refusal := scalar2 s d a (fun a => a &&& immW i)

/-- SORI (R206). -/
def execSori (d a : Fin 64) (i : BitVec 14) (s : State) : Host.Outcome State Fault Refusal := scalar2 s d a (fun a => a ||| immW i)

/-- SXORI (R206). -/
def execSxori (d a : Fin 64) (i : BitVec 14) (s : State) : Host.Outcome State Fault Refusal := scalar2 s d a (fun a => a ^^^ immW i)

/-- SSLTI (R206). -/
def execSslti (d a : Fin 64) (i : BitVec 14) (s : State) : Host.Outcome State Fault Refusal := scalar2 s d a (fun a => boolWord (a.slt (immW i)))

end Sys2Proof.Machine
end

