-- ==== Sys2Proof/Machine/Masks.lean ====
section
/-! DEFINITION. Machine/Masks.lean: the MASK major (R207): whole mask registers of a team, not masked by E. -/

namespace Sys2Proof.Machine

/-- A mask instruction that writes kD from the team. -/
def maskOp (s : State) (d : Fin 16) (reads : List RegName) (f : Team → Ctx → Mask) : Host.Outcome State Fault Refusal :=
  instr s (fun _ => { ctxs := teamOnly, names := .k d :: reads })
    (fun v => .ok (s.retire v (v.team.setK d (f v.team v.ctx)) v.ctx.step4))

/-- A mask instruction that writes sD. -/
def maskToScalar (s : State) (d : Fin 64) (reads : List RegName) (f : Team → Ctx → Word) :
    Host.Outcome State Fault Refusal :=
  instr s (fun _ => { ctxs := teamOnly, names := .s d :: reads })
    (fun v => .ok (s.retire v v.team (v.ctx.setS d (f v.team v.ctx)).step4))

/-- KAND (R207). -/
def execKand (d a b : Fin 16) (s : State) : Host.Outcome State Fault Refusal :=
  maskOp s d [.k a, .k b] (fun t _ => t.k[a] &&& t.k[b])

/-- KOR (R207). -/
def execKor (d a b : Fin 16) (s : State) : Host.Outcome State Fault Refusal :=
  maskOp s d [.k a, .k b] (fun t _ => t.k[a] ||| t.k[b])

/-- KXOR (R207). -/
def execKxor (d a b : Fin 16) (s : State) : Host.Outcome State Fault Refusal :=
  maskOp s d [.k a, .k b] (fun t _ => t.k[a] ^^^ t.k[b])

/-- KANDN (R207). -/
def execKandn (d a b : Fin 16) (s : State) : Host.Outcome State Fault Refusal :=
  maskOp s d [.k a, .k b] (fun t _ => t.k[a] &&& ~~~ t.k[b])

/-- KNOT (R207). -/
def execKnot (d a : Fin 16) (s : State) : Host.Outcome State Fault Refusal :=
  maskOp s d [.k a] (fun t _ => ~~~ t.k[a])

/-- KMOV (R207). -/
def execKmov (d a : Fin 16) (s : State) : Host.Outcome State Fault Refusal :=
  maskOp s d [.k a] (fun t _ => t.k[a])

/-- KPOP (R207). -/
def execKpop (d : Fin 64) (a : Fin 16) (s : State) : Host.Outcome State Fault Refusal :=
  maskToScalar s d [.k a] (fun t _ => BitVec.ofNat 64 (maskCount t.k[a]))

/-- KFIRST (R207): all ones when the mask has no lane. -/
def execKfirst (d : Fin 64) (a : Fin 16) (s : State) : Host.Outcome State Fault Refusal :=
  maskToScalar s d [.k a] (fun t _ =>
    match (List.range 1024).find? (fun l => inMask t.k[a] l) with
    | some l => BitVec.ofNat 64 l
    | none => BitVec.allOnes 64)

/-- Group word `i` of a mask (R17). -/
def groupWord (m : Mask) (i : Nat) : Nat := bits m.toNat (32 * i + 31) (32 * i)

/-- A mask with group word `i` replaced. -/
def setGroupWord (m : Mask) (i w : Nat) : Mask :=
  BitVec.ofNat 1024 (m.toNat - groupWord m i * 2 ^ (32 * i) + w % 2 ^ 32 * 2 ^ (32 * i))

/-- KTOS (R207): a group word, the summary word at 32, else 0. -/
def execKtos (d : Fin 64) (a : Fin 16) (b : Fin 64) (s : State) : Host.Outcome State Fault Refusal :=
  maskToScalar s d [.k a, .s b] (fun t c =>
    let i := (c.getS b).toNat
    BitVec.ofNat 64 (if i ≤ 31 then groupWord t.k[a] i else if i = 32 then summary t.k[a] else 0))

/-- KFROMS (R207): reads kD as well; nothing changes for sB above 31. -/
def execKfroms (d : Fin 16) (a b : Fin 64) (s : State) : Host.Outcome State Fault Refusal :=
  maskOp s d [.s a, .s b] (fun t c =>
    let i := (c.getS b).toNat
    if i ≤ 31 then setGroupWord t.k[d] i (c.getS a).toNat else t.k[d])

/-- KCLR (R207). -/
def execKclr (d : Fin 16) (s : State) : Host.Outcome State Fault Refusal := maskOp s d [] (fun _ _ => 0)

/-- KLIVE (R207). -/
def execKlive (d : Fin 16) (s : State) : Host.Outcome State Fault Refusal := maskOp s d [] (fun t _ => t.live)

end Sys2Proof.Machine
end

