-- ==== Sys2Proof/Machine/VInt.lean ====
section
/-! DEFINITION. Machine/VInt.lean: the vector integer, raw and type-free short forms (R210, R211, R213 to R217, R229). -/

namespace Sys2Proof.Machine

/-- What a per-lane vector instruction requires: the team context, its vector operands (each with whether it is a pair), an
accepted mode, and any other names; it reads k0 and the guard register too (R229). -/
def vreq (v : View) (modeOk : Bool) (regs : List (Bool × Nat)) (extra : List RegName) : Req :=
  { ctxs := teamOnly
    regs := regs.all (fun p => v.team.vOk p.1 p.2)
    mode := modeOk
    names := (regs.map (fun p => vNames p.1 p.2)).flatten ++ extra ++ v.maskNames }

/-- The state after a per-lane short form: lane l of E receives `f l` in register `d` (a pair when `wide`) with the flags of
every lane of E (R25, R38); a lane for which `f` has no value keeps its own. -/
def laneResult (s : State) (v : View) (wide : Bool) (d : Nat) (f : Nat → Option (Nat × Flags)) : State :=
  let t := v.team.setElems wide d v.eff (fun l => (f l).map Prod.fst)
  let fl := flagsOr (v.lanes.map (fun l => ((f l).map Prod.snd).getD 0))
  s.retire v t (v.ctx.step4.raise fl)

/-- The type of an integer instruction, accepted for codes 0 to 7 (R211). -/
def intModeOk (md : BitVec 26) : Bool := mdType md ≤ 7
/-- The raw class accepts codes 0 to 14 (R211). -/
def rawModeOk (md : BitVec 26) : Bool := mdType md ≤ 14

/-- An integer instruction: operands `a` and the further vector operands `bs`, lane result from the view, type and lane. -/
def intOp (s : State) (d : Nat) (srcs : List Nat) (extra : List RegName)
    (f : View → Nat → Nat → Option (Nat × Flags)) : Host.Outcome State Fault Refusal :=
  instr s
    (fun v =>
      let w := isWide (mdType v.ctx.md)
      vreq v (intModeOk v.ctx.md) ((d :: srcs).map (fun r => (w, r))) extra)
    (fun v =>
      let ty := mdType v.ctx.md
      .ok (laneResult s v (isWide ty) d (fun l => (f v ty l).map (fun p => (wordOf ty p.1, p.2)))))

/-- The element of type `ty` in lane `l` of register `r`, as a value. -/
def View.intAt (v : View) (ty r l : Nat) : Int := intOf ty (v.team.elem (isWide ty) r l)
/-- The element's bits, unsigned. -/
def View.bitsAt (v : View) (ty r l : Nat) : Nat := v.team.elem (isWide ty) r l % 2 ^ typeBits ty

/-- Exact arithmetic under MD.SAT (R57). -/
def satOp (s : State) (d : Nat) (srcs : List Nat) (extra : List RegName) (f : View → Nat → Nat → Int) :
    Host.Outcome State Fault Refusal :=
  intOp s d srcs extra (fun v ty l => some (intResult ty (mdSat v.ctx.md) (f v ty l)))

/-- Arithmetic that neither clamps nor flags. -/
def plainOp (s : State) (d : Nat) (srcs : List Nat) (f : View → Nat → Nat → Nat) : Host.Outcome State Fault Refusal :=
  intOp s d srcs [] (fun v ty l => some (f v ty l, 0))

/-- A raw instruction: whole lane words, or pairs under a 64-bit TYPE (R211). -/
def rawOp (s : State) (d : Nat) (srcs : List Nat) (extra : List RegName) (f : View → Bool → Nat → Option Nat) :
    Host.Outcome State Fault Refusal :=
  instr s
    (fun v =>
      let w := isWide (mdType v.ctx.md)
      vreq v (rawModeOk v.ctx.md) ((d :: srcs).map (fun r => (w, r))) extra)
    (fun v =>
      let w := isWide (mdType v.ctx.md)
      .ok (laneResult s v w d (fun l => (f v w l).map (fun x => (x, 0)))))

/-- The mask after a compare: bits of lanes outside E are unchanged (R215). -/
def compareMask (v : View) (d : Fin 16) (f : Nat → Bool) : Mask :=
  let hits := v.lanes.foldl (fun n l => if f l then n + 2 ^ l else n) 0
  (v.team.k[d] &&& ~~~ v.eff) ||| BitVec.ofNat 1024 hits

/-- An integer compare (R215). -/
def intCompare (s : State) (d : Fin 16) (a b : Fin 64) (f : Int → Int → Bool) : Host.Outcome State Fault Refusal :=
  instr s
    (fun v =>
      let w := isWide (mdType v.ctx.md)
      vreq v (intModeOk v.ctx.md) [(w, a.val), (w, b.val)] [.k d.val])
    (fun v =>
      let ty := mdType v.ctx.md
      let m := compareMask v d (fun l => f (v.intAt ty a l) (v.intAt ty b l))
      .ok (s.retire v (v.team.setK d m) v.ctx.step4))

/-- A shift of an element: the count is the whole element read as unsigned; at or above the width every bit leaves. -/
def shlEl (w a c : Nat) : Nat := if w ≤ c then 0 else a * 2 ^ c % 2 ^ w
/-- Logical right shift of an element. -/
def shrEl (w a c : Nat) : Nat := if w ≤ c then 0 else a / 2 ^ c
/-- Arithmetic right shift of an element. -/
def sraEl (w a c : Nat) : Nat := wrapBits w (signedOf w a / ((2 ^ (if w ≤ c then w else c) : Nat) : Int))

/-- A scalar operand read as an element of the type (R213, R218). -/
def scalarInt (v : View) (ty : Nat) (b : Fin 64) : Int := intOf ty (v.ctx.getS b).toNat

/-- The field that VBFX and VBFI name: position, and width cut to the element; none when it is empty. -/
def fieldOf (w p n : Nat) : Option (Nat × Nat) := if n = 0 || w ≤ p then none else some (p, min n (w - p))

/-- VADD (R213). -/
def execVadd (d a b : Fin 64) (s : State) : Host.Outcome State Fault Refusal :=
  satOp s d [a, b] [] (fun v ty l => v.intAt ty a l + v.intAt ty b l)

/-- VSUB (R213). -/
def execVsub (d a b : Fin 64) (s : State) : Host.Outcome State Fault Refusal :=
  satOp s d [a, b] [] (fun v ty l => v.intAt ty a l - v.intAt ty b l)

/-- VMUL (R213). -/
def execVmul (d a b : Fin 64) (s : State) : Host.Outcome State Fault Refusal :=
  satOp s d [a, b] [] (fun v ty l => v.intAt ty a l * v.intAt ty b l)

/-- VMULH (R213). -/
def execVmulh (d a b : Fin 64) (s : State) : Host.Outcome State Fault Refusal :=
  plainOp s d [a, b] (fun v ty l => wrapBits (typeBits ty) (v.intAt ty a l * v.intAt ty b l / ((2 ^ typeBits ty : Nat) : Int)))

/-- VSHL (R213). -/
def execVshl (d a b : Fin 64) (s : State) : Host.Outcome State Fault Refusal :=
  plainOp s d [a, b] (fun v ty l => shlEl (typeBits ty) (v.bitsAt ty a l) (v.bitsAt ty b l))

/-- VSHR (R213). -/
def execVshr (d a b : Fin 64) (s : State) : Host.Outcome State Fault Refusal :=
  plainOp s d [a, b] (fun v ty l => shrEl (typeBits ty) (v.bitsAt ty a l) (v.bitsAt ty b l))

/-- VSRA (R213). -/
def execVsra (d a b : Fin 64) (s : State) : Host.Outcome State Fault Refusal :=
  plainOp s d [a, b] (fun v ty l => sraEl (typeBits ty) (v.bitsAt ty a l) (v.bitsAt ty b l))

/-- VMIN (R213). -/
def execVmin (d a b : Fin 64) (s : State) : Host.Outcome State Fault Refusal :=
  plainOp s d [a, b] (fun v ty l => wrapBits (typeBits ty) (min (v.intAt ty a l) (v.intAt ty b l)))

/-- VMAX (R213). -/
def execVmax (d a b : Fin 64) (s : State) : Host.Outcome State Fault Refusal :=
  plainOp s d [a, b] (fun v ty l => wrapBits (typeBits ty) (max (v.intAt ty a l) (v.intAt ty b l)))

/-- VAND (R213). -/
def execVand (d a b : Fin 64) (s : State) : Host.Outcome State Fault Refusal :=
  rawOp s d [a, b] [] (fun v w l => some (v.team.elem w a l &&& v.team.elem w b l))

/-- VOR (R213). -/
def execVor (d a b : Fin 64) (s : State) : Host.Outcome State Fault Refusal :=
  rawOp s d [a, b] [] (fun v w l => some (v.team.elem w a l ||| v.team.elem w b l))

/-- VXOR (R213). -/
def execVxor (d a b : Fin 64) (s : State) : Host.Outcome State Fault Refusal :=
  rawOp s d [a, b] [] (fun v w l => some (v.team.elem w a l ^^^ v.team.elem w b l))

/-- VANDN (R213). -/
def execVandn (d a b : Fin 64) (s : State) : Host.Outcome State Fault Refusal :=
  rawOp s d [a, b] [] (fun v w l => some (v.team.elem w a l &&& (v.team.elem w b l ^^^ (2 ^ 64 - 1))))

/-- VABS (R213). -/
def execVabs (d a : Fin 64) (s : State) : Host.Outcome State Fault Refusal :=
  satOp s d [a] [] (fun v ty l => |v.intAt ty a l|)

/-- VNEG (R213). -/
def execVneg (d a : Fin 64) (s : State) : Host.Outcome State Fault Refusal :=
  satOp s d [a] [] (fun v ty l => 0 - v.intAt ty a l)

/-- VPOPC (R213). -/
def execVpopc (d a : Fin 64) (s : State) : Host.Outcome State Fault Refusal :=
  plainOp s d [a] (fun v ty l => popBits (typeBits ty) (v.bitsAt ty a l))

/-- VCLZ (R213). -/
def execVclz (d a : Fin 64) (s : State) : Host.Outcome State Fault Refusal :=
  plainOp s d [a] (fun v ty l => clzBits (typeBits ty) (v.bitsAt ty a l))

/-- VMOV (R213). -/
def execVmov (d a : Fin 64) (s : State) : Host.Outcome State Fault Refusal :=
  rawOp s d [a] [] (fun v w l => some (v.team.elem w a l))

/-- VMOVS (R214): the lane word as I32 or N32, clamped to the type with SX whatever SAT holds; a pair moves unchanged. -/
def execVmovs (d a : Fin 64) (s : State) : Host.Outcome State Fault Refusal :=
  intOp s d [a] [] (fun v ty l =>
    if isWide ty then some (v.team.elem true a l, 0)
    else some (intResult ty true (intOf (if isSigned ty then 4 else 5) (v.team.lane a l).toNat)))

/-- VIOTA (R213): the number of lanes of E below l, in a single register whatever TYPE holds. -/
def execViota (d : Fin 64) (s : State) : Host.Outcome State Fault Refusal :=
  instr s (fun v => vreq v true [(false, d.val)] [])
    (fun v => .ok (laneResult s v false d (fun l => some ((v.lanes.filter (fun j => j < l)).length, 0))))

/-- VSEL (R213): lanes that k[B] does not hold keep vD. -/
def execVsel (d a : Fin 64) (b : Fin 16) (s : State) : Host.Outcome State Fault Refusal :=
  rawOp s d [a] [.k b.val] (fun v w l => if inMask v.team.k[b] l then some (v.team.elem w a l) else none)

/-- VCEQ (R215). -/
def execVceq (d : Fin 16) (a b : Fin 64) (s : State) : Host.Outcome State Fault Refusal :=
  intCompare s d a b (fun x y => x == y)

/-- VCNE (R215). -/
def execVcne (d : Fin 16) (a b : Fin 64) (s : State) : Host.Outcome State Fault Refusal :=
  intCompare s d a b (fun x y => x != y)

/-- VCLT (R215). -/
def execVclt (d : Fin 16) (a b : Fin 64) (s : State) : Host.Outcome State Fault Refusal :=
  intCompare s d a b (fun x y => decide (x < y))

/-- VCLE (R215). -/
def execVcle (d : Fin 16) (a b : Fin 64) (s : State) : Host.Outcome State Fault Refusal :=
  intCompare s d a b (fun x y => decide (x ≤ y))

/-- VADDS (R213). -/
def execVadds (d a b : Fin 64) (s : State) : Host.Outcome State Fault Refusal :=
  satOp s d [a] [.s b.val] (fun v ty l => v.intAt ty a l + scalarInt v ty b)

/-- VMULS (R213). -/
def execVmuls (d a b : Fin 64) (s : State) : Host.Outcome State Fault Refusal :=
  satOp s d [a] [.s b.val] (fun v ty l => v.intAt ty a l * scalarInt v ty b)

/-- VADDI (R216). -/
def execVaddi (d a : Fin 64) (i : BitVec 14) (s : State) : Host.Outcome State Fault Refusal :=
  satOp s d [a] [] (fun v ty l => v.intAt ty a l + i.toInt)

/-- VMAD (R217). -/
def execVmad (d a b c : Fin 64) (s : State) : Host.Outcome State Fault Refusal :=
  satOp s d [a, b, c] [] (fun v ty l => v.intAt ty a l * v.intAt ty b l + v.intAt ty c l)

/-- VMSB (R217). -/
def execVmsb (d a b c : Fin 64) (s : State) : Host.Outcome State Fault Refusal :=
  satOp s d [a, b, c] [] (fun v ty l => v.intAt ty c l - v.intAt ty a l * v.intAt ty b l)

/-- VBFX (R217). -/
def execVbfx (d a b c : Fin 64) (s : State) : Host.Outcome State Fault Refusal :=
  plainOp s d [a, b, c] (fun v ty l =>
    match fieldOf (typeBits ty) (v.bitsAt ty b l) (v.bitsAt ty c l) with
    | none => 0
    | some (p, n) =>
      let x := v.bitsAt ty a l / 2 ^ p % 2 ^ n
      if isSigned ty then wrapBits (typeBits ty) (signedOf n x) else x)

/-- VBFI (R217): reads vD; an empty field leaves it unchanged. -/
def execVbfi (d a b c : Fin 64) (s : State) : Host.Outcome State Fault Refusal :=
  intOp s d [a, b, c] [] (fun v ty l =>
    match fieldOf (typeBits ty) (v.bitsAt ty b l) (v.bitsAt ty c l) with
    | none => none
    | some (p, n) =>
      let x := v.bitsAt ty d l
      some (x - x / 2 ^ p % 2 ^ n * 2 ^ p + v.bitsAt ty a l % 2 ^ n * 2 ^ p, 0))

end Sys2Proof.Machine
end

