-- ==== Sys2Proof/Machine/VFp.lean ====
section
/-! DEFINITION. Machine/VFp.lean: the floating short forms (R212, R218 to R222, R388): layouts, one rounding of the exact
result, compares, classes, conversions, and packing to and from E2M1B blocks. -/

namespace Sys2Proof.Machine

/-- The source layouts of R212. -/
inductive Layout where
  | plain
  | packed
  | widen
  deriving DecidableEq, Repr

/-- The layout that SRCT selects under a floating or scan TYPE, if any (R212). -/
def layoutOf (ty src : Nat) : Option Layout :=
  if src < 8 then some .plain
  else if src = ty then (if ty = 8 || ty = 9 then some .packed else some .plain)
  else
    match ty, src with
    | 8, 12 | 8, 13 | 9, 12 | 9, 13 => some .widen
    | 10, 8 | 10, 9 | 10, 12 | 10, 13 => some .widen
    | 11, 8 | 11, 9 | 11, 10 | 11, 12 | 11, 13 => some .widen
    | _, _ => none

/-- The layout of a floating instruction's mode: TYPE 8 to 13 (R211) and a layout among those it allows. -/
def floatLayout (md : BitVec 26) (allowed : List Layout) : Option Layout :=
  if isFloatType (mdType md) then
    match layoutOf (mdType md) (mdSrct md) with
    | some lay => if allowed.contains lay then some lay else none
    | none => none
  else none

/-- A source operand: a vector register read in the source layout, one read in TYPE (vC), or a scalar. -/
inductive FSrc where
  | vec (r : Nat)
  | acc (r : Nat)
  | sca (b : Fin 64)
  deriving DecidableEq, Repr

/-- The raw bits of a source in lane `l`. -/
def FSrc.raw (o : FSrc) (v : View) (wide : Bool) (l : Nat) : Nat :=
  match o with
  | .vec r => v.team.elem wide r l
  | .acc r => v.team.elem wide r l
  | .sca b => (v.ctx.getS b).toNat

/-- The value of element `e` of a source in lane `l`, after FTZ (R69, R210, R212). -/
def FSrc.val (o : FSrc) (v : View) (lay : Layout) (l e : Nat) : FVal :=
  let md := v.ctx.md
  let ty := mdType md
  match lay with
  | .plain => fdecodeFtz (mdFtz md) ty (o.raw v (isWide ty) l)
  | .packed => fdecodeFtz (mdFtz md) ty (o.raw v false l / 2 ^ (16 * e))
  | .widen =>
    match o with
    | .acc _ => fdecodeFtz (mdFtz md) ty (o.raw v (isWide ty) l)
    | _ => fdecodeFtz (mdFtz md) (mdSrct md) (o.raw v false l)

/-- Whether a source is a register pair under a mode: only under a 64-bit TYPE, and not as a widened source. Under a mode that step 7
refuses the width is that of TYPE (log 39). -/
def FSrc.pair (o : FSrc) (md : BitVec 26) (lay : Option Layout) : Bool :=
  match o, lay with
  | .vec _, some .widen => false
  | _, _ => isWide (mdType md)

/-- The registers and names of the sources. -/
def srcRegs (md : BitVec 26) (lay : Option Layout) (srcs : List FSrc) : List (Bool × Nat) :=
  srcs.filterMap (fun o => match o with
    | .vec r => some (o.pair md lay, r)
    | .acc r => some (o.pair md lay, r)
    | .sca _ => none)

/-- Scalar names of the sources. -/
def srcScalars (srcs : List FSrc) : List RegName :=
  srcs.filterMap (fun o => match o with
    | .sca b => some (.s b.val)
    | _ => none)

/-- The requirements of a floating instruction that writes vD. -/
def floatReq (v : View) (allowed : List Layout) (rounds : Bool) (d : Nat) (srcs : List FSrc) : Req :=
  let md := v.ctx.md
  let lay := floatLayout md allowed
  vreq v (lay.isSome && (!rounds || rndOk md)) ((isWide (mdType md), d) :: srcRegs md lay srcs) (srcScalars srcs)

/-- A lane's result in a layout: one element, or both halves of a packed pair. -/
def laneOf (lay : Layout) (f : Nat → Nat × Flags) : Nat × Flags :=
  match lay with
  | .packed => ((f 0).1 + (f 1).1 * 2 ^ 16, (f 0).2 ||| (f 1).2)
  | _ => f 0

/-- A floating instruction: each lane of E receives the exact result of `f` on its sources' values, rounded once to TYPE when
`rounds`, else encoded exactly. -/
def floatOp (s : State) (allowed : List Layout) (rounds : Bool) (d : Nat) (srcs : List FSrc)
    (f : Nat → List FVal → FVal × Flags) : Host.Outcome State Fault Refusal :=
  instr s (fun v => floatReq v allowed rounds d srcs)
    (fun v =>
      let md := v.ctx.md
      let ty := mdType md
      let lay := (floatLayout md allowed).getD .plain
      let lane (l : Nat) : Nat × Flags := laneOf lay (fun e =>
        let x := f (mdRnd md) (srcs.map (fun o => o.val v lay l e))
        let r := if rounds then laneRnd s v.team md v.ctx.isc l e else { mode := 0 }
        let y := roundVal ty r x.1
        (y.1, y.2 ||| x.2))
      .ok (laneResult s v (isWide ty) d (fun l => some (lane l))))

/-- The layouts of arithmetic. -/
def allLayouts : List Layout := [.plain, .packed, .widen]

/-- A two-operand exact operation on a list of two values. -/
def on2 (f : FVal → FVal → FVal × Flags) : List FVal → FVal × Flags
  | a :: b :: _ => f a b
  | _ => (.nan, 0)

/-- A one-operand operation. -/
def on1 (f : FVal → FVal) : List FVal → FVal × Flags
  | a :: _ => (f a, 0)
  | _ => (.nan, 0)

/-- ±(a·b) ± c with its flags (R222). -/
def fusedVal (negP negC : Bool) (rnd : Nat) : List FVal → FVal × Flags
  | a :: b :: c :: _ =>
    let p := fmul a b
    let q := if negP then p.1.negate else p.1
    let r := fadd rnd q (if negC then c.negate else c)
    (r.1, p.2 ||| r.2)
  | _ => (.nan, 0)

/-- VFADD (R218). -/
def execVfadd (d a b : Fin 64) (s : State) : Host.Outcome State Fault Refusal :=
  floatOp s allLayouts true d [.vec a, .vec b] (fun rnd => on2 (fadd rnd))

/-- VFSUB (R218). -/
def execVfsub (d a b : Fin 64) (s : State) : Host.Outcome State Fault Refusal :=
  floatOp s allLayouts true d [.vec a, .vec b] (fun rnd => on2 (fun a b => fadd rnd a b.negate))

/-- VFMUL (R218). -/
def execVfmul (d a b : Fin 64) (s : State) : Host.Outcome State Fault Refusal :=
  floatOp s allLayouts true d [.vec a, .vec b] (fun _ => on2 (fmul))

/-- VFMIN (R218, R60). -/
def execVfmin (d a b : Fin 64) (s : State) : Host.Outcome State Fault Refusal :=
  floatOp s [.plain, .packed] false d [.vec a, .vec b] (fun _ => on2 (fun a b => (fmin a b, 0)))

/-- VFMAX (R218, R60). -/
def execVfmax (d a b : Fin 64) (s : State) : Host.Outcome State Fault Refusal :=
  floatOp s [.plain, .packed] false d [.vec a, .vec b] (fun _ => on2 (fun a b => (fmax a b, 0)))

/-- VFABS (R218). -/
def execVfabs (d a : Fin 64) (s : State) : Host.Outcome State Fault Refusal :=
  floatOp s [.plain, .packed] false d [.vec a] (fun _ => on1 FVal.abs)

/-- VFNEG (R218). -/
def execVfneg (d a : Fin 64) (s : State) : Host.Outcome State Fault Refusal :=
  floatOp s [.plain, .packed] false d [.vec a] (fun _ => on1 FVal.negate)

/-- A floating compare (R215, R219). -/
def floatCompare (s : State) (d : Fin 16) (a b : Fin 64) (f : Option Ordering → Bool) : Host.Outcome State Fault Refusal :=
  instr s
    (fun v =>
      let md := v.ctx.md
      let lay := floatLayout md [.plain]
      vreq v lay.isSome [(isWide (mdType md), a.val), (isWide (mdType md), b.val)] [.k d.val])
    (fun v =>
      let m := compareMask v d (fun l => f (fcompare ((FSrc.vec a).val v .plain l 0) ((FSrc.vec b).val v .plain l 0)))
      .ok (s.retire v (v.team.setK d m) v.ctx.step4))

/-- VFCEQ (R219). -/
def execVfceq (d : Fin 16) (a b : Fin 64) (s : State) : Host.Outcome State Fault Refusal :=
  floatCompare s d a b (fun o => o == some .eq)

/-- VFCLT (R219). -/
def execVfclt (d : Fin 16) (a b : Fin 64) (s : State) : Host.Outcome State Fault Refusal :=
  floatCompare s d a b (fun o => o == some .lt)

/-- VFCLE (R219). -/
def execVfcle (d : Fin 16) (a b : Fin 64) (s : State) : Host.Outcome State Fault Refusal :=
  floatCompare s d a b (fun o => o == some .lt || o == some .eq)

/-- VFCUN (R219). -/
def execVfcun (d : Fin 16) (a b : Fin 64) (s : State) : Host.Outcome State Fault Refusal :=
  floatCompare s d a b (fun o => o == none)

/-- VFCLASS (R220): a 32-bit class word, so D may be any register; no FTZ. -/
def execVfclass (d a : Fin 64) (s : State) : Host.Outcome State Fault Refusal :=
  instr s
    (fun v =>
      let md := v.ctx.md
      vreq v (floatLayout md [.plain]).isSome [(false, d.val), (isWide (mdType md), a.val)] [])
    (fun v =>
      let ty := mdType v.ctx.md
      .ok (laneResult s v false d (fun l => some (classOf ty (v.team.elem (isWide ty) a l), 0))))

/-- Whether VCVT accepts a mode (R71, R388). -/
def cvtModeOk (md : BitVec 26) : Bool :=
  mdSrct md ≤ 13 && mdType md ≤ 13 &&
  match convRule (mdSrct md) (mdType md) with
  | .quantise | .clamp => rndOk md
  | _ => true

/-- How a conversion of lane `l` rounds: as arithmetic, with SAT (R66). -/
def convRnd (s : State) (t : Team) (md : BitVec 26) (isc : Word) (l : Nat) : Rnd :=
  { laneRnd s t md isc l 0 with sat := mdSat md }

/-- VCVT (R71, R218). -/
def execVcvt (d a : Fin 64) (s : State) : Host.Outcome State Fault Refusal :=
  instr s
    (fun v =>
      let md := v.ctx.md
      vreq v (cvtModeOk md) [(isWide (mdType md), d.val), (isWide (mdSrct md), a.val)] [])
    (fun v =>
      let md := v.ctx.md
      let ty := mdType md
      .ok (laneResult s v (isWide ty) d (fun l =>
        let y := convert (mdSrct md) ty (convRnd s v.team md v.ctx.isc l) (v.team.elem (isWide (mdSrct md)) a l)
        some (wordOf ty y.1, y.2))))

/-- The 32 codes of a block as four lane words (R62, R221). -/
def planeWord (codes : List Nat) (j : Nat) : Nat :=
  (List.range 8).foldl (fun acc i => acc + codes.getD (8 * j + i) 0 * 2 ^ (4 * i)) 0

/-- The block that VPACK forms for group `g` (R221). -/
def packGroup (s : State) (v : View) (a g : Nat) : List Nat × Nat × Nat × Flags :=
  let md := v.ctx.md
  let st := mdSrct md
  let e := v.eff
  packBlock (mdRnd md) (fun i => if mdRnd md = 5 then laneDraw s v.team v.ctx.isc (32 * g) i else 0)
    ((List.range 32).map (fun i =>
      if inMask e (32 * g + i) then fdecodeFtz (mdFtz md) st (v.team.elem (isWide st) a (32 * g + i)) else .fin false 0 0))

/-- VPACK (R221, R64): once for each group with a lane of E. -/
def execVpack (d a : Fin 64) (s : State) : Host.Outcome State Fault Refusal :=
  instr s
    (fun v =>
      let md := v.ctx.md
      vreq v (mdType md == 14 && isFloatType (mdSrct md) && rndOk md)
        [(true, d.val), (isWide (mdSrct md), a.val)] [])
    (fun v =>
      let blocks := (List.range (v.team.nl / 32)).map (fun g =>
        if groupWord v.eff g = 0 then none else some (packGroup s v a g))
      let blk (g : Nat) := (blocks.getD g none)
      let half (g : Nat) (old : Nat) : Nat :=
        match blk g with
        | some b => b.2.1 + b.2.2.1 * 2 ^ 8
        | none => old
      let t := v.team.setRow d (fun l => (blk (l / 4)).map (fun b => BitVec.ofNat 32 (planeWord b.1 (l % 4))))
      let t := t.setRow (d + 1) (fun l =>
        let old := (v.team.lane (d + 1) l).toNat
        some (BitVec.ofNat 32 (half (2 * l) (old % 2 ^ 16) + half (2 * l + 1) (old / 2 ^ 16) * 2 ^ 16)))
      let fl := flagsOr (blocks.map (fun b => (b.map (·.2.2.2)).getD 0))
      .ok (s.retire v t (v.ctx.step4.raise fl)))

/-- The value that lane `l` reads from the blocks at register `a` (R221, R63). -/
def unpackValue (t : Team) (a l : Nat) : FVal :=
  let g := l / 32
  let i := l % 32
  let c := bits (t.lane a (4 * g + i / 8)).toNat (4 * (i % 8) + 3) (4 * (i % 8))
  let sc := (t.lane (a + 1) (g / 2)).toNat / 2 ^ (16 * (g % 2))
  blockValue c (sc % 256) (sc / 256 % 256)

/-- VUNPK (R221): decoded exactly, converted by the Q rule of R71. -/
def execVunpk (d a : Fin 64) (s : State) : Host.Outcome State Fault Refusal :=
  instr s
    (fun v =>
      let md := v.ctx.md
      vreq v (mdSrct md == 14 && isFloatType (mdType md) && rndOk md)
        [(isWide (mdType md), d.val), (true, a.val)] [])
    (fun v =>
      let md := v.ctx.md
      let ty := mdType md
      .ok (laneResult s v (isWide ty) d (fun l =>
        some (toFloatQ ty (convRnd s v.team md v.ctx.isc l) (unpackValue v.team a l)))))

/-- VFADDS (R218). -/
def execVfadds (d a b : Fin 64) (s : State) : Host.Outcome State Fault Refusal :=
  floatOp s allLayouts true d [.vec a, .sca b] (fun rnd => on2 (fadd rnd))

/-- VFMULS (R218). -/
def execVfmuls (d a b : Fin 64) (s : State) : Host.Outcome State Fault Refusal :=
  floatOp s allLayouts true d [.vec a, .sca b] (fun _ => on2 (fmul))

/-- VFMA (R222). -/
def execVfma (d a b c : Fin 64) (s : State) : Host.Outcome State Fault Refusal :=
  floatOp s allLayouts true d [.vec a, .vec b, .acc c] (fusedVal false false)

/-- VFMS (R222). -/
def execVfms (d a b c : Fin 64) (s : State) : Host.Outcome State Fault Refusal :=
  floatOp s allLayouts true d [.vec a, .vec b, .acc c] (fusedVal false true)

/-- VFNMA (R222). -/
def execVfnma (d a b c : Fin 64) (s : State) : Host.Outcome State Fault Refusal :=
  floatOp s allLayouts true d [.vec a, .vec b, .acc c] (fusedVal true false)

/-- VFNMS (R222). -/
def execVfnms (d a b c : Fin 64) (s : State) : Host.Outcome State Fault Refusal :=
  floatOp s allLayouts true d [.vec a, .vec b, .acc c] (fusedVal true true)

end Sys2Proof.Machine
end

