-- ==== Sys2Proof/Machine/Fetch.lean ====
section
/-! DEFINITION. Machine/Fetch.lean: the fetch unit (R289 to R292): handles, FETCH and EPOOL, and what their reads deliver. -/

namespace Sys2Proof.Machine

/-- The handle four scalars describe, or none when R289 faults; a FMT code of no format, and a row of E2M1B that is no whole number of
blocks, fault as well (log 51). -/
def handleOf (h0 h1 h2 h3 : Word) : Option Handle :=
  let base := h0.toNat
  let stride := h1.toNat
  let cols := bits h2.toNat 63 32
  let rows := bits h2.toNat 31 0
  let fmt := bits h3.toNat 3 0
  let size := if fmt = 14 then 1 else typeBits fmt / 8
  if h1.toNat < 2 ^ 40 && h3.toNat < 64 && bits h3.toNat 5 4 ≤ 1 && fmt ≤ 14 && rows ≠ 0 && cols ≠ 0 &&
      base % size == 0 && stride % size == 0 && (fmt ≠ 14 || cols % 32 == 0) then
    some { base := h0, rstride := stride, cols := cols, rows := rows, clampZero := bits h3.toNat 5 4 == 1, fmt := fmt }
  else none

/-- HDEF (R289): the handle stands for every later instruction; its ENGINE entry is complete at once and falls in order. -/
def execHdef (h : Fin 16) (a : Fin 64) (_l : Fin 16) (s : State) : Host.Outcome State Fault Refusal :=
  instr s
    (fun v =>
      { ctxs := teamOnly, enc := a.val ≤ 60, regs := h.val < v.team.nh
        names := (List.range 4).map (fun i => RegName.s (a.val + i)) })
    (fun v =>
      let g (i : Nat) := v.ctx.getSN (a.val + i)
      match handleOf (g 0) (g 1) (g 2) (g 3) with
      | none => .error { code := .engineCommand }
      | some x =>
        if !s.room v.team.ref [.engine] then .ok s
        else
          let id := s.serial
          let s := (s.addOp v.ref v.team.lv (some .engine) .hdef).finishOp id
          .ok (s.retire v { v.team with handles := setAssoc v.team.handles h.val x } v.ctx.step4))

/-- The handle of a team by number. -/
def Team.handle? (t : Team) (h : Nat) : Option Handle := (t.handles.find? (fun p => p.1 = h)).map (·.2)

/-- The clamped coordinates of an element, or none outside the table under CLAMP = 1 (R290). -/
def Handle.clamp (h : Handle) (i j : Int) : Option (Nat × Nat) :=
  let inside := 0 ≤ i && i < h.rows && 0 ≤ j && j < h.cols
  if inside then some (i.toNat, j.toNat)
  else if h.clampZero then none
  else some (min i.toNat (h.rows - 1), min j.toNat (h.cols - 1))

/-- The pieces of memory element (i, j) is decoded from: virtual address and bytes. An E2M1B element is a nibble of the
element plane with its block's scale code and extra value (R289, R269). -/
def Handle.pieces (h : Handle) (i j : Nat) : List (Word × Nat) :=
  let row := h.base + BitVec.ofNat 64 (i * h.rstride)
  if h.fmt = 14 then
    let plane := row + BitVec.ofNat 64 (h.cols / 2 + 2 * (j / 32))
    [(row + BitVec.ofNat 64 (j / 2), 1), (plane, 1), (plane + 1, 1)]
  else
    let n := typeBits h.fmt / 8
    [(row + BitVec.ofNat 64 (j * n), n)]

/-- The reads of one element for a lane, tested like a load (R231). -/
def fetchTest (s : State) (t : Team) (h : Handle) (lane : Nat) (i j : Int) : Except Flt FetchEl :=
  match h.clamp i j with
  | none => .ok { zero := true, hi := false, parts := [] }
  | some (i, j) =>
    match testAll ((h.pieces i j).map (fun p =>
        (globTest s t (some lane) p.1 1 { r := true }).map (fun q =>
          match q with
          | .glob va pa => (va, pa, p.2)
          | .stash _ _ => (0, 0, 0)))) with
    | .error f => .error f
    | .ok ps => .ok { zero := false, hi := j % 2 == 1, parts := ps }

/-- Whether FETCH accepts a pair of FMT and TYPE under an RND (R290, R388). -/
def fetchPairOk (fmt : Nat) (md : BitVec 26) : Bool :=
  let ty := mdType md
  ty ≤ 13 &&
  (if fmt = 14 then isFloatType ty && rndOk md
   else
    match convRule fmt ty with
    | .quantise | .clamp => rndOk md
    | _ => true)

/-- What FETCH and EPOOL require of a handle index: below NH, and a mode the handle's FMT accepts. -/
def fetchModeOk (v : View) (h : Nat) : Bool :=
  mdType v.ctx.md ≤ 13 && ((v.team.handle? h).map (fun x => fetchPairOk x.fmt v.ctx.md)).getD true

/-- FETCH (R290). An undefined handle faults whatever E holds (log 51). -/
def execFetch (d : Fin 64) (h : Fin 16) (b : Fin 64) (l : Fin 16) (s : State) : Host.Outcome State Fault Refusal :=
  instr s
    (fun v =>
      let w := isWide (mdType v.ctx.md)
      { ctxs := teamOnly, regs := h.val < v.team.nh && v.team.vOk w d && v.team.vRange b 2
        mode := fetchModeOk v h
        names := vNames w d ++ [.v b.val, .v (b.val + 1)] ++ v.maskNames })
    (fun v =>
      let md := v.ctx.md
      let names := vNames (isWide (mdType md)) d
      match v.team.handle? h with
      | none => .error { code := .engineCommand }
      | some x =>
        match testAll (v.lanes.map (fun i =>
            (fetchTest s v.team x i (v.team.lane b i).toInt (v.team.lane (b.val + 1) i).toInt).map (fun e => (i, e)))) with
        | .error f => .error f
        | .ok lanes =>
          if lanes.isEmpty then .ok (s.retire v v.team (v.ctx.advance (v.ctx.pc + 4) (openWindow 0 l names)))
          else if !s.room v.team.ref [.load] then .ok s
          else
            let id := s.serial
            let s := s.addOp v.ref v.team.lv (some .load) (.fetch d x.fmt md v.ctx.isc lanes)
            .ok (s.retire v v.team (v.ctx.advance (v.ctx.pc + 4) (openWindow id l names))))

/-- How many pairs of a bag from pair `i` on are single-copy atomic, of `n` at most (R109). -/
def wholePairs (s : State) (r : TeamRef) (off : Nat) : Nat → Nat → Nat
  | _, 0 => 0
  | i, n + 1 => if s.isWhole (.stash r (off + 8 * i)) 8 then 1 + wholePairs s r off (i + 1) n else 0

/-- How many bytes of a bag an issue of EPOOL reads after the first `got`: the pairs that are single-copy atomic, and one byte of the
first that is not (R109). -/
def bagChunk (s : State) (r : TeamRef) (off c got : Nat) : Nat :=
  if got % 8 ≠ 0 then 1
  else
    let n := wholePairs s r off (got / 8) (c - got / 8)
    if got / 8 + n < c then 8 * n + 1 else 8 * n

/-- The pairs that the bytes of a bag hold. -/
def pairsOf (bytes : List Byte) (c : Nat) : List Nat := (List.range c).map (fun i => natOfBytes ((bytes.drop (8 * i)).take 8))

/-- The 8-byte pairs of a bag, read at issue as stash loads of the team, or the state in which they are not all read yet: fills start
when FILL has room (R105, R172), and a pair that is not single-copy atomic is read byte by byte (R109). -/
def bagPairs (s : State) (v : View) (p : Place) (c : Nat) : Except State (State × List Nat) :=
  match p with
  | .glob .. => .ok (s, [])
  | .stash r off =>
    let locs := s.locs p (8 * c)
    let w := s.whoOf v.team
    let secs := s.touched r off (8 * c)
    if s.held v.ref s.serial locs then .error s
    else if secs.any (fun q => (q.1.sec? q.2).isNone) then
      .error (if s.roomTouch v.team.ref secs false 0 then s.startTouch v.ref p (8 * c) false else s)
    else
      let k := v.team.bag.length
      let n := bagChunk s r off c k
      let s := s.observeAt w v.ref s.serial ((locs.drop k).take n)
      let got := v.team.bag ++ (List.range n).map (fun j => stashSeen s w r (off + k + j))
      if got.length < 8 * c then .error (s.putTeam { v.team with bag := got }) else .ok (s, pairsOf got c)

/-- EPOOL (R291). An undefined handle, or a bad bag word, faults whatever E holds (log 51). -/
def execEpool (d : Fin 64) (h : Fin 16) (b : Fin 64) (l : Fin 16) (s : State) : Host.Outcome State Fault Refusal :=
  instr s
    (fun v =>
      let w := isWide (mdType v.ctx.md)
      { ctxs := teamOnly, enc := b.val ≤ 62, regs := h.val < v.team.nh && v.team.vOk w d
        mode := 8 ≤ mdType v.ctx.md && mdType v.ctx.md ≤ 11 && rndOk v.ctx.md
        names := vNames w d ++ [.s b.val, .s (b.val + 1)] ++ v.maskNames })
    (fun v =>
      let md := v.ctx.md
      let names := vNames (isWide (mdType md)) d
      let x := v.ctx.getS b
      let cw := (v.ctx.getSN (b.val + 1)).toNat
      let c := bits cw 15 0
      let col0 : Int := signedOf 32 (bits cw 63 32)
      match v.team.handle? h with
      | none => .error { code := .engineCommand }
      | some hd =>
        if bits cw 31 16 ≠ 0 then .error { code := .engineCommand }
        else if v.lanes.isEmpty then .ok (s.retire v v.team (v.ctx.advance (v.ctx.pc + 4) (openWindow 0 l names)))
        else
          match (if c = 0 then (if aligned x 8 then .ok (.stash v.team.ref 0) else .error { code := .misaligned, addr := x })
                 else stashTest s v.team none false x (8 * c) 8 false) with
          | .error f => .error f
          | .ok p =>
            match bagPairs s v p c with
            | .error s => .ok s
            | .ok (s, pairs) =>
              match testAll (v.lanes.map (fun i =>
                  (testAll (pairs.map (fun pr =>
                    (fetchTest s v.team hd i (signedOf 32 (bits pr 31 0)) (col0 + i)).map
                      (fun e => ((BitVec.ofNat 32 (bits pr 63 32) : Lane), e))))).map (fun es => (i, es)))) with
              | .error f => .error f
              | .ok lanes =>
                if !s.room v.team.ref [.load] then .ok s
                else
                  let id := s.serial
                  let s := s.addOp v.ref v.team.lv (some .load) (.epool d hd.fmt md v.ctx.isc lanes)
                  .ok (s.retire v { v.team with bag := [] } (v.ctx.advance (v.ctx.pc + 4) (openWindow id l names))))

/-! ### What the reads deliver -/

/-- The element bits of FMT 0 to 13, or the value of an E2M1B element, from its pieces. -/
def fetchValue (s : State) (w : Who) (ftz : Bool) (fmt : Nat) (e : FetchEl) : FVal :=
  let vals := e.parts.map (fun p => natOfBytes (s.seenBytes w p.2.1 p.2.2))
  if e.zero then .fin false 0 0
  else if fmt = 14 then
    let b := vals.getD 0 0
    blockValue (if e.hi then b / 16 else b % 16) (vals.getD 1 0) (vals.getD 2 0)
  else if isIntType fmt then ofInt (intOf fmt (vals.getD 0 0))
  else fdecodeFtz ftz fmt (vals.getD 0 0)

/-- A lane of FETCH as its party reads it: converted to MD.TYPE (R290). -/
def fetchLane (s : State) (t : Team) (w : Who) (fmt : Nat) (md : BitVec 26) (isc : Word) (lane : Nat) (e : FetchEl) : Nat × Flags :=
  let ty := mdType md
  let r := convRnd s t md isc lane
  if e.zero then (0, 0)
  else if fmt = 14 then toFloatQ ty r (fetchValue s w false 14 e)
  else
    let n := natOfBytes ((e.parts.map (fun p => s.seenBytes w p.2.1 p.2.2)).flatten)
    let (x, f) := convert fmt ty r n
    (if isIntType ty then wordOf ty x else x, f)

/-- A lane of EPOOL as its party reads it: the exact weighted sum, rounded once (R291, R77). -/
def epoolLane (s : State) (t : Team) (w : Who) (fmt : Nat) (md : BitVec 26) (isc : Word) (lane : Nat) (terms : List (Lane × FetchEl)) :
    Nat × Flags :=
  let ftz := mdFtz md
  let prods := terms.map (fun p => fmul (fdecodeFtz ftz 10 p.1.toNat) (fetchValue s w ftz fmt p.2))
  let (v, f) := fsum (mdRnd md) (prods.map (·.1))
  let (x, g) := roundVal (mdType md) (laneRnd s t md isc lane 0) v
  (x, flagsOr (prods.map (·.2)) ||| f ||| g)

end Sys2Proof.Machine
end

