-- ==== Sys2Proof/Machine/MemEvents.lean ====
section
/-! DEFINITION. Machine/MemEvents.lean: the completion of loads, stores, fills, stash copies and grants of ownership: the
events LOAD_COMPLETE, STORE_PERFORMED, WINDOW_FILL, STASH_COPY_COMPLETE and OWNERSHIP_GRANT. An event whose operation is not
in flight, or must still wait, changes nothing but what the attempt sets in motion (a recall, an abort of a conflict). -/

namespace Sys2Proof.Machine

/-- Whether an event's lane list names a lane; the empty list names all. -/
def picks (lanes : List Nat) (l : Nat) : Bool := lanes.isEmpty || lanes.contains l

/-- The operation in flight of a number. -/
def State.flying? (s : State) (id : Nat) : Option Op :=
  match s.op? id with
  | some o => if o.done then none else some o
  | none => none

/-- The party behind an operation: its team's context. -/
def State.whoOp (s : State) (o : Op) : Who :=
  { launch := s.holder o.lv, die := some o.own.ref.die, core := some o.own.ref.core }

/-- The party behind a read of an operation in flight: it sees no write of its core later than its own context's next store there (R113). -/
def State.whoRead (s : State) (o : Op) (ls : List Loc) : Who := { s.whoOp o with before := s.laterStore o ls }

/-! ### Loads -/

/-- One access of a load: its value, or the state in which it waits. -/
def loadAccess (s : State) (o : Op) (na : Bool) (l : LoadLane) : Except State (State × Nat) :=
  if s.held o.own o.id (s.locs l.place l.n) then .error s
  else
    let w := s.whoRead o (s.locs l.place l.n)
    match l.place with
    | .glob _ pa =>
      match w.launch with
      | none => .error s
      | some k =>
        match s.readSector w k (pa / 64) with
        | .error s => .error s
        | .ok s =>
          let x := natOfBytes (s.seenBytes w pa l.n)
          let s := s.observeAt w o.own o.id (s.locs l.place l.n)
          .ok (if na then s else s.shareCopy w o.own.ref.die o.own.ref.core (pa / 64), x)
    | .stash r off =>
      if (s.touched r off l.n).any (fun q => (q.1.sec? q.2).isNone) then .error (s.renewTouch o r off l.n false)
      else .ok (s.observeAt w o.own o.id (s.locs l.place l.n), natOfBytes ((List.range l.n).map (fun i => stashSeen s w r (off + i))))

/-- The byte that the accesses of a load made so far have read of a location; a region's held write is its own lane's alone (R247). -/
def loadedByte (s : State) (ls : List LoadLane) (x : Loc) : Option Byte :=
  ls.findSome? (fun l =>
    match l.val with
    | none => none
    | some v =>
      let k := (s.locs l.place l.n).idxOf x
      if k < l.n && !l.held.contains k then some (BitVec.ofNat 8 (v / 2 ^ (8 * k))) else none)

/-- The value of an access of a load: two lanes that name one location receive the same value (R233). -/
def sameValue (s : State) (ls : List LoadLane) (l : LoadLane) (x : Nat) : Nat :=
  if ls.all (fun y => y.val.isNone) then x
  else
    natOfBytes ((s.locs l.place l.n).zipIdx.map (fun p => (loadedByte s ls p.1).getD (BitVec.ofNat 8 (x / 2 ^ (8 * p.2)))))

/-- The accesses of a load that an event picks; `before` are those gone through. -/
def loadAccesses (o : Op) (na : Bool) (pick : List Nat) : State → List LoadLane → List LoadLane → State × List LoadLane
  | s, before, [] => (s, before)
  | s, before, l :: rest =>
    if l.val.isNone && picks pick l.lane then
      match loadAccess s o na l with
      | .ok (s', x) =>
        loadAccesses o na pick s' (before ++ [{ l with val := some (sameValue s' (before ++ rest) l x) }]) rest
      | .error s => loadAccesses o na pick s (before ++ [l]) rest
    else loadAccesses o na pick s (before ++ [l]) rest

/-- The value of a lane's access, if it has been made. -/
def laneValue (lanes : List LoadLane) (l : Nat) : Option Nat := (lanes.find? (fun x => x.lane = l)).bind (·.val)

/-- The tile with the XW records of a load in rows `row0` on (R276). -/
def loadTile (tile : Tile) (row0 nrow n : Nat) (bytes : List Byte) : Tile :=
  match tile with
  | .exact es =>
    .exact (es.zipIdx.map (fun p =>
      let row := p.2 / 64
      let col := p.2 % 64
      if row0 ≤ row && row < row0 + nrow && col < n then
        Xa.ofRecord ((bytes.drop (((row - row0) * n + col) * 96)).take 96)
      else p.1))
  | t => t

/-- Writes the results of a load into its destination (R44, R233, R235, R208). -/
def deliver (t : Team) (kind : CtxKind) (dst : LoadDst) (lanes : List LoadLane) : Team :=
  match dst with
  | .vec d wide sext =>
    let size (l : Nat) : Nat := ((lanes.find? (fun x => x.lane = l)).map (·.n)).getD 4
    let ext (l x : Nat) : Nat := if sext then (sextWord (8 * size l) x).toNat % 2 ^ 32 else x
    t.setElems wide d (BitVec.allOnes 1024) (fun l => (laneValue lanes l).map (fun x => if wide then x else ext l x))
  | .sca d =>
    match t.ctx? kind with
    | some c => t.setCtx kind (c.setSN d (BitVec.ofNat 64 ((laneValue lanes 0).getD 0)))
    | none => t
  | .mask d =>
    let x := lanes.foldl (fun (a : Nat) l => a + (l.val.getD 0) * 2 ^ (64 * l.lane)) 0
    t.setK (Fin.ofNat 16 d) (BitVec.ofNat 1024 x)
  | .tile d row0 nrow n =>
    { t with tiles := t.tiles.modify d (fun x => loadTile x row0 nrow n (lanes.flatMap (fun l => bytesOfNat 8 (l.val.getD 0)))) }

/-- Makes the sectors of a FETCH or EPOOL readable, one by one, once no earlier access of the context covers its bytes. -/
def fetchReady (s : State) (o : Op) (els : List FetchEl) : Except State State :=
  let w := s.whoRead o (els.flatMap FetchEl.locs)
  match w.launch with
  | none => .error s
  | some k =>
    if s.held o.own o.id (els.flatMap FetchEl.locs) then .error s
    else
      (eachSector s (fun s x => s.readSector w k x) ((els.flatMap (fun e => e.parts.map (fun p => p.2.1 / 64))).dedup)).map
        (fun s => s.observeAt w o.own o.id (els.flatMap FetchEl.locs))

/-- The copies that the fetch unit's cache, a part of its core's L1 for coherence, keeps of the sectors of some elements (R1, R292). -/
def State.cacheEls (s : State) (o : Op) (els : List FetchEl) : State :=
  ((els.flatMap (fun e => e.parts.map (fun p => p.2.1 / 64))).dedup).foldl
    (fun s x => s.shareCopy (s.whoOp o) o.own.ref.die o.own.ref.core x true) s

/-- Writes a register with the results of lanes, and raises their flags in the team's FPFL. -/
def deliverLanes (s : State) (o : Op) (wide : Bool) (d : Nat) (rs : List (Nat × Nat × Flags)) : State :=
  match s.team? o.own.ref with
  | none => s.finishOp o.id
  | some t =>
    let val (l : Nat) : Option Nat := (rs.find? (fun r => r.1 = l)).map (fun r => r.2.1)
    let t := t.setElems wide d (BitVec.allOnes 1024) val
    let t := { t with team := t.team.raise (flagsOr (rs.map (fun r => r.2.2))) }
    (s.putTeam t).finishOp o.id

/-- LOAD_COMPLETE: the picked accesses of a load are made, and once all are, its results are written and LOAD falls (R44,
R172). FETCH and EPOOL make all their reads at once; ROUTE has its words since issue. -/
def execLoadComplete (op : Nat) (lanes : List Nat) (s : State) : Host.Outcome State Fault Refusal :=
  match s.flying? op with
  | none => .next s
  | some o =>
    match o.kind with
    | .load dst ls na =>
      let (s, ls) := loadAccesses o na lanes s [] ls
      if ls.all (fun l => l.val.isSome) then
        match s.team? o.own.ref with
        | none => .next (s.finishOp op)
        | some t => .next ((s.putTeam (deliver t o.own.kind dst (joinLoads ls))).finishOp op)
      else .next (s.putOp { o with kind := .load dst ls na })
    | .value d vs => .next (deliverLanes s o false d (vs.map (fun p => (p.1, p.2.toNat, 0))))
    | .fetch d fmt md isc ls =>
      match fetchReady s o (ls.map (·.2)), s.team? o.own.ref with
      | .ok s, some t =>
        .next (deliverLanes (s.cacheEls o (ls.map (·.2))) o (isWide (mdType md)) d
          (ls.map (fun p => (p.1, fetchLane s t (s.whoRead o ((ls.map (·.2)).flatMap FetchEl.locs)) fmt md isc p.1 p.2))))
      | .ok s, none => .next (s.finishOp op)
      | .error s, _ => .next s
    | .epool d fmt md isc ls =>
      match fetchReady s o (ls.flatMap (fun p => p.2.map (·.2))), s.team? o.own.ref with
      | .ok s, some t =>
        .next (deliverLanes (s.cacheEls o (ls.flatMap (fun p => p.2.map (·.2)))) o (isWide (mdType md)) d
          (ls.map (fun p => (p.1, epoolLane s t (s.whoRead o ((ls.flatMap (fun p => p.2.map (·.2))).flatMap FetchEl.locs)) fmt md isc p.1 p.2))))
      | .ok s, none => .next (s.finishOp op)
      | .error s, _ => .next s
    | _ => .next s

/-! ### Stores -/

/-- Whether a pending write of the same core or die must come first at these locations: one issued earlier on the core, or
accepted earlier by the die (R111, R117). `x` stands at stage `st` of operation `o`. An engine's write follows them only under the
acquire flag of its command, and nothing follows it before it is seen (R126). -/
def mustFollow (s : State) (o : Op) (st : Stage) (ls : List Loc) : Bool :=
  s.ops.any (fun y =>
    y.own.ref.die = o.own.ref.die &&
    match y.kind with
    | .store lanes _ _ =>
      !y.done && lanes.any (fun l =>
        meets (s.locs l.place l.bytes.length) ls &&
        match l.stage, st with
        | .performed, _ | .engine _, _ => false
        | _, .engine false => false
        | .issued, .issued | .issued, .engine true => y.own.ref.core = o.own.ref.core && y.id < o.id
        | .issued, _ => false
        | .die _, .issued | .die _, .engine true => true
        | .die q, .die q' => q < q'
        | .die _, .performed => false)
    | _ => false)

/-- Whether an earlier lane of the same instruction writes one of these locations and is not performed (R113). -/
def laneFirst (s : State) (before : List StoreLane) (ls : List Loc) : Bool :=
  before.any (fun l => l.stage ≠ .performed && meets (s.locs l.place l.bytes.length) ls)

/-- Writes a byte of a window sector that owns its global bytes (R106). -/
def writeWindow (s : State) (m : MapEntry) (j : Nat) (b : Byte) : State :=
  match s.map? m.die m.core m.lv m.n with
  | none => s
  | some m =>
    match m.sec? (j / 64) with
    | none => s
    | some x =>
      let i := j % 64
      s.putMap (m.setSec { x with st := .M, bytes := x.bytes.set i b, dirty := x.dirty ||| BitVec.ofNat 64 (2 ^ i) })

/-- A window sector after a store to one element that has a cell in an exact entry: its bytes are those that an access
observes (R79). Bytes of the element that the sector does not hold are the home's. -/
def WinSector.showCell (s : State) (e : ExactEntry) (c : ExCell) (x : WinSector) : WinSector :=
  let a := 64 * e.sector + c.off
  let n := typeBits c.ty / 8
  let held (k : Nat) : Option Nat := if x.pas.contains (a + k) then some (x.pas.idxOf (a + k)) else none
  if (List.range n).any (fun k => match held k with | some i => x.dirty.getLsbD i | none => false) then
    let old := (List.range n).map (fun k =>
      match held k with
      | some i => x.bytes.getD i 0
      | none => (s.sectorRec e.sector).tbytes.get (a + k))
    let new := bytesOfNat n ((ExCell.start c.off c.ty c.va (natOfBytes old)).observe e.rnd e.seed)
    new.zipIdx.foldl
      (fun x p =>
        match held p.2 with
        | some i => { x with bytes := x.bytes.set i p.1, dirty := x.dirty ||| BitVec.ofNat 64 (2 ^ i) }
        | none => x)
      x
  else x

/-- Every element of a window sector that has a cell in an exact entry shows its cell's value (R79). -/
def State.showWindow (s : State) (m : MapEntry) (ix : Nat) : State :=
  match (s.map? m.die m.core m.lv m.n).bind (fun m => (m.sec? ix).map (fun x => (m, x))) with
  | some (m, x) =>
    s.putMap (m.setSec (s.exact.foldl (fun x e => e.cells.foldl (fun x c => WinSector.showCell s e c x) x) x))
  | none => s

/-- One stash store at its stash: plain bytes, and window bytes once their sectors are owned. -/
def stashWrite (s : State) (o : Op) (r : TeamRef) (off : Nat) (bytes : List Byte) : Except State State :=
  let secs := s.touched r off bytes.length
  if secs.any (fun q => !(((q.1.sec? q.2).map (·.owns)).getD false)) then
    .error (s.renewTouch o r off bytes.length true)
  else
    -- a shared owner takes its sharers' copies back before it writes again (R89)
    let s := secs.foldl (fun s q =>
      match q.1.sec? q.2 with
      | some x =>
        if x.st = .O then
          (x.pas.map (· / 64)).dedup.foldl
            (fun s g => ((s.recallWindows g (fun m' x' => m'.same q.1 && x'.ix == q.2)).dropWalks g).dropCopies g (fun _ => true)) s
        else s
      | none => s) s
    let s := bytes.zipIdx.foldl (fun s p =>
      match s.windowOf r (off + p.2) with
      | some m => writeWindow s m (off + p.2 - m.woff) p.1
      | none => s.setStash r (off + p.2) [p.1]) s
    .ok (if s.exact.isEmpty then s else secs.foldl (fun s q => s.showWindow q.1 q.2) s)

/-- One global store at its home. An ordinary store needs write ownership in its core's L1; a no-allocate store without it and an
engine write are performed at the L2 and advance the line's tag once for each sector (R128, R234). A no-allocate store uses its L1's copy
by writing in it in M or E; one in S or O goes with the write at the L2 (DESIGN CHOICE, log 52). -/
def globalWrite (s : State) (o : Op) (na : Bool) (bumped : List Nat) (pa : Nat) (bytes : List Byte) :
    Except State (State × List Nat) :=
  let w := s.whoOp o
  let sector := pa / 64
  let mine (c : Copy) : Bool := c.die == o.own.ref.die && (c.core == some o.own.ref.core || c.core.isNone)
  let owned := o.path.isSome && s.holdsME o.own.ref.die o.own.ref.core sector
  match w.launch with
  | none => .error s
  | some k =>
    if !na && !owned then .error s
    else
      match s.writeSector w k sector (fun _ _ => false) (fun c => owned && mine c) with
      | .error s => .error s
      | .ok s =>
        let s := s.putHome pa bytes
        if owned then .ok (s.addCore o.own.ref.die o.own.ref.core sector .M, bumped)
        else .ok (if bumped.contains sector then s else s.bumpTag (sector / 4), sector :: bumped)

/-- Whether an access of a store waits for an earlier access of its context (R232) or an earlier write of its core or die (R111). -/
def State.storeWaits (s : State) (o : Op) (l : StoreLane) : Bool :=
  let ls := s.locs l.place l.bytes.length
  (o.path.isSome && s.held o.own o.id ls) || mustFollow s o l.stage ls

/-- One access of a store, at the die's proxy L2 alone when `dieOnly` (R117), else everywhere. -/
def storeAccess (s : State) (o : Op) (na dieOnly : Bool) (bumped : List Nat) (before : List StoreLane) (l : StoreLane) :
    Except State (State × List Nat × StoreLane) :=
  if s.storeWaits o l || laneFirst s before (s.locs l.place l.bytes.length) then .error s
  else
    match l.place with
    | .glob _ pa =>
      if dieOnly then
        let early := match l.stage with | .issued => !na | .engine _ => true | .die _ | .performed => false
        if dieOf pa ≠ o.own.ref.die && early then
          let s := s.dropCopies (pa / 64) (fun c => c.die == o.own.ref.die && c.core.isSome && c.core != some o.own.ref.core)
          .ok ({ s with serial := s.serial + 1 }, bumped, { l with stage := .die s.serial })
        else .error s
      else
        (globalWrite s o na bumped pa l.bytes).map (fun p => (p.1, p.2, { l with stage := .performed }))
    | .stash r off =>
      if dieOnly then .error s
      else (stashWrite s o r off l.bytes).map (fun s => (s, bumped, { l with stage := .performed }))

/-- The accesses of a store that an event picks, in ascending lane order. -/
def storeAccesses (o : Op) (na dieOnly : Bool) (pick : List Nat) :
    State → List Nat → List StoreLane → List StoreLane → State × List Nat × List StoreLane
  | s, bumped, _, [] => (s, bumped, [])
  | s, bumped, before, l :: rest =>
    if l.stage ≠ .performed && picks pick l.lane then
      match storeAccess s o na dieOnly bumped before l with
      | .ok (s, bumped, l) =>
        let (s, bumped, ls) := storeAccesses o na dieOnly pick s bumped (before ++ [l]) rest
        (s, bumped, l :: ls)
      | .error s =>
        let (s, bumped, ls) := storeAccesses o na dieOnly pick s bumped (before ++ [l]) rest
        (s, bumped, l :: ls)
    else
      let (s, bumped, ls) := storeAccesses o na dieOnly pick s bumped (before ++ [l]) rest
      (s, bumped, l :: ls)

/-- STORE_PERFORMED: the picked accesses of a store are performed, for the die alone or for every scope (R117); once all are
performed for DEVICE, STORE falls (R234). A write-back caused by the SMAP family is at its homes since the instruction. -/
def execStorePerformed (op : Nat) (lanes : List Nat) (dieOnly : Bool) (s : State) : Host.Outcome State Fault Refusal :=
  match s.flying? op with
  | none => .next s
  | some o =>
    match o.kind with
    | .store ls na bumped =>
      let (s, bumped, ls) := storeAccesses o na dieOnly lanes s bumped [] ls
      let s := s.putOp { o with kind := .store ls na bumped }
      .next (if ls.all (fun l => l.stage = .performed) then s.finishOp op else s)
    | _ => .next s

/-! ### Fills, stash copies, ownership -/

/-- WINDOW_FILL: a window sector receives its 64 bytes, each from its home (R105); FILL falls. -/
def execWindowFill (op : Nat) (s : State) : Host.Outcome State Fault Refusal :=
  match s.flying? op with
  | none => .next s
  | some o =>
    match o.kind with
    | .fill die core n ix pas =>
      match s.map? die core o.lv n with
      | none => .next (s.finishOp op)
      | some m =>
        let w : Who := { launch := s.holder o.lv, die := some die, core := some core }
        match w.launch with
        | none => .next s
        | some k =>
          if (m.sec? ix).isSome then .next (s.finishOp op)
          else
            let secs := (pas.map (· / 64)).dedup
            match eachSector s (fun s x => s.readSector w k x) secs with
            | .error s => .next s
            | .ok s =>
              let alone := secs.all (fun x =>
                (s.copiesOf x).isEmpty && !s.windowSharers x && !s.walkers x && s.readsNewest w x)
              let bytes := pas.map (fun p => s.homeByte w p)
              let s := secs.foldl (fun s x => if s.readsNewest w x then s.shareAll x else s) s
              let s := secs.foldl (fun s x => s.addProxy die x (if alone then .E else .S)) s
              match s.map? die core o.lv n with
              | none => .next (s.finishOp op)
              | some m =>
                let x : WinSector :=
                  { ix := ix, st := if alone then .E else .S, pas := pas, bytes := bytes, dirty := 0 }
                .next ((s.putMap (m.setSec x)).finishOp op)
    | _ => .next s

/-- STASH_COPY_COMPLETE: a lane of an LDGS is read and its stash bytes are written (R236); FILL falls. -/
def execStashCopyComplete (op : Nat) (lanes : List Nat) (s : State) : Host.Outcome State Fault Refusal :=
  match s.flying? op with
  | none => .next s
  | some o =>
    match o.kind with
    | .ldgs l =>
      let w := s.whoRead o ((List.range l.n).map (fun i => Loc.g (l.pa + i)))
      match w.launch with
      | none => .next s
      | some k =>
        let own := s.locs (.stash o.own.ref l.off) l.n
        if !picks lanes l.lane || s.held o.own o.id ((List.range l.n).map (fun i => Loc.g (l.pa + i)) ++ own) ||
            mustFollow s o .issued own then .next s
        else
          match s.readSector w k (l.pa / 64) with
          | .error s => .next s
          | .ok s =>
            let s := s.observeAt w o.own o.id ((List.range l.n).map (fun i => Loc.g (l.pa + i)))
            .next ((s.setStash o.own.ref l.off (s.seenBytes w l.pa l.n)).finishOp op)
    | _ => .next s

/-- Write ownership of a sector for an L1: from the die's own proxy L2 when that holds it, else from the home, which recalls
and invalidates every other copy and advances the line's tag (R106, R128, R389). -/
def grantL1 (s : State) (o : Op) (sector : Nat) : State :=
  let w := s.whoOp o
  let die := o.own.ref.die
  let core := o.own.ref.core
  let remote := dieOf (64 * sector) ≠ die
  match w.launch with
  | none => s
  | some k =>
    let proxy := s.proxyState die sector
    let fromProxy := remote && (proxy == .M || proxy == .E)
    let mine (c : Copy) : Bool := c.die == die && (c.core == some core || c.core.isNone)
    match s.writeSector w k sector (fun _ _ => false) mine with
    | .error s => s
    | .ok s =>
      let s := s.addCore die core sector .M
      if fromProxy then s else s.bumpTag (sector / 4)

/-- The global bytes of a window sector as the first write finds them: the translation is checked anew there (R102), and one
that fails leaves those of the fill. -/
def State.ownPas (s : State) (m : MapEntry) (x : WinSector) : List Nat :=
  match windowPas s m x.ix { w := true } with
  | .ok pas => pas
  | .error _ => x.pas

/-- What an ownership operation does with the grants it has: all of them make the stash sector M (R106). -/
def State.ownNext (s : State) (o : Op) (die core n : Nat) (x : WinSector) (got : List Nat) : State :=
  if (x.pas.map (· / 64)).all (fun g => got.contains g) then
    match s.map? die core o.lv n with
    | some m => (s.putMap (m.setSec { x with st := .M })).finishOp o.id
    | none => s.finishOp o.id
  else s.putOp { o with kind := .own die core n x.ix got }

/-- The walk of a first write to a window sector, which translates anew (R101, R102; log 46). -/
def State.noteWindow (s : State) (o : Op) (die core n ix : Nat) : State :=
  match s.map? die core o.lv n, s.holder o.lv with
  | some m, some k => s.noteWalk k die (some core) ((List.range 64).map (fun i => (m.g (64 * ix + i)).toNat))
  | _, _ => s

/-- The grants that an ownership operation holds: a copy taken of a sector since withdraws its grant (R89). -/
def State.gotNow (s : State) (o : Op) : List Nat :=
  match (s.op? o.id).map Op.kind with
  | some (OpKind.own _ _ _ _ got) => got
  | _ => []

/-- Write ownership of one global sector for a window sector; the last grant makes the stash sector M (R106). A translation
that has changed since the fill gives the stash sector the frames it names now. -/
def grantWindow (s : State) (o : Op) (die core n ix : Nat) (sector : Nat) : State :=
  let s := s.noteWindow o die core n ix
  match s.map? die core o.lv n with
  | none => s.finishOp o.id
  | some m =>
    match m.sec? ix, s.holder o.lv with
    | some y, some k =>
      let x : WinSector := { y with pas := s.ownPas m y }
      let s := if x = y then s else s.putMap (m.setSec x)
      if !(x.pas.map (· / 64)).contains sector || (s.gotNow o).contains sector then s.ownNext o die core n x (s.gotNow o)
      else
        let w : Who := { launch := some k, die := some die, core := some core }
        match s.writeSector w k sector (fun m' x' => m'.same m && x'.ix == ix) (fun _ => false) with
        | .error s => s
        | .ok s => ((s.addProxy die sector .M).bumpTag (sector / 4)).ownNext o die core n x (sector :: s.gotNow o)
    | none, _ => s.finishOp o.id
    | _, none => s

/-- OWNERSHIP_GRANT: the home of a sector grants write ownership to the store or window write that waits for it, or U state to the
RED that does. A store asks for it once one of its accesses there waits for nothing else, and these are performed with the grant
(R117). -/
def execOwnershipGrant (op sector : Nat) (s : State) : Host.Outcome State Fault Refusal :=
  match s.flying? op with
  | none => .next s
  | some o =>
    let die := o.own.ref.die
    let core := o.own.ref.core
    match o.kind with
    | .store ls na _ =>
      let here (l : StoreLane) : Bool := l.stage ≠ .performed && (match l.place with | .glob _ pa => pa / 64 == sector | _ => false)
      let ready := ls.filter (fun l => here l && !s.storeWaits o l)
      if ready.isEmpty || na || s.holdsME die core sector then .next s
      else
        let s := grantL1 s o sector
        if s.holdsME die core sector then execStorePerformed op (ready.map (·.lane)) false s else .next s
    | .own die core n ix _ => .next (grantWindow s o die core n ix sector)
    | .red _ _ _ _ lanes =>
      let w := s.whoOp o
      match w.launch with
      | none => .next s
      | some k =>
        if o.path.isSome && lanes.any (fun x => x.pa / 64 = sector) then
          .next (match s.grantU w k die core sector with | .ok s | .error s => s)
        else .next s
    | _ => .next s

end Sys2Proof.Machine
end

