-- ==== Sys2Proof/Machine/Atom.lean ====
section
/-! DEFINITION. Machine/Atom.lean: ATOM, RED and the atomic regions (R243 to R249), and their completion: ATOM_PERFORMED,
RED_MERGE and REGION_VALIDATION. -/

namespace Sys2Proof.Machine

/-! ### ATOM (R243, R244) -/

/-- ATOM accepts I32, N32, I64 and N64 (R243). -/
def atomModeOk (md : BitVec 26) : Bool := 4 ≤ mdType md && mdType md ≤ 7

/-- The new value of an ATOM (R244), on w bits. -/
def atomValue (sub w old a b : Nat) : Nat :=
  match sub with
  | 0 => (old + a) % 2 ^ w
  | 1 => if signedOf w old ≤ signedOf w a then old else a
  | 2 => if signedOf w old ≤ signedOf w a then a else old
  | 3 => min old a
  | 4 => max old a
  | 5 => old &&& a
  | 6 => old ||| a
  | 7 => old ^^^ a
  | 9 => if old = a then b else old
  | 10 => if b = 0 then (old + a) % 2 ^ w else (old + a) % b
  | 11 => if b ≤ old then old else min (old + a) b
  | _ => a

/-- The registers an ATOM writes: the old value, and the tag of EXCHQ (R243, R44). -/
def atomDst (sub : Nat) (w : Bool) (d : Nat) : List RegName :=
  vNames w d ++ (if sub = 12 then vNames w (if w then d + 2 else d + 1) else [])

/-- The registers of operand b that an ATOM reads: CAS, INCW and ADDB have one (R244). -/
def atomSrc (sub : Nat) (w : Bool) (d : Nat) : List RegName :=
  if sub = 9 || sub = 10 || sub = 11 then vNames w (if w then d + 2 else d + 1) else []

/-- Issues an ATOM: every lane tested for R and W, one ATOM entry, the region ends (R231, R264, R296). -/
def atomOp (sub : Nat) (d a b : Fin 64) (l : Fin 16) (s : State) : Host.Outcome State Fault Refusal :=
  instr s
    (fun v =>
      let w := isWide (mdType v.ctx.md)
      let d2 := if w then d.val + 2 else d.val + 1
      { ctxs := teamOnly
        regs := v.team.vOk w d && v.team.vOk w d2 && v.team.vOk false b
        mode := atomModeOk v.ctx.md
        names := atomDst sub w d ++ atomSrc sub w d ++ [.s a.val] ++ vNames false b ++ v.maskNames })
    (fun v =>
      let w := isWide (mdType v.ctx.md)
      let n := if w then 8 else 4
      let d2 := if w then d.val + 2 else d.val + 1
      let names := atomDst sub w d
      match testAll (v.lanes.map (fun i =>
          (globTest s v.team (some i) (laneAddr v a b i) n { r := true, w := true }).map (fun p =>
            match p with
            | .glob va pa =>
              ({ lane := i, va := va, pa := pa, a := BitVec.ofNat 64 (v.team.elem w d i)
                 b := BitVec.ofNat 64 (v.team.elem w d2 i), res := none } : AtomLane)
            | .stash _ k => { lane := i, va := 0, pa := k, a := 0, b := 0, res := none }))) with
      | .error f => .error f
      | .ok lanes =>
        if lanes.isEmpty then .ok (s.retireEnding v v.team (v.ctx.advance (v.ctx.pc + 4) (openWindow 0 l names)))
        else if !s.room v.team.ref [.atom] then .ok s
        else
          let id := s.serial
          let s := s.addOp v.ref v.team.lv (some .atom) (.atom sub w d lanes)
          .ok (s.retireEnding v v.team (v.ctx.advance (v.ctx.pc + 4) (openWindow id l names))))

/-- ATOM.ADD (R244). -/
def execAtomAdd (d a b : Fin 64) (l : Fin 16) (s : State) : Host.Outcome State Fault Refusal := atomOp 0 d a b l s

/-- ATOM.MIN (R244). -/
def execAtomMin (d a b : Fin 64) (l : Fin 16) (s : State) : Host.Outcome State Fault Refusal := atomOp 1 d a b l s

/-- ATOM.MAX (R244). -/
def execAtomMax (d a b : Fin 64) (l : Fin 16) (s : State) : Host.Outcome State Fault Refusal := atomOp 2 d a b l s

/-- ATOM.MINN (R244). -/
def execAtomMinn (d a b : Fin 64) (l : Fin 16) (s : State) : Host.Outcome State Fault Refusal := atomOp 3 d a b l s

/-- ATOM.MAXN (R244). -/
def execAtomMaxn (d a b : Fin 64) (l : Fin 16) (s : State) : Host.Outcome State Fault Refusal := atomOp 4 d a b l s

/-- ATOM.AND (R244). -/
def execAtomAnd (d a b : Fin 64) (l : Fin 16) (s : State) : Host.Outcome State Fault Refusal := atomOp 5 d a b l s

/-- ATOM.OR (R244). -/
def execAtomOr (d a b : Fin 64) (l : Fin 16) (s : State) : Host.Outcome State Fault Refusal := atomOp 6 d a b l s

/-- ATOM.XOR (R244). -/
def execAtomXor (d a b : Fin 64) (l : Fin 16) (s : State) : Host.Outcome State Fault Refusal := atomOp 7 d a b l s

/-- ATOM.EXCH (R244). -/
def execAtomExch (d a b : Fin 64) (l : Fin 16) (s : State) : Host.Outcome State Fault Refusal := atomOp 8 d a b l s

/-- ATOM.CAS (R244). -/
def execAtomCas (d a b : Fin 64) (l : Fin 16) (s : State) : Host.Outcome State Fault Refusal := atomOp 9 d a b l s

/-- ATOM.INCW (R244). -/
def execAtomIncw (d a b : Fin 64) (l : Fin 16) (s : State) : Host.Outcome State Fault Refusal := atomOp 10 d a b l s

/-- ATOM.ADDB (R244). -/
def execAtomAddb (d a b : Fin 64) (l : Fin 16) (s : State) : Host.Outcome State Fault Refusal := atomOp 11 d a b l s

/-- ATOM.EXCHQ (R244). -/
def execAtomExchq (d a b : Fin 64) (l : Fin 16) (s : State) : Host.Outcome State Fault Refusal := atomOp 12 d a b l s

/-- Whether one lane of an ATOM can be performed at its home slice: nothing precedes it (R111, R232), every U copy has been gathered,
every owner recalled and the conflicts tested (R127, R146). -/
def atomReady (s : State) (o : Op) (wide : Bool) (x : AtomLane) : Except State State :=
  let ls := (List.range (if wide then 8 else 4)).map (fun i => Loc.g (x.pa + i))
  let w := s.whoOp o
  if s.held o.own o.id ls || !s.clear w o.own o.id ls then .error s
  else
    match w.launch with
    | none => .error s
    | some k =>
      match s.readSector w k (x.pa / 64) with
      | .error s => .error s
      | .ok s => s.writeSector w k (x.pa / 64) (fun _ _ => false) (fun _ => false)

/-- One lane of an ATOM performed: one indivisible read and write (R127, R244); the line's tag advances and EXCHQ returns it (R128,
R245). -/
def atomApply (s : State) (sub : Nat) (wide : Bool) (x : AtomLane) : State × AtomLane :=
  let n := if wide then 8 else 4
  let old := natOfBytes ((s.sectorRec (x.pa / 64)).tbytes.getN x.pa n)
  let new := atomValue sub (8 * n) old x.a.toNat x.b.toNat
  let s := (s.putHome x.pa (bytesOfNat n new)).bumpTag (x.pa / 256)
  (s, { x with res := some (BitVec.ofNat 64 old, s.tag (x.pa / 256)) })

/-- One lane of an ATOM, after every earlier lane of its location (R113). -/
def atomLane (s : State) (o : Op) (sub : Nat) (wide : Bool) (before : List AtomLane) (x : AtomLane) :
    Except State (State × AtomLane) :=
  if before.any (fun y => y.res.isNone && y.pa = x.pa) then .error s
  else (atomReady s o wide x).map (fun s => atomApply s sub wide x)

/-- The lanes of an ATOM that an event picks, in ascending order. -/
def atomLanes (o : Op) (sub : Nat) (wide : Bool) (pick : List Nat) :
    State → List AtomLane → List AtomLane → State × List AtomLane
  | s, _, [] => (s, [])
  | s, before, x :: rest =>
    let (s, y) :=
      if x.res.isNone && picks pick x.lane then
        match atomLane s o sub wide before x with
        | .ok p => p
        | .error s => (s, x)
      else (s, x)
    let (s, ls) := atomLanes o sub wide pick s (before ++ [y]) rest
    (s, y :: ls)

/-- The lanes of an EXCHQ on one line are performed together, so that their tags are consecutive (R245); which lane takes the lower tag R343
leaves open, and here it is the lower lane, whichever lanes the event names (DESIGN CHOICE, log 53). -/
def exchqLine (o : Op) (wide : Bool) (s : State) (ls : List AtomLane) (line : Nat) : State × List AtomLane :=
  let mine (x : AtomLane) : Bool := x.res.isNone && x.pa / 256 == line
  match eachSector s (fun s x => atomReady s o wide x) (ls.filter mine) with
  | .error s => (s, ls)
  | .ok s =>
    ls.foldl
      (fun (acc : State × List AtomLane) x =>
        if mine x then
          let (s, y) := atomApply acc.1 12 wide x
          (s, acc.2 ++ [y])
        else (acc.1, acc.2 ++ [x]))
      (s, [])

/-- The lanes of an EXCHQ that share a line with one that an event picks. -/
def exchqLanes (o : Op) (wide : Bool) (pick : List Nat) (s : State) (ls : List AtomLane) : State × List AtomLane :=
  (((ls.filter (fun x => x.res.isNone && picks pick x.lane)).map (fun x => x.pa / 256)).dedup).foldl
    (fun acc line => exchqLine o wide acc.1 acc.2 line) (s, ls)

/-- ATOM_PERFORMED: the picked lanes are performed; once all are, the old values (and tags) are written and ATOM falls. -/
def execAtomPerformed (op : Nat) (lanes : List Nat) (s : State) : Host.Outcome State Fault Refusal :=
  match s.flying? op with
  | none => .next s
  | some o =>
    match o.kind with
    | .atom sub wide d ls =>
      let (s, ls) := if sub = 12 then exchqLanes o wide lanes s ls else atomLanes o sub wide lanes s [] ls
      if ls.all (fun x => x.res.isSome) then
        match s.team? o.own.ref with
        | none => .next (s.finishOp op)
        | some t =>
          let res (l : Nat) := (ls.find? (fun x => x.lane = l)).bind (·.res)
          let all := BitVec.allOnes 1024
          let t := t.setElems wide d all (fun l => (res l).map (fun r => r.1.toNat))
          let t := if sub = 12 then t.setElems wide (if wide then d + 2 else d + 1) all (fun l => (res l).map (fun r => r.2.toNat)) else t
          .next ((s.putTeam t).finishOp op)
      else .next (s.putOp { o with kind := .atom sub wide d ls })
    | _ => .next s

/-! ### RED (R246) -/

/-- The types a RED operation accepts; FADD records RND and so refuses a reserved one (R246, R388). -/
def redModeOk (sub : Nat) (md : BitVec 26) : Bool :=
  if sub ≤ 7 then 4 ≤ mdType md && mdType md ≤ 7
  else 8 ≤ mdType md && mdType md ≤ 10 && (sub ≠ 8 || rndOk md)

/-- Issues a RED: every lane tested for W, one RED entry, the region ends. The core asks for U state of the sectors
it does not have in M or E (R93): OWNERSHIP_GRANT, or RED_MERGE. -/
def redOp (sub : Nat) (d a b : Fin 64) (s : State) : Host.Outcome State Fault Refusal :=
  instr s
    (fun v =>
      let w := isWide (mdType v.ctx.md)
      { ctxs := teamOnly, regs := v.team.vOk w d && v.team.vOk false b
        mode := redModeOk sub v.ctx.md
        names := vNames w d ++ [.s a.val] ++ vNames false b ++ v.maskNames })
    (fun v =>
      let ty := mdType v.ctx.md
      match testAll (v.lanes.map (fun i =>
          (globTest s v.team (some i) (laneAddr v a b i) (typeBits ty / 8) { w := true }).map (fun p =>
            match p with
            | .glob va pa =>
              ({ lane := i, va := va, pa := pa, bits := BitVec.ofNat 64 (v.team.elem (isWide ty) d i) } : RedLane)
            | .stash _ k => { lane := i, va := 0, pa := k, bits := 0 }))) with
      | .error f => .error f
      | .ok lanes =>
        if lanes.isEmpty then .ok (s.retireEnding v v.team v.ctx.step4)
        else if !s.room v.team.ref [.red] then .ok s
        else
          let s := s.addOp v.ref v.team.lv (some .red) (.red sub ty (mdRnd v.ctx.md) (seedOf s v.team) lanes)
          .ok (s.retireEnding v v.team v.ctx.step4))

/-- RED.ADD (R246). -/
def execRedAdd (d a b : Fin 64) (_l : Fin 16) (s : State) : Host.Outcome State Fault Refusal := redOp 0 d a b s

/-- RED.MIN (R246). -/
def execRedMin (d a b : Fin 64) (_l : Fin 16) (s : State) : Host.Outcome State Fault Refusal := redOp 1 d a b s

/-- RED.MAX (R246). -/
def execRedMax (d a b : Fin 64) (_l : Fin 16) (s : State) : Host.Outcome State Fault Refusal := redOp 2 d a b s

/-- RED.MINN (R246). -/
def execRedMinn (d a b : Fin 64) (_l : Fin 16) (s : State) : Host.Outcome State Fault Refusal := redOp 3 d a b s

/-- RED.MAXN (R246). -/
def execRedMaxn (d a b : Fin 64) (_l : Fin 16) (s : State) : Host.Outcome State Fault Refusal := redOp 4 d a b s

/-- RED.AND (R246). -/
def execRedAnd (d a b : Fin 64) (_l : Fin 16) (s : State) : Host.Outcome State Fault Refusal := redOp 5 d a b s

/-- RED.OR (R246). -/
def execRedOr (d a b : Fin 64) (_l : Fin 16) (s : State) : Host.Outcome State Fault Refusal := redOp 6 d a b s

/-- RED.XOR (R246). -/
def execRedXor (d a b : Fin 64) (_l : Fin 16) (s : State) : Host.Outcome State Fault Refusal := redOp 7 d a b s

/-- RED.FADD (R246). -/
def execRedFadd (d a b : Fin 64) (_l : Fin 16) (s : State) : Host.Outcome State Fault Refusal := redOp 8 d a b s

/-- RED.FMIN (R246). -/
def execRedFmin (d a b : Fin 64) (_l : Fin 16) (s : State) : Host.Outcome State Fault Refusal := redOp 9 d a b s

/-- RED.FMAX (R246). -/
def execRedFmax (d a b : Fin 64) (_l : Fin 16) (s : State) : Host.Outcome State Fault Refusal := redOp 10 d a b s

/-- RED_MERGE for one sector: the core's copy in U, granted now if it has not been, merges at the home (R93); an engine's
contributions are one write of the sector there (R128, R261). -/
def redMerge (s : State) (o : Op) (sector : Nat) : State :=
  let w := s.whoOp o
  match w.launch with
  | none => s
  | some k =>
    if o.path.isSome then
      match s.grantU w k o.own.ref.die o.own.ref.core sector with
      | .error s => s
      | .ok s => (s.mergeU o.own.ref.die o.own.ref.core sector).1
    else
      match s.flying? o.id, s.writeSector w k sector (fun _ _ => false) (fun _ => false) with
      | some o, .ok s =>
        let (s, merged, _) := s.mergeOp o sector
        if merged then s.bumpTag (sector / 4) else s
      | none, .ok s => s
      | _, .error s => s

/-- RED_MERGE: the copies with the picked contributions of a RED merge at their homes; RED falls once all have (R93, R172). -/
def execRedMerge (op : Nat) (lanes : List Nat) (s : State) : Host.Outcome State Fault Refusal :=
  match s.flying? op with
  | none => .next s
  | some o =>
    match o.kind with
    | .red _ _ _ _ ls =>
      .next ((((ls.filter (fun x => picks lanes x.lane)).map (fun x => x.pa / 64)).dedup).foldl (fun s x => redMerge s o x) s)
    | _ => .next s

/-! ### Atomic regions (R247 to R249) -/

/-- XBEGIN: a fresh region for each lane of E; every open region of the team closes with code 4 first (R247, R249). -/
def execXbegin (s : State) : Host.Outcome State Fault Refusal :=
  instr s (fun v => { ctxs := teamOnly, names := v.maskNames })
    (fun v =>
      let t := v.team.closeRegions 4
      let kept := t.regions.filter (fun r => !inMask v.eff r.lane)
      let fresh := v.lanes.map (fun l => ({ lane := l, line := none, code := 0, reads := [], writes := [] } : LaneRegion))
      .ok (s.retire v { t with regions := kept ++ fresh } v.ctx.step4))

/-- XABORT closes the open regions of the lanes of E with code 2 (R249). -/
def execXabort (s : State) : Host.Outcome State Fault Refusal :=
  instr s (fun v => { ctxs := teamOnly, names := v.maskNames })
    (fun v =>
      let e := v.eff
      let t := { v.team with regions := v.team.regions.map (fun r =>
        if inMask e r.lane && r.code = 0 then { r with code := 2, reads := [], writes := [] } else r) }
      .ok (s.retire v t v.ctx.step4))

/-- What XEND finds for a lane: the code of a region that needs no decision, none for one that its home decides (R248). -/
def xendCode (t : Team) (l : Nat) : Option Nat :=
  match t.region? l with
  | none => some 5
  | some r => if r.code ≠ 0 then some r.code else if r.line.isNone then some 0 else none

/-- Writes the codes of XEND into vA and the committed lanes into kD; bits of kD outside E are unchanged (R248). -/
def Team.xendResult (t : Team) (kd va : Nat) (codes : List (Nat × Nat)) : Team :=
  let code (l : Nat) : Option Nat := (codes.find? (fun p => p.1 = l)).map (·.2)
  let mask (p : Nat × Nat → Bool) : Mask :=
    BitVec.ofNat 1024 (codes.foldl (fun n c => if p c then n ||| 2 ^ c.1 else n) 0)
  let old := t.k[Fin.ofNat 16 kd]
  let t := t.setElems false va (BitVec.allOnes 1024) code
  t.setK (Fin.ofNat 16 kd) ((old &&& ~~~ mask (fun _ => true)) ||| mask (fun c => c.2 = 0))

/-- XEND (R248): regions without a decision to await are reported at once, and raise no ATOM entry (log 41); the others go to their homes
and hold the team. Lanes outside E keep their regions open. -/
def execXend (d : Fin 16) (a : Fin 64) (s : State) : Host.Outcome State Fault Refusal :=
  instr s
    (fun v => { ctxs := teamOnly, regs := v.team.vOk false a, names := [.k d.val, .v a.val] ++ v.maskNames })
    (fun v =>
      let e := v.eff
      let found := v.lanes.map (fun l => (l, xendCode v.team l))
      let send := found.filterMap (fun p =>
        if p.2.isNone then (v.team.region? p.1).map (fun r => ({ lane := p.1, region := r, res := none } : XendLane)) else none)
      let known := found.filterMap (fun p => p.2.map (fun c =>
        ({ lane := p.1, region := { lane := p.1, line := none, code := c, reads := [], writes := [] }, res := some c } : XendLane)))
      let t := { v.team with restartable := false, regions := v.team.regions.filter (fun r => !inMask e r.lane) }
      if send.isEmpty then
        let t := t.xendResult d a (known.map (fun x => (x.lane, x.res.getD 0)))
        .ok (s.retire v t v.ctx.step4.endRegion)
      else if !s.room v.team.ref [.atom] then .ok s
      else
        let id := s.serial
        let s := s.addOp v.ref v.team.lv (some .atom) (.xend d a (known ++ send))
        .ok (s.retire v t { v.ctx.step4.endRegion with hold := some (.xend id) }))

/-- The decision of one region at its line's home: every byte it read must hold the value it read, and then its writes are one
write of the line, which advances the tag (R128, R130). -/
def decideRegion (s : State) (o : Op) (before : List XendLane) (x : XendLane) : Except State (State × XendLane) :=
  let r := x.region
  let ls := (r.reads ++ r.writes).map (fun c => Loc.g c.1)
  let w := s.whoOp o
  let earlier := before.any (fun y => y.res.isNone && y.region.line = r.line)
  if earlier || s.held o.own o.id ls || !s.clear w o.own o.id ls then .error s
  else
    match w.launch with
    | none => .error s
    | some k =>
      let secs (cs : List Host.Cell) : List Nat := (cs.map (fun c => c.1 / 64)).dedup
      match eachSector s (fun s g => s.readSector w k g) (secs r.reads) with
      | .error s => .error s
      | .ok s =>
        if r.reads.all (fun c => s.homeByte w c.1 = c.2) then
          match eachSector s (fun s g => s.writeSector w k g (fun _ _ => false) (fun _ => false)) (secs r.writes) with
          | .error s => .error s
          | .ok s =>
            let s := s.putCells r.writes
            .ok (s.bumpTag (r.line.getD 0), { x with res := some 0 })
        else .ok (s, { x with res := some 3 })

/-- The regions an event picks, in ascending lane order. -/
def decideRegions (o : Op) (pick : List Nat) : State → List XendLane → List XendLane → State × List XendLane
  | s, _, [] => (s, [])
  | s, before, x :: rest =>
    let (s, y) :=
      if x.res.isNone && picks pick x.lane then
        match decideRegion s o before x with
        | .ok p => p
        | .error s => (s, x)
      else (s, x)
    let (s, ls) := decideRegions o pick s (before ++ [y]) rest
    (s, y :: ls)

/-- REGION_VALIDATION: the homes decide the picked regions of an XEND; once all are decided the codes and the mask are written,
ATOM falls and the team goes on, which is progress (R130, R248, R313). -/
def execRegionValidation (op : Nat) (lanes : List Nat) (s : State) : Host.Outcome State Fault Refusal :=
  match s.flying? op with
  | none => .next s
  | some o =>
    match o.kind with
    | .xend kd va ls =>
      let (s, ls) := decideRegions o lanes s [] ls
      if ls.all (fun x => x.res.isSome) then
        match s.team? o.own.ref with
        | none => .next (s.finishOp op)
        | some t =>
          let t := t.xendResult kd va (ls.map (fun x => (x.lane, x.res.getD 0)))
          let t := { t with team := { t.team with hold := none }, progress := s.time }
          .next ((s.putTeam t).finishOp op)
      else .next (s.putOp { o with kind := .xend kd va ls })
    | _ => .next s

end Sys2Proof.Machine
end

