-- ==== Sys2Proof/Machine/Maps.lean ====
section
/-! DEFINITION. Machine/Maps.lean: stash mapping (R102 to R108, R237 to R241). A mapping change waits for the accesses that its
context has in flight to the window's bytes, so that program order holds (R232). -/

namespace Sys2Proof.Machine

/-- Whether the context has an access in flight to a stash range of its team. -/
def stashBusy (s : State) (c : CtxRef) (lo hi : Nat) : Bool :=
  let hit (p : Place) (n : Nat) : Bool :=
    match p with
    | .stash r off => r == c.ref && decide (off < hi) && decide (lo < off + n)
    | .glob .. => false
  s.ops.any (fun o => o.own = c && !o.done &&
    match o.kind with
    | .load _ ls _ => ls.any (fun l => l.val.isNone && hit l.place l.n)
    | .store ls _ _ => ls.any (fun l => l.stage ≠ .performed && hit l.place l.bytes.length)
    | .ldgs l => hit (.stash c.ref l.off) l.n
    | _ => false)

/-- Whether a queued COPY has a stash side, from the byte `base` with the row stride `stride`, that may meet a window. -/
def copyMeets (c : Cmd) (m : MapEntry) (base stride : Nat) : Bool :=
  let len := bits (c.args[(2 : Fin 4)]).toNat 31 0
  let rows := bits (c.args[(2 : Fin 4)]).toNat 63 32
  len ≠ 0 && rows ≠ 0 && decide (base < m.woff + m.len) && decide (m.woff < base + (rows - 1) * stride + len)

/-- Whether a command has still to access an entry's window in the stash of its home (R259). -/
def cmdInWindow (c : Cmd) (m : MapEntry) : Bool :=
  let a3 := (c.args[(3 : Fin 4)]).toNat
  m.home == some c.own.ref && c.engine == 0 && c.code == 1 &&
  ((c.ssp && copyMeets c m (c.args[(0 : Fin 4)]).toNat (bits a3 31 0)) ||
    (c.dsp && copyMeets c m (c.args[(1 : Fin 4)]).toNat (bits a3 63 32)))

/-- Whether an access, a COPY or a stream has still to reach a byte of an entry's window in the stash of its home. -/
def homeBusy (s : State) (m : MapEntry) : Bool :=
  let hit (p : Place) (n : Nat) : Bool :=
    match p with
    | .stash r off => m.home == some r && decide (off < m.woff + m.len) && decide (m.woff < off + n)
    | .glob .. => false
  s.ops.any (fun o => !o.done &&
    match o.kind with
    | .load _ ls _ => ls.any (fun l => l.val.isNone && hit l.place l.n)
    | .store ls _ _ => ls.any (fun l => l.stage ≠ .performed && hit l.place l.bytes.length)
    | _ => false) ||
  s.cmds.any (fun c => cmdInWindow c m) ||
  s.teams.any (fun t => m.home == some t.ref && t.queues.any (fun q =>
    match q.stream with | some x => bitAt (x.desc.getD 6 0).toNat 32 | none => false))

/-- Whether an access by a bound context or a cluster member to a sector of an entry's window has been made in part: a change of the
entry comes wholly before it or wholly after it there (R242). The units of one lane, of one access of a bound context, or of one word of a
stream, are one access; of a stream that is in the middle of a word any entry in its team's stash waits. -/
def halfMade (s : State) (m : MapEntry) : Bool :=
  let sector (p : Place) : Option Nat :=
    match p with
    | .stash r off => if m.home == some r && m.woff ≤ off && off < m.woff + m.len then some ((off - m.woff) / 64) else none
    | .glob .. => none
  let split (o : Op) (done left : List (Nat × Place)) : Bool :=
    left.any (fun x => (sector x.2).isSome && done.any (fun y => sector y.2 == sector x.2 &&
      (o.own.kind != .team || x.1 % 65536 == y.1 % 65536)))
  s.teams.any (fun t => m.home == some t.ref && t.queues.any (fun q => (q.stream.map (fun x => !x.part.isEmpty)).getD false)) ||
  s.ops.any (fun o => !o.done &&
    match o.kind with
    | .load _ ls _ =>
      split o ((ls.filter (·.val.isSome)).map (fun l => (l.lane, l.place))) ((ls.filter (·.val.isNone)).map (fun l => (l.lane, l.place)))
    | .store ls _ _ =>
      split o ((ls.filter (·.stage = .performed)).map (fun l => (l.lane, l.place)))
        ((ls.filter (·.stage ≠ .performed)).map (fun l => (l.lane, l.place)))
    | _ => false)

/-- Whether a change of an entry waits: for the accesses that the context has in flight to its window and for any that has been made
there in part (R232, R242), and, when the entry is detached, for every access in flight there, since the ended team's accesses still
reach the window (R41, R106, R259). -/
def mapBusy (s : State) (c : CtxRef) (m : MapEntry) : Bool :=
  halfMade s m || (if m.owner.isNone then homeBusy s m else stashBusy s c m.woff (m.woff + m.len))

/-- Writes back every dirty sector of an entry (R107). -/
def writeBackAll (s : State) (m : MapEntry) : State := m.secs.foldl (fun s x => s.writeBack m x) s

/-- A write-back caused by the SMAP family: one entry on STORE for a window with something to write, and none for a clean one (R108, R172;
log 41). -/
def writeBackCounted (s : State) (v : View) (m : MapEntry) : State :=
  if m.secs.all (fun x => x.dirty = 0) then s
  else (writeBackAll s m).addOp v.ref v.team.lv (some .store) (.store [] false [])

/-- The bytes of a freed window become plain scratchpad again, with a content the manual leaves open (log 14). A former allocation keeps
the bytes it held when its team left DRAINING (R86). -/
def bareWindow (s : State) (m : MapEntry) : State :=
  match m.home.bind s.team? with
  | none => s
  | some t =>
    let r := t.ref
    { (s.setStash r m.woff ((List.range m.len).map (fun i => Config.bareByte s.serial (m.woff + i)))) with
      serial := s.serial + 1 }

/-- Whether the write-backs of entries have room on STORE, one for each with dirty bytes (R172). -/
def roomBack (s : State) (r : TeamRef) (ms : List MapEntry) : Bool :=
  let n := ms.countP (fun m => !m.secs.all (fun x => x.dirty = 0))
  n = 0 || s.roomN r .store n

/-- The fault of the write-backs that an instruction ties to entries: it takes it precisely (R100). -/
def backFlt (s : State) (ms : List MapEntry) : Option Flt :=
  (worstAccess (ms.flatMap (fun m => m.secs.filterMap (backFault s m)))).map
    (fun e => { code := e.1, addr := e.2, w := true })

/-- The fills and takings of ownership under way for an entry end with it (R238): the accesses that wait for them touch anew. -/
def endFills (s : State) (m : MapEntry) : State :=
  let his (o : Op) : Bool := o.lv == m.lv &&
    match o.kind with
    | .fill d k n _ _ => d == m.die && k == m.core && n == m.n
    | .own d k n _ _ => d == m.die && k == m.core && n == m.n
    | _ => false
  { s with ops := sweepOps (s.ops.map (fun o => if his o then { o with done := true } else o)) }

/-- An entry's sectors own their global sectors no longer: the die's proxy copies are clean (R92, R107). -/
def releaseHomes (s : State) (m : MapEntry) : State :=
  s.cleanProxy m.die ((m.secs.filter WinSector.owns).flatMap (fun x => x.pas.map (· / 64)))

/-- Invalidates and frees an entry. -/
def freeMap (s : State) (m : MapEntry) : State :=
  let s := releaseHomes s m
  endFills { (bareWindow s m) with maps := s.maps.filter (fun x => !x.same m) } m

/-- Reclaim of an entry (R104): write back, invalidate, free. -/
def reclaimMap (s : State) (m : MapEntry) : State := freeMap (writeBackAll s m) m

/-- The oldest detached entry of a core, by the moment it was made or last re-mapped, which reuse and detachment leave alone (R104;
DESIGN CHOICE, log 50). -/
def oldestDetached (s : State) (die core : Nat) : Option MapEntry :=
  (s.maps.filter (fun m => m.die = die && m.core = core && m.owner.isNone)).foldl
    (fun (b : Option MapEntry) m =>
      match b with
      | none => some m
      | some x => if m.age < x.age then some m else some x) none

/-- The limits of the parameter table (R102). -/
def paramsOk (t : Team) (m0 m2 m3 : Word) : Bool :=
  let len := bits m0.toNat 63 32
  let woff := bits m0.toNat 31 0
  let w := bits m3.toNat 40 32
  len % 256 == 0 && 256 ≤ len && woff % 256 == 0 && woff + len ≤ t.stashLen &&
  m2.toNat < 2 ^ 40 && m3.toNat < 2 ^ 41 && 1 ≤ w && w ≤ 256 && w ≤ m2.toNat

/-- The entries of a team that are attached. -/
def State.attached (s : State) (r : TeamRef) : List MapEntry := s.maps.filter (fun m => m.owner = some r)

/-- Whether two entries have the same parameters. -/
def MapEntry.sameWindow (a b : MapEntry) : Bool := a.m0 == b.m0 && a.m1 == b.m1 && a.m2 == b.m2 && a.m3 == b.m3

/-- The detached entry that an STMAP reclaims: it makes an entry, and the core has none free (R104). -/
def reclaimed (s : State) (die core : Nat) (hitMaps : List MapEntry) (old : Option MapEntry) : Option MapEntry :=
  let mine := s.maps.filter (fun x => x.die = die && x.core = core)
  if old.isNone && 64 ≤ mine.length - hitMaps.length then oldestDetached s die core else none

/-- STMAP past its tests: entries that the new window overlaps are freed, then the entry is reused, re-mapped or made (R108).
A reuse moves the window to this team's stash; the bytes under it of an ended team that still drains are those from before it was mapped
(DESIGN CHOICE, log 14). -/
def mapWindow (s : State) (v : View) (m : MapEntry) (old : Option MapEntry) (hitMaps : List MapEntry) : State :=
  let s := hitMaps.foldl (fun s x => freeMap (writeBackCounted s v x) x) s
  match old with
  | some e =>
    if e.sameWindow m then
      s.putMap { e with owner := some v.team.ref, home := some v.team.ref }
    else
      let s := freeMap (writeBackCounted s v e) e
      { s with maps := s.maps ++ [{ m with age := s.serial }], serial := s.serial + 1 }
  | none =>
    let s :=
      match reclaimed s v.team.ref.die v.team.ref.core [] none with
      | some x => reclaimMap s x
      | none => s
    { s with maps := s.maps ++ [{ m with age := s.serial }], serial := s.serial + 1 }

/-- STMAP (R237, R238). -/
def execStmap (a n : Fin 64) (s : State) : Host.Outcome State Fault Refusal :=
  instr s
    (fun _ => { ctxs := teamOnly, enc := a.val ≤ 60, names := (List.range 4).map (fun i => RegName.s (a.val + i)) })
    (fun v =>
      let g (i : Nat) := v.ctx.getSN (a.val + i)
      let r := v.team.ref
      let m : MapEntry :=
        { die := r.die, core := r.core, n := n, lv := v.team.lv, owner := some r, home := some r, age := 0
          m0 := g 0, m1 := g 1, m2 := g 2, m3 := g 3, secs := [] }
      let old := s.map? r.die r.core v.team.lv n
      let other := (old.map (fun e => e.owner.isSome && e.owner != some r)).getD false
      if !paramsOk v.team (g 0) (g 2) (g 3) || other then .error { code := .stashRange }
      else if (old.map (fun e => e.owner == some r && e.sameWindow m)).getD false then
        .ok (s.retire v v.team v.ctx.step4)
      else
        let mine := (s.attached r).filter (fun x => x.n ≠ n.val)
        let hits (x : MapEntry) : Bool := decide (x.woff < m.woff + m.len) && decide (m.woff < x.woff + x.len)
        let hitMaps := mine.filter hits
        if 4 ≤ (mine.filter (fun x => !hits x)).length then .error { code := .stashRange }
        else
          match backFlt s (hitMaps ++ (old.filter (fun e => !e.sameWindow m)).toList) with
          | some f => .error f
          | none =>
            if halfMade s m || stashBusy s v.ref m.woff (m.woff + m.len) ||
                (hitMaps ++ old.toList ++ (reclaimed s r.die r.core hitMaps old).toList).any (mapBusy s v.ref) ||
                !roomBack s r (hitMaps ++ (old.filter (fun e => !e.sameWindow m)).toList) then .ok s
            else .ok ((mapWindow s v m old hitMaps).retire v ((mapWindow s v m old hitMaps).team? r |>.getD v.team) v.ctx.step4))

/-- The entry that STUNMAP, STFLUSH and STINV act on: none when free, STASH_RANGE when attached to another live team (R239). -/
def namedMap (s : State) (v : View) (n : Fin 64) : Except Flt (Option MapEntry) :=
  match s.map? v.team.ref.die v.team.ref.core v.team.lv n with
  | none => .ok none
  | some m => if m.owner.isSome && m.owner ≠ some v.team.ref then .error { code := .stashRange } else .ok (some m)

/-- A mapping change of one entry: no effect on a free one; one that writes back (`back`) faults where that does (R100) and waits for
room on STORE; held while accesses are in flight to the window. -/
def mapChange (s : State) (n : Fin 64) (back : Bool) (f : View → MapEntry → State) : Host.Outcome State Fault Refusal :=
  instr s (fun _ => { ctxs := teamOnly })
    (fun v =>
      match namedMap s v n with
      | .error e => .error e
      | .ok none => .ok (s.retire v v.team v.ctx.step4)
      | .ok (some m) =>
        match (if back then backFlt s [m] else none) with
        | some e => .error e
        | none =>
          if mapBusy s v.ref m || (back && !roomBack s v.team.ref [m]) then .ok s
          else
            let s' := f v m
            .ok (s'.retire v ((s'.team? v.team.ref).getD v.team) v.ctx.step4))

/-- STUNMAP (R239, R108). -/
def execStunmap (n : Fin 64) (s : State) : Host.Outcome State Fault Refusal :=
  mapChange s n true (fun v m => freeMap (writeBackCounted s v m) m)

/-- A clean window sector: M becomes E and O becomes S. -/
def WinSector.cleaned (x : WinSector) : WinSector :=
  { x with dirty := 0, st := x.st.cleaned }

/-- STFLUSH (R239, R108). -/
def execStflush (n : Fin 64) (s : State) : Host.Outcome State Fault Refusal :=
  mapChange s n true (fun v m => releaseHomes ((writeBackCounted s v m).putMap { m with secs := m.secs.map WinSector.cleaned }) m)

/-- Discards the valid sectors of an entry, which owns nothing any longer (R92). Each global byte stands as its home holds it: the return is
a write, which invalidates every other copy of a discarded byte (R239). -/
def discardWindow (s : State) (m : MapEntry) : State :=
  let gone := (m.secs.flatMap (fun x =>
    (x.pas.zipIdx.filter (fun p => x.dirty.getLsbD p.2)).map (fun p => p.1 / 64))).dedup
  gone.foldl (fun s g => (s.recallWindows g (fun _ _ => false)).dropCopies g (fun _ => true)) ((releaseHomes s m).putMap { m with secs := [] })

/-- STINV (R239): the dirty bytes are discarded; a detached entry is freed. -/
def execStinv (n : Fin 64) (s : State) : Host.Outcome State Fault Refusal :=
  mapChange s n false (fun _ m =>
    let s := discardWindow s m
    if m.owner.isNone then freeMap s m else s)

/-- The invalid sectors of a team's windows in a range of its stash, which PREF touches (R240). -/
def prefTouched (s : State) (t : Team) (lo n : Nat) : List (MapEntry × Nat) :=
  (s.attached t.ref).flatMap (fun m =>
    (List.range (m.len / 64)).filterMap (fun ix =>
      let at0 := m.woff + 64 * ix
      if at0 < lo + n && lo < at0 + 64 && n ≠ 0 && (m.sec? ix).isNone then some (m, ix) else none))

/-- What the fill of a window sector meets: the first kind of fault in the order of step 9 (R163). -/
def fillFault (s : State) (q : MapEntry × Nat) : Option (FaultCode × Word) :=
  let l := s.holder q.1.lv
  worstAccess ((List.range 64).filterMap (fun i =>
    let va := q.1.g (64 * q.2 + i)
    match resolve s ((l.map (·.asid)).getD 0) ((l.map (·.func)).getD 0) { r := true } va with
    | .ok _ => none
    | .error c => some (c, va)))

/-- The sectors that PREF fills: one that meets a missing translation or permission is dropped (R240). -/
def prefSectors (s : State) (t : Team) (lo n : Nat) : List (MapEntry × Nat) :=
  (prefTouched s t lo n).filter (fun q => (fillFault s q).isNone)

/-- The denial of an access table that a fill of PREF meets: it faults the instruction (R231, R369). -/
def prefDenied (s : State) (t : Team) (lo n : Nat) : Option (FaultCode × Word) :=
  (prefTouched s t lo n).findSome? (fun q =>
    match fillFault s q with
    | some (.accessTable, va) => some (.accessTable, va)
    | _ => none)

/-- PREF (R240). -/
def execPref (a b : Fin 64) (s : State) : Host.Outcome State Fault Refusal :=
  instr s (fun _ => { ctxs := teamOnly, names := [.s a, .s b] })
    (fun v =>
      let lo := (v.ctx.getS a).toNat
      let n := (v.ctx.getS b).toNat
      if v.team.stashLen < lo + n then .error { code := .stashRange, addr := v.ctx.getS a }
      else
        match prefDenied s v.team lo n with
        | some (code, va) => .error { code := code, addr := va }
        | none =>
          let secs := prefSectors s v.team lo n
          if !s.roomTouch v.team.ref secs false 0 then .ok s
          else .ok ((secs.foldl (fun s p => s.startSector v.ref p.1 p.2 false) s).retire v v.team v.ctx.step4))

/-- STQRY (R241). -/
def execStqry (d n : Fin 64) (s : State) : Host.Outcome State Fault Refusal :=
  instr s (fun _ => { ctxs := teamOnly, names := [.s d] })
    (fun v =>
      let x : Nat :=
        match s.map? v.team.ref.die v.team.ref.core v.team.lv n with
        | none => 0
        | some m =>
          let st := match m.owner with | none => 3 | some r => if r = v.team.ref then 1 else 2
          at_ m.secs.length 32 + at_ (m.secs.filter (fun y => y.dirty ≠ 0)).length 16 + st
      .ok (s.retire v v.team (v.ctx.setS d (BitVec.ofNat 64 x)).step4))

end Sys2Proof.Machine
end

