-- ==== Sys2Proof/Machine/Tables.lean ====
section
/-! DEFINITION. Machine/Tables.lean: what a change of committed memory means to launches that run on: the code they fetch is that of
their admission (R115), and an access that translated by an old table entry is ordered before the change of the entry (R101). -/

namespace Sys2Proof.Machine

/-! ### Code as it was at admission (R115) -/

/-- Keeps the committed bytes of a sector before they change, for the launches that are open and fetch them. -/
def State.logCode (s : State) (sector : Nat) : State :=
  if 8 ≤ dieOf (64 * sector) || !s.hub.launches.any Launch.isOpen ||
      s.codeLog.any (fun x => x.sector = sector && x.adm = s.hub.adm) then s
  else
    let x : OldCode := { adm := s.hub.adm, sector := sector, bytes := committedN s (64 * sector) 64 }
    { s with codeLog := s.codeLog ++ [x] }

/-- The byte at a flat address that a launch admitted as number `adm` fetches: the one committed before its admission (R115). -/
def State.codeByte (s : State) (adm pa : Nat) : Byte :=
  match s.codeLog.find? (fun x => x.sector = pa / 64 && adm ≤ x.adm) with
  | some x => x.bytes.getD (pa % 64) 0
  | none => committed s pa

/-- Drops what no open launch fetches any more. -/
def State.pruneCode (s : State) : State :=
  { s with codeLog := s.codeLog.filter (fun x => s.hub.launches.any (fun l => l.isOpen && l.adm ≤ x.adm)) }

/-! ### Translations in use (R101) -/

/-- The virtual addresses by which an operation has still to access memory; with `fresh` those that it translates itself, which a
stash access to a valid window sector does not. -/
def State.opVas (s : State) (o : Op) (fresh : Bool) : List Nat :=
  let at_ (p : Place) (n : Nat) (write : Bool) : List Nat :=
    match p with
    | .glob va _ => [va]
    | .stash r off =>
      if fresh then s.windowVas r off n write
      else (s.touched r off n).flatMap (fun q => (List.range 64).map (fun i => (q.1.g (64 * q.2 + i)).toNat))
  let sector (d k n ix : Nat) : List Nat :=
    match s.map? d k o.lv n with
    | some m => (List.range 64).map (fun i => (m.g (64 * ix + i)).toNat)
    | none => []
  if o.done then []
  else
    match o.kind with
    | .load _ ls _ => ls.flatMap (fun l => if l.val.isNone then at_ l.place l.n false else [])
    | .store ls _ _ => ls.flatMap (fun l => if l.stage = .performed then [] else at_ l.place l.bytes.length true)
    | .ldgs l => [l.va]
    | .atom _ _ _ ls => ls.flatMap (fun l => if l.res.isNone then [l.va] else [])
    | .red _ _ _ _ ls => ls.map (·.va)
    | .xend _ _ ls => ls.flatMap (fun l => if l.res.isNone then [l.region.va] else [])
    | .fetch _ _ _ _ ls => ls.flatMap (fun p => p.2.parts.map (·.1))
    | .epool _ _ _ _ ls => ls.flatMap (fun p => p.2.flatMap (fun e => e.2.parts.map (·.1)))
    | .fill d k n ix _ => sector d k n ix
    | .own d k n ix _ => sector d k n ix
    | .value .. | .hdef | .engine _ => []

/-- The table sectors that an operation in flight has translated by. -/
def State.tablesOf (s : State) (o : Op) : List Nat :=
  match s.holder o.lv with
  | some l => s.tablesFor l (s.opVas o false)
  | none => []

/-- The operations in flight that have translated by an entry in one of these sectors. -/
def State.tableUsers (s : State) (sectors : List Nat) : List Op :=
  if sectors.isEmpty then [] else s.ops.filter (fun o => (s.tablesOf o).any (fun x => sectors.contains x))

/-- Whether an operation has still to access a sector prepared for a version. -/
def State.awaits (s : State) (lv : BitVec 16) (o : Op) : Bool :=
  let prepared (pa : Nat) : Bool := (s.sectorRec (pa / 64)).prep && (s.sectorRec (pa / 64)).lv == lv
  !o.done && o.lv != lv && ((s.pendingLocs o).any (fun x => match x with | .g pa => prepared pa | .s .. => false) ||
    (match o.kind with | .fill _ _ _ _ pas => pas.any prepared | _ => false))

/-- The operation with its accesses translated anew, or the fault that this meets. -/
def retranslate (s : State) (l : Launch) (o : Op) : Except Flt Op :=
  let pa (n : Need) (va : Nat) : Except Flt Nat :=
    match resolve s l.asid l.func n (BitVec.ofNat 64 va) with
    | .ok pa => .ok pa
    | .error c => .error { code := c }
  let place (n : Need) (p : Place) : Except Flt Place :=
    match p with
    | .glob va _ => (pa n va).map (fun x => .glob va x)
    | .stash .. => .ok p
  let el (e : FetchEl) : Except Flt FetchEl :=
    (testAll (e.parts.map (fun p => (pa { r := true } p.1).map (fun x => (p.1, x, p.2.2))))).map (fun ps => { e with parts := ps })
  let kind : Except Flt OpKind :=
    match o.kind with
    | .load d ls na =>
      (testAll (ls.map (fun x => if x.val.isSome then .ok x else (place { r := true } x.place).map (fun p => { x with place := p })))).map
        (fun ls => .load d ls na)
    | .store ls na g =>
      (testAll (ls.map (fun x => if x.stage = .performed then .ok x else (place { w := true } x.place).map (fun p => { x with place := p })))).map
        (fun ls => .store ls na g)
    | .ldgs x => (pa { r := true } x.va).map (fun p => .ldgs { x with pa := p })
    | .atom sub w d ls =>
      (testAll (ls.map (fun x => if x.res.isSome then .ok x else (pa { r := true, w := true } x.va).map (fun p => { x with pa := p })))).map
        (fun ls => .atom sub w d ls)
    | .red sub ty rnd seed ls =>
      (testAll (ls.map (fun x => (pa { w := true } x.va).map (fun p => { x with pa := p })))).map (fun ls => .red sub ty rnd seed ls)
    | .xend kd va ls =>
      (testAll (ls.map (fun x => if x.res.isSome then .ok x else (pa { r := true, w := true } x.region.va).map (fun p =>
        let move (c : Host.Cell) : Host.Cell := (p / 256 * 256 + c.1 % 256, c.2)
        { x with region := { x.region with
            line := some (p / 256), reads := x.region.reads.map move, writes := x.region.writes.map move } })))).map
        (fun ls => .xend kd va ls)
    | .fetch d fmt md isc ls =>
      (testAll (ls.map (fun p => (el p.2).map (fun e => (p.1, e))))).map (fun ls => .fetch d fmt md isc ls)
    | .epool d fmt md isc ls =>
      (testAll (ls.map (fun p => (testAll (p.2.map (fun e => (el e.2).map (fun x => (e.1, x))))).map (fun es => (p.1, es))))).map
        (fun ls => .epool d fmt md isc ls)
    | .fill d k n ix ps =>
      match s.map? d k o.lv n with
      | none => .ok (.fill d k n ix ps)
      | some m => match windowPas s m ix { r := true } with
        | .ok ps => .ok (.fill d k n ix ps)
        | .error e => .error { code := e.1, addr := e.2 }
    | x => .ok x
  kind.map (fun x => { o with kind := x })

/-- Accesses that could not be made before a change of the tables they translated by: ordered after it, they translate by the new
entries, in a walk of their own (R101, R379); one that these refuse ends its launch (log 49). -/
def State.retranslateAll (s : State) (users : List Op) : State :=
  users.foldl
    (fun s u =>
      match s.holder u.lv with
      | none => s
      | some l =>
        let s := s.noteWalk l u.own.ref.die (some u.own.ref.core) (s.opVas u false)
        match s.op? u.id with
        | none => s
        | some o =>
          match retranslate s l o with
          | .ok o => s.putOp o
          | .error f => s.deny f.code l.sid)
    s

/-- Committed sectors are about to change: their code is kept for the launches that fetch it, and no translation cache holds an
entry of their lines any longer (R101, R115). -/
def State.replacing (s : State) (sectors : List Nat) : State :=
  let s := sectors.foldl State.logCode s
  if s.walks.isEmpty then s else { s with walks := s.walks.filter (fun k => !(sectors.map (· / 4)).contains k.line) }

/-- The addresses that an instruction translates without an operation of its own: those of the region accesses of LDG and STG, of the
sectors that PREF touches, and of SLICEOF (R28, R240, R247). -/
def instrVas (s : State) (v : View) (i : Instr) : List Nat :=
  let lanes (a b : Fin 64) : List Nat :=
    (v.lanes.filter (fun l => (v.team.region? l).isSome)).map (fun l => (laneAddr v a b l).toNat)
  match i with
  | .ldg _ a b _ _ _ _ => lanes a b
  | .stg _ a b _ _ _ => lanes a b
  | .pref a b =>
    (prefTouched s v.team (v.ctx.getS a).toNat (v.ctx.getS b).toNat).flatMap (fun q =>
      (List.range 64).map (fun j => (q.1.g (64 * q.2 + j)).toNat))
  | .sliceof _ a => [(v.ctx.getS a).toNat]
  | _ => []

/-- Whether a fault code is that of an access whose address has been translated (R100, R174). -/
def walkCode (code : Nat) : Bool := code == 0x08 || code == 0x09 || code == 0x0A

/-- Whether an instruction accesses an engine window, whose addresses no table translates (R87). -/
def inEngineSpace (i : Instr) : Bool :=
  match i with
  | .ldsc _ _ _ sp _ _ | .stsc _ _ _ sp _ _ => sp == 3
  | _ => false

/-- The walks that one step has made: those of its instruction, of the operations it has issued, and of a fault of an access it has
raised. -/
def State.walked (s : State) (i : Instr) (s' : State) : State :=
  let own :=
    match s.view, s'.view with
    | some v, some v' => if v'.ctx.isc = v.ctx.isc then s' else s'.noteTeam v.team (instrVas s v i)
    | _, _ => s'
  let issued := (own.ops.filter (fun o => s.serial ≤ o.id)).foldl
    (fun x o => match x.team? o.own.ref with | some t => x.noteTeam t (x.opVas o true) | none => x) own
  (s'.hub.parks.drop s.hub.parks.length).foldl
    (fun x r =>
      if !walkCode r.code || inEngineSpace i then x else match x.teams.find? (fun t => t.launch = r.sid && t.t = r.team) with
      | some t => x.noteTeam t [r.addr.toNat]
      | none => x) issued

end Sys2Proof.Machine
end

