-- ==== Sys2Proof/Machine/Sync.lean ====
section
/-! DEFINITION. Machine/Sync.lean: fences, WAITC, barrier objects and the cluster barrier (R119 to R125, R250 to R255), and the
events FENCE_COMPLETE, BARRIER_ARRIVAL and CLUSTER_ARRIVAL. -/

namespace Sys2Proof.Machine

/-! ### When earlier accesses are performed -/

/-- Whether the operations numbered below `upto` that `mine` picks are performed for a scope, as an acquire, a release or both
wait for them (R120). No fence waits for the ENGINE path. -/
def opsSettled (s : State) (mine : CtxRef → Bool) (acq rel : Bool) (sc : Scope) (upto : Nat) : Bool :=
  s.ops.all (fun o =>
    o.done || upto ≤ o.id || !mine o.own ||
    match o.path with
    | some .load | some .fill | some .atom => !(acq || rel)
    | some .red => !rel
    | some .store => !rel || o.performedFor sc
    | _ => true)

/-- Whether a context's earlier accesses and the writes it has observed are performed for a scope (R119, R124). -/
def releaseReady (s : State) (c : CtxRef) (sc : Scope) (upto : Nat) : Bool :=
  opsSettled s (fun x => x == c) true true sc upto && s.observedPerformed c sc upto

/-- Whether the entries of a team's path numbered below `upto` have drained (R124). -/
def pathDrained (s : State) (r : TeamRef) (p : Path) (upto : Nat) : Bool :=
  s.ops.all (fun o => upto ≤ o.id || o.own.ref ≠ r || o.path ≠ some p)

/-! ### Fences and WAITC (R250, R251) -/

/-- Issues a fence: it closes every open region of the team (R249) and holds its context. -/
def fenceOp (acq rel : Bool) (c : Fin 6) (s : State) : Host.Outcome State Fault Refusal :=
  instr s (fun _ => {})
    (fun v =>
      .ok (s.retire v (v.team.closeRegions 4)
        { v.ctx.step4 with hold := some (.fence acq rel (scopeOf c) s.serial) }))

/-- FENCE.ACQ (R119). -/
def execFenceAcq (c : Fin 6) (s : State) : Host.Outcome State Fault Refusal := fenceOp true false c s

/-- FENCE.REL (R119). -/
def execFenceRel (c : Fin 6) (s : State) : Host.Outcome State Fault Refusal := fenceOp false true c s

/-- FENCE.FULL (R119). -/
def execFenceFull (c : Fin 6) (s : State) : Host.Outcome State Fault Refusal := fenceOp true true c s

/-- Whether the condition of a context's fence is met: every earlier entry of its paths, the team's, and for a release every write the
context has observed before it, is performed for its scope (R119, R120). -/
def fenceMet (s : State) (c : CtxRef) (acq rel : Bool) (sc : Scope) (upto : Nat) : Bool :=
  opsSettled s (fun x => x.ref == c.ref) acq rel sc upto && (!rel || s.observedPerformed c sc upto)

/-- FENCE_COMPLETE: a fence whose condition is met releases its context (R120). A fence that acquires does so first: it has then observed
what its core and die show, and is a release of that too when it is full (R119, R121). The completion is progress (R313). -/
def execFenceComplete (die core slot : Nat) (kind : Fin 3) (s : State) : Host.Outcome State Fault Refusal :=
  let k : CtxKind := match kind with | 0 => .team | 1 => .matrix | 2 => .access
  match s.team? { die := die, core := core, slot := slot } with
  | none => .next s
  | some t =>
    match t.ctx? k with
    | none => .next s
    | some c =>
      match c.hold with
      | some (.fence acq rel sc upto) =>
        let x : CtxRef := { ref := t.ref, kind := k }
        if acq && !fenceMet s x true false sc upto then .next s
        else
          let s := if acq then s.observeAll (s.whoOf t) x upto else s
          if fenceMet s x false rel sc upto then .next (s.putTeam { t.setCtx k { c with hold := none } with progress := s.time })
          else .next (s.putTeam (t.setCtx k { c with hold := some (.fence false rel sc upto) }))
      | _ => .next s

/-- The path of a code (R172). -/
def pathOf (n : Nat) : Path :=
  match n with
  | 0 => .load
  | 1 => .store
  | 2 => .fill
  | 3 => .engine
  | 4 => .atom
  | _ => .red

/-- WAITC (R251). -/
def execWaitc (a : Fin 64) (p : Fin 6) (s : State) : Host.Outcome State Fault Refusal :=
  instr s (fun _ => { ctxs := teamOnly, names := [.s a] })
    (fun v =>
      let bound := (v.ctx.getS a).toNat
      if s.counter v.team.ref (pathOf p) ≤ bound then .ok (s.retire v v.team v.ctx.step4)
      else .ok (s.await v (.waitc (pathOf p) bound)))

/-! ### Barrier objects (R123, R124, R252 to R254) -/

/-- Where a barrier instruction finds its object: BARRIER_MISUSE for a bad value, then for an address in a window, then the
address faults of R252, in the order of R163. -/
def barrierPlace (s : State) (v : View) (x : Word) (valueOk write : Bool) : Except Flt (TeamRef × Nat) :=
  let cluster := bitAt x.toNat 31
  let inside := match stashPlace s v.team 0 cluster x 1 with
    | .ok (r, off) => s.inWindow r off 1
    | .error _ => false
  if !valueOk then .error { code := .barrierMisuse }
  else if inside then .error { code := .barrierMisuse, addr := x, w := write }
  else if !aligned x 8 then .error { code := .misaligned, addr := x, w := write }
  else
    match stashPlace s v.team 0 cluster x 8 with
    | .error c => .error { code := c, addr := x, w := write }
    | .ok p => .ok p

/-- The object's word. -/
def objectWord (s : State) (r : TeamRef) (off : Nat) : Nat := natOfBytes ((List.range 8).map (fun i => s.stashByte r (off + i)))

/-- The locations of an object. -/
def objectLocs (r : TeamRef) (off : Nat) : List Loc := (List.range 8).map (fun i => Loc.s r (off + i))

/-- The word after an arrival (R253). -/
def arriveWord (w : Nat) : Nat :=
  let expected := bits w 31 16
  let pending := bits w 15 0
  let phase := bits w 32 32
  if expected = 0 then w
  else if pending ≤ 1 then w - pending + expected - at_ phase 32 + at_ (1 - phase) 32
  else w - 1

/-- BINIT (R252): the word is written once the context's earlier accesses to it are made (R232). -/
def execBinit (a b : Fin 64) (s : State) : Host.Outcome State Fault Refusal :=
  instr s (fun _ => { names := [.s a, .s b] })
    (fun v =>
      let n := (v.ctx.getS b).toNat
      match barrierPlace s v (v.ctx.getS a) (n ≠ 0 && n < 65536) true with
      | .error f => .error f
      | .ok (r, off) =>
        if s.held v.ref s.serial (objectLocs r off) then .ok s
        else
          let s := s.setStash r off (bytesOfNat 8 (at_ n 16 + n))
          .ok (s.retire v ((s.team? v.team.ref).getD v.team) v.ctx.step4))

/-- Issues an arrival (R253). -/
def arriveOp (s : State) (v : View) (a : Fin 64) (path : Option Path) : Except Flt State :=
  match barrierPlace s v (v.ctx.getS a) true true with
  | .error f => .error f
  | .ok (r, off) =>
    let x : Arrival := { id := s.serial, by_ := v.ref, owner := r, off := off, path := path, upto := s.serial }
    let s := { s with arrivals := s.arrivals ++ [x], serial := s.serial + 1 }
    .ok (s.retireEnding v v.team v.ctx.step4)

/-- BARV (R253). -/
def execBarv (a : Fin 64) (s : State) : Host.Outcome State Fault Refusal :=
  instr s (fun _ => { names := [.s a] }) (fun v => arriveOp s v a none)

/-- BARC (R253). -/
def execBarc (a : Fin 64) (p : Fin 6) (s : State) : Host.Outcome State Fault Refusal :=
  instr s (fun _ => { ctxs := teamOnly, names := [.s a] }) (fun v => arriveOp s v a (some (pathOf p)))

/-- Whether a context may be waiting at an object in a former allocation: a WAITING team, or a bound context of the same launch, whose
BWAIT only stops issuing (R254; log 10). -/
def State.waitedOn (s : State) (f : FormerStash) (off : Nat) : Bool :=
  s.teams.any (fun t =>
    (match t.slot with
     | .waiting (.bwait r n _) => r == f.ref && n == off
     | _ => false) ||
    (t.launch == f.launch && [t.matrix, t.access].any (fun c => (c.map (fun c => c.run == .running)).getD false)))

/-- The word of an object after an arrival: in a former allocation an arrival ends no phase on which anyone waits (R253; log 10). -/
def arrived (s : State) (r : TeamRef) (off : Nat) : Nat :=
  let w := objectWord s r off
  let lost (f : FormerStash) : Bool := f.ref == r && bitAt (arriveWord w) 32 != bitAt w 32 && s.waitedOn f off
  if (s.team? r).isNone && s.former.any lost then w else arriveWord w

/-- BARRIER_ARRIVAL: an arrival is applied once its context's earlier accesses and observed writes are performed at CLUSTER
scope and the path it names has drained (R124). -/
def execBarrierArrival (arrival : Nat) (s : State) : Host.Outcome State Fault Refusal :=
  match s.arrivals.find? (fun x => x.id = arrival) with
  | none => .next s
  | some x =>
    match s.team? x.by_.ref with
    | none => .next s
    | some t =>
      let drained := match x.path with | some p => pathDrained s t.ref p x.upto | none => true
      if !(releaseReady s x.by_ .cluster x.upto && drained) then .next s
      else
        let s := s.setStash x.owner x.off (bytesOfNat 8 (arrived s x.owner x.off))
        .next { s with arrivals := s.arrivals.filter (fun y => y.id ≠ x.id) }

/-- Whether a phase other than `phase` stands in an object. -/
def phaseOver (s : State) (r : TeamRef) (off : Nat) (phase : Bool) : Bool := bitAt (objectWord s r off) 32 != phase

/-- BWAIT (R254): it completes when the phase differs, and then acquires at CLUSTER scope, which holds the context until its
earlier reads are performed. -/
def execBwait (a b : Fin 64) (s : State) : Host.Outcome State Fault Refusal :=
  instr s (fun _ => { names := [.s a, .s b] })
    (fun v =>
      let n := (v.ctx.getS b).toNat
      match barrierPlace s v (v.ctx.getS a) (n ≤ 1) false with
      | .error f => .error f
      | .ok (r, off) =>
        let phase := n == 1
        if s.held v.ref s.serial (objectLocs r off) then .ok s
        else if phaseOver s r off phase then
          .ok (s.retire v v.team { v.ctx.step4 with hold := some (.fence true false .cluster s.serial) })
        else .ok (s.await v (.bwait r off phase)))

/-! ### The cluster barrier (R125, R255) -/

/-- CBARA (R255). -/
def execCbara (s : State) : Host.Outcome State Fault Refusal :=
  instr s (fun _ => { ctxs := teamOnly })
    (fun v =>
      if v.team.cbar.isOpen then .error { code := .barrierMisuse }
      else
        let t := { v.team with cbar := { v.team.cbar with isOpen := true, pending := some s.serial } }
        .ok (s.retireEnding v t v.ctx.step4))

/-- CLUSTER_ARRIVAL: the arrival of a CBARA is made once the team's earlier accesses and observed writes are performed at
CLUSTER scope (R125). The team's end does not stop it (R42). What is performed for CLUSTER is performed for the
whole die, so out[63] = 0x0001_0001 with G[0] = 0 in R341's variants without rank 1's fence, or with it at CLUSTER, does not occur (DESIGN
CHOICE, log 1). -/
def execClusterArrival (die core slot : Nat) (s : State) : Host.Outcome State Fault Refusal :=
  match s.team? { die := die, core := core, slot := slot } with
  | none => .next s
  | some t =>
    match t.cbar.pending with
    | none => .next s
    | some upto =>
      if releaseReady s { ref := t.ref, kind := .team } .cluster upto then
        .next (s.putTeam { t with cbar := { t.cbar with pending := none, arrived := t.cbar.arrived + 1 } })
      else .next s

/-- Whether a member holds back no phase that a team has open: it has arrived in it, or has ended with no arrival left (R42). -/
def Team.arrivedFor (m t : Team) : Bool := (m.team.run == .ended && m.cbar.pending.isNone) || t.cbar.passed < m.cbar.arrived

/-- Whether every live member of a team's cluster has arrived in its open phase (R125): a saved one is live; ended members count as
arrived, and so do those that have left their slots (R42). -/
def clusterMet (s : State) (t : Team) : Bool :=
  s.teams.all (fun m => m.launch ≠ t.launch || m.cluster ≠ t.cluster || m.arrivedFor t) &&
  s.hub.saved.all (fun m => m.launch ≠ t.launch || m.cluster ≠ t.cluster || m.team.arrivedFor t)

/-- CBARW (R255): the team has then observed what its core and die show (R125). -/
def execCbarw (s : State) : Host.Outcome State Fault Refusal :=
  instr s (fun _ => { ctxs := teamOnly })
    (fun v =>
      if !v.team.cbar.isOpen then .error { code := .barrierMisuse }
      else if clusterMet s v.team then
        let t := { v.team with cbar := { v.team.cbar with isOpen := false, passed := v.team.cbar.passed + 1 } }
        .ok ((s.observeAll (s.whoOf v.team) v.ref s.serial).retire v t v.ctx.step4)
      else .ok (s.await v .cbarw))

end Sys2Proof.Machine
end

