-- ==== Sys2Proof/Machine/Queue.lean ====
section
/-! DEFINITION. Machine/Queue.lean: operand queues and streams (R282 to R287): VPOP, QSTAT, ASTR, AQWAIT and the event
STREAM_ENTRY_APPEND, with the record of a paused engine or stream (R299, R303). -/

namespace Sys2Proof.Machine

/-- A record with CTX = 3 for an access of an engine (LANE 0 to 3) or of a stream (LANE 4 + n) (R303). When service cannot resolve
the fault, the record is for diagnosis and the launch ends with ABORT_FAULT (R258, R284, R300). -/
def sideFault (s : State) (t : Team) (lane cmd : Nat) (code : FaultCode) (addr : Word) (w : Bool) : State :=
  let l := s.launch? t.launch
  let r : ParkRec :=
    { func := (l.map (·.func)).getD 0, sid := t.launch, lid := (l.map (·.lrec.lid)).getD 0, tcode := 0
      code := code.toNat, ctx := 3, core := coreName (s.die t.ref.die) t.ref.core
      team := t.t, lane := lane, tag := 0, impl := false, x := false, w := w, svc := serviced code addr, die := t.ref.die
      pc := 0, rgnpc := 0, rgncnt := 0, addr := addr, isc := 0, ss := [], cmd := cmd }
  if r.svc then s.raiseRecord r else (s.raiseRecord r).deny code t.launch (s.lostWalk code t.launch addr)

/-- A queue of a team. -/
def Team.queue (t : Team) (q : Nat) : OpQueue := t.queues.getD q { entries := [], closed := true, stream := none }

/-- The team with a queue replaced. -/
def Team.setQueue (t : Team) (q : Nat) (x : OpQueue) : Team := { t with queues := t.queues.set q x }

/-- Whether a team's access context has ended or does not exist (R287). -/
def Team.accessOver (t : Team) : Bool := (t.access.map (fun c => c.run == RunState.ended)).getD true

/-- VPOP (R286). -/
def execVpop (d : Fin 64) (a : Fin 4) (s : State) : Host.Outcome State Fault Refusal :=
  instr s
    (fun v => { ctxs := teamOnly, regs := a.val < v.team.nq && v.team.vOk false d, names := .v d :: v.maskNames })
    (fun v =>
      let q := v.team.queue a
      if v.eff = 0 then .ok (s.retireEnding v v.team v.ctx.step4)
      else
        match q.entries with
        | [] =>
          if q.stream.isSome || !v.team.accessOver then .ok (s.await v (.vpop a)) else .error { code := .queueMisuse }
        | e :: rest =>
          let t := v.team.setRow d (fun l => if inMask v.eff l then e[l]? else none)
          .ok (s.retireEnding v (t.setQueue a { q with entries := rest }) v.ctx.step4))

/-- QSTAT (R287). -/
def execQstat (d : Fin 64) (a : Fin 4) (s : State) : Host.Outcome State Fault Refusal :=
  instr s (fun v => { ctxs := teamOnly, regs := a.val < v.team.nq, names := [.s d] })
    (fun v =>
      let q := v.team.queue a
      let x := (if v.team.accessOver then 2 ^ 33 else 0) + (if q.stream.isSome then 2 ^ 32 else 0) + at_ v.team.qdepth 16 +
        q.entries.length
      .ok (s.retire v v.team (v.ctx.setS d (BitVec.ofNat 64 x)).step4))

/-! ### Streams (R283, R284) -/

/-- A descriptor scalar. -/
def qa (desc : List Word) (i : Nat) : Nat := (desc.getD i 0).toNat

/-- A descriptor scalar read as signed. -/
def qaInt (desc : List Word) (i : Nat) : Int := (desc.getD i 0).toInt

/-- Element size in bytes. -/
def streamSize (desc : List Word) : Nat := 2 ^ bits (qa desc 6) 35 34

/-- CNT0, CNT1 and CNT2. -/
def streamCounts (desc : List Word) : Nat × Nat × Nat := (bits (qa desc 5) 31 0, bits (qa desc 5) 63 32, bits (qa desc 6) 31 0)

/-- Number of entries. -/
def streamLen (desc : List Word) : Nat := let (c0, c1, c2) := streamCounts desc; c2 * c1 * c0

/-- The exact address of lane `l` of entry (i2, i1, i0). -/
def streamAddr (desc : List Word) (i0 i1 i2 l : Nat) : Int :=
  (qa desc 0 : Int) + i2 * qaInt desc 4 + i1 * qaInt desc 3 + i0 * qaInt desc 2 + l * qaInt desc 1

/-- The lowest and the highest byte of a stream, exactly. -/
def streamSpan (desc : List Word) : Int × Int :=
  let (c0, c1, c2) := streamCounts desc
  let na := bits (qa desc 7) 10 0
  let reach (k : Nat) (c : Nat) : Int := qaInt desc k * ((c : Int) - 1)
  let parts := [reach 1 na, reach 2 c0, reach 3 c1, reach 4 c2]
  (parts.foldl (fun x p => x + min 0 p) (qa desc 0 : Int),
    parts.foldl (fun x p => x + max 0 p) (qa desc 0 : Int) + streamSize desc - 1)

/-- Whether an exact address is a canonical 64-bit address. -/
def canonicalInt (x : Int) : Bool := 0 ≤ x && x < 2 ^ 64 && canonical (BitVec.ofInt 64 x)

/-- The fault of a descriptor, in the order of R283. ADDR is BASE for a misalignment, the lowest byte for STASH_RANGE, and the first end
that is not canonical for PAGE_PERMISSION (log 35). -/
def streamFault (t : Team) (desc : List Word) : Option Flt :=
  let na := bits (qa desc 7) 10 0
  let size := streamSize desc
  let (lo, hi) := streamSpan desc
  if 2 ^ 37 ≤ qa desc 6 || bitAt (qa desc 6) 33 || 2 ^ 11 ≤ qa desc 7 || bits (qa desc 6) 35 34 = 3 || na = 0 || t.nl < na then
    some { code := .illegalEncoding }
  else if (List.range 5).any (fun i => qa desc i % size ≠ 0) then some { code := .misaligned, addr := desc.getD 0 0 }
  else if streamLen desc = 0 then none
  else if bitAt (qa desc 6) 32 then
    if 0 ≤ lo && hi < t.stashLen then none else some { code := .stashRange, addr := BitVec.ofInt 64 lo }
  else if canonicalInt lo && canonicalInt hi then none
  else some { code := .pagePermission, addr := BitVec.ofInt 64 (if canonicalInt lo then hi else lo) }

/-- ASTR (R283): it waits for an active stream of its queue. -/
def execAstr (d : Fin 4) (a : Fin 64) (s : State) : Host.Outcome State Fault Refusal :=
  instr s
    (fun v =>
      { ctxs := accessOnly, enc := a.val ≤ 56, regs := d.val < v.team.nq
        names := (List.range 8).map (fun i => RegName.s (a.val + i)) })
    (fun v =>
      let desc := (List.range 8).map (fun i => v.ctx.getSN (a.val + i))
      let q := v.team.queue d
      match streamFault v.team desc with
      | some f => .error f
      | none =>
        if q.stream.isSome then .ok s
        else
          let x : Stream := { desc := desc, i0 := 0, i1 := 0, i2 := 0, upto := s.serial, paused := false, words := [], part := [] }
          let t := if streamLen desc = 0 then v.team else v.team.setQueue d { q with stream := some x }
          .ok (s.retireEnding v t v.ctx.step4))

/-- AQWAIT (R285). -/
def execAqwait (d : Fin 4) (s : State) : Host.Outcome State Fault Refusal :=
  instr s (fun v => { ctxs := accessOnly, regs := d.val < v.team.nq })
    (fun v =>
      let q := v.team.queue d
      if q.stream.isSome && !q.closed then .ok s else .ok (s.retire v v.team v.ctx.step4))

/-- The stream after one entry, or none after its last (R283). -/
def Stream.next (x : Stream) : Option Stream :=
  let (c0, c1, c2) := streamCounts x.desc
  let x := { x with words := [], part := [] }
  if x.i0 + 1 < c0 then some { x with i0 := x.i0 + 1 }
  else if x.i1 + 1 < c1 then some { x with i0 := 0, i1 := x.i1 + 1 }
  else if x.i2 + 1 < c2 then some { x with i0 := 0, i1 := 0, i2 := x.i2 + 1 }
  else none

/-- What one read of a stream comes to. -/
inductive StreamRead where
  | word (s : State) (x : Lane)
  | byte (s : State) (b : Byte)
  | waits (s : State)
  | faults (code : FaultCode) (addr : Word)

/-- The word of a lane from the bytes read. -/
def streamExt (desc : List Word) (v : Nat) : Lane :=
  if bitAt (qa desc 6) 36 then BitVec.ofNat 32 (sextWord (8 * streamSize desc) v).toNat else BitVec.ofNat 32 v

/-- One word of an entry from the stash: a read of the launch (R284). A word that is not single-copy atomic is read byte by byte, one
byte in an event (R109). -/
def streamStash (s : State) (t : Team) (x : Stream) (off : Nat) : StreamRead :=
  let n := streamSize x.desc
  let w := s.whoOf t
  let acc : CtxRef := { ref := t.ref, kind := .access }
  match windowFault s t.ref off n false with
  | some (c, va) => .faults c va
  | none =>
    let secs := s.touched t.ref off n
    let s := s.noteTeam t (s.windowVas t.ref off n false)
    if secs.any (fun q => (q.1.sec? q.2).isNone) then
      .waits (if s.roomTouch t.ref secs false 0 then s.startTouch acc (.stash t.ref off) n false else s)
    else if s.isWhole (.stash t.ref off) n then
      .word (s.observeAt w acc (x.upto - 1) (s.locs (.stash t.ref off) n))
        (streamExt x.desc (natOfBytes ((List.range n).map (fun i => stashSeen s w t.ref (off + i)))))
    else
      let i := x.part.length
      let s := s.observeAt w acc (x.upto - 1) (s.locs (.stash t.ref (off + i)) 1)
      let b := stashSeen s w t.ref (off + i)
      if i + 1 < n then .byte s b else .word s (streamExt x.desc (natOfBytes (x.part ++ [b])))

/-- One word of an entry: a read of the launch (R284). -/
def streamWord (s : State) (t : Team) (x : Stream) (l : Nat) : StreamRead :=
  let n := streamSize x.desc
  let w := s.whoOf t
  let acc : CtxRef := { ref := t.ref, kind := .access }
  if bits (qa x.desc 7) 10 0 ≤ l then .word s 0
  else
    let a : Word := BitVec.ofInt 64 (streamAddr x.desc x.i0 x.i1 x.i2 l)
    if bitAt (qa x.desc 6) 32 then streamStash s t x a.toNat
    else
      let s := s.noteTeam t [a.toNat]
      match s.resolveFor t { r := true } a with
      | .error c => .faults c a
      | .ok pa =>
        match w.launch with
        | none => .waits s
        | some k =>
          match s.readSector w k (pa / 64) with
          | .error s => .waits s
          | .ok s => .word (s.observeAt w acc (x.upto - 1) (s.locs (.glob a.toNat pa) n)) (streamExt x.desc (natOfBytes (s.seenBytes w pa n)))

/-- What stops the reads of an entry: a wait, or a fault. -/
inductive StreamStop where
  | waits
  | faults (code : FaultCode) (addr : Word)
  deriving DecidableEq, Repr

/-- The next `n` words of a stream's entry, added to those it holds, up to the first that waits or faults. -/
def streamWords (t : Team) : State → Stream → Nat → State × Stream × Option StreamStop
  | s, x, 0 => (s, x, none)
  | s, x, n + 1 =>
    match streamWord s t x x.words.length with
    | .waits s => (s, x, some .waits)
    | .faults c a => (s, x, some (.faults c a))
    | .byte s b => (s, { x with part := x.part ++ [b] }, some .waits)
    | .word s y => streamWords t s { x with words := x.words ++ [y], part := [] } n

/-- STREAM_ENTRY_APPEND: the active stream of a queue reads its next entry, once every earlier access of the access context is
performed, and appends it when the queue has room, or keeps it until then; a closed queue discards it (R42, R283, R284). -/
def execStreamEntryAppend (die core slot : Nat) (q : Fin 4) (s : State) : Host.Outcome State Fault Refusal :=
  match s.team? { die := die, core := core, slot := slot } with
  | none => .next s
  | some t =>
    let oq := t.queue q
    match oq.stream with
    | none => .next s
    | some x =>
      let acc : CtxRef := { ref := t.ref, kind := .access }
      if x.paused || !opsSettled s (fun c => c == acc) true true .device x.upto then .next s
      else
        match streamWords t s x (t.nl - x.words.length) with
        | (s, x, some .waits) => .next (s.putTeam (t.setQueue q { oq with stream := some x }))
        | (s, x, some (.faults c a)) =>
          let t := t.setQueue q { oq with stream := some { x with paused := true } }
          .next (sideFault (s.putTeam t) t (4 + q.val) 0 c a false)
        | (s, x, none) =>
          if oq.closed then .next (s.putTeam { t.setQueue q { oq with stream := x.next } with progress := s.time })
          else if oq.entries.length < t.qdepth then
            .next (s.putTeam { t.setQueue q { oq with entries := oq.entries ++ [x.words], stream := x.next } with progress := s.time })
          else .next (s.putTeam (t.setQueue q { oq with stream := some x }))

end Sys2Proof.Machine
end

