-- ==== Sys2Proof/Machine/Windlass.lean ====
section
/-! DEFINITION. Machine/Windlass.lean: expert placement (R320 to R338, R368): the version area, ROUTE (R293), pins and their
release, decisions, copies, refreshes, publication and withdrawal, and the enabling of a domain (R367). Entries are read from
and written to the version area itself. -/

namespace Sys2Proof.Machine

/-! ### Committed memory as the hub's own units reach it -/

/-- Bytes written as committed data by a unit of the hub. -/
def State.hubWrite (s : State) (pa : Nat) (bytes : List Byte) : State :=
  let s := (sectorsOf pa bytes.length).foldl (fun s x => s.settle x) (s.replacing (sectorsOf pa bytes.length))
  { s with mem := s.mem.setN pa bytes }

/-- A committed little-endian number. -/
def hubNat (s : State) (pa n : Nat) : Nat := natOfBytes (committedN s pa n)

/-- The flat address of a byte for a hub unit under an ASID (R330): none when a translation or permission is missing. The access
tables are not consulted (R369). -/
def hubResolve (s : State) (asid : Nat) (va : Word) (r w : Bool) : Option Nat :=
  if !canonical va then none
  else
    match translate s asid va.toNat with
    | none => none
    | some l =>
      let (die, off) := l.place va.toNat
      if Config.dieBytes ≤ off || (r && !l.r) || (w && !l.w) then none else some (flat die off)

/-! ### Domains and versions (R321, R322, R368) -/

/-- A domain by number. -/
def State.domain (s : State) (m : Nat) : Domain := s.windlass[Fin.ofNat 16 m]

/-- The state with a domain replaced. -/
def State.setDomain (s : State) (m : Nat) (d : Domain) : State := { s with windlass := s.windlass.set (Fin.ofNat 16 m) d }

/-- Flat address of a version slot of a domain. -/
def Domain.slotAt (d : Domain) (slot : Nat) : Nat := flat d.vdie (d.varea + 4096 + slot * 0x41000)

/-- Flat address of a directory word. -/
def Domain.dirAt (d : Domain) (slot : Nat) : Nat := flat d.vdie (d.varea + 8 * slot)

/-- Flat address of an entry of a version. -/
def Domain.entryAt (d : Domain) (slot e : Nat) : Nat := d.slotAt slot + 64 + 64 * e

/-- What an entry says (R322). -/
structure Entry where
  kind : Nat
  far : Bool
  fh : Bool
  homed : Nat
  rest : Nat
  rows : Nat
  reps : List (Nat × Nat)
  deriving DecidableEq, Repr

/-- The entry of a version. -/
def entryOf (s : State) (d : Domain) (slot e : Nat) : Entry :=
  let a := d.entryAt slot e
  let w := hubNat s a 8
  { kind := bits w 63 62, far := bitAt w 61, fh := bitAt w 51, homed := bits w 50 48
    rest := bits w 56 52 + bits w 47 0, rows := hubNat s (a + 8) 8
    reps := (List.range (bits w 60 57)).map (fun j =>
      let r := hubNat s (a + 16 + 4 * j) 4
      (bits r 31 29, bits r 28 0)) }

/-- A replica word (R322). -/
def repWord (r : Nat × Nat) : Nat := at_ r.1 29 + r.2

/-- The 64 bytes of an entry. -/
def Entry.bytes (x : Entry) : List Byte :=
  bytesOfNat 8 (at_ x.kind 62 + (if x.far then 2 ^ 61 else 0) + at_ x.reps.length 57 + (if x.fh then 2 ^ 51 else 0) +
    (if x.fh then 0 else at_ x.homed 48)) ++
  bytesOfNat 8 x.rows ++
  (List.range 8).flatMap (fun j => bytesOfNat 4 (match x.reps[j]? with | some r => repWord r | none => 0xFFFFFFFF)) ++
  List.replicate 16 0

/-- The slot of a version of a domain. -/
def Domain.version? (d : Domain) (vnum : Nat) : Option Version := d.versions.find? (fun v => v.vnum = vnum)

/-- The newest version of a domain. -/
def Domain.newest? (d : Domain) : Option Version := d.versions.getLast?

/-- A slot of the version area whose LIVE is 0. -/
def Domain.freeVersion (d : Domain) : Option Nat :=
  (List.range 16).find? (fun i => d.versions.all (fun v => v.slot ≠ i))

/-- Removable replicas of an entry: all but the home replica (R321). -/
def Entry.removable (x : Entry) : List (Nat × Nat) := if x.fh then x.reps else x.reps.filter (fun r => r.1 ≠ x.homed)

/-- The entry with a replica added in replica order (R323, R328). -/
def Entry.grow (x : Entry) (die slot : Nat) : Entry :=
  { x with far := false, reps := insertBy (·.1) (die, slot) x.reps }

/-- The entry without the replica of a die (R328). -/
def Entry.shrink (x : Entry) (die : Nat) : Entry :=
  let reps := x.reps.filter (fun r => r.1 ≠ die)
  { x with reps := reps, far := x.far || (x.fh && reps.isEmpty) }

/-- The entry without one replica that was withdrawn, unless another copy has taken its place on the die (R333). -/
def Entry.withdraw (x : Entry) (r : Nat × Nat) : Entry := if x.reps.contains r then x.shrink r.1 else x

/-- The entry after the changes that concern it; a dropped grow changes nothing (R330). -/
def Entry.change (x : Entry) (e : Nat) (cs : List Change) : Entry :=
  cs.foldl
    (fun x c =>
      match c with
      | .grow e' die slot (some true) => if e' = e then x.grow die slot else x
      | .grow .. => x
      | .shrink e' die => if e' = e then x.shrink die else x)
    x

/-- Writes and publishes a version: the newest with every entry changed by `f`, in a free slot of the area (R322, R326, R330,
R368). Nothing happens without a free slot. -/
def publish (s : State) (m : Nat) (csn : Word) (f : Nat → Entry → Entry) : State :=
  let d := s.domain m
  match d.newest?, d.freeVersion with
  | some v, some slot =>
    let vnum := d.newest + 1
    let entries := (List.range 4096).map (fun e => (f e (entryOf s d v.slot e)).bytes)
    let s := s.hubWrite (d.slotAt slot) (bytesOfNat 4 vnum ++ bytesOfNat 4 0 ++ bytesOfNat 8 csn.toNat ++ List.replicate 48 0)
    let s := entries.zipIdx.foldl (fun s p => s.hubWrite (d.entryAt slot p.2) p.1) s
    let s := s.hubWrite (d.dirAt slot) (bytesOfNat 8 (2 ^ 32 + vnum % 2 ^ 32))
    s.setDomain m { d with
      versions := d.versions ++ [{ vnum := vnum, slot := slot, withdrawn := false }], newest := vnum, newestSlot := slot }
  | _, _ => s

/-- Whether a launch pins, or a stream holds, a version. -/
def State.versionHeld (s : State) (m vnum : Nat) : Bool :=
  s.hub.launches.any (fun l => l.pin == some (m, vnum)) || s.hub.streams.any (fun x => x.holds == some (m, vnum))

/-- Retirement of every version of a domain that R325 lets go. -/
def retireVersions (s : State) (m : Nat) : State :=
  let d := s.domain m
  let goes (v : Version) : Bool := v.vnum != d.newest && !s.versionHeld m v.vnum
  let s := (d.versions.filter goes).foldl (fun s v => s.hubWrite (d.dirAt v.slot) (bytesOfNat 8 (v.vnum % 2 ^ 32))) s
  s.setDomain m { d with versions := d.versions.filter (fun v => !goes v) }

/-- Retirement in every domain. -/
def retireAll (s : State) : State := (List.range 16).foldl retireVersions s

/-! ### ROUTE (R293, R320, R327) -/

/-- What ROUTE answers for an expert and a token, and whether it counts. -/
def routeWord (s : State) (l : Option Launch) (e q : Nat) : Nat × Bool :=
  match l.bind (·.pin) with
  | none => (0xFFFFFFFF, false)
  | some (m, vnum) =>
    let d := s.domain m
    match d.version? vnum with
    | none => (0xFFFFFFFF, false)
    | some v =>
      if 4096 ≤ e then (0xFFFFFFFF, false)
      else
        let x := entryOf s d v.slot e
        if x.kind = 0 then (0xFFFFFFFF, false)
        else if x.far then (0xFFFFFFFE, true)
        else
          match x.reps[q % x.reps.length]? with
          | some r => (repWord r, true)
          | none => (0xFFFFFFFF, false)

/-- Adds one token to a list of counts. -/
def addToken (ts : List ((Nat × Nat) × Nat)) (k : Nat × Nat) (n : Nat) : List ((Nat × Nat) × Nat) :=
  setAssoc ts k (assoc ts k 0 + n)

/-- ROUTE (R293): its words are known at issue and written when its LOAD entry completes. -/
def execRoute (d a b : Fin 64) (l : Fin 16) (s : State) : Host.Outcome State Fault Refusal :=
  instr s
    (fun v =>
      { ctxs := teamOnly, regs := v.team.vOk false d && v.team.vOk false a && v.team.vOk false b
        names := [.v d.val, .v a.val, .v b.val] ++ v.maskNames })
    (fun v =>
      let names : List RegName := [.v d.val]
      let la := s.launchOf v
      let rs : List (Nat × Nat × Nat × Bool) := v.lanes.map (fun i =>
        (i, (v.team.lane a i).toNat, routeWord s la (v.team.lane a i).toNat (v.team.lane b i).toNat))
      if rs.isEmpty then .ok (s.retireEnding v v.team (v.ctx.advance (v.ctx.pc + 4) (openWindow 0 l names)))
      else if !s.room v.team.ref [.load] then .ok s
      else
        let id := s.serial
        let count (ts : List ((Nat × Nat) × Nat)) (r : Nat × Nat × Nat × Bool) : List ((Nat × Nat) × Nat) :=
          if r.2.2.2 then addToken ts (v.team.ref.die, r.2.1) 1 else ts
        let s := match la with
          | some k => s.putLaunch { k with tokens := rs.foldl count k.tokens }
          | none => s
        let s := s.addOp v.ref v.team.lv (some .load) (.value d (rs.map (fun (r : Nat × Nat × Nat × Bool) => (r.1, BitVec.ofNat 32 r.2.2.1))))
        .ok (s.retireEnding v v.team (v.ctx.advance (v.ctx.pc + 4) (openWindow id l names))))

/-! ### Decisions (R328, R329) -/

/-- T_d(e). -/
def Domain.count (d : Domain) (die e : Nat) : Nat := assoc d.counts (die, e) 0

/-- T(e). -/
def Domain.total (d : Domain) (e : Nat) : Nat := (List.range 8).foldl (fun n k => n + d.count k e) 0

/-- The slots of a die's store that a live version names or a copy holds (R334). -/
def usedSlots (s : State) (d : Domain) (die : Nat) : List Nat :=
  let named := d.versions.flatMap (fun v => (List.range 4096).flatMap (fun e =>
    (entryOf s d v.slot e).reps.filterMap (fun r => if r.1 = die then some r.2 else none)))
  let copied := d.pending.flatMap (fun p => p.changes.filterMap (fun c =>
    match c with
    | .grow _ k slot c => if k = die && c ≠ some false then some slot else none
    | .shrink .. => none))
  named ++ copied

/-- The lowest slot of a store of `n` slots that is not used. -/
def lowestFree (n : Nat) (used : List Nat) : Option Nat :=
  (List.range (min n (used.length + 1))).find? (fun i => !used.contains i)

/-- The dies in the order a grow tries them: by T_d(e), the largest first and ties to the lower die (R328); under POLICY = 1 the less
occupied die comes first, and T_d(e) breaks ties of the hub's measure of occupancy, given by die (R329). -/
def dieOrder (d : Domain) (occupied : List Nat) (e : Nat) : List Nat :=
  sortBy (fun k => (if d.policy = 1 then 2 ^ 36 * occupied.getD k 0 else 0) + 8 * (2 ^ 32 - d.count k e) + k) (List.range 8)

/-- The change a decision makes for one entry, given the slots it has taken so far (R328). -/
def decideEntry (s : State) (d : Domain) (occupied : List Nat) (slot e : Nat) (taken : List (Nat × Nat)) : Option Change :=
  let x := entryOf s d slot e
  if x.kind ≠ 0 && d.hot ≤ d.total e && x.reps.length < d.cmax then
    (dieOrder d occupied e).findSome? (fun k =>
      if x.reps.any (fun r => r.1 = k) then none
      else
        let used := usedSlots s d k ++ taken.filterMap (fun p => if p.1 = k then some p.2 else none)
        (lowestFree d.nslot[Fin.ofNat 8 k] used).map (fun i => Change.grow e k i none))
  else if x.kind ≠ 0 && d.total e ≤ d.cold then
    let order := sortBy (fun (r : Nat × Nat) => 8 * d.count r.1 e + (7 - r.1)) x.removable
    order.head?.map (fun r => Change.shrink e r.1)
  else none

/-- The changes of a decision, entries ascending. -/
def decideChanges (s : State) (d : Domain) (occupied : List Nat) (slot : Nat) : List Change :=
  (List.range 4096).foldl
    (fun cs e =>
      if d.maxch ≤ cs.length then cs
      else
        let taken := cs.filterMap (fun c => match c with | .grow _ k i _ => some (k, i) | .shrink .. => none)
        match decideEntry s d occupied slot e taken with
        | some c => cs ++ [c]
        | none => cs)
    []

/-- WINDOW_END: at counted commit k·WIN, after any version due there, the policy decides from the window's counts, which are then
cleared (R327, R328). While an earlier decision waits for a free version, the decision is skipped (R330). -/
def execWindowEnd (domain : Nat) (occupied : List Nat) (s : State) : Host.Outcome State Fault Refusal :=
  let d := s.domain domain
  if 16 ≤ domain || !d.windowDue || d.publishCsn.isSome then .next s
  else
    let cleared := { d with windowDue := false, counts := [] }
    if !d.pending.isEmpty then .next (s.setDomain domain { cleared with skip := d.skip + 1 })
    else
      match d.newest? with
      | none => .next (s.setDomain domain cleared)
      | some v =>
        let cs := decideChanges s d occupied v.slot
        .next (s.setDomain domain
          { cleared with pending := if cs.isEmpty then [] else [{ made := d.counted, changes := cs }] })

/-! ### Copies (R330, R331) -/

/-- Where the bytes of an entry's master start: virtual under WASID, or a flat address of host memory (R321, R330). -/
def masterAt (d : Domain) (e : Nat) (x : Entry) : Word ⊕ Nat :=
  if x.fh then .inr (Config.hostBase + d.farbase + e * d.slotsz)
  else
    let slot := ((x.reps.find? (fun r => r.1 = x.homed)).map (·.2)).getD 0
    .inl (d.store[Fin.ofNat 8 x.homed] + BitVec.ofNat 64 (slot * d.slotsz))

/-- Virtual address of a slot under WASID. -/
def slotVa (d : Domain) (die slot : Nat) : Word := d.store[Fin.ofNat 8 die] + BitVec.ofNat 64 (slot * d.slotsz)

/-- Flat address of byte `i` of a master, or none without a translation to read it, under WASID or in the host's memory, where that is
the host's to say (R330; log 37). -/
def masterPa (s : State) (d : Domain) (m : Word ⊕ Nat) (i : Nat) : Option Nat :=
  match m with
  | .inl va => hubResolve s d.wasid (va + BitVec.ofNat 64 i) true false
  | .inr a => if Config.farServed s.tick ((a + i - Config.hostBase) / 4096) then some (a + i) else none

/-- Copies 4 KiB pages of a master into a slot, committed bytes to committed bytes; none when a translation is missing. -/
def copyPages (d : Domain) (m : Word ⊕ Nat) (va : Word) : State → List Nat → Option State
  | s, [] => some s
  | s, p :: rest =>
    match masterPa s d m (4096 * p), hubResolve s d.wasid (va + BitVec.ofNat 64 (4096 * p)) true true with
    | some src, some dst => copyPages d m va (s.hubWrite dst (committedN s src 4096)) rest
    | _, _ => none

/-- The decision with the outcome of one grow's copy. -/
def Decision.setCopy (x : Decision) (ix : Nat) (good : Bool) : Decision :=
  { x with changes := x.changes.modify ix (fun c =>
      match c with
      | .grow e k slot none => .grow e k slot (some good)
      | c => c) }

/-- A change dropped for its failed copy: counted, and logged with its cause (R330). -/
def Domain.dropCopy (d : Domain) (p : Decision) (rest : List Decision) (ix : Nat) (x : DropRecord) : Domain :=
  { d with pending := p.setCopy ix false :: rest, drop := d.drop + 1, dropLog := d.dropLog ++ [x] }

/-- REPLICA_COPY_DONE: the copy of change number `copyIx` of the pending decision ends, well or with an error; a copy that lacks a
translation fails. A failed change is dropped, counted and logged (R330), and its slot, free again, holds what it held before the copy
(DESIGN CHOICE, log 53). -/
def execReplicaCopyDone (domain copyIx : Nat) (err : Option CopyError) (s : State) : Host.Outcome State Fault Refusal :=
  let d := s.domain domain
  match d.pending, d.newest? with
  | p :: rest, some v =>
    match p.changes[copyIx]? with
    | some (.grow e die slot none) =>
      if 16 ≤ domain then .next s
      else
        let pages := List.range (d.slotsz / 4096)
        let dropped (cause : DropCause) : State := s.setDomain domain (d.dropCopy p rest copyIx ⟨e, die, slot, cause⟩)
        match copyPages d (masterAt d e (entryOf s d v.slot e)) (slotVa d die slot) s pages, err with
        | none, _ => .next (dropped .noTranslation)
        | some _, some x => .next (dropped (.copyError x))
        | some s, none => .next (s.setDomain domain { d with pending := p.setCopy copyIx true :: rest })
    | _ => .next s
  | _, _ => .next s

/-- Whether every copy of a decision has completed or failed. -/
def Decision.settled (x : Decision) : Bool :=
  x.changes.all (fun c => match c with | .grow _ _ _ none => false | _ => true)

/-- Whether every change of a decision has been dropped. -/
def Decision.empty (x : Decision) : Bool :=
  x.changes.all (fun c => match c with | .grow _ _ _ (some false) => true | _ => false)

/-- The entry without its replicas among those that were withdrawn (R333). -/
def Entry.withdrawAll (x : Entry) (e : Nat) (ws : List (Nat × Nat × Nat)) : Entry :=
  ws.foldl (fun x w => if w.1 = e then x.withdraw w.2 else x) x

/-- VERSION_PUBLISH: the decision due at the commit that waits before its step 8 is published with that commit's CSN, once its
copies have settled; one whose changes were all dropped publishes nothing, and one that finds every slot live lets the commit go on and
waits for a later one (R330). Replicas withdrawn since leave the table with it (R333; log 37). -/
def execVersionPublish (domain : Nat) (s : State) : Host.Outcome State Fault Refusal :=
  let d := s.domain domain
  match d.publishCsn, d.pending with
  | some csn, p :: rest =>
    if 16 ≤ domain || !p.settled then .next s
    else if p.empty then .next (s.setDomain domain { d with pending := rest, publishCsn := none })
    else if d.freeVersion.isNone then .next (s.setDomain domain { d with publishCsn := none })
    else
      let s := publish s domain csn (fun e x => (x.withdrawAll e d.withdrawals).change e p.changes)
      let e := s.domain domain
      .next (retireVersions (s.setDomain domain { e with pending := rest, publishCsn := none, withdrawals := [] }) domain)
  | _, _ => .next s

/-! ### Refresh and withdrawal (R331, R333) -/

/-- The removable replicas of an entry in live versions and in copies that have completed. Those of a withdrawn version that still lives are
refreshed as well, and one that fails again is withdrawn and counted again (DESIGN CHOICE, log 53). -/
def refreshTargets (s : State) (d : Domain) (e : Nat) : List (Nat × Nat) :=
  (d.versions.flatMap (fun v => (entryOf s d v.slot e).removable) ++
    d.pending.flatMap (fun p => p.changes.filterMap (fun c =>
      match c with
      | .grow e' k slot (some true) => if e' = e then some (k, slot) else none
      | _ => none))).dedup

/-- Where sector `u` of a master lies: as WASID maps it, whatever it permits, or else as the committing launch's own ASID does, which must
map the store alike (R367). -/
def masterSector (s : State) (d : Domain) (asid : Nat) (m : Word ⊕ Nat) (u : Nat) : Option Nat :=
  match m with
  | .inl va =>
    let a := va + BitVec.ofNat 64 (64 * u)
    ((hubResolve s d.wasid a false false).orElse (fun _ => hubResolve s asid a false false)).map (· / 64)
  | .inr a => some (a / 64 + u)

/-- Copies sector `u` of a master into a replica slot: nothing without a translation or permission of either (R330, R331). -/
def copySector (s : State) (d : Domain) (m : Word ⊕ Nat) (r : Nat × Nat) (u : Nat) : Option State :=
  match masterPa s d m (64 * u), hubResolve s d.wasid (slotVa d r.1 r.2 + BitVec.ofNat 64 (64 * u)) true true with
  | some src, some dst => some (s.hubWrite dst (committedN s src 64))
  | _, _ => none

/-- The refresh of one replica from its master (R331): its slot whole, so that it holds the master's bytes as of this commit, those that the
host wrote since the last one among them (log 37). Whether the refresh fails: for want of a translation, or in every compare (R333). -/
def refreshReplica (d : Domain) (m : Word ⊕ Nat) (bad : List (Nat × Nat)) (r : Nat × Nat) (s : State) : State × Bool :=
  (List.range (d.slotsz / 64)).foldl
    (fun (acc : State × Bool) u =>
      match copySector acc.1 d m r u with
      | some s => (s, acc.2)
      | none => (acc.1, true))
    (s, bad.contains r)

/-- Withdraws replicas of entries of a domain (R333): every version that names one is withdrawn, the holds on it are released,
the launches that pin it abort, and a version without the replicas is due. A copy that no version names yet is withdrawn likewise: its change
is dropped, counted in WDRAW and not in DROP, and a version is due all the same (DESIGN CHOICE, log 53). -/
def withdraw (s : State) (m : Nat) (bad : List (Nat × Nat × Nat)) : State :=
  if bad.isEmpty then s
  else
    let d := s.domain m
    let names (v : Version) : Bool := bad.any (fun b => (entryOf s d v.slot b.1).reps.contains (b.2.1, b.2.2))
    let versions := d.versions.map (fun v => { v with withdrawn := v.withdrawn || names v })
    let gone (vnum : Nat) : Bool := versions.any (fun v => v.vnum == vnum && v.withdrawn)
    let lost (c : Change) : Change := match c with
      | .grow e k slot c => if bad.contains (e, k, slot) then .grow e k slot (some false) else .grow e k slot c
      | .shrink e k => .shrink e k
    let s : State := s.setDomain m { d with
      versions := versions, wdraw := d.wdraw + BitVec.ofNat 16 bad.length
      pending := d.pending.map (fun p => { p with changes := p.changes.map lost })
      withdrawals := (d.withdrawals ++ bad).dedup }
    let s : State := { s with hub := { s.hub with streams := s.hub.streams.map (fun x =>
      match x.holds with
      | some (k, vnum) => if k = m && gone vnum then { x with holds := none } else x
      | none => x) } }
    s.hub.launches.foldl
      (fun s l =>
        match l.pin with
        | some (k, vnum) => if k = m && gone vnum && l.isOpen then s.requestAbort l.sid 0x43 else s
        | none => s)
      s

/-- Publishes the version without the withdrawn replicas, when one is due and a slot is free (R333). -/
def publishWithdrawal (s : State) (m : Nat) (csn : Word) : State :=
  let s := retireVersions s m
  let d := s.domain m
  if d.withdrawals.isEmpty || d.freeVersion.isNone then s
  else
    let s := publish s m csn (fun e x => x.withdrawAll e d.withdrawals)
    retireVersions (s.setDomain m { s.domain m with withdrawals := [] }) m

/-- Refreshes every replica of an entry whose master a commit wrote: the state, and the replicas that fail (R331). -/
def refreshEntry (asid : Nat) (written : List Nat) (bad : List (Nat × Nat)) (d : Domain) (v : Version) (e : Nat) (s : State) :
    State × List (Nat × Nat × Nat) :=
  let ts := refreshTargets s d e
  let mst := masterAt d e (entryOf s d v.slot e)
  let wrote (u : Nat) : Bool := ((masterSector s d asid mst u).map written.contains).getD false
  if ts.isEmpty || !(List.range (d.slotsz / 64)).any wrote then (s, [])
  else
    ts.foldl
      (fun (acc : State × List (Nat × Nat × Nat)) r =>
        let q := refreshReplica d mst bad r acc.1
        (q.1, if q.2 then acc.2 ++ [(e, r.1, r.2)] else acc.2))
      (s, [])

/-- The refresh of one domain at a commit of a launch under `asid` that wrote these sectors (R331), the withdrawals it causes and the
version they make due, one for all replicas that fail in one commit (DESIGN CHOICE, log 53); `bad` names replicas whose compares fail. -/
def refreshDomain (asid : Nat) (csn : Word) (written : List Nat) (bad : List (Nat × Nat × Nat × Nat)) (s : State) (m : Nat) : State :=
  let d := s.domain m
  match (if d.en then d.newest? else none) with
  | none => s
  | some v =>
    let r := if written.isEmpty then (s, [])
      else
        (List.range 4096).foldl
          (fun (acc : State × List (Nat × Nat × Nat)) e =>
            let fails := (bad.filter (fun b => b.1 = m && b.2.1 = e)).map (fun b => b.2.2)
            let q := refreshEntry asid written fails d v e acc.1
            (q.1, acc.2 ++ q.2))
          (s, [])
    publishWithdrawal (withdraw r.1 m r.2) m csn

/-- What the Windlass does at a segment commit between its steps 7 and 8 (R327, R330, R331, R333): refreshes, then the segment's
tokens; a counted commit may bring the end of a window, and a publication, whose copies it awaits even while every slot is live. -/
def windlassCommit (s : State) (l : Launch) (csn : Word) (written : List Nat) (bad : List (Nat × Nat × Nat × Nat)) : State :=
  let s := (List.range 16).foldl (refreshDomain l.asid csn written bad) s
  match l.pin with
  | none => s
  | some (m, _) =>
    if l.tokens.isEmpty then s
    else
      let d := s.domain m
      let counts := l.tokens.foldl (fun cs t => setAssoc cs t.1 (min (2 ^ 32 - 1) (assoc cs t.1 0 + t.2))) d.counts
      let n := d.counted + 1
      let due := d.pending.any (fun p => p.made + d.plead ≤ n && (d.freeVersion.isSome || !p.settled || p.empty))
      s.setDomain m { d with
        counts := counts, counted := n
        publishCsn := if due && d.publishCsn.isNone then some csn else d.publishCsn
        windowDue := d.windowDue || n % d.win == 0 }

/-! ### Enabling a domain (R367, R368) -/

/-- Whether the parameters of a domain meet R321. -/
def Domain.paramsOk (s : State) (d : Domain) : Bool :=
  1 ≤ d.maxch && d.maxch ≤ 4096 && 1 ≤ d.cmax && d.cmax ≤ 8 && d.policy ≤ 1 && 1 ≤ d.win && d.win ≤ 65535 &&
  1 ≤ d.plead && d.plead ≤ d.win && d.cold < d.hot && d.slotsz ≠ 0 && d.slotsz % 4096 == 0 && d.farbase % 4096 == 0 &&
  (List.range 8).all (fun k =>
    let n := d.nslot[Fin.ofNat 8 k]
    let va := d.store[Fin.ofNat 8 k]
    n ≤ 2 ^ 29 - 2 && va.toNat % 4096 == 0 &&
    (List.range (n * d.slotsz / 4096)).all (fun p =>
      let a := va + BitVec.ofNat 64 (4096 * p)
      canonical a && ((translate s d.wasid a.toNat).map (·.home)) == some k))

/-- Whether an entry of version 0 is well formed (R321 to R323). -/
def entryOk (s : State) (d : Domain) (e : Nat) : Bool :=
  let x := entryOf s d 0 e
  let a := d.entryAt 0 e
  let unused := (List.range 8).all (fun j => j < x.reps.length || hubNat s (a + 16 + 4 * j) 4 == 0xFFFFFFFF)
  x.kind == 0 ||
  (x.kind ≤ 2 && x.rest == 0 && x.reps.length ≤ 8 && unused && hubNat s (a + 0x30) 16 == 0 &&
    x.fh == x.far &&
    (if x.far then x.reps.isEmpty && x.homed == 0 else x.reps.any (fun r => r.1 == x.homed)) &&
    x.reps.all (fun r => r.2 < d.nslot[Fin.ofNat 8 r.1]) &&
    (List.range (x.reps.length - 1)).all (fun j => (x.reps.getD j (0, 0)).1 < (x.reps.getD (j + 1) (0, 0)).1))

/-- Whether the version area is as R368 asks before EN. -/
def areaOk (s : State) (d : Domain) : Bool :=
  hubNat s (d.dirAt 0) 8 == 2 ^ 32 && (List.range 15).all (fun i => hubNat s (d.dirAt (i + 1)) 8 == 0) &&
  hubNat s (d.slotAt 0) 8 == 0 && hubNat s (d.slotAt 0 + 16) 48 == 0 &&
  (List.range 4096).all (entryOk s d)

/-- The fields of word +0x00 of a domain's block, from a value written (R367). -/
def Domain.withWord0 (d : Domain) (x : Nat) : Domain :=
  { d with maxch := bits x 28 16, cmax := bits x 11 8, policy := bits x 0 0 }

/-- Whether a value of word +0x00 changes none of its fields but EN. -/
def Domain.sameWord0 (d : Domain) (x : Nat) : Bool :=
  d.maxch == bits x 28 16 && d.cmax == bits x 11 8 && d.policy == bits x 0 0

/-- WERR is W1C. -/
def Domain.ack (d : Domain) (x : Nat) : Domain := if bitAt x 62 then { d with werr := false } else d

/-- A write of word +0x00 with EN = 1 (R367, R368). Refused, it sets WERR and changes nothing else. -/
def enableDomain (s : State) (domain : Nat) (x : Nat) : State :=
  let d := (s.domain domain).ack x
  if d.en then s.setDomain domain (if d.sameWord0 x then d else { d with werr := true })
  else
    let e := d.withWord0 x
    if Domain.paramsOk s e && areaOk s e then
      s.setDomain domain { e with
        en := true, newest := 0, newestSlot := 0, counted := 0, counts := [], windowDue := false
        versions := [{ vnum := 0, slot := 0, withdrawn := false }], pending := [], publishCsn := none, withdrawals := [] }
    else s.setDomain domain { d with werr := true }

/-- WINDLASS_DOMAIN_ENABLE (R367, R368). -/
def execWindlassDomainEnable (domain : Fin 16) (value : BitVec 64) (s : State) : Host.Outcome State Fault Refusal :=
  .next (if s.sec.boot.ready && bitAt value.toNat 63 then enableDomain s domain value.toNat else s)

/-- Whether a domain may be disabled: no launch of it is open, and no stream holds a version of it. -/
def domainIdle (s : State) (m : Nat) : Bool :=
  s.hub.launches.all (fun l =>
    let a := assoc s.hub.asids l.asid Asid.reset
    !l.isOpen || !(a.domv && a.domain == m)) &&
  s.hub.streams.all (fun x => match x.holds with | some (k, _) => k != m | none => true)

/-- A write of word +0x00 with EN = 0 (R367): it disables an enabled domain, whose fields it may not change; to a disabled one it sets
the fields, within R321. -/
def disableDomain (s : State) (domain : Nat) (x : Nat) : State :=
  let d := (s.domain domain).ack x
  let e := d.withWord0 x
  if !d.en then
    s.setDomain domain
      (if 1 ≤ e.maxch && e.maxch ≤ 4096 && 1 ≤ e.cmax && e.cmax ≤ 8 then e else { d with werr := true })
  else if !d.sameWord0 x || !domainIdle s domain then s.setDomain domain { d with werr := true }
  else
    s.setDomain domain { d with
      en := false, versions := [], pending := [], publishCsn := none, counts := []
      windowDue := false, withdrawals := [] }

/-- WINDLASS_DOMAIN_DISABLE (R367). -/
def execWindlassDomainDisable (domain : Fin 16) (value : BitVec 64) (s : State) : Host.Outcome State Fault Refusal :=
  .next (if !s.sec.boot.ready || bitAt value.toNat 63 || !(s.domain domain).en then s else disableDomain s domain value.toNat)

/-- A write of another word of a domain's block: within R321 and while EN = 0, or it sets WERR (R367). -/
def writeDomainWord (s : State) (domain off : Nat) (x : Nat) : State :=
  let d := s.domain domain
  let put (good : Bool) (e : Domain) : State := s.setDomain domain (if good && !d.en then e else { d with werr := true })
  let k := Fin.ofNat 8 ((off - 0x40) / 16)
  if off = 0 then (if bitAt x 63 then enableDomain s domain x else disableDomain s domain x)
  else if off = 0x08 then
    let win := bits x 15 0
    let plead := bits x 31 16
    put (1 ≤ win && 1 ≤ plead && plead ≤ win) { d with win := win, plead := plead }
  else if off = 0x10 then put (bits x 63 32 < bits x 31 0) { d with cold := bits x 63 32, hot := bits x 31 0 }
  else if off = 0x18 then put (x ≠ 0 && x % 4096 = 0) { d with slotsz := x }
  else if off = 0x20 then put (x % 4096 = 0) { d with farbase := x }
  else if off = 0x28 then put true { d with vdie := bits x 62 60, varea := bits x 36 12 * 4096 }
  else if off = 0x30 then put true { d with wasid := bits x 9 0 }
  else if 0x40 ≤ off && off < 0xC0 then
    if off % 16 = 0 then put (x % 4096 = 0) { d with store := d.store.set k (BitVec.ofNat 64 x) }
    else put (bits x 28 0 ≤ 2 ^ 29 - 2) { d with nslot := d.nslot.set k (bits x 28 0) }
  else s

end Sys2Proof.Machine
end

