-- ==== Sys2Proof/Machine/Engine.lean ====
section
/-! DEFINITION. Machine/Engine.lean: the engine commands COPY, FILL, FWARM, CRED, CBCAST and MERGE (R126, R257 to R262, R336) as
they run. A command's work is numbered in parts: bytes of COPY, FILL and CBCAST, elements of CRED and MERGE. An event performs the
parts it names, or all that are left; its writes become pending writes of their own (R117), and the command completes in GO order,
after its writes when it releases. -/

namespace Sys2Proof.Machine

/-- What one part of a command comes to: the state, with the writes it makes; a wait; or an access that faults. -/
inductive PartResult where
  | ok (s : State) (stores : List StoreLane) (reds : List RedLane)
  | waits (s : State)
  | faults (code : FaultCode) (addr : Word) (w : Bool)
  | aborts

/-- The queued or running command of a number on an engine. -/
def State.cmd? (s : State) (id engine : Nat) (codes : List Nat) : Option Cmd :=
  s.cmds.find? (fun c => c.id = id && c.engine = engine && codes.contains c.code)

/-- The state with a command replaced. -/
def State.putCmd (s : State) (c : Cmd) : State := { s with cmds := s.cmds.map (fun x => if x.id = c.id then c else x) }

/-- The parts of a command that an event performs: those it names that are left, or all that are left, ascending. -/
def Cmd.todo (c : Cmd) (total : Nat) (parts : List Nat) : List Nat :=
  (List.range total).filter (fun p => !c.parts.contains p && (parts.isEmpty || parts.contains p))

/-- Whether an engine's write of an operation is performed for a scope and seen there. -/
def engineSettled (o : Op) (sc : Scope) : Bool :=
  o.performedFor sc && (o.done || match o.kind with
    | .store lanes _ _ => lanes.all (fun l => match l.stage with | .engine _ => false | _ => true)
    | _ => true)

/-- Whether an engine may start: under its acquire flag, once the issuing context's earlier accesses and the writes it has
observed are performed for the scope, and the team's earlier commands on the engine and its engines' writes as well (R126). -/
def Cmd.mayRead (s : State) (c : Cmd) : Bool :=
  match c.acq with
  | none => true
  | some sc =>
    releaseReady s c.own sc c.upto &&
    s.cmds.all (fun x => x.own.ref ≠ c.own.ref || x.engine ≠ c.engine || c.id ≤ x.id) &&
    s.ops.all (fun o => o.path.isSome || o.own.ref ≠ c.own.ref || c.writes.contains o.id || engineSettled o sc)

/-- Performs parts in order, collecting their writes; it stops at the first that faults and passes over one that waits. -/
def runParts (f : State → Nat → PartResult) :
    State → List Nat → State × List Nat × List StoreLane × List RedLane × Option PartResult
  | s, [] => (s, [], [], [], none)
  | s, p :: rest =>
    match f s p with
    | .ok s st rd =>
      let (s, done, st', rd', e) := runParts f s rest
      (s, p :: done, st ++ st', rd ++ rd', e)
    | .waits s => runParts f s rest
    | r => (s, [], [], [], some r)

/-- Whether the writes of a command to the team's own stash have been made: they do not outlast the command (log 16). -/
def stashWritten (s : State) (c : Cmd) : Bool :=
  c.writes.all (fun i =>
    match (s.op? i).map Op.kind with
    | some (OpKind.store lanes _ _) =>
      lanes.all (fun l => l.stage == .performed || (match l.place with | .stash .. => false | .glob .. => true))
    | _ => true)

/-- The writes of a command so far are performed for a scope. -/
def writesPerformed (s : State) (c : Cmd) (sc : Scope) : Bool :=
  c.writes.all (fun i => match s.op? i with | some o => o.performedFor sc | none => true)

/-- A release for TEAM or CORE shows a command's writes to the issuing core (R126); a wider one has waited until they are performed. -/
def showWrites (s : State) (c : Cmd) : State :=
  let seen (l : StoreLane) : StoreLane := match l.stage with | .engine _ => { l with stage := .issued } | _ => l
  if c.rel.isNone then s
  else
    { s with ops := s.ops.map (fun o =>
        match o.kind with
        | .store lanes na g => if c.writes.contains o.id then { o with kind := .store (lanes.map seen) na g } else o
        | _ => o) }

/-- Completion of a command, in GO order among the team's commands on the engine: all parts performed, those to the stash written and, under
the release flag, every write performed for its scope (R126). -/
def completeCmd (s : State) (c : Cmd) (total : Nat) : State :=
  let first := s.cmds.all (fun x => !(x.own.ref == c.own.ref && x.engine == c.engine) || c.id ≤ x.id)
  let released := match c.rel with | none => true | some sc => writesPerformed s c sc
  if (List.range total).all (fun p => c.parts.contains p) && first && released && stashWritten s c then
    { showWrites s c with cmds := s.cmds.filter (fun x => x.id ≠ c.id) }.finishOp c.id
  else s

/-- Whether one byte run goes on where another ends, within 64 bytes of one space. -/
def joinsOn (p q : Place) (n : Nat) : Bool :=
  match p, q with
  | .glob va pa, .glob va' pa' => va' = va + n && pa' = pa + n && pa / 64 = pa' / 64
  | .stash r off, .stash r' off' => r == r' && off' = off + n && off / 64 = off' / 64
  | .glob _ _, .stash _ _ => false
  | .stash _ _, .glob _ _ => false

/-- The writes of an event with neighbouring bytes as one access, so that a cell takes a copied element's value and no value of
half of it (R79). -/
def joinStores : List StoreLane → List StoreLane
  | [] => []
  | l :: rest =>
    match joinStores rest with
    | [] => [l]
    | m :: more =>
      if joinsOn l.place m.place l.bytes.length then { l with bytes := l.bytes ++ m.bytes } :: more else l :: m :: more

/-- One event of a command: its parts, their writes as pending operations, and its completion when all is done (R126, R258). A
fault pauses it behind a record with CTX = 3 (R303). A part performed and the completion are progress of the launch (R313). -/
def runCmd (s : State) (c : Cmd) (total : Nat) (parts : List Nat) (red : Option (Nat × Nat × Nat × Word))
    (f : Team → State → Nat → PartResult) : State :=
  match s.team? c.own.ref, s.holder c.lv with
  | some t, some l =>
    if c.paused || !c.mayRead s then s
    else
      let (s, done, stores, reds, stop) := runParts (f t) s (c.todo total parts)
      let c := { c with parts := c.parts ++ done }
      let (s, c) :=
        if stores.isEmpty then (s, c)
        else (s.addOp c.own c.lv none (.store (joinStores stores) true []), { c with writes := c.writes ++ [s.serial] })
      let (s, c) :=
        match red with
        | some (sub, ty, rnd, seed) =>
          if reds.isEmpty then (s, c)
          else (s.addOp c.own c.lv none (.red sub ty rnd seed reds), { c with writes := c.writes ++ [s.serial] })
        | none => (s, c)
      let s := s.putCmd c
      let s := if done.isEmpty then s else s.progress l.sid
      match stop with
      | some (.faults code a w) =>
        let s := s.putCmd { c with paused := serviced code a }
        sideFault s t c.engine c.id code a w
      | some .aborts => s.requestAbort l.sid 0x42
      | _ =>
        let s := completeCmd s c total
        if (s.cmd? c.id c.engine [c.code]).isSome then s else s.progress l.sid
  | _, _ => s

/-! ### Reads and writes of an engine -/

/-- What an engine sees: its core's and die's early writes with the acquire flag; without it, whether it sees them is open
(log 16). `core` is none for an engine of the die, `die` none for the merge. -/
def engineWho (s : State) (c : Cmd) (die core : Option Nat) (a : Nat) : Who :=
  if c.acq.isSome || Config.engineEarly c.id a then { launch := s.holder c.lv, die := die, core := core }
  else { launch := s.holder c.lv, die := none, core := none }

/-- The walk of an engine's read: `core` is none for an engine of the die. -/
def State.engineWalk (s : State) (t : Team) (core : Option Nat) (vas : List Nat) : State :=
  match s.launch? t.launch with
  | some l => s.noteWalk l t.ref.die core vas
  | none => s

/-- A read of global bytes for an engine: the state and the value, or what stops it. -/
def engineRead (s : State) (c : Cmd) (t : Team) (die core : Option Nat) (va : Word) (n : Nat) : Except PartResult (State × Nat) :=
  let s := s.engineWalk t core ((List.range n).map (fun i => (va + BitVec.ofNat 64 i).toNat))
  (List.range n).foldl
    (fun (acc : Except PartResult (State × Nat)) i =>
      match acc with
      | .error e => .error e
      | .ok (s, x) =>
        let a := va + BitVec.ofNat 64 i
        match s.resolveFor t { r := true } a with
        | .error code => .error (.faults code a false)
        | .ok pa =>
          let w := engineWho s c die core pa
          match w.launch with
          | none => .error (.waits s)
          | some l =>
            match s.readSector w l (pa / 64) with
            | .error s => .error (.waits s)
            | .ok s => .ok (s, x + (s.seenByte w pa).toNat * 2 ^ (8 * i)))
    (.ok (s, 0))

/-- A read of one byte of the team's own stash for an engine (R259). -/
def engineStash (s : State) (c : Cmd) (t : Team) (off : Nat) : Except PartResult (State × Nat) :=
  match windowFault s t.ref off 1 false with
  | some (code, va) => .error (.faults code va false)
  | none =>
    let s := s.noteTeam t (s.windowVas t.ref off 1 false)
    if (s.touched t.ref off 1).any (fun q => (q.1.sec? q.2).isNone) then
      .error (.waits (if s.roomTouch t.ref (s.touched t.ref off 1) false 0 then s.startTouch c.own (.stash t.ref off) 1 false else s))
    else .ok (s, (stashSeen s (engineWho s c (some t.ref.die) (some t.ref.core) off) t.ref off).toNat)

/-- A pending write of one byte by a command: no party sees it before it is performed or released (R126; log 16). -/
def Cmd.write (c : Cmd) (p : Nat) (place : Place) (b : Nat) : StoreLane :=
  { mkStore p place 1 b with stage := .engine c.acq.isSome }

/-- A write of one byte, as a pending store of lane `p`. -/
def engineWrite (c : Cmd) (s : State) (t : Team) (p : Nat) (stash : Bool) (va : Word) (b : Nat) : PartResult :=
  if stash then
    match windowFault s t.ref va.toNat 1 true with
    | some (code, a) => .faults code a true
    | none => .ok s [c.write p (.stash t.ref va.toNat) b] []
  else
    match s.resolveFor t { w := true } va with
    | .error code => .faults code va true
    | .ok pa => .ok s [c.write p (.glob va.toNat pa) b] []

/-- An argument of a command. -/
def Cmd.arg (c : Cmd) (i : Nat) : Nat := c.args[Fin.ofNat 4 i].toNat

/-! ### The copy engine (R259) -/

/-- Bytes of a COPY or FILL. -/
def Cmd.rowBytes (c : Cmd) : Nat := bits (c.arg 2) 31 0 * bits (c.arg 2) 63 32

/-- One byte of a COPY. -/
def copyPart (c : Cmd) (t : Team) (s : State) (p : Nat) : PartResult :=
  let len := bits (c.arg 2) 31 0
  let k := p / len
  let j := p % len
  let src : Word := c.args[0] + BitVec.ofNat 64 (k * bits (c.arg 3) 31 0 + j)
  let dst : Word := c.args[1] + BitVec.ofNat 64 (k * bits (c.arg 3) 63 32 + j)
  let got := if c.ssp then engineStash s c t src.toNat else engineRead s c t (some t.ref.die) (some t.ref.core) src 1
  match got with
  | .error e => e
  | .ok (s, b) => engineWrite c s t p c.dsp dst b

/-- COPY (R259). -/
def execCopy (cmd : Nat) (parts : List Nat) (s : State) : Host.Outcome State Fault Refusal :=
  match s.cmd? cmd 0 [1] with
  | none => .next s
  | some c => .next (runCmd s c c.rowBytes parts none (copyPart c))

/-- One byte of a FILL; its destination is global, since DSP is zero (R257). -/
def fillPart (c : Cmd) (t : Team) (s : State) (p : Nat) : PartResult :=
  let len := bits (c.arg 2) 31 0
  let k := p / len
  let j := p % len
  let dst : Word := c.args[0] + BitVec.ofNat 64 (k * bits (c.arg 3) 63 32 + j)
  engineWrite c s t p false dst (c.arg 1 / 2 ^ (8 * (j % 8)) % 256)

/-- FILL (R259). -/
def execFill (cmd : Nat) (parts : List Nat) (s : State) : Host.Outcome State Fault Refusal :=
  match s.cmd? cmd 0 [2] with
  | none => .next s
  | some c => .next (runCmd s c c.rowBytes parts none (fillPart c))

/-! ### The fetch unit (R260) -/

/-- Bytes of a row of a table (R289). -/
def Handle.rowBytes (h : Handle) : Nat := if h.fmt = 14 then h.cols / 2 + h.cols / 16 else h.cols * (typeBits h.fmt / 8)

/-- The first bytes of the sectors of rows of a table; rows at or above ROWS are passed over (DESIGN CHOICE, log 51). -/
def Handle.sectorVas (h : Handle) (row0 rows : Nat) : List Word :=
  (List.range (min rows (h.rows - row0))).flatMap (fun k =>
    let base := h.base.toNat + (row0 + k) * h.rstride
    (List.range (h.rowBytes / 64 + 2)).filterMap (fun q =>
      let a := base / 64 * 64 + 64 * q
      if a < base + h.rowBytes then some (BitVec.ofNat 64 a) else none))

/-- One sector of FWARM's rows: an engine read, of which the fetch unit's cache keeps a copy and which no value depends on. One without a
translation is skipped; a missing permission faults and an access table denies as for any engine read (R258, R260, R292). -/
def warmSector (t : Team) (s : State) (va : Word) : Except PartResult State :=
  let s := s.noteTeam t [va.toNat]
  match s.resolveFor t { r := true } va with
  | .error .pageNotPresent => .ok s
  | .error code => .error (.faults code va false)
  | .ok pa =>
    let w := s.whoOf t
    match w.launch with
    | none => .error (.waits s)
    | some l =>
      match s.readSector w l (pa / 64) with
      | .error s => .error (.waits s)
      | .ok s => .ok (s.shareCopy w t.ref.die t.ref.core (pa / 64) true)

/-- Sectors of FWARM's rows in turn, up to the first that waits or faults. -/
def warmSectors (t : Team) : State → List Word → Except PartResult State
  | s, [] => .ok s
  | s, va :: rest =>
    match warmSector t s va with
    | .ok s => warmSectors t s rest
    | .error e => .error e

/-- FWARM: the sectors of its rows (R260). -/
def warmPart (c : Cmd) (t : Team) (s : State) (_ : Nat) : PartResult :=
  match c.handle with
  | none => .ok s [] []
  | some h =>
    match warmSectors t s (h.sectorVas (c.arg 1) (c.arg 2)) with
    | .ok s => .ok s [] []
    | .error e => e

/-- FWARM (R260). -/
def execFwarm (cmd : Nat) (s : State) : Host.Outcome State Fault Refusal :=
  match s.cmd? cmd 1 [1] with
  | none => .next s
  | some c => .next (runCmd s c 1 [] none (warmPart c))

/-! ### The collective engine (R261) -/

/-- One element of a CRED: read, tested for the write, and left to merge at its home as a RED does. Alignment is tested with each element,
so a command of none meets no misalignment (log 51). -/
def credPart (c : Cmd) (t : Team) (s : State) (p : Nat) : PartResult :=
  let n := typeBits (mdType c.md) / 8
  let src : Word := c.args[0] + BitVec.ofNat 64 (p * n)
  let dst : Word := c.args[1] + BitVec.ofNat 64 (p * n)
  if c.arg 0 % n ≠ 0 || c.arg 1 % n ≠ 0 then .aborts
  else
    match engineRead s c t (some t.ref.die) none src n with
    | .error e => e
    | .ok (s, x) =>
      match s.resolveFor t { w := true } dst with
      | .error code => .faults code dst true
      | .ok pa =>
        .ok s [] [{ lane := p, va := dst.toNat, pa := pa, bits := BitVec.ofNat 64 x }]

/-- CRED (R261). -/
def execCred (cmd : Nat) (parts : List Nat) (s : State) : Host.Outcome State Fault Refusal :=
  match s.cmd? cmd 2 [1] with
  | none => .next s
  | some c =>
    let seed := ((s.holder c.lv).map (·.lrec.seed)).getD 0
    .next (runCmd s c (c.arg 2) parts (some (c.opf, mdType c.md, mdRnd c.md, seed)) (credPart c))

/-- One byte of a CBCAST. -/
def cbcastPart (c : Cmd) (t : Team) (s : State) (p : Nat) : PartResult :=
  let len := bits (c.arg 2) 31 0
  let src : Word := c.args[0] + BitVec.ofNat 64 (p % len)
  let dst : Word := c.args[1] + BitVec.ofNat 64 (p / len * bits (c.arg 3) 31 0 + p % len)
  match engineRead s c t (some t.ref.die) none src 1 with
  | .error e => e
  | .ok (s, b) => engineWrite c s t p false dst b

/-- CBCAST (R261). -/
def execCbcast (cmd : Nat) (parts : List Nat) (s : State) : Host.Outcome State Fault Refusal :=
  match s.cmd? cmd 2 [2] with
  | none => .next s
  | some c => .next (runCmd s c (bits (c.arg 2) 31 0 * bits (c.arg 3) 63 32) parts none (cbcastPart c))

/-! ### The Windlass merge (R262) -/

/-- c, the replicas of the expert in the version the launch pinned. -/
def mergeCount (s : State) (l : Option Launch) (e : Nat) : Nat :=
  match l.bind (·.pin) with
  | none => 0
  | some (m, vnum) =>
    match (s.domain m).version? vnum with
    | none => 0
    | some v => (entryOf s (s.domain m) v.slot e).reps.length

/-- How MERGE rounds step `j` of the element at `va` (R68). -/
def mergeRnd (rnd : Nat) (seed : Word) (va : Word) (j : Nat) : Rnd :=
  { mode := rnd, u := if rnd = 5 then rsxDraw seed va 0 (BitVec.ofNat 64 j) else 0 }

/-- The merged element (R262, R336): EXACT rounds the exact sum once, ORDERED after each partial in replica order. -/
def mergeValue (opf ty rnd : Nat) (seed va : Word) (master : Nat) (partials : List Nat) : Nat :=
  let w := typeBits ty
  if 5 < rnd then Config.reservedRound va.toNat (partials.foldl (fun a p => a * 2 ^ 768 + p) master) % 2 ^ w
  else if opf = 0 then
    let x := partials.foldl (fun (x : Xa) p => x.join (Xa.ofRecord (bytesOfNat 96 p))) (Xa.zero.add (fdecode ty master))
    (x.drain ty (mergeRnd rnd seed va 0)).1
  else
    (partials.zipIdx.foldl
      (fun acc p => (roundVal ty (mergeRnd rnd seed va p.2) (fadd rnd (fdecode ty acc) (fdecode ty p.1)).1).1)
      master)

/-- One element of a MERGE, in one indivisible step at the master's home (R262), at whatever alignment (log 51). -/
def mergePart (c : Cmd) (count : Nat) (t : Team) (s : State) (i : Nat) : PartResult :=
  let ty := mdType c.md
  let n := typeBits ty / 8
  let elems := c.arg 3
  let size := if c.opf = 0 then 96 else n
  let va : Word := c.args[0] + BitVec.ofNat 64 (i * n)
  if count = 0 then .ok s [] []
  else
    match engineRead s c t none none va n with
    | .error e => e
    | .ok (s, master) =>
      let got := (List.range count).foldl
        (fun (acc : Except PartResult (State × List Nat)) j =>
          match acc with
          | .error e => .error e
          | .ok (s, ps) =>
            (engineRead s c t none none (c.args[2] + BitVec.ofNat 64 ((j * elems + i) * size)) size).map
              (fun r => (r.1, ps ++ [r.2])))
        (.ok (s, []))
      match got with
      | .error e => e
      | .ok (s, ps) =>
        match testAll ((List.range n).map (fun k =>
            (globTest s t none (va + BitVec.ofNat 64 k) 1 { w := true }).map (fun p =>
              match p with
              | .glob _ pa => pa
              | .stash _ _ => 0))) with
        | .error f => .faults f.code f.addr true
        | .ok pas =>
          match s.holder c.lv with
          | none => .waits s
          | some l =>
            let w : Who := { launch := some l, die := none, core := none }
            let secs := (pas.map (· / 64)).dedup
            match eachSector s (fun s x => s.writeSector w l x (fun _ _ => false) (fun _ => false)) secs with
            | .error s => .waits s
            | .ok s =>
              let bytes := bytesOfNat n (mergeValue c.opf ty (mdRnd c.md) l.lrec.seed va master ps)
              let s := s.putCells (pas.zip bytes)
              .ok (secs.foldl (fun s x => s.bumpTag (x / 4)) s) [] []

/-- MERGE (R262). -/
def execMerge (cmd : Nat) (parts : List Nat) (s : State) : Host.Outcome State Fault Refusal :=
  match s.cmd? cmd 3 [2] with
  | none => .next s
  | some c =>
    let count := mergeCount s (s.holder c.lv) (c.arg 1)
    .next (runCmd s c (c.arg 3) parts none (mergePart c count))

end Sys2Proof.Machine
end

