-- ==== Sys2Proof/Machine/Matrix.lean ====
section
/-! DEFINITION. Machine/Matrix.lean: the matrix context's instructions (R265 to R281, R391): tiles, fragments, the semirings of
R82 and R83, and the Siphon. A tile's operations take effect at issue, in order; one that meets a pending MXLOAD of its tile
waits for it (R265). -/

namespace Sys2Proof.Machine

/-! ### The matrix mode (R21) -/

/-- TYPEA. -/
def mxTypeA (md : BitVec 26) : Nat := bits md.toNat 3 0
/-- TYPEB. -/
def mxTypeB (md : BitVec 26) : Nat := bits md.toNat 7 4
/-- TYPED. -/
def mxTypeD (md : BitVec 26) : Nat := bits md.toNat 11 8
/-- RND. -/
def mxRnd (md : BitVec 26) : Nat := bits md.toNat 14 12
/-- M of SHAPE (R266). -/
def mxM (md : BitVec 26) : Nat := if bitAt md.toNat 16 then 32 else 64
/-- N of SHAPE (R266). -/
def mxN (md : BitVec 26) : Nat := if bitAt md.toNat 15 then 32 else 64
/-- SEMI. -/
def mxSemi (md : BitVec 26) : Nat := bits md.toNat 19 17
/-- SPAT. -/
def mxSpat (md : BitVec 26) : Nat := bits md.toNat 21 20
/-- TMAXM1. -/
def mxTmaxm1 (md : BitVec 26) : Nat := bits md.toNat 23 22
/-- DROP. -/
def mxDrop (md : BitVec 26) : Bool := bitAt md.toNat 24

/-- K of a PLUS_TIMES fragment of this type, none for a type no pair of R266 holds. -/
def mxK (ty : Nat) : Option Nat :=
  match ty with
  | 10 => some 8
  | 8 | 9 => some 16
  | 12 | 13 | 0 | 1 => some 32
  | 14 => some 64
  | _ => none

/-- K of the pair of TYPEA and TYPEB under a semiring, none for a pair R266 does not list. -/
def pairK (semi a b : Nat) : Option Nat :=
  match semi with
  | 0 =>
    let float16 (t : Nat) : Bool := t == 8 || t == 9
    let float8 (t : Nat) : Bool := t == 12 || t == 13
    let int8 (t : Nat) : Bool := t == 0 || t == 1
    if (a == 10 && b == 10) || (float16 a && float16 b) || (float8 a && float8 b) || (int8 a && int8 b) || (a == 14 && b == 14)
    then mxK a else none
  | 4 => if a = 5 && b = 5 then some 8 else none
  | 1 | 2 | 3 | 5 => if a = 10 && b = 10 then some 8 else none
  | _ => none

/-! ### Fragments (R268, R269) -/

/-- Bits of an element in a fragment. -/
def fragBits (ty : Nat) : Nat := if ty = 14 then 4 else typeBits ty

/-- Words of the element plane of `count` elements. -/
def elemWords (ty count : Nat) : Nat := (count * fragBits ty + 31) / 32

/-- Words of the scale plane: two bytes for each block of 32 elements, for E2M1B alone. -/
def scaleWords (ty count : Nat) : Nat := if ty = 14 then count / 32 * 2 / 4 else 0

/-- Registers that `w` words occupy. -/
def regsFor (nl w : Nat) : Nat := (w + nl - 1) / nl

/-- Registers of an A or B fragment of `count` elements. -/
def fragRegs (nl ty count : Nat) : Nat := regsFor nl (elemWords ty count) + regsFor nl (scaleWords ty count)

/-- `w` words from a register on, as a matrix context reads them: after the team's end, the values held then (R42). -/
def readWords (t : Team) (base w : Nat) : List Lane :=
  let t := { t with v := t.vEnd.getD t.v }
  (List.range w).map (fun i => t.lane (base + i / t.nl) (i % t.nl))

/-- The words of an A or B fragment: the element plane, then the scale plane. -/
def readFrag (t : Team) (base ty count : Nat) : List Lane :=
  readWords t base (elemWords ty count) ++
    readWords t (base + regsFor t.nl (elemWords ty count)) (scaleWords ty count)

/-- The bits of element `i` in the words of a fragment. -/
def fragCode (words : Array Lane) (ty i : Nat) : Nat :=
  let b := fragBits ty
  (words.getD (i * b / 32) 0).toNat / 2 ^ (i * b % 32) % 2 ^ b

/-- A byte of the scale plane that follows `e` words. -/
def scaleByte (words : Array Lane) (e y : Nat) : Nat := (words.getD (e + y / 4) 0).toNat / 2 ^ (8 * (y % 4)) % 256

/-- The value of element `i`, which lies in block `j`, of a fragment of `count` elements. -/
def fragVal (words : Array Lane) (ty count i j : Nat) : FVal :=
  let c := fragCode words ty i
  if ty = 14 then
    let e := elemWords ty count
    blockValue c (scaleByte words e (2 * j)) (scaleByte words e (2 * j + 1))
  else if isIntType ty then ofInt (intOf ty c)
  else fdecode ty c

/-- The values of an M×K A fragment, row by row. -/
def valuesA (words : List Lane) (ty m k : Nat) : Array FVal :=
  let ws := words.toArray
  ((List.range (m * k)).map (fun i => fragVal ws ty (m * k) i (2 * (i / k) + i % k / 32))).toArray

/-- The values of a K×N B fragment, row by row. -/
def valuesB (words : List Lane) (ty k n : Nat) : Array FVal :=
  let ws := words.toArray
  ((List.range (k * n)).map (fun i => fragVal ws ty (k * n) i (i / n / 32 * n + i % n))).toArray

/-- The codes of an N32 fragment. -/
def codesOf (words : List Lane) : Array Nat := (words.map (·.toNat)).toArray

/-- An element of an array of values. -/
def valAt (a : Array FVal) (i : Nat) : FVal := a.getD i (.fin false 0 0)

/-- The names of `n` vector registers from one on. -/
def fragNames (base n : Nat) : List RegName := (List.range n).map (fun i => RegName.v (base + i))

/-! ### Tiles -/

/-- The identity of ⊕ (R82). -/
def semiZero (semi : Nat) : Lane :=
  match semi with
  | 1 | 5 => 0x7F800000
  | 2 | 3 => 0xFF800000
  | _ => 0

/-- The tile MZERO leaves (R272). -/
def Tile.zero (semi : Nat) : Tile :=
  if semi = 0 then .exact (List.replicate 4096 Xa.zero) else .semi semi (List.replicate 4096 (semiZero semi))

/-- The semiring tag of a tile (R265). -/
def Tile.tag : Tile → Nat
  | .exact _ => 0
  | .semi g _ => g

/-- A tile of a team. -/
def Team.tile (t : Team) (d : Nat) : Tile := t.tiles.getD d (.exact [])

/-- The team with a tile replaced. -/
def Team.setTile (t : Team) (d : Nat) (x : Tile) : Team := { t with tiles := t.tiles.set d x }

/-- Adds Σ_{k<K} a(k)·b(k) to an element exactly (R73, R273). -/
def accumulate (x : Xa) (k : Nat) (a b : Nat → FVal) : Xa :=
  x.join ((List.range k).foldl (fun acc i => acc.add (fmul (a i) (b i)).1) Xa.zero)

/-- A PLUS_TIMES step on the elements of a tile: those with m < M and n < N (R273). -/
def plusTimes (es : List Xa) (m n k : Nat) (a b : Array FVal) : List Xa :=
  es.zipIdx.map (fun p =>
    let i := p.2 / 64
    let j := p.2 % 64
    if i < m && j < n then accumulate p.1 k (fun q => valAt a (i * k + q)) (fun q => valAt b (q * n + j)) else p.1)

/-- Whether a value is the infinity of a sign. -/
def FVal.isInf (v : FVal) (neg : Bool) : Bool :=
  match v with
  | .inf s => s == neg
  | _ => false

/-- a ⊗ b and a following ⊕ into an element for semirings 1 to 5 (R82, R83): the element's bits and the flags. -/
def semiStep (semi : Nat) (r : Rnd) (x : Lane) (a b : FVal) (ca cb : Nat) : Lane × Flags :=
  let f32 (v : FVal) : Lane := BitVec.ofNat 32 (roundVal 10 { mode := 0 } v).1
  let old := fdecode 10 x.toNat
  match semi with
  | 1 =>
    if a.isInf false || b.isInf false then (f32 (fmin old (.inf false)), 0)
    else
      let (v, f) := fadd 0 a b
      let (p, g) := roundVal 10 { mode := 0 } v
      (f32 (fmin old (fdecode 10 p)), f ||| g)
  | 2 =>
    if a.isInf true || b.isInf true then (f32 (fmax old (.inf true)), 0)
    else
      let (v, f) := fadd 0 a b
      let (p, g) := roundVal 10 { mode := 0 } v
      (f32 (fmax old (fdecode 10 p)), f ||| g)
  | 3 =>
    let (v, f) := fmul a b
    let (p, g) := roundVal 10 r v
    (f32 (fmax old (fdecode 10 p)), f ||| g)
  | 4 => (x ||| (BitVec.ofNat 32 ca &&& BitVec.ofNat 32 cb), 0)
  | _ => (f32 (fmin old (fmax a b)), 0)

/-- The rounding of MAX_TIMES for product (m, n, k) (R68). -/
def productRnd (s : State) (v : View) (m n k : Nat) : Rnd :=
  let mode := mxRnd v.ctx.md
  { mode := mode
    u := if mode = 5 then
        rsxDraw (seedOf s v.team) (BitVec.ofNat 64 (v.team.t * 1024)) v.ctx.isc (BitVec.ofNat 64 ((m * 64 + n) * 64 + k))
      else 0 }

/-- A step of semirings 1 to 5 on the elements of a tile, with the flags it raises (R273). -/
def semiringStep (s : State) (v : View) (es : List Lane) (wa wb : List Lane) : List Lane × Flags :=
  let md := v.ctx.md
  let semi := mxSemi md
  let m := mxM md
  let n := mxN md
  let a := valuesA wa 10 m 8
  let b := valuesB wb 10 8 n
  let ca := codesOf wa
  let cb := codesOf wb
  let rs := es.zipIdx.map (fun p =>
    let i := p.2 / 64
    let j := p.2 % 64
    if i < m && j < n then
      (List.range 8).foldl
        (fun (acc : Lane × Flags) q =>
          let (x, f) := semiStep semi (productRnd s v i j q) acc.1 (valAt a (i * 8 + q)) (valAt b (q * n + j))
            (ca.getD (i * 8 + q) 0) (cb.getD (q * n + j) 0)
          (x, acc.2 ||| f))
        (p.1, (0 : Flags))
    else (p.1, 0))
  (rs.map (·.1), flagsOr (rs.map (·.2)))

/-! ### Issue -/

/-- Whether an MXLOAD of a tile is still in flight (R265). -/
def tileBusy (s : State) (v : View) (d : Nat) : Bool :=
  s.ops.any (fun o => o.own == v.ref && !o.done &&
    match o.kind with
    | .load (.tile x _ _ _) _ _ => x == d
    | _ => false)

/-- Completion of a matrix instruction whose results are written: its window names its destinations (R44, R265). -/
def mtxRetire (s : State) (v : View) (t : Team) (c : Ctx) (la : Nat) (names : List RegName) : State :=
  s.retire v t (c.advance (c.pc + 4) (openWindow 0 la names))

/-- The same for MMA and MMAS, which end their region (R296). -/
def mtxRetireEnding (s : State) (v : View) (t : Team) (c : Ctx) (la : Nat) (names : List RegName) : State :=
  s.retireEnding v t (c.advance (c.pc + 4) (openWindow 0 la names))

/-- A matrix context's names are its own; the team's registers are those of its bound team (R13). -/
def mtxReq (enc regs mode : Bool) (names : List RegName) : Req :=
  { ctxs := matrixOnly, enc := enc, regs := regs, mode := mode, names := names }

/-- MZERO (R272). -/
def execMzero (d : Fin 4) (l : Fin 16) (s : State) : Host.Outcome State Fault Refusal :=
  instr s (fun v => mtxReq true (d.val < v.team.nacc) (mxSemi v.ctx.md ≤ 5) [.acc d])
    (fun v =>
      if tileBusy s v d then .ok s
      else .ok (mtxRetire s v (v.team.setTile d (Tile.zero (mxSemi v.ctx.md))) v.ctx l [.acc d]))

/-- MMA's tests: the pair and the shape fix the extents; RND counts under MAX_TIMES (R266, R267, R391). -/
def mmaReq (v : View) (d : Fin 4) (a b : Fin 64) : Req :=
  let md := v.ctx.md
  let k := pairK (mxSemi md) (mxTypeA md) (mxTypeB md)
  let ra := fragRegs v.team.nl (mxTypeA md) (mxM md * k.getD 0)
  let rb := fragRegs v.team.nl (mxTypeB md) (k.getD 0 * mxN md)
  mtxReq true (d.val < v.team.nacc && (k.isNone || (v.team.vRange a ra && v.team.vRange b rb)))
    (k.isSome && (mxSemi md != 3 || mxRnd md ≤ 5)) (.acc d :: (fragNames a ra ++ fragNames b rb))

/-- MMA (R273); like every matrix instruction it reads the team's registers, and MDRAIN writes them, when it issues (DESIGN CHOICE, log 53). -/
def execMma (d : Fin 4) (a b : Fin 64) (l : Fin 16) (s : State) : Host.Outcome State Fault Refusal :=
  instr s (fun v => mmaReq v d a b)
    (fun v =>
      let md := v.ctx.md
      let k := (pairK (mxSemi md) (mxTypeA md) (mxTypeB md)).getD 0
      let m := mxM md
      let n := mxN md
      let wa := readFrag v.team a (mxTypeA md) (m * k)
      let wb := readFrag v.team b (mxTypeB md) (k * n)
      if (v.team.tile d).tag ≠ mxSemi md then .error { code := .matrixShape }
      else if tileBusy s v d then .ok s
      else
        match v.team.tile d with
        | .exact es =>
          let es := plusTimes es m n k (valuesA wa (mxTypeA md) m k) (valuesB wb (mxTypeB md) k n)
          .ok (mtxRetireEnding s v (v.team.setTile d (.exact es)) v.ctx l [.acc d])
        | .semi g es =>
          let (es, f) := semiringStep s v es wa wb
          .ok (mtxRetireEnding s v (v.team.setTile d (.semi g es)) (v.ctx.raise f) l [.acc d]))

/-! ### The Siphon (R278 to R281) -/

/-- An element of a fragment for the Siphon: row, column, whether it is nonzero, finite, and its magnitude in units of 2^e0. -/
structure SipEl where
  m : Nat
  k : Nat
  mag : Nat
  deriving DecidableEq, Repr

/-- Whether a value is finite. -/
def FVal.isFin : FVal → Bool
  | .fin _ _ _ => true
  | _ => false

/-- Whether a value is neither +0 nor −0 (R278). -/
def FVal.nonzero : FVal → Bool
  | .fin _ m _ => m != 0
  | _ => true

/-- The least exponent among the nonzero finite values: every magnitude is a multiple of 2 to it. -/
def leastExp (a : Array FVal) : Int :=
  a.toList.foldl (fun e v => match v with | .fin _ m x => if m = 0 then e else min e x | _ => e) 0

/-- The magnitude of a finite value in units of 2^e0. -/
def magAt (e0 : Int) (v : FVal) : Nat :=
  match v with
  | .fin _ m e => m * 2 ^ (e - e0).toNat
  | _ => 0

/-- The residual list R(t), in order of row and column (R278). -/
def residual (a : Array FVal) (m k group t : Nat) (e0 : Int) : List SipEl :=
  (List.range m).flatMap (fun i =>
    (List.range (k / group)).flatMap (fun g =>
      let nz := (List.range group).filterMap (fun q =>
        let x := valAt a (i * k + g * group + q)
        if x.nonzero then some ({ m := i, k := g * group + q, mag := magAt e0 x } : SipEl) else none)
      nz.drop (2 * t)))

/-- Whether dropping may go on to a mass, given DROPB = mb · 2^eb, or +∞ for none, and L1 (R279). -/
def massAllowed (bound : Option (Nat × Int)) (l1 mass : Nat) : Bool :=
  match bound with
  | none => true
  | some (mb, eb) => mass * 2 ^ (-eb).toNat ≤ mb * l1 * 2 ^ eb.toNat

/-- The entries dropped from a residual list of `len` entries sorted by magnitude (R279). -/
def dropFrom (bound : Option (Nat × Int)) (l1 len : Nat) : Nat → Nat → List SipEl → List SipEl
  | _, _, [] => []
  | mass, n, e :: rest =>
    if len - n ≤ 128 then []
    else if !massAllowed bound l1 (mass + e.mag) then []
    else e :: dropFrom bound l1 len (mass + e.mag) (n + 1) rest

/-- DROPB when dropping is allowed (R279): none when not, some none for +∞. -/
def dropBound (md : BitVec 26) (s1 : Word) (a : Array FVal) : Option (Option (Nat × Int)) :=
  if !mxDrop md || a.any (fun v => !v.isFin) then none
  else
    match fdecode 10 (s1.toNat % 2 ^ 32) with
    | .fin false m e => if m = 0 then none else some (some (m, e))
    | .inf false => some none
    | _ => none

/-- The decomposition with the fewest terms: term count, kept residual entries and dropped entries, or none (R279). -/
def splitTerms (a : Array FVal) (m k group : Nat) (e0 : Int) (l1 : Nat) (bound : Option (Option (Nat × Int))) :
    List Nat → Option (Nat × Nat × List SipEl)
  | [] => none
  | t :: rest =>
    let r := residual a m k group t e0
    let d :=
      match bound with
      | none => []
      | some b => if 128 < r.length then dropFrom b l1 r.length 0 0 (sortBy SipEl.mag r) else []
    if r.length - d.length ≤ 128 then some (t, r.length - d.length, d)
    else splitTerms a m k group e0 l1 bound rest

/-- Clears the bits of element `i`. -/
def clearElem (ty : Nat) (words : List Lane) (i : Nat) : List Lane :=
  let b := fragBits ty
  words.modify (i * b / 32) (fun w => w &&& ~~~ BitVec.ofNat 32 ((2 ^ b - 1) * 2 ^ (i * b % 32)))

/-- The term buffer MSPLIT makes of the words of an A fragment (R277 to R280). -/
def splitBuffer (md : BitVec 26) (s1 : Word) (words : List Lane) : TermBuf :=
  let ty := mxTypeA md
  let m := mxM md
  let k := (mxK ty).getD 0
  let a := valuesA words ty m k
  let e0 := leastExp a
  let l1 := a.toList.foldl (fun n v => n + magAt e0 v) 0
  let group := if mxSpat md = 1 then 4 else 8
  let base : TermBuf := { valid := true, typeA := ty, m := m, k := k, spat := mxSpat md, words := words, stat := 0x18 }
  match splitTerms a m k group e0 l1 (dropBound md s1 a) ((List.range (mxTmaxm1 md + 1)).map (· + 1)) with
  | none => base
  | some (t, kept, dropped) =>
    let mass := dropped.foldl (fun n e => n + e.mag) 0
    let dmass := (roundVal 10 { mode := 0 } (.fin false mass e0)).1
    { base with
      words := dropped.foldl (fun ws e => clearElem ty ws (e.m * k + e.k)) words
      stat := BitVec.ofNat 64 (at_ dmass 32 + at_ dropped.length 16 + at_ kept 8 + 16 + t) }

/-- MSPLIT (R278 to R280). -/
def execMsplit (d : Fin 4) (a : Fin 64) (l : Fin 16) (s : State) : Host.Outcome State Fault Refusal :=
  instr s
    (fun v =>
      let md := v.ctx.md
      let k := if mxSemi md = 0 then mxK (mxTypeA md) else none
      let ra := fragRegs v.team.nl (mxTypeA md) (mxM md * k.getD 0)
      mtxReq true (k.isNone || v.team.vRange a ra) (k.isSome && (mxSpat md == 1 || mxSpat md == 2))
        (.tb d :: .s 1 :: fragNames a ra))
    (fun v =>
      let md := v.ctx.md
      let words := readFrag v.team a (mxTypeA md) (mxM md * (mxK (mxTypeA md)).getD 0)
      let tb := splitBuffer md (v.ctx.getSN 1) words
      .ok (mtxRetire s v { v.team with tbs := v.team.tbs.set d tb } v.ctx l [.tb d]))

/-- A term buffer of a team. -/
def Team.termBuf (t : Team) (n : Nat) : TermBuf :=
  t.tbs.getD n { valid := false, typeA := 0, m := 0, k := 0, spat := 0, words := [], stat := 0 }

/-- MMAS (R281). -/
def execMmas (d a : Fin 4) (b : Fin 64) (l : Fin 16) (s : State) : Host.Outcome State Fault Refusal :=
  instr s
    (fun v =>
      let md := v.ctx.md
      let k := if mxSemi md = 0 then pairK 0 (mxTypeA md) (mxTypeB md) else none
      let rb := fragRegs v.team.nl (mxTypeB md) (k.getD 0 * mxN md)
      mtxReq true (d.val < v.team.nacc && (k.isNone || v.team.vRange b rb)) k.isSome (.acc d :: .tb a :: fragNames b rb))
    (fun v =>
      let md := v.ctx.md
      let k := (pairK 0 (mxTypeA md) (mxTypeB md)).getD 0
      let m := mxM md
      let n := mxN md
      let tb := v.team.termBuf a
      match v.team.tile d with
      | .semi _ _ => .error { code := .matrixShape }
      | .exact es =>
        if !tb.valid || tb.typeA ≠ mxTypeA md || tb.m ≠ m || tb.k ≠ k then .error { code := .matrixShape }
        else if tileBusy s v d then .ok s
        else
          let wb := readFrag v.team b (mxTypeB md) (k * n)
          let es := plusTimes es m n k (valuesA tb.words tb.typeA m k) (valuesB wb (mxTypeB md) k n)
          .ok (mtxRetireEnding s v (v.team.setTile d (.exact es)) v.ctx l [.acc d]))

/-! ### Drain, export, import (R275, R276) -/

/-- ROW0 and NROW of a row range, or none where R275 faults. -/
def rowRange (x : Word) (m : Nat) : Option (Nat × Nat) :=
  let row0 := bits x.toNat 7 0
  let nrow := bits x.toNat 15 8
  if x.toNat < 65536 && nrow ≠ 0 && row0 + nrow ≤ m then some (row0, nrow) else none

/-- How MDRAIN rounds tile element (m, n) (R68, R275). -/
def drainRnd (s : State) (v : View) (m n : Nat) : Rnd :=
  let mode := mxRnd v.ctx.md
  { mode := mode
    u := if mode = 5 then
        rsxDraw (seedOf s v.team) (BitVec.ofNat 64 (v.team.t * 1024)) v.ctx.isc (BitVec.ofNat 64 (m * 64 + n))
      else 0 }

/-- The converted element of a tile and its flags (R74, R83). -/
def drainElem (tile : Tile) (i ty : Nat) (r : Rnd) : Nat × Flags :=
  match tile with
  | .exact es => (es.getD i Xa.zero).drain ty r
  | .semi g es => convert (if g = 4 then 5 else 10) ty r (es.getD i 0).toNat

/-- Packs elements of `w` bits into words. -/
def packWords (w : Nat) (xs : List Nat) : List Lane :=
  let arr := xs.toArray
  (List.range ((xs.length * w + 31) / 32)).map (fun i =>
    if w = 64 then BitVec.ofNat 32 (arr.getD (i / 2) 0 / 2 ^ (32 * (i % 2)))
    else BitVec.ofNat 32 ((List.range (32 / w)).foldl (fun acc q => acc + arr.getD (i * (32 / w) + q) 0 % 2 ^ w * 2 ^ (q * w)) 0))

/-- Writes words into registers from `base` on (R268). -/
def writeWords (t : Team) (base : Nat) (ws : List Lane) : Team :=
  (List.range (regsFor t.nl ws.length)).foldl
    (fun t r => t.setRow (base + r) (fun l => ws[r * t.nl + l]?)) t

/-- The registers of an MDRAIN result, once TYPED and the row range are accepted (R391). -/
def drainRegs (v : View) (b : Fin 64) : Option Nat :=
  match rowRange (v.ctx.getS b) (mxM v.ctx.md) with
  | some (_, nrow) =>
    if mxTypeD v.ctx.md ≤ 13 then some (regsFor v.team.nl (elemWords (mxTypeD v.ctx.md) (nrow * mxN v.ctx.md))) else none
  | none => none

/-- MDRAIN (R275). -/
def execMdrain (d : Fin 64) (a : Fin 4) (b : Fin 64) (l : Fin 16) (s : State) : Host.Outcome State Fault Refusal :=
  instr s
    (fun v =>
      mtxReq true (a.val < v.team.nacc && (drainRegs v b).all (fun n => v.team.vRange d n))
        (mxTypeD v.ctx.md ≤ 13 && mxRnd v.ctx.md ≤ 5) (.acc a :: .s b :: fragNames d ((drainRegs v b).getD 0)))
    (fun v =>
      let md := v.ctx.md
      let ty := mxTypeD md
      let n := mxN md
      match rowRange (v.ctx.getS b) (mxM md) with
      | none => .error { code := .matrixShape }
      | some (row0, nrow) =>
        if tileBusy s v a then .ok s
        else
          let tile := v.team.tile a
          let rs := (List.range (nrow * n)).map (fun i =>
            let m := row0 + i / n
            drainElem tile (m * 64 + i % n) ty (drainRnd s v m (i % n)))
          let t := writeWords v.team d (packWords (fragBits ty) (rs.map (·.1)))
          .ok (mtxRetire s v t (v.ctx.raise (flagsOr (rs.map (·.2)))) l (fragNames d ((drainRegs v b).getD 0))))

/-- The tests of MXPORT and MXLOAD in the order of R163: the row range and the tile's tag, then the stash range; with the
elements of the tile. -/
def recordRange (s : State) (v : View) (d : Fin 4) (a b : Fin 64) (write : Bool) :
    Except Flt (List Xa × Nat × Nat × TeamRef × Nat) :=
  match rowRange (v.ctx.getS b) (mxM v.ctx.md), v.team.tile d with
  | some (row0, nrow), .exact es =>
    match stashTest s v.team none false (v.ctx.getS a) (nrow * mxN v.ctx.md * 96) 32 write with
    | .error f => .error f
    | .ok (.stash r off) => .ok (es, row0, nrow, r, off)
    | .ok (.glob ..) => .error { code := .stashRange, addr := v.ctx.getS a, w := write }
  | _, _ => .error { code := .matrixShape }

/-- MXPORT (R276): one store of 8-byte units, numbered as lanes. -/
def execMxport (d : Fin 4) (a b : Fin 64) (_l : Fin 16) (s : State) : Host.Outcome State Fault Refusal :=
  instr s (fun v => mtxReq true (d.val < v.team.nacc) true [.acc d, .s a, .s b])
    (fun v =>
      match recordRange s v d a b true with
      | .error f => .error f
      | .ok (es, row0, nrow, r, off) =>
        if tileBusy s v d || !s.roomFor v.team.ref .store [(.stash r off, nrow * mxN v.ctx.md * 96)] then .ok s
        else
          let n := mxN v.ctx.md
          let arr := es.toArray
          let lanes := (List.range (nrow * n)).flatMap (fun i =>
            let bytes := (arr.getD ((row0 + i / n) * 64 + i % n) Xa.zero).record
            (List.range 12).map (fun u =>
              ({ lane := 12 * i + u, place := .stash r (off + 96 * i + 8 * u), bytes := (bytes.drop (8 * u)).take 8
                 stage := .issued } : StoreLane)))
          .ok (issueStore s v false lanes))

/-- MXLOAD (R276): one load of 8-byte units; its tile destination counts as written for R45, and later operations on the tile
wait for it (R265). -/
def execMxload (d : Fin 4) (a b : Fin 64) (l : Fin 16) (s : State) : Host.Outcome State Fault Refusal :=
  instr s (fun v => mtxReq true (d.val < v.team.nacc) true [.acc d, .s a, .s b])
    (fun v =>
      match recordRange s v d a b false with
      | .error f => .error f
      | .ok (_, row0, nrow, r, off) =>
        if tileBusy s v d || !s.roomFor v.team.ref .load [(.stash r off, nrow * mxN v.ctx.md * 96)] then .ok s
        else
          let n := mxN v.ctx.md
          let lanes := (List.range (nrow * n * 12)).map (fun i => ({ lane := i, place := .stash r (off + 8 * i), n := 8, val := none } : LoadLane))
          let pieces := lanes.flatMap (splitLoad s)
          let s := lanes.foldl (fun s x => s.startTouch v.ref x.place x.n false) s
          let s := s.addOp v.ref v.team.lv (some .load) (.load (.tile d row0 nrow n) pieces false)
          .ok (mtxRetire s v v.team v.ctx l [.acc d]))

/-- MSTAT (R277). -/
def execMstat (d : Fin 64) (a : Fin 4) (l : Fin 16) (s : State) : Host.Outcome State Fault Refusal :=
  instr s (fun _ => mtxReq true true true [.s d, .tb a])
    (fun v => .ok (mtxRetire s v v.team (v.ctx.setS d (v.team.termBuf a).stat) l [.s d]))

end Sys2Proof.Machine
end

