-- ==== Sys2Proof/Machine/Sched.lean ====
section
/-! DEFINITION. Machine/Sched.lean: placing teams and the life of a slot (R34, R35, R42, R43, R48 to R50, R140): the events
TEAM_PLACEMENT, TEAM_WAKE, ACTIVE_ENTRY, ROTATION and DRAINING_EXIT. -/

namespace Sys2Proof.Machine

/-! ### What a team needs (R34) -/

/-- Stash bytes of a team, its operand queues included (R135). -/
def LaunchRec.footprint (r : LaunchRec) : Nat := r.stash + r.nq * r.qdepth * r.nl * 4

/-- Teams resident on a core. -/
def State.residents (s : State) (die core : Nat) : List Team := s.teams.filter (fun t => t.ref.die = die && t.ref.core = core)

/-- Sum of a list. -/
def sumNat (l : List Nat) : Nat := l.foldl (· + ·) 0

/-- Stash bytes a resident team holds. -/
def Team.footprint (t : Team) : Nat := t.stashLen + t.nq * t.qdepth * t.nl * 4

/-- Whether a window lies outside every resident team's allocation: its team has left (R104). -/
def strayWindow (s : State) (m : MapEntry) : Bool :=
  m.owner.isNone && (match m.home with | some r => (s.team? r).isNone | none => true)

/-- Stash bytes of a core that are taken: resident teams' allocations and windows whose teams have left. -/
def stashTaken (s : State) (die core : Nat) : Nat :=
  sumNat ((s.residents die core).map Team.footprint) +
    sumNat ((s.maps.filter (fun m => m.die = die && m.core = core && strayWindow s m)).map MapEntry.len)

/-- The lowest free slot of a core; which free slot is taken is open, and no value depends on it. -/
def freeSlot (s : State) (die core : Nat) : Option Nat :=
  (List.range 16).find? (fun i => (s.team? { die := die, core := core, slot := i }).isNone)

/-- Whether a core has room for a team of a launch, given the stash bytes taken. -/
def coreFits (s : State) (die core : Nat) (r : LaunchRec) (taken : Nat) : Bool :=
  let ts := s.residents die core
  (freeSlot s die core).isSome &&
  sumNat (ts.map (fun t => t.nl * t.nv * 4)) + r.nl * r.nv * 4 ≤ Config.vrfBytes &&
  taken + r.footprint ≤ Config.stashBytes &&
  sumNat (ts.map (·.nacc)) + r.nacc ≤ 4 &&
  (!r.mctx || (ts.filter (fun t => t.matrix.isSome)).length < 4) &&
  (!r.actx || (ts.filter (fun t => t.access.isSome)).length < 8)

/-- Whether a core has room once every window whose team has left is reclaimed. -/
def coreCanFit (s : State) (die core : Nat) (r : LaunchRec) : Bool :=
  coreFits s die core r (sumNat ((s.residents die core).map Team.footprint))

/-- The oldest entry of a core whose window lies outside every resident team's allocation. -/
def oldestStray (s : State) (die core : Nat) : Option MapEntry :=
  oldestDetached { s with maps := s.maps.filter (strayWindow s) } die core

/-- Reclaims entries of a core whose windows hold free stash, oldest first, until a team fits (R104). -/
def makeRoom (s : State) (die core : Nat) (r : LaunchRec) : State :=
  (List.range 64).foldl
    (fun s _ =>
      if coreFits s die core r (stashTaken s die core) then s
      else match oldestStray s die core with
        | some m => reclaimMap s m
        | none => s)
    s

/-! ### The presented mesh -/

/-- The physical place of a core of the presented mesh, by column and row (R10, R314). -/
def placeOf (d : Die) (col row : Nat) : Option Nat :=
  match d.cols[col]?, d.rows[row]? with
  | some c, some r => some (r * 8 + c)
  | _, _ => none

/-- The cores of a w × h rectangle in rank order (R24), if the mesh and the core set hold it. -/
def rectangle (d : Die) (set : Option (BitVec 64)) (w h col row : Nat) : Option (List Nat) :=
  let cells := (List.range (w * h)).map (fun r =>
    let c := col + r % w
    let q := row + r / w
    let allowed := match set with | none => true | some m => m.getLsbD (q * 8 + c)
    if allowed then placeOf d c q else none)
  if cells.all Option.isSome then some (cells.filterMap id) else none

/-- The core set of a launch on a die, if it has one (R135). -/
def Launch.coreSet (l : Launch) (die : Nat) : Option (BitVec 64) := if l.lrec.csetp = 0 then none else l.coreSets[die]?

/-- Whether a cluster of the launch could ever be placed on a die (R35): the needs of a team fit one empty core, and some
rectangle of the presented mesh lies in the core set. -/
def placeable (d : Die) (r : LaunchRec) (set : Option (BitVec 64)) : Bool :=
  r.nl * r.nv * 4 ≤ Config.vrfBytes && r.footprint ≤ Config.stashBytes && r.nacc ≤ 4 &&
  (List.range 8).any (fun col => (List.range 6).any (fun row => (rectangle d set r.cw r.ch col row).isSome))

/-! ### Start state (R15, R16, R17, R137, R183, R199, R265) -/

/-- A context that starts at `pc` with its launch's arguments. -/
def startCtx (l : Launch) (pc : Word) : Ctx :=
  let c := l.args.zipIdx.foldl (fun (c : Ctx) p => c.setSN (p.2 + 1) p.1) Ctx.fresh
  { (c.setSN 63 (BitVec.ofNat 64 l.lrec.stash)) with pc := pc, rgnpc := pc }

/-- An empty operand queue. -/
def OpQueue.empty : OpQueue := { entries := [], closed := false, stream := none }

/-- A term buffer that holds no decomposition. -/
def TermBuf.empty : TermBuf := { valid := false, typeA := 0, m := 0, k := 0, spat := 0, words := [], stat := 0 }

/-- A team placed afresh. -/
def startTeam (l : Launch) (ref : TeamRef) (t : Nat) : Team :=
  let r := l.lrec
  let at_ (off : Nat) : Word := r.kdesc + BitVec.ofNat 64 off
  { ref := ref, launch := l.sid, lv := l.lv, t := t, cluster := t / r.c, nl := r.nl, nv := r.nv, stashLen := r.stash
    nq := r.nq, qdepth := r.qdepth, nacc := r.nacc, nh := r.nh, slot := .ready, live := lanesBelow r.nl
    k := (Vector.replicate 16 (0 : Mask)).set 0 (lanesBelow r.nl)
    v := List.replicate r.nv (List.replicate r.nl (0 : Lane)), stash := []
    queues := List.replicate r.nq OpQueue.empty, tiles := List.replicate r.nacc (Tile.zero 0)
    tbs := if r.mctx then List.replicate 4 TermBuf.empty else []
    regions := [], handles := [], args := Vector.replicate 4 (Vector.replicate 4 (0 : Word))
    cbar := { isOpen := false, arrived := 0, passed := 0, pending := none }
    restartable := true, stop := none, progress := 0, team := startCtx l (at_ l.teamoff)
    matrix := if r.mctx then some (startCtx l (at_ l.matoff)) else none
    access := if r.actx then some (startCtx l (at_ l.accoff)) else none }

/-! ### Placement -/

/-- Whether every team of a launch has left DRAINING for good: its last segment has nothing left to place, run or restore. -/
def teamsDone (s : State) (l : Launch) : Bool :=
  l.seg + 1 == l.lrec.nseg && l.unplaced.isEmpty && l.acts &&
  s.teams.all (fun t => t.launch != l.sid) && s.hub.saved.all (fun x => x.launch != l.sid)

/-- Whether the teams of a launch may start: every stream predecessor's teams are done (R140). -/
def mayStart (s : State) (l : Launch) : Bool := s.hub.launches.all (fun k => !precedes k l || teamsDone s k)

/-- The die of a cluster by the team-range table (R32). -/
def LaunchRec.dieOf (r : LaunchRec) (cluster : Nat) : Option Nat :=
  let t := cluster * r.c
  (List.range 8).find? (fun d => match r.ranges[d]? with | some (lo, hi) => lo ≤ t && t < hi | none => false)

/-- Whether a die takes new teams: in service, and its cores not stopped by the alarm (R371, R378). -/
def dieServes (s : State) (die : Nat) : Bool :=
  s.sec.boot.ready && !(s.die die).fenced && s.sec.boot.dieok.getLsbD die && !s.alarm.coresStopped

/-- The accesses still under way to former allocations of a core when its bytes are given away: a load has the value its byte had, a
store changes nothing that is read again, an arrival ends no phase (R86, R253). -/
def settleFormer (s : State) (die core : Nat) : State :=
  let gone (p : Place) : Bool :=
    match p with
    | .stash r _ => s.former.any (fun f => f.ref = r && r.die = die && r.core = core)
    | .glob .. => false
  let bytes (p : Place) (n : Nat) : List Byte :=
    match p with
    | .stash r off => (List.range n).map (fun i => s.stashByte r (off + i))
    | .glob .. => []
  let load (l : LoadLane) : LoadLane :=
    if l.val.isNone && gone l.place then { l with val := some (natOfBytes (bytes l.place l.n)) } else l
  let store (l : StoreLane) : StoreLane := if gone l.place then { l with stage := .performed } else l
  { s with
    ops := s.ops.map (fun o =>
      match o.kind with
      | .load d ls na => { o with kind := .load d (ls.map load) na }
      | .store ls na g => { o with kind := .store (ls.map store) na g }
      | _ => o)
    arrivals := s.arrivals.filter (fun a => !gone (.stash a.owner a.off))
    former := s.former.filter (fun f => !(f.ref.die == die && f.ref.core == core)) }

/-- What an earlier team in a slot has observed is not what a new one has. -/
def State.forgetObserver (s : State) (r : TeamRef) : State :=
  { s with ops := s.ops.map (fun o =>
      match o.kind with
      | .store ls na g => { o with kind := .store (ls.map (fun l => { l with obs := l.obs.filter (fun c => c.1.ref ≠ r) })) na g }
      | _ => o) }

/-- Puts a team into a slot: no older window or former allocation bears its place any longer (R86; log 10). -/
def seat (s : State) (t : Team) : State :=
  let s := (if s.former.isEmpty then s else settleFormer s t.ref.die t.ref.core).forgetObserver t.ref
  { s with
    teams := s.teams ++ [t]
    maps := s.maps.map (fun m => if m.home = some t.ref then { m with home := none } else m) }

/-- Gives a slot to a new team, which joins the ready queue (R49). -/
def occupy (s : State) (t : Team) : State := (seat s t).makeReady t.ref

/-- Places the members of a cluster on cores in rank order. -/
def placeMembers (die : Nat) (r : LaunchRec) (mk : TeamRef → Nat → Team) : State → List (Nat × Nat) → Option State
  | s, [] => some s
  | s, (core, t) :: rest =>
    let s := makeRoom s die core r
    match freeSlot s die core with
    | some slot =>
      if coreFits s die core r (stashTaken s die core) then
        placeMembers die r mk (occupy s (mk { die := die, core := core, slot := slot } t)) rest
      else none
    | none => none

/-- Whether DRAIN holds a launch's new teams back from a die: a launch that is to be placed there first still waits (R305). -/
def heldBack (s : State) (l : Launch) (die : Nat) : Bool :=
  l.held.any (fun h => h.1 == die && s.hub.launches.any (fun k => k.sid == h.2 && k.st == .running))

/-- A launch with a team newly in its slot: it is watched from now on, unless it has been watched already (R313). -/
def Launch.watched (k : Launch) (s : State) : Launch :=
  { k with lastProgress := if s.teams.any (fun t => t.launch = k.sid) then k.lastProgress else s.time }

/-- A launch has been placed on a die: what DRAIN held back for it goes on (R305). -/
def State.releaseHeld (s : State) (sid die : Nat) : State :=
  { s with hub := { s.hub with launches := s.hub.launches.map (fun k =>
    { k with held := k.held.filter (fun h => !(h.1 == die && h.2 == sid)) }) } }

/-- TEAM_PLACEMENT: the dispatcher places a cluster of the current segment on a rectangle of its die (R34, R140, R149, R305). -/
def execTeamPlacement (launch cluster col row : Nat) (s : State) : Host.Outcome State Fault Refusal :=
  match s.launch? launch with
  | none => .next s
  | some l =>
    match l.lrec.dieOf cluster with
    | none => .next s
    | some die =>
      if l.st ≠ .running || !l.unplaced.contains cluster || !mayStart s l || heldBack s l die || !dieServes s die then .next s
      else
        match rectangle (s.die die) (l.coreSet die) l.lrec.cw l.lrec.ch col row with
        | none => .next s
        | some cores =>
          if !cores.all (fun c => coreCanFit s die c l.lrec) then .next s
          else
            let ts := cores.zipIdx.map (fun p => (p.1, cluster * l.lrec.c + p.2))
            match placeMembers die l.lrec (fun r t => startTeam l r t) s ts with
            | none => .next s
            | some s' =>
              match s'.launch? launch with
              | none => .next s
              | some k =>
                .next ((s'.putLaunch { k.watched s with unplaced := k.unplaced.filter (· ≠ cluster) }).releaseHeld launch die)

/-! ### Slots (R48 to R50) -/

/-- Whether what a waiting team waits for has come about (R49). -/
def waitOver (s : State) (t : Team) (w : Wait) : Bool :=
  match w with
  | .boundary op => s.written op
  | .waitc p n => s.counter t.ref p ≤ n
  | .bwait r off phase => phaseOver s r off phase
  | .cbarw => clusterMet s t
  | .vpop q => !(t.queue q).entries.isEmpty || ((t.queue q).stream.isNone && t.accessOver)
  | .goFull e => s.cmdCount t.ref e < 16

/-- TEAM_WAKE: a WAITING team whose event has come becomes READY, and its instruction reissues (R49). -/
def execTeamWake (die core slot : Nat) (s : State) : Host.Outcome State Fault Refusal :=
  let r : TeamRef := { die := die, core := core, slot := slot }
  match s.team? r with
  | none => .next s
  | some t =>
    match t.slot with
    | .waiting w => if waitOver s t w then .next (s.makeReady r) else .next s
    | _ => .next s

/-- ACTIVE slots of a core. -/
def State.activeCount (s : State) (die core : Nat) : Nat := ((s.residents die core).filter (fun t => t.slot == .active)).length

/-- ACTIVE_ENTRY: the head of a core's ready queue enters an active set of fewer than 8 (R49, R50). -/
def execActiveEntry (die core : Nat) (s : State) : Host.Outcome State Fault Refusal :=
  match s.readyQ.find? (fun r => r.die = die && r.core = core) with
  | none => .next s
  | some r =>
    match s.team? r with
    | none => .next s
    | some t =>
      if s.activeCount die core < 8 then
        .next { (s.putTeam { t with slot := .active }) with readyQ := s.readyQ.erase r }
      else .next s

/-- ROTATION: an ACTIVE team gives way to the ready queue (R50). When its 4,096 clocks have passed is timing. -/
def execRotation (die core slot : Nat) (s : State) : Host.Outcome State Fault Refusal :=
  let r : TeamRef := { die := die, core := core, slot := slot }
  match s.team? r with
  | none => .next s
  | some t =>
    if t.slot = .active && s.readyQ.any (fun x => x.die = die && x.core = core) then .next (s.makeReady r) else .next s

/-! ### Leaving DRAINING (R43) -/

/-- Whether any operation of another team still accesses a team's stash. -/
def stashAwaited (s : State) (r : TeamRef) : Bool :=
  s.ops.any (fun o => !o.done && o.own.ref != r &&
    match o.kind with
    | .load _ ls _ => ls.any (fun l => match l.place with | .stash x _ => x == r | _ => false)
    | .store ls _ _ => ls.any (fun l => match l.place with | .stash x _ => x == r | _ => false)
    | _ => false)

/-- Whether a bound context has ended or does not exist. -/
def ctxOver (c : Option Ctx) : Bool := (c.map (fun c => c.run == RunState.ended)).getD true

/-- Whether the six in-flight counters of a team read zero (R172). -/
def countersZero (s : State) (r : TeamRef) : Bool :=
  [Path.load, .store, .fill, .engine, .atom, .red].all (fun p => s.counter r p == 0)

/-- Whether a DRAINING team may leave: its six counters read zero, its bound contexts have ended, and no arrival is left that it or
another made (R42, R43, R253). Accesses under way that raise no counter of its own go on without it: engine writes that no release awaits,
and the other members' accesses to its stash. -/
def mayLeave (s : State) (t : Team) : Bool :=
  t.slot == .draining && countersZero s t.ref && ctxOver t.matrix && ctxOver t.access && t.cbar.pending.isNone &&
  s.arrivals.all (fun a => a.owner != t.ref && a.by_.ref != t.ref)

/-- The stash bytes of a team as they stand, the bytes of its valid window sectors included. -/
def stashNow (s : State) (t : Team) : Memory :=
  (s.maps.filter (fun m => m.home = some t.ref)).foldl
    (fun (b : Memory) m => m.secs.foldl (fun b x => b.setN (m.woff + 64 * x.ix) x.bytes) b) t.stash

/-- The accesses that other teams have in flight to windows in a team's stash, as accesses to the global bytes these stand for (R103), which
the windows stand for no longer once the team has left. -/
def State.leaveWindows (s : State) (r : TeamRef) : State :=
  let place (p : Place) : Place :=
    match p with
    | .glob .. => p
    | .stash x off =>
      if x ≠ r then p
      else
        match s.windowOf r off with
        | none => p
        | some m =>
          match s.stashLoc r off with
          | .g pa => .glob (m.g (off - m.woff)).toNat pa
          | .s .. => p
  { s with ops := s.ops.map (fun o =>
      match o.kind with
      | .load d ls na => { o with kind := .load d (ls.map (fun l => if l.val.isNone then { l with place := place l.place } else l)) na }
      | .store ls na g =>
        { o with kind := .store (ls.map (fun l => if l.stage = .performed then l else { l with place := place l.place })) na g }
      | _ => o) }

/-- A team leaves its slot: what it last did still counts as progress of its launch (R313). -/
def foldProgress (s : State) (t : Team) : State :=
  match s.launch? t.launch with
  | some l => s.putLaunch { l with lastProgress := if l.lastProgress.toNat < t.progress.toNat then t.progress else l.lastProgress }
  | none => s

/-- DRAINING_EXIT: the slot is freed; the former stash bytes stay reachable within the bounds of R86. -/
def execDrainingExit (die core slot : Nat) (s : State) : Host.Outcome State Fault Refusal :=
  match s.team? { die := die, core := core, slot := slot } with
  | none => .next s
  | some t =>
    if !mayLeave s t then .next s
    else
      let f : FormerStash :=
        { ref := t.ref, launch := t.launch, cluster := t.cluster, t := t.t, stashLen := t.stashLen, stash := stashNow s t }
      let s := (foldProgress s t).leaveWindows t.ref
      .next { s with teams := s.teams.filter (fun x => x.ref ≠ t.ref), former := s.former ++ [f] }

end Sys2Proof.Machine
end

