-- ==== Sys2Proof/Machine/Commit.lean ====
section
/-! DEFINITION. Machine/Commit.lean: how a segment commits and how a launch ends (R142, R143, R147, R149 to R155, R364, R383): the
events DONE, PREPARE, BACK_INVALIDATION_ACK, READY, COMMIT, COMMIT_ACK, ABORT, ABORT_ACK, and the Cistern and read-mark events. -/

namespace Sys2Proof.Machine

/-- The dies in service, which take part in a commit or an abort (R371, R386). -/
def liveDies (s : State) : List Nat := (List.range 8).filter (fun d => s.sec.boot.dieok.getLsbD d && !(s.die d).fenced)

/-- Whether a list names every die in service. -/
def allDies (s : State) (ds : List Nat) : Bool := (liveDies s).all (fun d => ds.contains d)

/-! ### Completion records (R364) -/

/-- The 64 bytes of a completion record. -/
def completionBytes (l : Launch) (status : Nat) (now : Word) : List Byte :=
  let vnum := match l.pin with | some (_, v) => v % 2 ^ 32 | none => 0xFFFFFFFF
  bytesOfNat 8 l.lrec.lid.toNat ++
  bytesOfNat 8 (at_ vnum 32 + at_ (l.seg % 256) 24 + at_ (l.rused % 256) 16 + (if l.exactLost then 256 else 0) + status) ++
  bytesOfNat 8 l.csn.toNat ++ bytesOfNat 8 l.tadm.toNat ++ bytesOfNat 8 now.toNat ++ List.replicate 16 0 ++
  bytesOfNat 8 l.lrec.lid.toNat

/-- The flat addresses of `n` bytes at a queue address of a function (R359, R369): host physical, or virtual under the ASID and
tested against the function's access entries; none when a byte cannot be reached. -/
def queuePas (s : State) (hostmem : Bool) (asid func : Nat) (need : Need) (a : Word) (n : Nat) : Option (List Nat) :=
  let ps := (List.range n).map (fun i =>
    let x := a + BitVec.ofNat 64 i
    if hostmem then some (hostPa x.toNat)
    else match resolve s asid func need x with
      | .ok pa => if (s.lostHome (pa / 64)).isSome then none else some pa
      | .error _ => none)
  if ps.all Option.isSome then some (ps.filterMap id) else none

/-- Fires alarm source 6 when an access-table entry denies one of these bytes (R369, R377). -/
def noteDenial (s : State) (hostmem : Bool) (asid func : Nat) (need : Need) (a : Word) (n : Nat) : State :=
  let denied (i : Nat) : Bool :=
    match resolve s asid func need (a + BitVec.ofNat 64 i) with
    | .error .accessTable => true
    | _ => false
  if !hostmem && (List.range n).any denied then s.raiseAlarm 6 else s

/-- A queue by number. -/
def State.queue (s : State) (q : Nat) : Queue := assoc s.hub.queues q Queue.reset

/-- The state with a queue replaced. -/
def State.setQueue (s : State) (q : Nat) (x : Queue) : State := { s with hub := { s.hub with queues := setAssoc s.hub.queues q x } }

/-- Stops a queue with QERR (R361, R364). -/
def State.stopQueue (s : State) (q : Nat) : State := s.setQueue q { s.queue q with qerr := true }

/-- Writes the completion record of a launch and signals QVEC if asked; one that cannot be written stops the queue. -/
def writeCompletion (s : State) (l : Launch) (status : Nat) : State :=
  match queuePas s l.hostmem l.asid l.func { w := true } l.lrec.compl 64 with
  | none => noteDenial (s.stopQueue l.queue) l.hostmem l.asid l.func { w := true } l.lrec.compl 64
  | some pas =>
    let s := (pas.zip (completionBytes l status s.time)).foldl (fun s p => s.hubWrite p.1 [p.2]) s
    if l.irq then { s with out := s.out ++ [.irq l.func l.qvec] } else s

/-! ### Streams and the end of a launch (R138, R152) -/

/-- The record of a stream. -/
def State.stream (s : State) (func stream : Nat) : StreamRec :=
  match s.hub.streams.find? (fun x => x.func = func && x.stream = stream) with
  | some x => x
  | none => { func := func, stream := stream, failed := false, base := 0, holds := none }

/-- The state with a stream's record replaced. -/
def State.setStream (s : State) (x : StreamRec) : State :=
  { s with hub := { s.hub with
      streams := s.hub.streams.filter (fun y => !(y.func == x.func && y.stream == x.stream)) ++ [x] } }

/-- Adds one to an outcome counter, which saturates (R383). -/
def countOutcome (s : State) (i : Nat) : State :=
  let ix := Fin.ofNat 10 i
  let n := s.hub.outcomes[ix]
  { s with hub := { s.hub with outcomes := s.hub.outcomes.set ix (if n = BitVec.allOnes 64 then n else n + 1) } }

/-- The outcome counter of a status (R383). -/
def outcomeIx (status : Nat) : Nat := if status = 0 then 0 else status - 0x3F

/-- A version tag names no launch any longer: it leaves the bounds of overflowed read marks (R147). -/
def State.forgetTag (s : State) (lv : BitVec 16) : State :=
  { s with sectors := s.sectors.map (fun r => if r.rovf then { r with bound := r.bound.filter (· ≠ lv) } else r) }

/-- The final end of one launch: its record is written, it leaves the package, and a status other than COMMITTED fails its
stream (R152, R364). -/
def finishLaunch (s : State) (l : Launch) (status : Nat) : State :=
  let s := writeCompletion s l status
  let s := { s with hub := { s.hub with launches := s.hub.launches.filter (fun x => x.sid ≠ l.sid) } }
  let s := (s.forgetTag l.lv).pruneCode
  if status = 0 then s else s.setStream { s.stream l.func l.lrec.stream with failed := true }

/-- Whether a launch depends directly on another: a stream successor, or one that named it in DEP (R138). -/
def dependsOn (x l : Launch) : Bool := precedes l x || x.deps.contains l.sid

/-- A launch after one it depends on has ended with a final abort: it may not run; an admitted stream successor is aborted (R138,
R152). -/
def Launch.fall (x l : Launch) : Launch :=
  if !dependsOn x l then x else { (if precedes l x then x.mark 0x47 else x) with doomed := true }

/-- Final ends of a list of launches with their statuses, and of the launches that fall with them: one not admitted ends with
ABORT_DEPENDENCY, unrun; one being aborted will (R138, R152). `fuel` bounds the chain by the launches there are. -/
def endLaunches : Nat → State → List (Launch × Nat) → State
  | 0, s, _ => s
  | _, s, [] => s
  | fuel + 1, s, (l, status) :: rest =>
    let s := finishLaunch s l status
    if status = 0 then endLaunches fuel s rest
    else
      let deps := s.hub.launches.filter (fun x => dependsOn x l)
      let unrun := deps.filter (fun x => x.st == .waiting && !rest.any (fun p => p.1.sid = x.sid))
      let s := { s with hub := { s.hub with launches := s.hub.launches.map (fun x => x.fall l) } }
      let s := unrun.foldl (fun s _ => countOutcome s (outcomeIx 0x47)) s
      endLaunches fuel s (rest ++ unrun.map (fun x => (x, 0x47)))

/-- The final end of a launch and of those that depend on it; the alarm records that waited for it follow (R378). -/
def endLaunch (s : State) (l : Launch) (status : Nat) : State :=
  (retireAll (endLaunches (s.hub.launches.length + 1) s [(l, status)])).reportAlarms

/-! ### Segments (R149, R150) -/

/-- The clusters of a segment. -/
def segmentClusters (r : LaunchRec) (seg : Nat) : List Nat :=
  let total := r.gx * r.gy * r.gz
  let lo := if seg = 0 then 0 else r.segends.getD (seg - 1) total
  let hi := if seg + 1 < r.nseg then r.segends.getD seg total else total
  (List.range (hi / r.c)).filter (fun c => lo ≤ c * r.c)

/-- Whether a die has nothing left of a launch's current segment. -/
def dieDone (s : State) (l : Launch) (die : Nat) : Bool :=
  l.unplaced.all (fun c => l.lrec.dieOf c ≠ some die) &&
  s.teams.all (fun t => t.launch ≠ l.sid || t.ref.die ≠ die) &&
  s.hub.saved.all (fun x => x.launch ≠ l.sid || x.die ≠ die)

/-- DONE: a die reports that its last team of the segment has left DRAINING (R150, step 1). -/
def execDoneReport (launch die : Nat) (s : State) : Host.Outcome State Fault Refusal :=
  match s.launch? launch with
  | none => .next s
  | some l =>
    if l.st = .running && (liveDies s).contains die && !l.doneDies.contains die && dieDone s l die then
      .next (s.putLaunch { l with doneDies := l.doneDies ++ [die] })
    else .next s

/-- Whether the hub may send PREPARE: every die has reported, and every stream predecessor has ended (R149, R150). -/
def mayPrepare (s : State) (l : Launch) : Bool :=
  (l.st == .running || l.st == .preparing) && allDies s l.doneDies && s.hub.launches.all (fun k => !precedes k l)

/-- Sets PREP on every sector that a launch holds at these homes, invalidating every copy of its committed value (R132). -/
def setPrepared (s : State) (lv : BitVec 16) (dies : List Nat) : State :=
  let mine (r : SectorRec) : Bool := r.tent && r.lv == lv && dies.contains (dieOf (64 * r.sector))
  let s := (s.sectors.filter mine).foldl
    (fun s r => (s.recallWindows r.sector (fun m _ => m.lv == lv)).dropCopies r.sector (fun _ => true)) s
  { s with sectors := s.sectors.map (fun r => if mine r then { r with prep := true } else r) }

/-- Whether a launch holds tentative data of a die that has been fenced: its write-back there is an access that ends it (R150, R386). -/
def State.lostData (s : State) (l : Launch) : Bool := s.sectors.any (fun r => r.tent && r.lv == l.lv && s.homeFenced r.sector)

/-- PREPARE at one die (R150, steps 2 and 3): windows are written back and freed, combining buffers merged, and the sectors homed
on it, or on dies prepared before it, are PREPARED. It waits for engine writes of the launch that are still on their way. Data of a fenced
die ends the launch with ABORT_DIE_LOST (R386). -/
def execPrepare (launch die : Nat) (s : State) : Host.Outcome State Fault Refusal :=
  match s.launch? launch with
  | none => .next s
  | some l =>
    if !mayPrepare s l || !(liveDies s).contains die || l.prepDies.contains die ||
        s.ops.any (fun o => !o.done && o.lv = l.lv && o.own.ref.die = die) then .next s
    else if s.lostData l then .next (s.requestAbort launch 0x45)
    else
      let s := s.putLaunch { l with st := .preparing, prepDies := l.prepDies ++ [die] }
      let mine := s.maps.filter (fun m => m.lv = l.lv && m.die = die)
      let s := mine.foldl (fun s m => reclaimMap s m) s
      .next (setPrepared s l.lv (l.prepDies ++ [die]))

/-- BACK_INVALIDATION_ACK: the host snoop filter acknowledges a die's back-invalidations (R150, step 4). -/
def execBackInvalidationAck (launch die : Nat) (s : State) : Host.Outcome State Fault Refusal :=
  match s.launch? launch with
  | none => .next s
  | some l =>
    if l.st = .preparing && l.prepDies.contains die && !l.biDies.contains die then
      .next (s.putLaunch { l with biDies := l.biDies ++ [die] })
    else .next s

/-- READY: with READY from every die the hub passes the commit point: the next CSN, the commit log, the broadcast (R150, steps 4
to 6). Data of a die fenced since ends the launch (R386). -/
def execReady (launch : Nat) (s : State) : Host.Outcome State Fault Refusal :=
  match s.launch? launch with
  | none => .next s
  | some l =>
    if l.st = .preparing && allDies s l.prepDies && allDies s l.biDies then
      if s.lostData l then .next (s.requestAbort launch 0x45)
      else
        let s := s.putLaunch { l with st := .committing, csn := s.hub.csn, ackDies := [] }
        .next { s with hub := { s.hub with commitLog := s.hub.commitLog ++ [(l.lv, s.hub.csn)], csn := s.hub.csn + 1 } }
    else .next s

/-- The committed record of a sector (R143): COMMITTED-C when its data lay in the Cistern. -/
def commitSector (s : State) (r : SectorRec) : State :=
  let bytes := r.tbytes.getN (64 * r.sector) 64
  let done := { r with tent := false, prep := false, lv := 0, xt := false, tbytes := [] }
  let s := { s with exact := s.exact.filter (fun e => e.sector ≠ r.sector) }
  if r.cis then s.setRec { done with comC := true, cbytes := r.tbytes }
  else ({ s with mem := s.mem.setN (64 * r.sector) bytes }).setRec { done with cis := false, comC := false, cbytes := [] }

/-- Releases the read marks of a launch at a die's homes; an overflowed mark stands until its bound has ended (R147). -/
def releaseMarks (s : State) (lv : BitVec 16) (die : Nat) : State :=
  (s.sectors.filter (fun r => r.rmk && !r.rovf && r.rlv = lv && dieOf (64 * r.sector) = die)).foldl
    (fun s r => s.setRec { s.sectorRec r.sector with rmk := false, rlv := 0 }) s

/-- COMMIT at the slices of one die (R143, R150, step 7). A table entry changes only once the accesses that translated by the old one
have been made (R101); when accesses wait for this very commit, those that are left translate anew after it. -/
def execCommit (launch die : Nat) (s : State) : Host.Outcome State Fault Refusal :=
  match s.launch? launch with
  | none => .next s
  | some l =>
    if l.st ≠ .committing || !(liveDies s).contains die || l.ackDies.contains die then .next s
    else
      let mine := s.sectors.filter (fun r => r.tent && r.lv = l.lv && dieOf (64 * r.sector) = die)
      let secs := mine.map (·.sector)
      let users := s.tableUsers secs
      if !users.isEmpty && !s.ops.any (s.awaits l.lv) then .next s
      else
        let s := (mine.foldl commitSector (s.replacing secs)).retranslateAll users
        match s.launch? launch with
        | none => .next s
        | some l => .next ((releaseMarks s l.lv die).putLaunch { l with ackDies := l.ackDies ++ [die], written := l.written ++ secs })

/-- A launch at the start of a segment. -/
def Launch.startSegment (l : Launch) (seg : Nat) (now : Word) : Launch :=
  { l with
    st := .running, seg := seg, unplaced := segmentClusters l.lrec seg, doneDies := [], prepDies := [], biDies := []
    ackDies := [], tokens := [], written := [], later := none, lastProgress := now }

/-- Whether a commit must still wait before its step 8 for the Windlass: a publication or a decision due at its domain (R327,
R330). -/
def windlassWaits (s : State) (l : Launch) : Bool :=
  match l.pin with
  | none => false
  | some (m, _) => (s.domain m).publishCsn.isSome || (s.domain m).windowDue

/-- Whether a die with a nonempty range of a launch is no longer in service (R154, R386). -/
def lostRange (s : State) (l : Launch) : Bool :=
  (List.range 8).any (fun d =>
    match l.lrec.ranges[d]? with
    | some (lo, hi) => lo != hi && !(liveDies s).contains d
    | none => false)

/-- The record of a sector whose tentative data is discarded (R143). -/
def SectorRec.discard (r : SectorRec) : SectorRec :=
  { r with tent := false, prep := false, lv := 0, xt := false, cis := r.comC, tbytes := [] }

/-- Returns the sectors of a launch homed on a die to their committed state; their Cistern space awaits reclaim (R151, step 3). -/
def discardSectors (s : State) (lv : BitVec 16) (die : Nat) : State :=
  let mine := s.sectors.filter (fun r => r.tent && r.lv = lv && dieOf (64 * r.sector) = die)
  let s := mine.foldl (fun s r =>
    ((s.setRec r.discard).dropCopies r.sector (fun _ => true))) s
  let s : State := { s with dead := s.dead ++ (mine.filter (fun r => r.cis)).map (fun r => (lv, r.sector)) }
  releaseMarks { s with exact := s.exact.filter (fun e => !mine.any (fun r => r.sector = e.sector)) } lv die

/-- What a committed segment wrote to memory of a fenced die is lost: nothing of it stays tentative there (R386). -/
def State.dropLost (s : State) (lv : BitVec 16) : State :=
  ((List.range 8).filter (fun d => (s.die d).fenced)).foldl (fun s d => { discardSectors s lv d with dead := s.dead }) s

/-- COMMIT_ACK (R150, step 8): the Windlass refreshes and counts first, and may make the commit wait for a publication or a
decision; then the next segment may proceed, or the launch ends with its completion record. What came for it after the commit point (a
KILL, a lost die, a withdrawn version) ends it before its next segment (R333, R360, R386). -/
def execCommitAck (launch : Nat) (bad : List (Nat × Nat × Nat × Nat)) (s : State) : Host.Outcome State Fault Refusal :=
  match s.launch? launch with
  | none => .next s
  | some l =>
    if l.st ≠ .committing || !allDies s l.ackDies then .next s
    else
      let fresh := !l.tokens.isEmpty || !l.written.isEmpty
      if fresh && windlassWaits s l then .next s
      else
        let s := windlassCommit s l l.csn l.written bad
        match s.launch? launch with
        | none => .next s
        | some l =>
          let l := { l with tokens := [], written := [] }
          let s := s.putLaunch l
          if windlassWaits s l then .next s
          else
            let s := countOutcome (s.dropLost l.lv) 0
            if l.seg + 1 < l.lrec.nseg then
              let s := s.putLaunch (l.startSegment (l.seg + 1) s.time)
              .next (retireAll (match l.later with | some status => s.requestAbort launch status | none => s))
            else .next (endLaunch s { l with seg := l.lrec.nseg } 0)

/-! ### Abort (R151 to R154) -/

/-- The U copies of a die's cores without deltas are gone (R93). -/
def State.dropIdleU (s : State) (die : Nat) : State :=
  let live (c : Copy) : Bool := s.ops.any (fun o => isCoreRed die (c.core.getD o.own.ref.core) c.sector o)
  { s with copies := s.copies.filter (fun c => c.st != .U || c.die != die || live c) }

/-- Frees the slots of a launch's teams on a die and discards what its cores hold of it: windows, which own nothing any longer, and deltas
(R93, R108, R151). -/
def dropTeams (s : State) (l : Launch) (die : Nat) : State :=
  let s := (s.maps.filter (fun m => m.lv == l.lv && m.die == die)).foldl releaseHomes s
  let mine (r : TeamRef) : Bool := s.teams.any (fun t => t.ref = r && t.launch = l.sid) && r.die == die
  State.dropIdleU (die := die) { s with
    teams := s.teams.filter (fun t => !(t.launch == l.sid && t.ref.die == die))
    readyQ := s.readyQ.filter (fun r => !mine r)
    ops := s.ops.filter (fun o => !(o.lv == l.lv && o.own.ref.die == die))
    cmds := s.cmds.filter (fun c => !(c.lv == l.lv && c.own.ref.die == die))
    arrivals := s.arrivals.filter (fun a => !mine a.by_.ref)
    maps := s.maps.filter (fun m => !(m.lv == l.lv && m.die == die))
    former := s.former.filter (fun f => !(f.launch == l.sid && f.ref.die == die))
    hub := { s.hub with
      saved := s.hub.saved.filter (fun x => !(x.launch == l.sid && x.die == die))
      parks := s.hub.parks.filter (fun r => !(r.sid == l.sid && r.die == die))
      heldReplies := s.hub.heldReplies.filter (fun r => r.sid ≠ l.sid) } }

/-- ABORT at one die (R151, steps 1 to 4). -/
def execAbort (launch die : Nat) (s : State) : Host.Outcome State Fault Refusal :=
  match s.launch? launch with
  | none => .next s
  | some l =>
    match l.st with
    | .aborting status =>
      if !(liveDies s).contains die || l.ackDies.contains die then .next s
      else
        let s := discardSectors (dropTeams s l die) l.lv die
        .next (s.putLaunch { l with ackDies := l.ackDies ++ [die], st := .aborting status })
    | _ => .next s

/-- Whether a status allows a retry (R154): not while a die the launch needs is fenced. -/
def mayRetry (s : State) (l : Launch) (status : Nat) : Bool :=
  l.retriesLeft ≠ 0 &&
  (match status with
   | 0x40 | 0x43 | 0x44 | 0x48 => true
   | 0x45 => !lostRange s l
   | _ => false)

/-- The launch as it waits again for admission, after the final outcome of the launch it follows, if any (R152, R153). -/
def Launch.requeue (l : Launch) (used : Bool) : Launch :=
  { l with
    st := .waiting, lv := 0, unplaced := [], doneDies := [], prepDies := [], biDies := [], ackDies := [], tokens := []
    written := [], readFrames := [], later := none
    retriesLeft := if used then l.retriesLeft - 1 else l.retriesLeft
    rused := if used then l.rused + 1 else l.rused }

/-- What an abort leaves behind a fenced die: nothing of the launch is reachable there. -/
def dropFenced (s : State) (l : Launch) : State :=
  (List.range 8).foldl (fun s d => if (liveDies s).contains d then s else discardSectors (dropTeams s l d) l.lv d) s

/-- A launch that an abort with `status` would have re-queued ends with `final` instead: it no longer may run (R152, R360). -/
def endUnrun (s : State) (l : Launch) (status final : Nat) : State :=
  endLaunch (if status = final then s else countOutcome s (outcomeIx final)) l final

/-- ABORT_ACK (R151, step 5): the hub re-queues the launch, or ends it. Its tag is freed once its Cistern space has been
reclaimed (R139). -/
def execAbortAck (launch : Nat) (s : State) : Host.Outcome State Fault Refusal :=
  match s.launch? launch with
  | none => .next s
  | some l =>
    match l.st with
    | .aborting status =>
      if !allDies s l.ackDies then .next s
      else
        let s := countOutcome (dropFenced s l) (outcomeIx status)
        let s := { s with hub := { s.hub with busyTags := l.lv :: s.hub.busyTags } }
        if status ≠ 0x47 && !mayRetry s l status then .next (endLaunch s l status)
        else if l.killPending then .next (endUnrun s l status 0x44)
        else if l.doomed then .next (endUnrun s l status 0x47)
        else .next (retireAll ((s.putLaunch (l.requeue (status ≠ 0x47))).forgetTag l.lv).pruneCode)
    | _ => .next s

/-! ### The Cistern and read marks -/

/-- CISTERN_EVICT: the home L2 evicts a tentative sector to the Cistern (R143, R155). -/
def execCisternEvict (sector : Nat) (s : State) : Host.Outcome State Fault Refusal := .next (s.cisternEvict sector)

/-- CISTERN_COPYBACK: the slice copies a committed value from the Cistern to home memory (R143). -/
def execCisternCopyback (sector : Nat) (s : State) : Host.Outcome State Fault Refusal :=
  .next (if (s.sectorRec sector).tent then s else s.settle sector)

/-- CISTERN_LAZY_RECLAIM: the Cistern space of an aborted launch is reclaimed and its tag is free (R139, R151). -/
def execCisternLazyReclaim (lv : BitVec 16) (s : State) : Host.Outcome State Fault Refusal :=
  if s.hub.busyTags.contains lv then
    .next { s with dead := s.dead.filter (fun p => p.1 ≠ lv), hub := { s.hub with busyTags := s.hub.busyTags.filter (· ≠ lv) } }
  else .next s

/-- READ_MARK_CLEAR: an overflowed mark is cleared once no launch of its bound is open (R147). -/
def execReadMarkClear (sector : Nat) (s : State) : Host.Outcome State Fault Refusal :=
  let r := s.sectorRec sector
  let live (lv : BitVec 16) : Bool := s.hub.launches.any (fun l => l.isOpen && l.lv = lv)
  if r.rovf && !r.bound.any live then .next (s.setRec { r with rmk := false, rovf := false, rlv := 0, bound := [] })
  else .next s

end Sys2Proof.Machine
end

