-- ==== Sys2Proof/Machine/Hub.lean ====
section
/-! DEFINITION. Machine/Hub.lean: the command processor: work queues (R359 to R362), launch records and kernel descriptors (R135,
R136, R182, R183), streams and kills (R152, R360), and admission (R137 to R139, R324, R325). -/

namespace Sys2Proof.Machine

/-! ### Fields of bytes in memory -/

/-- The `n` bytes at an offset of a block, as a number. -/
def fld (b : List Byte) (off n : Nat) : Nat := natOfBytes ((b.drop off).take n)

/-- The bytes of a block at a queue address, as the command processor reads them: committed data (R135, R183). -/
def cpBytes (s : State) (hostmem : Bool) (asid func : Nat) (a : Word) (n : Nat) : Option (List Byte) :=
  (queuePas s hostmem asid func { r := true } a n).map (fun pas => pas.map (committed s))

/-! ### Launch records (R135) -/

/-- The fields of the 256 bytes of a launch record. -/
def recordOfBytes (b : List Byte) : LaunchRec :=
  let f (off hi lo : Nat) : Nat := bits (fld b off 8) hi lo
  { kdesc := BitVec.ofNat 64 (fld b 0x00 8), lid := BitVec.ofNat 64 (fld b 0x08 8)
    gx := fld b 0x10 4, gy := fld b 0x14 4, gz := fld b 0x18 4, cw := fld b 0x1C 1, ch := fld b 0x1D 1
    ppol := f 0x1E 5 4, idemp := bitAt (fld b 0x1E 1) 3, ser := bitAt (fld b 0x1E 1) 2, prio := f 0x1E 1 0
    retry := fld b 0x1F 1, nl := fld b 0x20 2, nv := fld b 0x22 1, nq := f 0x23 7 5, nacc := f 0x23 4 2
    actx := bitAt (fld b 0x23 1) 1, mctx := bitAt (fld b 0x23 1) 0, stash := fld b 0x24 4, qdepth := fld b 0x28 2
    nh := fld b 0x2A 1, pin := f 0x2B 1 0, stream := fld b 0x2C 4
    deps := (List.range 4).map (fun i => BitVec.ofNat 64 (fld b (0x30 + 8 * i) 8))
    ranges := (List.range 8).map (fun d => (fld b (0x50 + 8 * d) 4, fld b (0x54 + 8 * d) 4))
    segends := (List.range 15).map (fun i => fld b (0x90 + 4 * i) 4)
    nseg := fld b 0xCC 1, argn := fld b 0xCD 1, quota := fld b 0xD0 8, expic := fld b 0xD8 8
    seed := BitVec.ofNat 64 (fld b 0xE0 8), compl := BitVec.ofNat 64 (fld b 0xE8 8)
    csetp := BitVec.ofNat 64 (fld b 0xF0 8), argp := BitVec.ofNat 64 (fld b 0xF8 8) }

/-- Whether every reserved bit of a record is zero (R135). -/
def recordReserved (b : List Byte) : Bool :=
  bits (fld b 0x1E 1) 7 6 == 0 && bits (fld b 0x2B 1) 7 2 == 0 && fld b 0xCE 2 == 0

/-- Teams of the grid. -/
def LaunchRec.total (r : LaunchRec) : Nat := r.gx * r.gy * r.gz

/-- A cluster shape (R31). -/
def shapeOk (w h : Nat) : Bool := 1 ≤ w && w ≤ 8 && 1 ≤ h && h ≤ 6 && w * h ≤ 12

/-- The limits of the fields (R135). -/
def LaunchRec.limitsOk (r : LaunchRec) : Bool :=
  r.kdesc.toNat % 256 == 0 && r.lid != 0 && 1 ≤ r.gx && 1 ≤ r.gy && 1 ≤ r.gz && r.total < 2 ^ 32 && shapeOk r.cw r.ch &&
  r.ppol ≠ 3 && 32 ≤ r.nl && r.nl ≤ 1024 && r.nl % 32 == 0 && 8 ≤ r.nv && r.nv ≤ 64 && r.nv % 8 == 0 && r.nq ≤ 4 &&
  r.nacc ≤ 4 && (r.nacc == 0 || r.mctx) && r.stash % 256 == 0 && ((r.nq == 0) == (r.qdepth == 0)) && r.nh ≤ 16 &&
  r.pin ≤ 1 && 1 ≤ r.nseg && r.nseg ≤ 16 && r.argn ≤ 32 && r.compl.toNat % 64 == 0 && r.csetp.toNat % 64 == 0 &&
  (r.argn == 0 || r.argp.toNat % 8 == 0)

/-- The team-range table (R32): disjoint ranges of whole clusters that cover the grid; an empty range, of equal bounds, covers nothing wherever
it lies. -/
def LaunchRec.rangesOk (r : LaunchRec) : Bool :=
  r.ranges.all (fun p => (p.1 == p.2 || (p.1 < p.2 && p.2 ≤ r.total)) && p.1 % r.c == 0 && p.2 % r.c == 0) &&
  sumNat (r.ranges.map (fun p => p.2 - p.1)) == r.total &&
  (List.range 8).all (fun i => (List.range 8).all (fun j =>
    i == j ||
    match r.ranges[i]?, r.ranges[j]? with
    | some a, some b => a.1 == a.2 || b.1 == b.2 || a.2 ≤ b.1 || b.2 ≤ a.1
    | _, _ => false))

/-- The segment ends (R136): strictly rising from 0 to T, in whole clusters; unused entries are zero (R135). -/
def LaunchRec.segmentsOk (r : LaunchRec) : Bool :=
  let ends := r.segends.take (r.nseg - 1)
  let cuts := 0 :: ends ++ [r.total]
  (r.segends.drop (r.nseg - 1)).all (· == 0) && ends.all (fun x => x % r.c == 0) &&
  (cuts.zip (cuts.drop 1)).all (fun p => p.1 < p.2)

/-- The kernel descriptor against its record (R182, R183). -/
def descriptorOk (r : LaunchRec) (b : List Byte) : Bool :=
  let entryOk (off : Nat) : Bool := off % 4 == 0 && 0x100 ≤ off && off < 0x100 + fld b 0x30 4
  let teamoff := fld b 0x08 8
  let matoff := fld b 0x10 8
  let accoff := fld b 0x18 8
  fld b 0 4 == 0x4C384B44 && fld b 4 2 == 1 && fld b 6 2 == 0 && fld b 0x2B 1 == 0 && fld b 0x2E 2 == 0 &&
  (List.range 160).all (fun i => fld b (0x60 + i) 1 == 0) &&
  entryOk teamoff && ((matoff == 0) == !r.mctx) && (matoff == 0 || entryOk matoff) &&
  ((accoff == 0) == !r.actx) && (accoff == 0 || entryOk accoff) && (r.nacc == 0 || r.mctx) &&
  fld b 0x20 2 == r.nl && fld b 0x22 1 == r.nv && bits (fld b 0x23 1) 7 5 == r.nq && bits (fld b 0x23 1) 4 2 == r.nacc &&
  bitAt (fld b 0x23 1) 1 == r.actx && bitAt (fld b 0x23 1) 0 == r.mctx && fld b 0x24 4 == r.stash &&
  fld b 0x28 2 == r.qdepth && fld b 0x2A 1 == r.nh && fld b 0x2C 1 == r.cw && fld b 0x2D 1 == r.ch

/-- Whether a record and its descriptor are accepted when taken (R136, R183); the placement test of R35 is made at admission. -/
def recordOk (s : State) (func : Nat) (b : List Byte) (d : List Byte) : Bool :=
  let r := recordOfBytes b
  recordReserved b && r.limitsOk && descriptorOk r d && r.footprint ≤ Config.stashBytes && r.nl * r.nv * 4 ≤ Config.vrfBytes &&
  r.total % r.c == 0 && r.rangesOk && r.segmentsOk && !s.hub.launches.any (fun l => l.func == func && l.lrec.lid == r.lid)

/-! ### Ring entries (R360 to R362) -/

/-- The address of the next entry of a queue. -/
def entryAddr (x : Queue) : Word := x.qbase + BitVec.ofNat 64 (16 * (x.ci.toNat % 2 ^ x.log2n))

/-- The two words of the next entry of a queue, if they can be read. -/
def nextEntry (s : State) (x : Queue) : Option (Nat × Word) :=
  (cpBytes s x.hostmem x.asid x.func (entryAddr x) 16).map
    (fun b => (fld b 0 8, BitVec.ofNat 64 (fld b 8 8)))

/-- Whether the first word of an entry has a known OP and no reserved bit. -/
def entryWordOk (w : Nat) : Bool := w < 512 && 1 ≤ w % 256 && w % 256 ≤ 4

/-- Whether the command processor runs: boot is complete and no alarm has stopped it (R370, R378). -/
def cpRuns (s : State) : Bool := s.sec.boot.ready && !s.alarm.cpStopped

/-- Taken launches that wait for admission. -/
def waitingCount (s : State) : Nat := (s.hub.launches.filter (fun l => l.st == .waiting)).length

/-- Whether a queue may be served: it holds untaken entries, and its next is no LAUNCH while 2,048 launches wait (R362). -/
def servable (s : State) (x : Queue) : Bool :=
  x.en && !x.qerr && x.ci != x.pi &&
  (waitingCount s < 2048 ||
    match nextEntry s x with
    | some (w, _) => w % 256 ≠ 1
    | none => true)

/-- The queue that is served next: the highest QPRIO, and among those round-robin after the one served last (R362). -/
def nextQueue (s : State) : Option Nat :=
  if !cpRuns s then none
  else
    let c := s.hub.queues.filter (fun p => servable s p.2)
    let top := c.foldl (fun n p => max n p.2.qprio) 0
    let c := sortBy id ((c.filter (fun p => p.2.qprio == top)).map (·.1))
    match c.find? (fun q => s.hub.served[Fin.ofNat 4 top] < q) with
    | some q => some q
    | none => c.head?

/-- Takes the next entry of a queue when R362 serves that queue and the entry has this OP. An entry that cannot be read, with a
reserved OP or bit, stops the queue with QERR (R361). -/
def takeEntry (s : State) (queue op : Nat) (act : State → Queue → Nat → Word → State) : State :=
  if nextQueue s ≠ some queue then s
  else
    let x := s.queue queue
    let s1 : State := { s with hub := { s.hub with served := s.hub.served.set (Fin.ofNat 4 x.qprio) queue } }
    match nextEntry s x with
    | none => noteDenial (s1.stopQueue queue) x.hostmem x.asid x.func { r := true } (entryAddr x) 16
    | some (w, arg) =>
      if !entryWordOk w then s1.stopQueue queue
      else if w % 256 ≠ op then s
      else act s1 x w arg

/-- CI moves past the entry. -/
def passEntry (s : State) (queue : Nat) : State := s.setQueue queue { s.queue queue with ci := (s.queue queue).ci + 1 }

/-- A launch as it is taken (R138, R362). It keeps the queue's ASID, HOSTMEM and QVEC of that moment to its end, also where the queue is
disabled and configured anew meanwhile (DESIGN CHOICE, log 53). -/
def takenLaunch (s : State) (queue : Nat) (x : Queue) (irq : Bool) (b d : List Byte) : Launch :=
  let r := recordOfBytes b
  { sid := s.hub.sid, func := x.func, queue := queue, asid := x.asid, hostmem := x.hostmem, irq := irq, qvec := x.qvec
    prio := min r.prio x.qprio, lrec := r, teamoff := fld d 0x08 8, matoff := fld d 0x10 8, accoff := fld d 0x18 8
    st := .waiting, lv := 0, adm := 0
    deps := (s.hub.launches.filter (fun l => l.func == x.func && l.lrec.lid != 0 && r.deps.contains l.lrec.lid)).map (·.sid)
    base := (s.stream x.func r.stream).base, after := none, doomed := false, later := none, args := [], coreSets := [], pin := none
    tadm := 0, seg := 0, retriesLeft := r.retry, rused := 0, exactLost := false, csn := 0, unplaced := [], held := []
    doneDies := [], prepDies := [], biDies := [], ackDies := [], tokens := [], written := [], readFrames := []
    lastProgress := 0, killPending := false }

/-- The end of a launch that no team has run of since it was taken or re-queued: counted, then final (R152, R383). -/
def endWaiting (s : State) (l : Launch) (status : Nat) : State := endLaunch (countOutcome s (outcomeIx status)) l status

/-- The taking of a LAUNCH entry: a record or descriptor that cannot be read stops the queue with CI left at it; a bad one is
refused with ABORT_PLACEMENT, and one taken into a failed stream ends with ABORT_DEPENDENCY (R136, R152, R361). -/
def takeLaunch (queue : Nat) (s : State) (x : Queue) (w : Nat) (arg : Word) : State :=
  match (if arg.toNat % 256 = 0 then cpBytes s x.hostmem x.asid x.func arg 256 else none) with
  | none => noteDenial (s.stopQueue queue) x.hostmem x.asid x.func { r := true } arg 256
  | some b =>
    let kdesc : Word := BitVec.ofNat 64 (fld b 0 8)
    match cpBytes s false x.asid x.func kdesc 256 with
    | none => noteDenial (s.stopQueue queue) false x.asid x.func { r := true } kdesc 256
    | some d =>
      let good := recordOk s x.func b d
      let l := takenLaunch s queue x (bitAt w 8) b d
      let failed := (s.stream l.func l.lrec.stream).failed
      let s := passEntry s queue
      let s : State := { s with hub := { s.hub with sid := s.hub.sid + 1 } }
      if !good then endWaiting s l 0x46
      else if failed then endWaiting s l 0x47
      else { s with hub := { s.hub with launches := s.hub.launches ++ [l] } }

/-- LAUNCH (R361). -/
def execLaunch (queue : Nat) (s : State) : Host.Outcome State Fault Refusal :=
  .next (takeEntry s queue 1 (takeLaunch queue))

/-- RELEASE_STREAM (R360): the stream's hold ends and its failure is cleared; launches taken later have no predecessor taken
earlier (R152). -/
def execReleaseStream (queue : Nat) (s : State) : Host.Outcome State Fault Refusal :=
  .next (takeEntry s queue 2 (fun s x _ arg =>
    let s := passEntry s queue
    let st := s.stream x.func (arg.toNat % 2 ^ 32)
    retireAll (s.setStream { st with failed := false, holds := none, base := s.hub.sid })))

/-- A kill by driver command of one launch (R360): it ends at once while it waits, aborts while it runs, and past its commit point
waits for step 8. It is not retried. -/
def killLaunch (s : State) (l : Launch) : State :=
  match l.st with
  | .waiting => endWaiting s l 0x44
  | _ => (s.putLaunch { l with killPending := true }).requestAbort l.sid 0x44

/-- KILL (R360). -/
def execKill (queue : Nat) (s : State) : Host.Outcome State Fault Refusal :=
  .next (takeEntry s queue 3 (fun s x _ arg =>
    let s := passEntry s queue
    match s.hub.launches.find? (fun l => l.func = x.func && l.lrec.lid = arg) with
    | none => s
    | some l => killLaunch s l))

/-- QUEUE_NOP (R360). -/
def execQueueNop (queue : Nat) (s : State) : Host.Outcome State Fault Refusal :=
  .next (takeEntry s queue 4 (fun s _ _ _ => passEntry s queue))

/-! ### Admission (R137 to R139, R324, R325) -/

/-- Open launches. -/
def openCount (s : State) : Nat := (s.hub.launches.filter Launch.isOpen).length

/-- Whether a version tag is free (R139). -/
def tagFree (s : State) (lv : BitVec 16) : Bool :=
  lv != 0 && !s.hub.busyTags.contains lv && s.hub.launches.all (fun l => !l.isOpen || l.lv != lv) &&
  s.sectors.all (fun r => !(r.tent && r.lv == lv))

/-- The enabled Windlass domain of a launch's address space. -/
def domainOf (s : State) (l : Launch) : Option Nat :=
  let a := assoc s.hub.asids l.asid Asid.reset
  if a.domv && (s.domain a.domain).en then some a.domain else none

/-- The newest version of a domain, as a pin. -/
def newestPin (s : State) (m : Nat) : Option (Nat × Version) := (s.domain m).newest?.map (fun v => (m, v))

/-- The version that a pin or a hold names. -/
def namedPin (s : State) (x : Nat × Nat) : Option (Nat × Version) := ((s.domain x.1).version? x.2).map (fun v => (x.1, v))

/-- The version a launch pins when admitted now (R324): none without a domain. A retry keeps what its first admission pinned, be it
nothing, but for a version that was withdrawn. -/
def pinFor (s : State) (l : Launch) : Option (Nat × Version) :=
  if l.adm ≠ 0 then
    l.pin.bind (fun x =>
      match namedPin s x with
      | some p => if p.2.withdrawn then newestPin s x.1 else some p
      | none => newestPin s x.1)
  else
    (domainOf s l).bind (fun m =>
      let held := if l.lrec.pin = 1 then (s.stream l.func l.lrec.stream).holds.bind (namedPin s) else none
      match held with
      | some p => if p.1 = m then some p else newestPin s m
      | none => newestPin s m)

/-- Whether a launch is eligible: its DEP launches have committed, the launch it follows after an abort has ended, and its pin does
not fall on a withdrawn version (R138, R152, R333). -/
def eligible (s : State) (l : Launch) : Bool :=
  let ended (sid : Nat) : Bool := (s.launch? sid).isNone
  l.st == .waiting && l.deps.all ended && (l.after.map ended).getD true &&
  (match pinFor s l with | some (_, v) => !v.withdrawn | none => true)

/-- Whether a launch comes before every other eligible one: the higher priority, then the earlier taken (R362). -/
def admittedFirst (s : State) (l : Launch) : Bool :=
  s.hub.launches.all (fun k => !eligible s k || k.sid == l.sid || k.prio < l.prio || (k.prio == l.prio && l.sid < k.sid))

/-- What a block read at admission comes to: its bytes, or the status that ends the launch; a table in a lost home ends it as the block
itself would (R137, R379, R386). -/
def admissionBytes (s : State) (l : Launch) (a : Word) (n : Nat) : Except Nat (List Byte) :=
  let rs := (List.range n).map (fun i =>
    let x := a + BitVec.ofNat 64 i
    if l.hostmem then Except.ok (hostPa x.toNat)
    else match s.lostTable l x, resolve s l.asid l.func { r := true } x with
      | some status, _ => .error status
      | none, .error _ => .error 0x42
      | none, .ok pa => match s.lostHome (pa / 64) with
        | some status => .error status
        | none => .ok pa)
  rs.foldr
    (fun r acc =>
      match r, acc with
      | .ok pa, .ok bs => .ok (committed s pa :: bs)
      | .error x, .ok _ => .error x
      | .ok _, .error y => .error y
      | .error x, .error y => .error (min x y))
    (.ok [])

/-- Eight-byte words of a block. -/
def wordsOf (b : List Byte) : List Word := (List.range (b.length / 8)).map (fun i => BitVec.ofNat 64 (fld b (8 * i) 8))

/-- The launch with its argument block and core sets read, once (R137), and the statuses that refuse it: an unreadable block, a
reserved bit of a mask, an unplaceable cluster (R35), a fenced die in its ranges (R370, R386). -/
def admissionTests (s : State) (l : Launch) : Launch × List Nat :=
  let first := l.adm = 0
  let args := if first && l.lrec.argn ≠ 0 then admissionBytes s l l.lrec.argp (8 * l.lrec.argn) else .ok []
  let sets := if first && l.lrec.csetp ≠ 0 then admissionBytes s l l.lrec.csetp 64 else .ok []
  let k := match args, sets with
    | .ok a, .ok c => if first then { l with args := wordsOf a, coreSets := wordsOf c } else l
    | _, _ => l
  let unread := (match args with | .error x => [x] | .ok _ => []) ++ (match sets with | .error x => [x] | .ok _ => [])
  let dies := (List.range 8).filter (fun d => match k.lrec.ranges[d]? with | some (lo, hi) => lo != hi | none => false)
  let live := liveDies s
  let unfit := dies.any (fun d => live.contains d && !placeable (s.die d) k.lrec (k.coreSet d)) ||
    k.coreSets.any (fun m => 2 ^ 48 ≤ m.toNat)
  (k, unread ++ (if unfit then [0x46] else []) ++ (if dies.any (fun d => !live.contains d) then [0x45] else []))

/-- LAUNCH_ADMISSION (R138, R139): the launch is admitted under a free tag, with the next admission number and its pin; a retry keeps
its pin and arguments. Refused, it ends unrun with the lowest status that applies (R153). -/
def execLaunchAdmission (launch : Nat) (lv : BitVec 16) (s : State) : Host.Outcome State Fault Refusal :=
  match s.launch? launch with
  | none => .next s
  | some l =>
    if !(cpRuns s && eligible s l && admittedFirst s l && openCount s < 512 && tagFree s lv) then .next s
    else
      let (k, bad) := admissionTests s l
      match bad with
      | x :: rest =>
        let s := if l.adm = 0 then
            noteDenial (noteDenial s l.hostmem l.asid l.func { r := true } l.lrec.argp (8 * l.lrec.argn))
              l.hostmem l.asid l.func { r := true } l.lrec.csetp (if l.lrec.csetp = 0 then 0 else 64)
          else s
        .next (endWaiting s l (rest.foldl min x))
      | [] =>
        let pin := (pinFor s k).map (fun p => (p.1, p.2.vnum))
        let k := { k.startSegment k.seg s.time with
          lv := lv, adm := s.hub.adm + 1, pin := pin, after := none
          tadm := if l.adm = 0 then s.time else l.tadm }
        let s := s.putLaunch k
        let s := s.setStream { s.stream k.func k.lrec.stream with holds := pin }
        .next (retireAll { s with hub := { s.hub with adm := s.hub.adm + 1 } })

end Sys2Proof.Machine
end

