-- ==== Sys2Proof/Machine/Driver.lean ====
section
/-! DEFINITION. Machine/Driver.lean: the register writes of the driver (R355 to R359, R361, R365 to R367, R369, R377, R390): the
events DOORBELL, CONFIG_WRITE, PERF_SELECT, QUEUE_ENABLE, FAULT_RING_ENABLE, FAULT_RING_CONSUME, REPLY_RING_ENABLE and SVNUP. Registers
answer once boot is complete (R370). -/

namespace Sys2Proof.Machine

/-- A write is ignored: CFGERR (R355). -/
def State.cfgErr (s : State) : State := { s with hub := { s.hub with cfgerr := true } }

/-- A change that stands only within its limits and under its condition (R355). -/
def guarded (s : State) (good : Bool) (s' : State) : State := if good then s' else s.cfgErr

/-! ### Queues (R359, R361) -/

/-- The fields of word +0x08 of a queue block, EN aside. -/
def Queue.withCtl (x : Queue) (v : Nat) : Queue :=
  { x with
    lidx := bits v 60 48, asid := bits v 33 24, hostmem := bitAt v 23, func := bits v 22 16, qprio := bits v 9 8
    log2n := bits v 4 0 }

/-- Whether a queue may be enabled: its pair (FUNC, LIDX) is its own, and its ASID is its function's (R357, R359). -/
def queueMayRun (s : State) (q : Nat) (x : Queue) : Bool :=
  s.hub.queues.all (fun p => p.1 == q || !p.2.en || p.2.func != x.func || p.2.lidx != x.lidx) &&
  (assoc s.hub.asids x.asid Asid.reset).func == x.func

/-- A write of word +0x08 of a queue block (R359). Writing EN = 1 clears PI, CI and QERR. -/
def writeQueueCtl (s : State) (q : Nat) (v : Nat) : State :=
  let x := s.queue q
  let y := x.withCtl v
  if 64 < y.func || y.log2n < 4 || 16 < y.log2n || (x.en && x ≠ y) then s.cfgErr
  else if bitAt v 63 then
    if queueMayRun s q y then s.setQueue q { y with en := true, pi := 0, ci := 0, qerr := false } else s.cfgErr
  else s.setQueue q { y with en := false }

/-- A write into a queue block (R359). -/
def writeQueue (s : State) (q w : Nat) (v : Nat) : State :=
  let x := s.queue q
  let put (y : Queue) : State := guarded s (!x.en) (s.setQueue q y)
  match w with
  | 0 => put { x with qbase := BitVec.ofNat 64 (bits v 63 6 * 64) }
  | 1 => writeQueueCtl s q v
  | 3 => put { x with qvec := bits v 10 0 }
  | _ => s

/-- QUEUE_ENABLE: a write of word +0x08 with EN = 1 (R359). -/
def execQueueEnable (queue : Nat) (value : BitVec 64) (s : State) : Host.Outcome State Fault Refusal :=
  .next (if s.sec.boot.ready && queue < 8192 && bitAt value.toNat 63 then writeQueueCtl s queue value.toNat else s)

/-- A doorbell store: PI := p, unless p runs ahead of the ring or backwards, which stops the queue (R361). A stopped queue takes
nothing further. -/
def ringDoorbell (s : State) (func lidx : Nat) (p : BitVec 32) : State :=
  match s.hub.queues.find? (fun q => q.2.en && q.2.func == func && q.2.lidx == lidx) with
  | none => s
  | some (q, x) =>
    if x.qerr then s
    else if 2 ^ x.log2n < (p - x.ci).toNat || (p - x.ci).toNat < (x.pi - x.ci).toNat then s.stopQueue q
    else s.setQueue q { x with pi := p }

/-- DOORBELL (R361). -/
def execDoorbell (func lidx : Nat) (value : BitVec 32) (s : State) : Host.Outcome State Fault Refusal :=
  .next (if s.sec.boot.ready then ringDoorbell s func lidx value else s)

/-! ### Fault and reply rings (R365, R366) -/

/-- A write of 0x1_0008: FREN and FRLOG2N. The held records follow when the ring is enabled (R365). -/
def writeFaultCtl (s : State) (f : Nat) (v : Nat) : State :=
  let r := s.func f
  let n := bits v 4 0
  if n < 4 || 12 < n || (r.fren && n ≠ r.frlog2n) then s.cfgErr
  else (s.setFunc f { r with fren := bitAt v 63, frlog2n := n }).flushHeld f

/-- FAULT_RING_ENABLE: a write of 0x1_0008 with FREN = 1 (R365). -/
def execFaultRingEnable (func : Nat) (value : BitVec 64) (s : State) : Host.Outcome State Fault Refusal :=
  .next (if s.sec.boot.ready && func ≤ 64 && bitAt value.toNat 63 then writeFaultCtl s func value.toNat else s)

/-- A write of FRCI: room for held records (R365). -/
def writeFrci (s : State) (f : Nat) (v : BitVec 32) : State := (s.setFunc f { s.func f with frci := v }).flushHeld f

/-- FAULT_RING_CONSUME (R365). -/
def execFaultRingConsume (func : Nat) (value : BitVec 32) (s : State) : Host.Outcome State Fault Refusal :=
  .next (if s.sec.boot.ready && func ≤ 64 then writeFrci s func value else s)

/-- A write of 0x1_0028: RREN and RRLOG2N. Writing RREN = 1 sets RRCI and the published count to zero (R366). -/
def writeReplyCtl (s : State) (f : Nat) (v : Nat) : State :=
  let r := s.func f
  let n := bits v 4 0
  if n < 4 || 12 < n || (r.rren && n ≠ r.rrlog2n) then s.cfgErr
  else if bitAt v 63 then s.setFunc f { r with rren := true, rrlog2n := n, rrci := 0, rrpi := 0 }
  else s.setFunc f { r with rren := false, rrlog2n := n }

/-- REPLY_RING_ENABLE (R366). -/
def execReplyRingEnable (func : Nat) (value : BitVec 64) (s : State) : Host.Outcome State Fault Refusal :=
  .next (if s.sec.boot.ready && func ≤ 64 && bitAt value.toNat 63 then writeReplyCtl s func value.toNat else s)

/-- A store to RRPI: replies are published, unless the count moves backwards or past the ring (R366). -/
def writeRrpi (s : State) (f : Nat) (p : BitVec 32) : State :=
  let r := s.func f
  if 2 ^ r.rrlog2n < (p - r.rrci).toNat || (p - r.rrci).toNat < (r.rrpi - r.rrci).toNat then s.cfgErr
  else s.setFunc f { r with rrpi := p }

/-- REPLY_DOORBELL (R366). -/
def execReplyDoorbell (func : Nat) (value : BitVec 32) (s : State) : Host.Outcome State Fault Refusal :=
  .next (if s.sec.boot.ready && func ≤ 64 then writeRrpi s func value else s)

/-- A write to a ring register of a function, by offset from BAR2 + 0x1_0000 (R365). -/
def writeRing (s : State) (f off : Nat) (v : Nat) : State :=
  let r := s.func f
  let frbase : Word := BitVec.ofNat 64 (bits v 63 7 * 128)
  let rrbase : Word := BitVec.ofNat 64 (bits v 63 6 * 64)
  match off with
  | 0x00 => guarded s (!r.fren) (s.setFunc f { r with frbase := frbase })
  | 0x08 => writeFaultCtl s f v
  | 0x10 => writeFrci s f (BitVec.ofNat 32 (v / 2 ^ 32))
  | 0x20 => guarded s (!r.rren) (s.setFunc f { r with rrbase := rrbase })
  | 0x28 => writeReplyCtl s f v
  | 0x30 => writeRrpi s f (BitVec.ofNat 32 v)
  | 0x40 => s.setFunc f { r with fvec := bits v 10 0 }
  | _ => s

/-! ### Package registers (R356, R377, R390) -/

/-- A selector write: every core's PERFi restarts at 0 (R390). -/
def writePerfSel (s : State) (i : Fin 8) (v : Nat) : State :=
  let evt : BitVec 8 := BitVec.ofNat 8 v
  if 9 < evt.toNat || openCount s ≠ 0 then s.cfgErr
  else
    { s with
      hub := { s.hub with perfSel := s.hub.perfSel.set i evt }
      perf := s.perf.filter (fun p => p.1.2.2 ≠ i.val) }

/-- PERF_SELECT (R390). -/
def execPerfSelect (counter : Fin 8) (value : BitVec 64) (s : State) : Host.Outcome State Fault Refusal :=
  .next (if s.sec.boot.ready then writePerfSel s counter value.toNat else s)

/-- Bytes of a field in 2 MiB units at bits [36:21]. -/
def units2M (v : Nat) : Nat := bits v 36 21 * 2 ^ 21

/-- A write of CISBASE, CISSIZE, SPBASE or SPSIZE, which change only while OPEN = 0 (R356). -/
def writeRange (s : State) (off : Nat) (v : Nat) : State :=
  let d := Fin.ofNat 8 (off / 16)
  let h := s.hub
  let h' : Hub :=
    if off < 0x80 then
      if off % 16 = 0 then { h with cisBase := h.cisBase.set d (units2M v) } else { h with cisSize := h.cisSize.set d (units2M v) }
    else if off % 16 = 0 then { h with spBase := h.spBase.set d (units2M v) } else { h with spSize := h.spSize.set d (units2M v) }
  guarded s (openCount s = 0) { s with hub := h' }

/-- A write of the alarm's source configuration: no level below its minimum (R377). -/
def writeAlarmCfg (s : State) (v : Nat) : State :=
  let a := { s.alarm with cfg := BitVec.ofNat 16 v }
  guarded s ((List.range 8).all (fun i => Alarm.reset.levelOf i ≤ a.levelOf i)) { s with alarm := a }

/-- The floor of a KIND: how many of its fuse bits are blown (R373). -/
def fuseFloor (f : BitVec 64) : Nat := ((List.range 64).filter (fun i => f.getLsbD i)).length

/-- Fuse bits with further bits blown until the floor is `n`; which bits are blown is open, and only their number shows. -/
def blowTo (f : BitVec 64) (n : Nat) : BitVec 64 :=
  (List.range 64).foldl (fun f i => if fuseFloor f < n then f ||| BitVec.ofNat 64 (2 ^ i) else f) f

/-- A write of SVNUP (R373): the floor of each KIND written with 1 rises to the SVN that booted. A write outside its rules is
ignored, sets CFGERR and is a fuse write that fires alarm source 5 (R377). -/
def writeSvnup (s : State) (v : Nat) : State :=
  let b := s.sec.boot
  let f := s.sec.fuses
  if !b.ready || v % 4 = 0 then s
  else if 2 ≤ s.alarm.level || (bitAt v 0 && 64 < b.bootSvn0) || (bitAt v 1 && 64 < b.bootSvn1) then s.cfgErr.raiseAlarm 5
  else
    { s with sec := { s.sec with fuses := { f with
        svn0 := if bitAt v 0 then blowTo f.svn0 b.bootSvn0 else f.svn0
        svn1 := if bitAt v 1 then blowTo f.svn1 b.bootSvn1 else f.svn1 } } }

/-- SVNUP (R373). -/
def execSvnup (value : BitVec 64) (s : State) : Host.Outcome State Fault Refusal := .next (writeSvnup s value.toNat)

/-! ### Address spaces and access tables (R357, R369) -/

/-- A write of a word of an ASID table entry (R357). -/
def writeAsid (s : State) (a w : Nat) (v : Nat) : State :=
  let x := assoc s.hub.asids a Asid.reset
  let put (y : Asid) : State := { s with hub := { s.hub with asids := setAssoc s.hub.asids a y } }
  if w = 0 then
    let y := { x with rdie := bits v 62 60, root := bits v 36 12 * 4096 }
    let used := s.hub.queues.any (fun q => q.2.en && q.2.asid == a) || s.hub.launches.any (fun l => l.isOpen && l.asid == a)
    if x.valid && (x ≠ y || (!bitAt v 63 && used)) then s.cfgErr else put { y with valid := bitAt v 63 }
  else
    let y := { x with domain := bits v 11 8, domv := bitAt v 7, func := bits v 6 0 }
    if 64 < y.func || x.valid then s.cfgErr else put y

/-- A write of a word of an access-table entry: FUNC names a function or, as 0x7F, every one (R355, R369). -/
def writeAccess (s : State) (d i w : Nat) (v : Nat) : State :=
  let x := assoc s.hub.access (d, i) AccessEntry.reset
  let y := if w = 0 then
      { x with valid := bitAt v 63, rd := bitAt v 62, wr := bitAt v 61, func := bits v 60 54, base := units2M v }
    else { x with limit := units2M v }
  guarded s (y.func ≤ 64 || y.func = 0x7F) { s with hub := { s.hub with access := setAssoc s.hub.access (d, i) y } }

/-! ### CONFIG_WRITE (R355) -/

/-- A write into PF BAR0. -/
def writeBar0 (s : State) (off : Nat) (v : Nat) : State :=
  if (0x100 ≤ off && off < 0x180) || (0x200 ≤ off && off < 0x280) then writeRange s (off - 0x100) v
  else if off = 0x300 then { s with hub := { s.hub with klim := BitVec.ofNat 32 v } }
  else if off = 0x310 then (if bitAt v 0 then { s with hub := { s.hub with cfgerr := false } } else s)
  else if off = 0x408 then writeSvnup s v
  else if off = 0x500 then { s with alarm := { s.alarm with src := s.alarm.src &&& ~~~(BitVec.ofNat 8 (v / 256)) } }
  else if off = 0x508 then writeAlarmCfg s v
  else if 0xC00 ≤ off && off < 0xC40 then writePerfSel s (Fin.ofNat 8 ((off - 0xC00) / 8)) v
  else if 0x10000 ≤ off && off < 0x14000 then writeAsid s ((off - 0x10000) / 16) (off / 8 % 2) v
  else if 0x20000 ≤ off && off < 0x60000 then writeQueue s ((off - 0x20000) / 32) (off / 8 % 4) v
  else if 0x60000 ≤ off && off < 0x61000 then writeDomainWord s ((off - 0x60000) / 256) (off % 256) v
  else if 0x70000 ≤ off && off < 0x78000 then
    (if off % 0x1000 < 0x400 then writeAccess s ((off - 0x70000) / 0x1000) (off % 0x1000 / 16) (off / 8 % 2) v else s)
  else if 0x78000 ≤ off && off < 0x78000 + 8 * 65 then
    { s with hub := { s.hub with engMask := setAssoc s.hub.engMask ((off - 0x78000) / 8) (BitVec.ofNat 4 v) } }
  else s

/-- CONFIG_WRITE: a 64-bit register write (R355). Only PF has BAR0; a write to no register does nothing. -/
def execConfigWrite (func bar off : Nat) (value : BitVec 64) (s : State) : Host.Outcome State Fault Refusal :=
  if !s.sec.boot.ready || 64 < func || off % 8 ≠ 0 then .next s
  else if bar = 0 && func = 0 then .next (writeBar0 s off value.toNat)
  else if bar = 2 then
    if off < 0x10000 then .next (ringDoorbell s func (off / 8) (BitVec.ofNat 32 value.toNat))
    else .next (writeRing s func (off - 0x10000) value.toNat)
  else .next s

end Sys2Proof.Machine
end

