-- ==== Sys2Proof/Machine/Ecdsa.lean ====
section
/-! DEFINITION. Machine/Ecdsa.lean: the ECDSA check of a firmware image over P-521 (R372). The manual names curve and scheme; the
constants are those of FIPS 186 (PRESUMED, log 21). Points are held in Jacobian coordinates (x/z², y/z³), z = 0 at infinity. -/

namespace Sys2Proof.Machine

/-- The field prime of P-521. -/
def p521 : Nat := 2 ^ 521 - 1

/-- The order of the base point. -/
def n521 : Nat :=
  0x1FFFFFFFFFFFFFFFFFFFFFFFFFFFFFFFFFFFFFFFFFFFFFFFFFFFFFFFFFFFFFFFFFA51868783BF2F966B7FCC0148F709A5D03BB5C9B8899C47AEBB6FB71E91386409

/-- The coefficient b of the curve y² = x³ − 3x + b. -/
def b521 : Nat :=
  0x0051953EB9618E1C9A1F929A21A0B68540EEA2DA725B99B315F3B8B489918EF109E156193951EC7E937B1652C0BD3BB1BF073573DF883D2C34F1EF451FD46B503F00

/-- The base point's x. -/
def gx521 : Nat :=
  0x00C6858E06B70404E9CD9E3ECB662395B4429C648139053FB521F828AF606B4D3DBAA14B5E77EFE75928FE1DC127A2FFA8DE3348B3C1856A429BF97E7E31C2E5BD66

/-- The base point's y. -/
def gy521 : Nat :=
  0x011839296A789A3BC0045C8A5FB42C7D1BD998F54449579B446817AFBD17273E662C97EE72995EF42640C550B9013FAD0761353C7086A272C24088BE94769FD16650

/-- A point of the curve. -/
structure CurvePoint where
  x : Nat
  y : Nat
  z : Nat
  deriving DecidableEq, Repr

/-- The point at infinity. -/
def infinity521 : CurvePoint := { x := 1, y := 1, z := 0 }

/-- Difference in the field. -/
def fsub (a b : Nat) : Nat := (a + p521 - b % p521) % p521

/-- Twice a point. -/
def CurvePoint.double (q : CurvePoint) : CurvePoint :=
  if q.z = 0 || q.y = 0 then infinity521
  else
    let yy := q.y * q.y % p521
    let s := 4 * q.x * yy % p521
    let zz := q.z * q.z % p521
    let m := 3 * (fsub q.x zz * (q.x + zz)) % p521
    let x := fsub (m * m % p521) (2 * s)
    { x := x, y := fsub (m * fsub s x % p521) (8 * yy * yy), z := 2 * q.y * q.z % p521 }

/-- The sum of two points. -/
def CurvePoint.add (q r : CurvePoint) : CurvePoint :=
  if q.z = 0 then r
  else if r.z = 0 then q
  else
    let z1 := q.z * q.z % p521
    let z2 := r.z * r.z % p521
    let u1 := q.x * z2 % p521
    let u2 := r.x * z1 % p521
    let s1 := q.y * z2 % p521 * r.z % p521
    let s2 := r.y * z1 % p521 * q.z % p521
    if u1 = u2 then (if s1 = s2 then q.double else infinity521)
    else
      let h := fsub u2 u1
      let k := fsub s2 s1
      let hh := h * h % p521
      let hhh := h * hh % p521
      let v := u1 * hh % p521
      let x := fsub (fsub (k * k % p521) hhh) (2 * v)
      { x := x, y := fsub (k * fsub v x % p521) (s1 * hhh), z := q.z * r.z % p521 * h % p521 }

/-- `k · q` by the low `n` bits of `k`. -/
def CurvePoint.times (q : CurvePoint) : Nat → Nat → CurvePoint
  | _, 0 => infinity521
  | k, n + 1 =>
    let r := (q.times (k / 2) n).double
    if k % 2 = 1 then r.add q else r

/-- `a ^ k mod m` by the low `n` bits of `k`. -/
def powMod (a m : Nat) : Nat → Nat → Nat
  | _, 0 => 1 % m
  | k, n + 1 =>
    let r := powMod a m (k / 2) n
    if k % 2 = 1 then r * r % m * a % m else r * r % m

/-- Whether (r, s) is a signature of a digest under the public key (x, y). -/
def ecdsaValid (x y r s : Nat) (digest : List Byte) : Bool :=
  let onCurve := x < p521 && y < p521 && y * y % p521 == (x * x % p521 * x + b521 + 3 * (p521 - x)) % p521
  if !(onCurve && 1 ≤ r && r < n521 && 1 ≤ s && s < n521) then false
  else
    let w := powMod s n521 (n521 - 2) 521
    let u1 := beNat digest * w % n521
    let u2 := r * w % n521
    let g : CurvePoint := { x := gx521, y := gy521, z := 1 }
    let q : CurvePoint := { x := x, y := y, z := 1 }
    let t := (g.times u1 521).add (q.times u2 521)
    if t.z = 0 then false
    else
      let zi := powMod t.z p521 (p521 - 2) 521
      t.x * (zi * zi % p521) % p521 % n521 == r

end Sys2Proof.Machine
end

