-- ==== Sys2Proof/Machine/Boot.lean ====
section
/-! DEFINITION. Machine/Boot.lean: the boot sequence (R370, R371), firmware images (R372), spare cores (R374) and measurement (R375):
the events COLD_BOOT and WARM_RESET. -/

namespace Sys2Proof.Machine

/-! ### Firmware images (R372) -/

/-- A big-endian field of an image header. -/
def beField (img : List Byte) (off n : Nat) : Nat := beNat ((img.drop off).take n)

/-- Whether every byte of a part of an image is zero. -/
def zeroPart (img : List Byte) (off n : Nat) : Bool := ((img.drop off).take n).all (· == 0)

/-- LEN of an image. -/
def imageLen (img : List Byte) : Nat := fld img 0x10 8

/-- SVN of an image. -/
def imageSvn (img : List Byte) : Nat := fld img 8 4

/-- DIGEST of an image. -/
def imageDigest (img : List Byte) : List Byte := (img.drop 0x18).take 64

/-- The check of an image of a KIND: 0 when it is accepted, else the FCAUSE of the first check that fails (R371, R372). A LEN outside
its limits, or past the end of the flash, is a malformed header. -/
def verifyImage (img : List Byte) (kind : Nat) (keyHash : List Byte) (floor : Nat) : Nat :=
  let len := imageLen img
  let body := (img.drop 512).take len
  if !(fld img 0 4 == 0x4C384657 && fld img 4 4 == kind && zeroPart img 0x0C 4 && zeroPart img 0xDC 36 && zeroPart img 0x184 124 &&
      len % 64 == 0 && len != 0 && 512 + len ≤ img.length) then 2
  else if sha512 ((img.drop 0x100).take 132) ≠ keyHash then 3
  else if !ecdsaValid (beField img 0x100 66) (beField img 0x142 66) (beField img 0x58 66) (beField img 0x9A 66)
      (sha512 (img.take 0x58)) then 4
  else if sha512 body ≠ imageDigest img then 5
  else if imageSvn img < floor then 6
  else 0

/-- Extends a measurement register: M := SHA-512(M ‖ d) (R375). A register's bytes stand highest first. -/
def extend (m : BitVec 512) (d : List Byte) : BitVec 512 := BitVec.ofNat 512 (beNat (sha512 ((bytesOfNat 64 m.toNat).reverse ++ d)))

/-! ### Spare cores (R374, R314) -/

/-- One step of shrinking a mesh: a column goes when the area left is at least that of removing a row (R314, step 2). -/
def shrinkMesh (cols rows : Nat) : Nat × Nat :=
  if (cols - 1) * rows ≥ cols * (rows - 1) then (cols - 1, rows) else (cols, rows - 1)

/-- The largest mesh reached from 8 × 6 by removing columns or rows that fits a number of good cores (R374). -/
def fitMesh (good : Nat) : Nat → Nat × Nat → Nat × Nat
  | 0, m => m
  | fuel + 1, m => if m.1 * m.2 ≤ good then m else fitMesh good fuel (shrinkMesh m.1 m.2)

/-! ### The steps (R370) -/

/-- Boot so far: the state, which dies still take part, and the step and cause at which boot stopped. -/
structure Booting where
  s : State
  dies : List Nat
  stopped : Option (Nat × Nat)
  deriving DecidableEq, Repr

/-- A die out of service: fenced, which the hub shows in its LINK (R382, R386). -/
def Die.cutOff (d : Die) : Die := { d with fenced := true, link := 3, report := { d.report with link := 3 } }

/-- A step that dies may fail: those are fenced, and boot stops when none is left. -/
def Booting.dieStep (b : Booting) (step cause : Nat) (good : Nat → Bool) : Booting :=
  match b.stopped with
  | some _ => b
  | none =>
    let bad := b.dies.filter (fun d => !good d)
    let left := b.dies.filter good
    let s := bad.foldl (fun s d => s.setDie d (s.die d).cutOff) b.s
    { s := s, dies := left, stopped := if left.isEmpty then some (step, cause) else none }

/-- A step of the hub, which stops the package when it fails. -/
def Booting.hubStep (b : Booting) (step cause : Nat) (good : Bool) (f : State → State) : Booting :=
  match b.stopped with
  | some _ => b
  | none => if good then { b with s := f b.s } else { b with stopped := some (step, cause) }

/-- An entry of a list of test outcomes; a missing one is a failure. -/
def passed (l : List Bool) (d : Nat) : Bool := l.getD d false

/-- Good cores of a die (R374). -/
def goodCores (x : BootInput) (f : Fuses) (d : Nat) : Nat :=
  let bad := x.faultyCores.getD d (List.range 54) ++ f.faulty.getD d []
  ((List.range 54).filter (fun c => !bad.contains c)).length

/-- The die with the mesh its good cores allow, and the package with its DEGR bit (R371, R374). -/
def State.buildMesh (s : State) (d good : Nat) : State :=
  let m := fitMesh good 16 (8, 6)
  let s := s.setDie d { s.die d with cols := List.range m.1, rows := List.range m.2 }
  if m = (8, 6) then s
  else { s with sec := { s.sec with boot := { s.sec.boot with degr := s.sec.boot.degr ||| BitVec.ofNat 8 (2 ^ d) } } }

/-- A bit for each of a list of numbers. -/
def bitsOfList (w : Nat) (l : List Nat) : BitVec w := l.foldl (fun b i => b ||| BitVec.ofNat w (2 ^ i)) 0

/-- The package before step 1: everything at its reset value but the fuses and flash, the host's memory, what has left the package,
and the model's own fields. A warm reset also keeps a level-3 alarm and KEYLOCK (R378). -/
def resetPackage (s : State) (cold : Bool) : State :=
  let keep := !cold && s.alarm.keylock
  { State.reset with
    agenda := s.agenda, cur := s.cur, turn := s.turn, tick := s.tick
    mem := s.mem.filter (fun c => Config.hostBase ≤ c.1)
    alarm := if keep then { Alarm.reset with level := 3, keylock := true } else Alarm.reset
    sec := { fuses := s.sec.fuses, boot := Boot.reset
             spdm := { pendingSessions := [], sessions := [], count := s.sec.spdm.count } }
    out := s.out }

/-- Changes the boot record. -/
def State.setBoot (s : State) (f : Boot → Boot) : State := { s with sec := { s.sec with boot := f s.sec.boot } }

/-- Extends a measurement register of the package. -/
def State.measure (s : State) (i : Nat) (d : List Byte) : State :=
  s.setBoot (fun b => { b with meas := b.meas.set (Fin.ofNat 10 i) (extend b.meas[Fin.ofNat 10 i] d) })

/-- The boot sequence of R370 over a reset package. -/
def bootPackage (s : State) (x : BootInput) : State :=
  let f := s.sec.fuses
  let hubCause := verifyImage f.flashHub 0 f.keyHash0 (fuseFloor f.svn0)
  let dieCause := verifyImage f.flashDie 1 f.keyHash1 (fuseFloor f.svn1)
  let keys (s : State) : State :=
    (s.measure 0 (Config.fuseMeasure f.keyHash0 f.keyHash1 f.svn0.toNat f.svn1.toNat)).setBoot
      (fun b => { b with aliasKey := !s.alarm.keylock, wrapKey := !s.alarm.keylock })
  let startHub (s : State) : State := (s.measure 1 (imageDigest f.flashHub)).setBoot (fun b => { b with bootSvn0 := imageSvn f.flashHub })
  let startDies (b : Booting) : Booting :=
    match b.stopped with
    | some _ => b
    | none =>
      let s1 := b.s.setBoot (fun k => { k with bootSvn1 := imageSvn f.flashDie })
      { b with s := b.dies.foldl (fun s d => s.measure (2 + d) (imageDigest f.flashDie)) s1 }
  let meshes (b : Booting) : Booting :=
    match b.stopped with
    | some _ => b
    | none => { b with s := b.dies.foldl (fun s d => s.buildMesh d (goodCores x f d)) b.s }
  let served (b : Booting) : Booting :=
    match b.stopped with
    | some _ => b
    | none => { b with s := b.s.setBoot (fun k => { k with dieok := bitsOfList 8 b.dies }) }
  let b : Booting := { s := s, dies := List.range 8, stopped := none }
  let b := b.hubStep 1 1 x.hubSelfTest keys
  let b := b.hubStep 2 hubCause (hubCause == 0) startHub
  let b := b.dieStep 3 7 (passed x.linkUp)
  let b := startDies (b.dieStep 4 dieCause (fun _ => dieCause == 0))
  let b := meshes (b.dieStep 5 1 (fun d => passed x.sramOk d && 12 ≤ goodCores x f d))
  let b := served (b.dieStep 6 8 (passed x.hbmOk))
  let b := b.hubStep 7 (Config.step7Cause s.tick % 16) x.regReset id
  match b.stopped with
  | some (step, cause) => b.s.setBoot (fun k => { k with fstep := step, fcause := cause })
  | none => b.s.setBoot (fun k => { k with brory := bitsOfList 18 (x.brory.filter (· < 18)), ready := true })

/-- What boot finds in the fuses and the flash: the images the driver has written since (R373) and, at the first cold boot of a package,
what was fused at manufacture (log 3). -/
def Fuses.found (f : Fuses) (x : BootInput) (cold : Bool) : Fuses :=
  let f := match x.made with
    | some m =>
      if cold && f.keyHash0 = [] && f.keyHash1 = [] then { f with keyHash0 := m.keyHash0, keyHash1 := m.keyHash1, faulty := m.faulty }
      else f
    | none => f
  match x.flash with
  | some (hub, die) => { f with flashHub := hub, flashDie := die }
  | none => f

/-- A boot of a package: everything resets, and the sequence runs over the fuses and the flash as they are now (R370). -/
def boot (s : State) (cold : Bool) (x : BootInput) : State :=
  let s := resetPackage s cold
  bootPackage { s with sec := { s.sec with fuses := s.sec.fuses.found x cold } } x

/-- COLD_BOOT: power-on, and the boot sequence (R370). -/
def execColdBoot (input : BootInput) (s : State) : Host.Outcome State Fault Refusal := .next (boot s true input)

/-- WARM_RESET: the boot sequence at the PF's request (R370). -/
def execWarmReset (input : BootInput) (s : State) : Host.Outcome State Fault Refusal :=
  .next (boot s false input)

end Sys2Proof.Machine
end

