-- ==== Sys2Proof/WellFormed.lean ====
section
/-! DEFINITION. WellFormed.lean: the conditions on an instruction's fields that the encoding imposes beyond their widths
(R162, R168, R171, R204, R237, R283, R289, R291). Events are input from outside the instruction stream and always well formed. -/

namespace Sys2Proof

/-- The special-register indices that exist (R23). -/
def srdIndexOk (n : Nat) : Bool := decide (n ≤ 0x12) || (decide (0x18 ≤ n) && decide (n ≤ 0x1F))

/-- The encoding's conditions on the fields of an instruction word. -/
def Instr.wf : Instr → Bool
  | .srd _ b => srdIndexOk b.val
  | .swr _ b => srdIndexOk b.val
  | .sbfx _ w p => decide (p.val + w.val + 1 ≤ 64)
  | .lds _ _ _ _ e z _ => !(e && z.val == 3)
  | .ldg _ _ _ _ e z _ => !(e && z.val == 3)
  | .ldsc _ _ _ s z _ => s.val != 3 || z.val == 3
  | .stsc _ _ _ s z _ => s.val != 3 || z.val == 3
  | .stmap a _ => decide (a.val ≤ 60)
  | .hdef _ a _ => decide (a.val ≤ 60)
  | .astr _ a => decide (a.val ≤ 56)
  | .epool _ _ b _ => decide (b.val ≤ 62)
  | _ => true

end Sys2Proof
end

