-- ==== Sys2Proof/Machine/Control.lean ====
section
/-! DEFINITION. Machine/Control.lean: SYS, MODE, TRAP, RGN and the branches (R185 to R202, R209). -/

namespace Sys2Proof.Machine

/-- NOP (R186). -/
def execNop (s : State) : Host.Outcome State Fault Refusal :=
  instr s (fun _ => {}) (fun v => .ok (s.retire v v.team v.ctx.step4))

/-- BRK: its fault is its effect (R196, R163 step 10). -/
def execBrk (s : State) : Host.Outcome State Fault Refusal :=
  instr s (fun _ => {}) (fun _ => .error { code := .brk })

/-- The engine window set and state of a team that has ended, beside DRAINING (R41, R42): LIVE and k0 empty, queues closed,
an open CBARA's arrival made. -/
def Team.ended (t : Team) : Team :=
  { t with
    live := 0, k := t.k.set 0 0, slot := .draining, vEnd := some t.v
    queues := t.queues.map (fun q => { q with closed := true }) }

/-- The mapping entries after their team has ended: detached (R104, R108). -/
def detachMaps (r : TeamRef) (ms : List MapEntry) : List MapEntry :=
  ms.map (fun m => if m.owner = some r then { m with owner := none } else m)

/-- The end of the team context (R41): the instruction completes and the team enters DRAINING. -/
def endTeam (s : State) (v : View) : State :=
  let s := s.retire v v.team.ended { v.ctx.step4 with run := .ended }
  { s with maps := detachMaps v.team.ref s.maps }

/-- END (R194): ends the team, or only the bound context. -/
def execEndCtx (s : State) : Host.Outcome State Fault Refusal :=
  instr s (fun v => { names := if v.kind = .team then [.k 0] else [] })
    (fun v =>
      match v.kind with
      | .team => .ok (endTeam s v)
      | _ => .ok (s.retire v v.team { v.ctx.step4 with run := .ended }))

/-- EXIT (R195): removes the lanes of E from LIVE and k0. -/
def execExitLanes (s : State) : Host.Outcome State Fault Refusal :=
  instr s (fun v => { ctxs := teamOnly, names := v.maskNames })
    (fun v =>
      let e := v.eff
      let live := v.team.live &&& ~~~ e
      let t := { v.team with live := live, k := v.team.k.set 0 (v.team.k[0] &&& ~~~ e) }
      if live = 0 then .ok (endTeam s { v with team := t }) else .ok (s.retire v t v.ctx.step4))

/-- RET (R191). -/
def execRet (a : Fin 64) (s : State) : Host.Outcome State Fault Refusal :=
  instr s (fun _ => { names := [.s a] })
    (fun v =>
      let target := v.ctx.getS a
      if aligned target 4 then .ok (s.retire v v.team (v.ctx.advance target none))
      else .error { code := .misaligned, addr := target })

/-- The presented mesh of a die: rows in [7:4], columns in [3:0] (R23). -/
def meshWord (d : Die) : Nat := d.rows.length * 16 + d.cols.length

/-- A performance counter of a core (R23, R390): 0 without an event, else its count. -/
def perfValue (s : State) (r : TeamRef) (i : Nat) : Word :=
  if s.hub.perfSel[Fin.ofNat 8 i] = 0 then 0 else assoc s.perf (r.die, r.core, i) 0

/-- The value of a scalar special register (R23, R24). -/
def specialValue (s : State) (v : View) (ix : Nat) : Word :=
  let t := v.team
  let l := s.launch? t.launch
  let w (n : Nat) : Word := BitVec.ofNat 64 n
  let gx := (l.map (·.lrec.gx)).getD 1
  let gy := (l.map (·.lrec.gy)).getD 1
  let c := (l.map (·.lrec.c)).getD 1
  match ix with
  | 0x00 => w (t.t % gx)
  | 0x01 => w (t.t / gx % gy)
  | 0x02 => w (t.t / gx / gy)
  | 0x03 => w t.nl
  | 0x04 => w t.nv
  | 0x07 => w (t.t / c)
  | 0x08 => w (t.t % c)
  | 0x09 => w (coreName (s.die t.ref.die) t.ref.core)
  | 0x0A => w t.ref.die
  | 0x0B => w (meshWord (s.die t.ref.die))
  | 0x0C => w t.lv.toNat
  | 0x0D => seedOf s t
  | 0x0E => s.time
  | 0x0F => w v.ctx.fpfl.toNat
  | 0x10 => v.ctx.isc
  | 0x11 => v.ctx.rgnpc
  | 0x12 => v.ctx.rgncnt
  | _ => perfValue s t.ref (ix - 0x18)

/-- Whether every earlier instruction of the context that can raise a flag has written its result (R25): FETCH and EPOOL
write theirs later. -/
def flagsSettled (s : State) (v : View) : Bool :=
  s.ops.all (fun o => o.own ≠ v.ref || o.done ||
    match o.kind with
    | .fetch .. | .epool .. => false
    | _ => true)

/-- LANE and GROUP have vector results (R23). -/
def isVectorSpecial (b : Fin 64) : Bool := b.val == 5 || b.val == 6

/-- SRD (R200). SRD FPFL waits as R25 states. LANE and GROUP count k0 as read, as every per-lane instruction does (R39, R46; DESIGN
CHOICE, log 50). -/
def execSrd (d b : Fin 64) (s : State) : Host.Outcome State Fault Refusal :=
  instr s
    (fun v => {
      enc := srdIndexOk b
      ctxs := if isVectorSpecial b then teamOnly else fun _ => true
      regs := !isVectorSpecial b || v.team.vOk false d
      names := if isVectorSpecial b then .v d :: v.maskNames else [.s d] })
    (fun v =>
      if isVectorSpecial b then
        let t := v.team.setElems false d v.eff (fun l => some (if b.val = 5 then l else l / 32))
        .ok (s.retire v t v.ctx.step4)
      else if b.val = 0x0F && !flagsSettled s v then .ok s
      else .ok (s.retire v v.team (v.ctx.setS d (specialValue s v b)).step4))

/-- SWR (R201, R25): FPFL alone may be written; a nonzero bit in [63:6] faults after the lookahead check. -/
def execSwr (a b : Fin 64) (s : State) : Host.Outcome State Fault Refusal :=
  instr s (fun _ => { enc := b.val == 0x0F, names := [.s a] })
    (fun v =>
      let x := v.ctx.getS a
      if 64 ≤ x.toNat then .error { code := .illegalEncoding }
      else if !flagsSettled s v then .ok s
      else .ok (s.retire v v.team { v.ctx.step4 with fpfl := BitVec.ofNat 6 x.toNat }))

/-- SLICEOF (R28, R202). -/
def execSliceof (d a : Fin 64) (s : State) : Host.Outcome State Fault Refusal :=
  instr s (fun _ => { names := [.s d, .s a] })
    (fun v =>
      let x := sliceWord s (s.asidOf v.team).1 (v.ctx.getS a)
      .ok (s.retire v v.team (v.ctx.setS d x).step4))

/-- MDRD (R189). -/
def execMdrd (d : Fin 64) (s : State) : Host.Outcome State Fault Refusal :=
  instr s (fun _ => { names := [.s d] })
    (fun v => .ok (s.retire v v.team (v.ctx.setS d (v.ctx.md.zeroExtend 64)).step4))

/-- Whether an MD value sets no bit reserved in the context's layout (R22). -/
def mdLegal (k : CtxKind) (md : BitVec 26) : Bool :=
  match k with
  | .matrix => md.toNat < 2 ^ 25
  | _ => md.toNat < 2 ^ 17

/-- MODEV (R188): judged after the lookahead check. -/
def execModev (a : Fin 64) (s : State) : Host.Outcome State Fault Refusal :=
  instr s (fun _ => { names := [.s a] })
    (fun v =>
      let x := v.ctx.getS a
      if x.toNat < 2 ^ 26 && mdLegal v.kind (BitVec.ofNat 26 x.toNat) then
        .ok (s.retire v v.team { v.ctx.step4 with md := BitVec.ofNat 26 x.toNat })
      else .error { code := .illegalEncoding })

/-- MODE (R187, R22). -/
def execMode (i : BitVec 26) (s : State) : Host.Outcome State Fault Refusal :=
  instr s (fun v => { enc := mdLegal v.kind i })
    (fun v => .ok (s.retire v v.team { v.ctx.step4 with md := i }))

/-- TRAP (R197): reads s1 to s8, will write s1 and s2, and parks with the record; it is region-ending, so the team is no
longer restartable (R296, R307). -/
def execTrap (c : BitVec 16) (s : State) : Host.Outcome State Fault Refusal :=
  match s.view with
  | none => .refused .noContext
  | some v =>
    if lookaheadHit v.ctx.windows ((List.range 9).drop 1 |>.map RegName.s) then
      .next (park s v { code := .illegalLookahead } 0 [])
    else
      let ss := ((List.range 9).drop 1).map (fun i => v.ctx.getSN i)
      .next (park s { v with team := { v.team with restartable := false } } { code := .trap } c ss)

/-- RGN (R199): marks its own address as the region entry, with ISC before it. -/
def execRgn (t : BitVec 16) (s : State) : Host.Outcome State Fault Refusal :=
  instr s (fun _ => {})
    (fun v =>
      .ok (s.retire v v.team
        { v.ctx.step4 with rgnpc := v.ctx.pc, rgncnt := v.ctx.isc, impl := false, tag := t }))

/-- The target of a branch: PC + 4 × sign-extended word count (R160). -/
def branchTarget {n : Nat} (c : Ctx) (o : BitVec n) : Word := c.pc + 4 * o.signExtend 64

/-- BRA (R190). -/
def execBra (o : BitVec 26) (s : State) : Host.Outcome State Fault Refusal :=
  instr s (fun _ => {})
    (fun v => .ok (s.retire v v.team (v.ctx.advance (branchTarget v.ctx o) none)))

/-- CALL (R190): also writes PC + 4 into s62. -/
def execCall (o : BitVec 26) (s : State) : Host.Outcome State Fault Refusal :=
  instr s (fun _ => { names := [.s 62] })
    (fun v =>
      .ok (s.retire v v.team ((v.ctx.setS 62 (v.ctx.pc + 4)).advance (branchTarget v.ctx o) none)))

/-- A branch on a condition (R192, R193). -/
def branchIf (s : State) (v : View) (o : BitVec 20) (taken : Bool) : State :=
  s.retire v v.team (v.ctx.advance (if taken then branchTarget v.ctx o else v.ctx.pc + 4) none)

/-- BSZ (R192). -/
def execBsz (c : Fin 64) (o : BitVec 20) (s : State) : Host.Outcome State Fault Refusal :=
  instr s (fun _ => { names := [.s c] }) (fun v => .ok (branchIf s v o (v.ctx.getS c == 0)))

/-- BSNZ (R192). -/
def execBsnz (c : Fin 64) (o : BitVec 20) (s : State) : Host.Outcome State Fault Refusal :=
  instr s (fun _ => { names := [.s c] }) (fun v => .ok (branchIf s v o (v.ctx.getS c != 0)))

/-- What the branches on masks require (R193, R209). -/
def maskBranchReq (c : Fin 16) (v : View) : Req := { ctxs := teamOnly, names := .k c :: v.maskNames }

/-- BKZ (R193). -/
def execBkz (c : Fin 16) (o : BitVec 20) (s : State) : Host.Outcome State Fault Refusal :=
  instr s (maskBranchReq c) (fun v => .ok (branchIf s v o (v.team.k[c] &&& v.eff == 0)))

/-- BKNZ (R193). -/
def execBknz (c : Fin 16) (o : BitVec 20) (s : State) : Host.Outcome State Fault Refusal :=
  instr s (maskBranchReq c) (fun v => .ok (branchIf s v o (v.team.k[c] &&& v.eff != 0)))

/-- BKALL (R193). -/
def execBkall (c : Fin 16) (o : BitVec 20) (s : State) : Host.Outcome State Fault Refusal :=
  instr s (maskBranchReq c) (fun v => .ok (branchIf s v o (v.eff &&& ~~~ v.team.k[c] == 0)))

/-- The event row of a word that decodes to no instruction (R162): the fault of its condition, taken by the executing
context with nothing else changed. -/
def execIllegalInstruction (opcode : Bool) (s : State) : Host.Outcome State Fault Refusal :=
  match s.view with
  | none => .next s
  | some v => .next (park s v { code := if opcode then .illegalOpcode else .illegalEncoding } 0 [])

end Sys2Proof.Machine
end

