-- ==== Sys2Proof/Machine/Spdm.lean ====
section
/-! DEFINITION. Machine/Spdm.lean: the SPDM responder of the PF (R376) and the sources of the security alarm that have an event of
their own (R377). Certificates, signatures and key shares are cryptographic output: free values (log 12). -/

namespace Sys2Proof.Machine

/-- A response leaves the package. R376 sets no condition on READY (log 33). -/
def spdmAnswer (s : State) (r : SpdmResp) : State :=
  { s with
    out := s.out ++ [.spdm r]
    sec := { s.sec with spdm := { s.sec.spdm with count := s.sec.spdm.count + 1 } } }

/-- Whether the responder signs: the alias key has been derived and KEYLOCK does not stand (R375, R378). -/
def spdmSigns (s : State) : Bool := s.sec.boot.aliasKey && !s.alarm.keylock

/-- The certificate chain of slot 0 (R376). -/
def spdmChain (s : State) : List Byte := Config.certChain s.sec.boot.meas[0] s.sec.boot.meas[1]

/-- The responder's response if it may answer, else ERROR (R376). -/
def spdmIf (s : State) (good : Bool) (r : SpdmResp) : State := spdmAnswer s (if good then r else .error)

/-- The free bytes of the next response. -/
def spdmFree (s : State) : List Byte := Config.spdmBytes s.sec.spdm.count

/-- GET_VERSION (R376). -/
def execGetVersion (s : State) : Host.Outcome State Fault Refusal := .next (spdmAnswer s .version)

/-- GET_CAPABILITIES (R376). -/
def execGetCapabilities (s : State) : Host.Outcome State Fault Refusal := .next (spdmAnswer s .capabilities)

/-- NEGOTIATE_ALGORITHMS: ECDSA over P-521 and SHA-512 alone (R376). -/
def execNegotiateAlgorithms (p521 sha512 : Bool) (s : State) : Host.Outcome State Fault Refusal :=
  .next (spdmIf s (p521 && sha512) .algorithms)

/-- GET_DIGESTS: the hash of slot 0's chain (R376). -/
def execGetDigests (s : State) : Host.Outcome State Fault Refusal := .next (spdmAnswer s (.digests (sha512 (spdmChain s))))

/-- GET_CERTIFICATE: slot 0 alone (R376). -/
def execGetCertificate (certSlot : Nat) (s : State) : Host.Outcome State Fault Refusal :=
  .next (spdmIf s (certSlot = 0) (.certificate (spdmChain s)))

/-- CHALLENGE: slot 0, and not under KEYLOCK (R376, R378). -/
def execChallenge (certSlot : Nat) (s : State) : Host.Outcome State Fault Refusal :=
  .next (spdmIf s (certSlot = 0 && spdmSigns s) (.challengeAuth (spdmFree s)))

/-- The measurement blocks with indices from 1 (R376). -/
def measBlocks (s : State) : List (Nat × BitVec 512) := (List.range 10).map (fun i => (i + 1, s.sec.boot.meas[Fin.ofNat 10 i]))

/-- GET_MEASUREMENTS of slot 0: index 255 asks for every block, 1 to 10 for one, 0 for none of them (R376); under KEYLOCK it returns
ERROR (R378). -/
def execGetMeasurements (req : MeasRequest) (s : State) : Host.Outcome State Fault Refusal :=
  let blocks := if req.index = 255 then measBlocks s else (measBlocks s).filter (fun b => b.1 = req.index)
  .next (spdmIf s (req.certSlot = 0 && (req.index ≤ 10 || req.index = 255) && spdmSigns s) (.measurements blocks (spdmFree s)))

/-- KEY_EXCHANGE: slot 0, and not under KEYLOCK; a session begins (R375, R376, R378). -/
def execKeyExchange (certSlot : Nat) (s : State) : Host.Outcome State Fault Refusal :=
  let id := s.sec.spdm.count
  if certSlot ≠ 0 || !spdmSigns s then .next (spdmAnswer s .error)
  else
    let s1 := spdmAnswer s (.keyExchangeRsp id (spdmFree s))
    .next { s1 with sec := { s1.sec with spdm := { s1.sec.spdm with pendingSessions := s1.sec.spdm.pendingSessions ++ [id] } } }

/-- FINISH: the session is established (R376). A secured message that is not intact fires alarm source 4 and is answered by ERROR
(R377). -/
def execFinish (msg : SecuredMsg) (s : State) : Host.Outcome State Fault Refusal :=
  let p := s.sec.spdm
  if !p.pendingSessions.contains msg.session then .next (spdmAnswer s .error)
  else if !msg.intact then .next ((spdmAnswer s .error).raiseAlarm 4)
  else
    let s1 := spdmAnswer s .finishRsp
    .next { s1 with sec := { s1.sec with spdm := { s1.sec.spdm with
      pendingSessions := p.pendingSessions.erase msg.session, sessions := p.sessions ++ [msg.session] } } }

/-- END_SESSION: the session's keys go (R375, R376). One that is not intact fires alarm source 4 and is answered by ERROR (R377). -/
def execEndSession (msg : SecuredMsg) (s : State) : Host.Outcome State Fault Refusal :=
  let p := s.sec.spdm
  if !p.sessions.contains msg.session then .next (spdmAnswer s .error)
  else if !msg.intact then .next ((spdmAnswer s .error).raiseAlarm 4)
  else
    let s1 := spdmAnswer s .endSessionAck
    .next { s1 with sec := { s1.sec with spdm := { s1.sec.spdm with sessions := p.sessions.erase msg.session } } }

/-- SPDM_UNSUPPORTED: any other request receives ERROR (R376). -/
def execSpdmUnsupported (_code : BitVec 8) (s : State) : Host.Outcome State Fault Refusal := .next (spdmAnswer s .error)

/-- SUPPLY_VOLTAGE_EVENT: source 0 (R377). -/
def execSupplyVoltageEvent (s : State) : Host.Outcome State Fault Refusal := .next (s.raiseAlarm 0)

/-- CLOCK_FREQUENCY_EVENT: source 1 (R377). -/
def execClockFrequencyEvent (s : State) : Host.Outcome State Fault Refusal := .next (s.raiseAlarm 1)

/-- TEMPERATURE_SHUTDOWN_EVENT: source 2, of one of the eight dies (R377). -/
def execTemperatureShutdownEvent (die : Nat) (s : State) : Host.Outcome State Fault Refusal :=
  .next (if die < 8 then s.raiseAlarm 2 else s)

/-- SECURITY_CONTROLLER_FAULT: source 3 (R377). -/
def execSecurityControllerFault (s : State) : Host.Outcome State Fault Refusal := .next (s.raiseAlarm 3)

end Sys2Proof.Machine
end

