-- ==== Sys2Proof/Machine/Fleet.lean ====
section
/-! DEFINITION. Machine/Fleet.lean: memory errors (R379 to R381), links and fencing (R385, R386), telemetry (R382) and the lending of
power (R384): the events of a package in service. -/

namespace Sys2Proof.Machine

/-! ### Fencing a die (R384 to R386) -/

/-- Whether a launch has a nonempty range on a die. -/
def LaunchRec.uses (r : LaunchRec) (die : Nat) : Bool :=
  match r.ranges[die]? with
  | some (lo, hi) => lo < hi
  | none => false

/-- Aborts several launches for one cause at one moment; the youngest of a stream goes first, so that none is counted as another's
successor (R152, R153). -/
def State.abortAll (s : State) (pick : Launch → Bool) (status : Nat) : State :=
  (s.hub.launches.filter pick).reverse.foldl (fun s l => s.requestAbort l.sid status) s

/-- A loan by number. -/
def State.loan? (s : State) (id : Nat) : Option Loan := s.loans.find? (fun x => x.id = id)

/-- Moves units of power budget from one die to another. -/
def State.moveUnits (s : State) (source target units : Nat) : State :=
  let a := s.die source
  let n := min units a.budget
  let s := s.setDie source { a with budget := a.budget - n }
  s.setDie target { s.die target with budget := (s.die target).budget + n }

/-- Units of a loan that no longer count as lent. -/
def State.strikeUnits (s : State) (id units : Nat) : State :=
  { s with loans := (s.loans.map (fun y => if y.id = id then { y with units := y.units - units } else y)).filter (fun y => y.units ≠ 0) }

/-- Units of a loan return to the lender's budget (R384). A borrower that has lent them on calls them in first, oldest loan first; `fuel`
bounds the chain. -/
def State.returnUnits : Nat → State → Nat → Nat → State
  | 0, s, _, _ => s
  | fuel + 1, s, id, units =>
    match s.loan? id with
    | none => s
    | some x =>
      let units := min units x.units
      let s := s.strikeUnits id units
      let onward := (s.loans.filter (fun y => y.lender = x.borrower)).map (·.id)
      let s := onward.foldl
        (fun s i =>
          let short := units - (s.die x.borrower).budget
          if short = 0 then s else s.returnUnits fuel i (min short (((s.loan? i).map (·.units)).getD 0)))
        s
      s.moveUnits x.borrower x.lender units

/-- Ends a loan, or a part of it: its units return to the lender's budget. -/
def State.returnLoan (s : State) (x : Loan) (units : Nat) : State := s.returnUnits (s.loans.length + 1) x.id units

/-- Takes a die out of service (R386): its DIEOK bit clears, LINK reads 3, loans to and from it end, and the open launches that need it
end with ABORT_DIE_LOST, those past a commit point before their next segment. -/
def State.fenceOne (s : State) (d : Nat) : State :=
  if (s.die d).fenced then s
  else
    let s := s.setDie d (s.die d).cutOff
    let s := s.setBoot (fun b => { b with dieok := b.dieok &&& ~~~(BitVec.ofNat 8 (2 ^ d)) })
    let s := s.loans.foldl (fun s x => if x.lender = d || x.borrower = d then s.returnLoan x x.units else s) s
    s.abortAll (fun l => l.isOpen && l.lrec.uses d) 0x45

/-! ### Links (R385) -/

/-- Whether a die reaches the hub around the ring in one direction within `n` hops, through dies that are not fenced. -/
def ringPath (s : State) (up : Bool) : Nat → Nat → Bool
  | 0, _ => false
  | n + 1, d =>
    let next := if up then (d + 1) % 8 else (d + 7) % 8
    let wire := if up then (s.die d).ringLink else (s.die next).ringLink
    wire && !(s.die next).fenced && ((s.die next).hubLink || ringPath s up n next)

/-- The LINK field of a die: direct, around through lower or higher dies, or none (R382). The lower way is taken where both are
open. -/
def linkCode (s : State) (d : Nat) : BitVec 3 :=
  if (s.die d).hubLink then 0
  else if ringPath s false 7 d then 1
  else if ringPath s true 7 d then 2
  else 3

/-- Every die's path after a change of links: a die without one is fenced, which may cut off others (R385). -/
def State.relink (s : State) : State :=
  (List.range 64).foldl
    (fun s i =>
      let d := i % 8
      if (s.die d).fenced then s
      else
        let c := linkCode s d
        if c = 3 then s.fenceOne d else s.setDie d { s.die d with link := c })
    s

/-- Fences a die (R386); the dies that reached the hub through it find another path or are fenced too (R385). -/
def State.fenceDie (s : State) (d : Nat) : State := (s.fenceOne d).relink

/-- HUB_LINK_FAILURE (R385). -/
def execHubLinkFailure (die : Nat) (s : State) : Host.Outcome State Fault Refusal :=
  .next (if die < 8 then (s.setDie die { s.die die with hubLink := false }).relink else s)

/-- RING_LINK_FAILURE: the link from a die to the next (R385). -/
def execRingLinkFailure (die : Nat) (s : State) : Host.Outcome State Fault Refusal :=
  .next (if die < 8 then (s.setDie die { s.die die with ringLink := false }).relink else s)

/-- LINK_RECOVERY: a link works again; it unfences no die (R385). -/
def execLinkRecovery (hubLink : Bool) (die : Nat) (s : State) : Host.Outcome State Fault Refusal :=
  let d := s.die die
  .next (if die < 8 then (s.setDie die (if hubLink then { d with hubLink := true } else { d with ringLink := true })).relink else s)

/-- HUB_LOSS: the whole package stops (R386). -/
def execHubLoss (s : State) : Host.Outcome State Fault Refusal := .next { s with hubLost := true }

/-- The loss of the last Brory route for launches that needed it: each ends for good, since only the rows above that one are absorbed by
retries (R387), with a free status, past a commit point before its next segment (log 17). -/
def State.cutOff (s : State) (cut : Launch → Bool) (status : Nat) : State :=
  let s := s.abortAll (fun l => l.isOpen && cut l) status
  { s with hub := { s.hub with launches := s.hub.launches.map (fun l =>
      if l.isOpen && cut l then
        { l with
          retriesLeft := 0, doomed := true
          later := if l.st = .committing && l.seg + 1 < l.lrec.nseg then l.later.or (some status) else l.later }
      else l) } }

/-- BRORY_PORT_LOSS: the port is down until the next reset (R370). When no port is left, no route is: the launches that the loss cuts off
end (R387; log 17). -/
def execBroryPortLoss (loss : PortLoss) (s : State) : Host.Outcome State Fault Refusal :=
  if 18 ≤ loss.port || !s.sec.boot.brory.getLsbD loss.port then .next s
  else
    let s := s.setBoot (fun b => { b with brory := b.brory &&& ~~~(BitVec.ofNat 18 (2 ^ loss.port)) })
    .next (if s.sec.boot.brory = 0 then
        s.cutOff (fun l => loss.cut.contains l.sid) (0x40 + Config.routeLost s.tick % 9)
      else s)

/-! ### Memory errors (R379 to R381) -/

/-- Whether a launch holds state in an array of a core. -/
def holdsIn (s : State) (a : CoreArray) (die core : Nat) (l : Launch) : Bool :=
  let teams := (s.residents die core).filter (fun t => t.launch = l.sid)
  let reds := s.ops.any (fun o => !o.done && o.path.isSome && o.lv == l.lv && o.own.ref.die == die && o.own.ref.core == core &&
    (match o.kind with | .red .. => true | _ => false))
  match a with
  | .vrf => !teams.isEmpty
  | .l1 => reds || s.copies.any (fun c => c.die == die && c.core == some core &&
      (let r := s.sectorRec c.sector; r.tent && r.lv == l.lv))
  | .stash => teams.any (fun t => t.footprint ≠ 0) || s.maps.any (fun m => m.die == die && m.core == core && m.lv == l.lv)
  | .accStore => teams.any (fun t => t.nacc ≠ 0)
  | .termBuf => teams.any (fun t => t.matrix.isSome)

/-- The retirement record of a frame (R380, R381). -/
def retirementRecord (lid : Word) (die off : Nat) (now : Word) : ParkRec :=
  { func := 0, sid := 0, lid := lid, tcode := 2, code := 0, ctx := 0, core := 0, team := 0xFFFFFFFF, lane := 0xFFFF, tag := 0
    impl := false, x := false, w := false, svc := false, die := die, pc := 0, rgnpc := 0, rgncnt := 0
    addr := BitVec.ofNat 64 off, isc := now, ss := [] }

/-- Whether an error can still end a launch: it is open and not past its commit point (R381). -/
def Launch.exposed (l : Launch) : Bool := l.isOpen && l.st != .committing

/-- Retires a 4 KiB frame (R379): open launches that have read it or hold tentative state in it end with ABORT_MEMERR, PF's ring
receives the record, and a die whose table is full is fenced. -/
def State.retireFrame (s : State) (die off : Nat) (met : Option Nat) : State :=
  let off := off / 4096 * 4096
  let d := s.die die
  if d.fenced || d.retired.contains off || Config.dieBytes ≤ off then s
  else
    let frame := flat die off / 4096
    let tent (l : Launch) : Bool := s.sectors.any (fun r => r.tent && r.lv == l.lv && r.sector / 64 == frame)
    let touched (l : Launch) : Bool := l.exposed && (l.readFrames.contains frame || tent l)
    let lid := ((met.bind s.launch?).map (·.lrec.lid)).getD 0
    let s := (s.setDie die { d with retired := d.retired ++ [off] }).abortAll touched 0x43
    let s := s.raiseRecord (retirementRecord lid die off s.time)
    if 4096 ≤ d.retired.length + 1 then s.fenceDie die else s

/-- An error in a sector that holds tentative data: its launch ends with ABORT_MEMERR, unless it has passed its commit point; then the
frame is retired and the record names the launch (R379, R381). -/
def State.loseSector (s : State) (sector : Nat) : State :=
  let lv := (s.sectorRec sector).lv
  match s.hub.launches.find? (fun l => l.isOpen && l.lv == lv) with
  | none => s
  | some l =>
    if l.exposed then s.requestAbort l.sid 0x43
    else s.retireFrame (dieOf (64 * sector)) (64 * sector - flat (dieOf (64 * sector)) 0) (some l.sid)

/-- UNCORRECTABLE_ERROR (R155, R312, R379, R381). -/
def execUncorrectableError (site : ErrorSite) (s : State) : Host.Outcome State Fault Refusal :=
  match site with
  | .coreArray a die core => .next (s.abortAll (fun l => l.exposed && holdsIn s a die core l) 0x43)
  | .tentative sector => .next (if (s.sectorRec sector).tent then s.loseSector sector else s)
  | .frame die off met => .next (if die < 8 && s.sec.boot.ready then s.retireFrame die off met else s)
  | .image launch team =>
    .next (if s.hub.saved.any (fun x => x.launch == launch && x.team.t == team) then s.requestAbort launch 0x43 else s)

/-- CORRECTED_ERROR: it is counted, and the count saturates (R379, R382). -/
def execCorrectedError (die : Nat) (s : State) : Host.Outcome State Fault Refusal :=
  let d := s.die die
  .next (if die < 8 then s.setDie die { d with cecc := if d.cecc = BitVec.allOnes 32 then d.cecc else d.cecc + 1 } else s)

/-! ### Telemetry and power (R382, R384) -/

/-- The values of a die at this moment, together (R382). -/
def Die.reading (d : Die) : Report :=
  { link := d.link, temp := d.temp, budget := BitVec.ofNat 16 d.budget, pwr := d.pwr, retired := BitVec.ofNat 12 d.retired.length
    cecc := d.cecc, throt := d.throt }

/-- A die whose report shows its values at this TIME (R382). -/
def Die.refreshed (d : Die) (now : Word) : Die := { d with report := d.reading, reportAt := now }

/-- Whether the report of a die in service is a millisecond old. -/
def Die.stale (d : Die) (now : Word) : Bool := !d.fenced && d.reportAt.toNat + 1000000 ≤ now.toNat

/-- Refreshes the reports that are due: each at least once per millisecond of TIME, whatever else comes about (R382). -/
def State.refreshDue (s : State) : State :=
  { s with dies := Vector.ofFn (fun i : Fin 8 =>
      let d := s.dies[i]
      { d with report := if d.stale s.time then d.reading else d.report, reportAt := if d.stale s.time then s.time else d.reportAt }) }

/-- TELEMETRY_REFRESH: a die's sensors, and the clocks it ran slow since the last refresh (R382). A fenced die reports nothing. -/
def execTelemetryRefresh (die : Fin 8) (pwr temp : BitVec 16) (throttled : Nat) (s : State) : Host.Outcome State Fault Refusal :=
  let d := s.die die.val
  .next (if d.fenced then s
    else s.setDie die.val ({ d with pwr := pwr, temp := temp, throt := d.throt + BitVec.ofNat 64 throttled }.refreshed s.time))

/-- Headroom of a die: BUDGET − PWR less the reserve of 8 W; none when it is negative (R384). -/
def headroom (d : Die) : Option Nat := if d.pwr.toNat + 8 ≤ d.budget then some (d.budget - d.pwr.toNat - 8) else none

/-- One millisecond from now. -/
def millisecondOn (s : State) : Word := s.time + 1000000

/-- POWER_LOAN: a die lends units from its headroom to another (R384). -/
def execPowerLoan (lender borrower units : Nat) (s : State) : Host.Outcome State Fault Refusal :=
  let l := s.die lender
  if 8 ≤ lender || 8 ≤ borrower || lender = borrower || l.fenced || (s.die borrower).fenced || units = 0 then .next s
  else
    match headroom l with
    | none => .next s
    | some h =>
      if h < units then .next s
      else
        let s := s.moveUnits lender borrower units
        .next { s with
          loans := s.loans ++ [{ id := s.serial, lender := lender, borrower := borrower, units := units, deadline := millisecondOn s }]
          serial := s.serial + 1 }

/-- LOAN_REPAY: units return to the lender before the deadline (R384). -/
def execLoanRepay (loan units : Nat) (s : State) : Host.Outcome State Fault Refusal :=
  match s.loan? loan with
  | none => .next s
  | some x => .next (if units ≤ x.units then s.returnLoan x units else s)

/-- LOAN_RENEW: the lender agrees while it keeps its headroom (R384). -/
def execLoanRenew (loan : Nat) (s : State) : Host.Outcome State Fault Refusal :=
  match s.loan? loan with
  | none => .next s
  | some x =>
    if (headroom (s.die x.lender)).isNone || x.deadline.toNat ≤ s.time.toNat then .next s
    else
      .next { s with loans := s.loans.map (fun y => if y.id = loan then { y with deadline := millisecondOn s } else y) }

/-- A loan whose deadline has come. -/
def State.overdue (s : State) : Option Loan := s.loans.find? (fun x => x.deadline.toNat ≤ s.time.toNat)

/-- LOAN_EXPIRY: units not repaid by the deadline return to the lender, at once: it comes before any other turn (R384). -/
def execLoanExpiry (loan : Nat) (s : State) : Host.Outcome State Fault Refusal :=
  match s.loan? loan with
  | none => .next s
  | some x => .next (if x.deadline.toNat ≤ s.time.toNat then s.returnLoan x x.units else s)

end Sys2Proof.Machine
end

