-- ==== Sys2Proof/Machine/Host.lean ====
section
/-! DEFINITION. Machine/Host.lean: accesses to device memory from outside the package: the host through CXL.mem (R133, R144, R146,
R148, R369) and Brory peers (R110), which the model takes to reach memory as the host does (log 17). -/

namespace Sys2Proof.Machine

/-- Whether an access from outside to a byte is served: memory exists there, an entry for function 0 grants it, and its die and
frame are not lost (R369, R379, R386). -/
def outsideServed (s : State) (die off : Nat) (write : Bool) : Bool :=
  off < Config.dieBytes && granted s die off 0 write && (s.lostHome (flat die off / 64)).isNone

/-- Fires alarm source 6 when the access tables deny one of these bytes (R369, R377). -/
def noteOutsideDenial (s : State) (die off n : Nat) (write : Bool) : State :=
  if (List.range n).any (fun i => off + i < Config.dieBytes && !granted s die (off + i) 0 write) then s.raiseAlarm 6 else s

/-- The sectors of the served bytes of an access from outside. -/
def outsideSectors (s : State) (die off n : Nat) (write : Bool) : List Nat :=
  ((List.range n).filterMap (fun i =>
    if outsideServed s die (off + i) write then some (flat die (off + i) / 64) else none)).dedup

/-- The bytes an access from outside reads: committed data, and all ones where it is not served. -/
def outsideRead (s : State) (die off n : Nat) : List Byte :=
  (List.range n).map (fun i =>
    if !s.cxlFenced && outsideServed s die (off + i) false then committed s (flat die (off + i)) else 0xFF)

/-- Whether a read from outside stalls: at a sector prepared for a launch (R132, R144). -/
def outsideStalls (s : State) (die off n : Nat) : Bool :=
  !s.cxlFenced && (outsideSectors s die off n false).any (fun x => (s.sectorRec x).prep)

/-- HOST_READ (R133): the homes gather the U copies of its sectors (R129), and it answers committed data, once no sector of it is
prepared. -/
def execHostRead (die off len : Nat) (s : State) : Host.Outcome State Fault Refusal :=
  if 8 ≤ die || !s.sec.boot.ready || outsideStalls s die off len then .next s
  else
    let s1 := if s.cxlFenced then s
      else noteOutsideDenial (s.gathered (outsideSectors s die off len false)) die off len false
    .next { s1 with out := s1.out ++ [.hostData die off (outsideRead s die off len)] }

/-- The launches that a write from outside to a sector finds in its way (R146, once U copies are gathered): the holder of tentative data; the holder of a read
mark; the bound of an overflowed one. -/
def inTheWay (s : State) (sector : Nat) : List Launch :=
  let r := s.sectorRec sector
  let named (lv : BitVec 16) : List Launch := s.hub.launches.filter (fun l => l.isOpen && l.lv == lv)
  (if r.tent then named r.lv else []) ++
  (if r.rmk && !r.rovf then named r.rlv else []) ++
  (if r.rovf then (s.hub.launches.filter (fun l => l.isOpen && l.lrec.ser && r.bound.contains l.lv)) else [])

/-- A write from outside that has come to its homes: copies and windows of its sectors go, and its bytes are committed (R101,
R133). -/
def outsideStore (s : State) (die off : Nat) (bytes : List Byte) : State :=
  let sectors := outsideSectors s die off bytes.length true
  let s1 := sectors.foldl
    (fun s x => ((s.recallWindows x (fun _ _ => false)).dropCopies x (fun c => c.st != .U)).settle x) (s.replacing sectors)
  { s1 with mem := (bytes.zipIdx).foldl (fun m p =>
      if outsideServed s die (off + p.2) true then m.set (flat die (off + p.2)) p.1 else m) s1.mem }

/-- A write from outside: the homes gather the U copies of its sectors (R129); it aborts the launches in its way that have not passed
their commit point, and is made once none is left (R133, R146, R148). A store to a table entry waits for the accesses that translated by the old one (R101). Bytes that are not served
are dropped. -/
def outsideWrite (s : State) (die off : Nat) (bytes : List Byte) : State :=
  let sectors := outsideSectors s die off bytes.length true
  if s.cxlFenced then s
  else if !(s.tableUsers sectors).isEmpty then s
  else
    let s := s.gathered sectors
    let ways := sectors.flatMap (inTheWay s)
    if ways.isEmpty && !sectors.any (fun x => (s.sectorRec x).tent) then
      noteOutsideDenial (outsideStore s die off bytes) die off bytes.length true
    else ways.foldl (fun s l => s.requestAbort l.sid 0x48) s

/-- HOST_WRITE (R133). Die number 8 is the host's own memory, where the host stores rings and records without a word to the package
(log 18). -/
def execHostWrite (die off : Nat) (bytes : List Byte) (s : State) : Host.Outcome State Fault Refusal :=
  if die = 8 then .next (s.hostPut off bytes)
  else if 8 < die || !s.sec.boot.ready then .next s else .next (outsideWrite s die off bytes)

/-- BRORY_PEER_ACCESS: an agent of another package, while a port is up (R110, R370, R387). -/
def execBroryPeerAccess (write : Bool) (die off len : Nat) (bytes : List Byte) (s : State) : Host.Outcome State Fault Refusal :=
  if 8 ≤ die || !s.sec.boot.ready || s.sec.boot.brory = 0 || s.cxlFenced then .next s
  else if write then .next (outsideWrite s die off bytes)
  else if outsideStalls s die off len then .next s
  else
    let s1 := noteOutsideDenial (s.gathered (outsideSectors s die off len false)) die off len false
    .next { s1 with out := s1.out ++ [.peerData die off (outsideRead s die off len)] }

end Sys2Proof.Machine
end

