-- ==== Sys2Proof/Machine/Image.lean ====
section
/-! DEFINITION. Machine/Image.lean: the save image of a team (R308 to R311): its bytes, and a team read back from bytes that a
debugger may have edited (R302). -/

namespace Sys2Proof.Machine

/-! ### Sizes (R308) -/

/-- Offset of the queues. -/
def Team.qoff (t : Team) : Nat := 0x0C40 + 4 * t.nv * t.nl
/-- Offset of the matrix section. -/
def Team.moff (t : Team) : Nat := t.qoff + t.nq * (64 + 4 * t.qdepth * t.nl)
/-- Offset of the access section. -/
def Team.aoff (t : Team) : Nat := t.moff + (if t.matrix.isSome then 704 + 393216 * t.nacc + 4 * 2368 else 0)
/-- Length of the image. -/
def Team.imageLen (t : Team) : Nat := (t.aoff + (if t.access.isSome then 704 + 4 * 96 else 0) + 255) / 256 * 256

/-! ### Bytes of an image -/

/-- Bytes padded with zeros to a length. -/
def padTo (n : Nat) (b : List Byte) : List Byte := b.take n ++ List.replicate (n - b.length) 0

/-- A 64-bit word. -/
def wordBytes (x : Word) : List Byte := bytesOfNat 8 x.toNat

/-- The state code of a context (R309). -/
def ctxCode (c : Option Ctx) : Nat :=
  match c with
  | none => 5
  | some c =>
    match c.run with
    | .running => 0
    | .parkedFault => 1
    | .parkedTrap => 2
    | .parkedBrk => 3
    | .ended => 4

/-- A scalar block: 576 bytes (R310). -/
def scalarBlock (c : Ctx) : List Byte :=
  wordBytes c.pc ++ wordBytes c.isc ++ wordBytes c.rgnpc ++ wordBytes c.rgncnt ++ bytesOfNat 8 c.md.toNat ++
  bytesOfNat 8 c.fpfl.toNat ++ List.replicate 16 0 ++ (List.range 64).flatMap (fun i => wordBytes (c.getSN i))

/-- The park record of a parked context, answered or not, else zeros (R309, R310). -/
def parkField (s : State) (t : Team) (k : CtxKind) : List Byte :=
  match (s.hub.parks ++ s.hub.heldReplies.map (·.record)).find? (fun r => r.sid = t.launch && r.team = t.t && r.ctx = k.toNat) with
  | some r => r.bytes
  | none => List.replicate 128 0

/-- The header (R309). -/
def headerBytes (s : State) (x : SavedTeam) : List Byte :=
  let t := x.team
  let lid := ((s.launch? x.launch).map (·.lrec.lid)).getD 0
  bytesOfNat 4 0x4C385349 ++ bytesOfNat 2 1 ++ bytesOfNat 2 0 ++ wordBytes lid ++ bytesOfNat 4 t.t ++ bytesOfNat 4 t.imageLen ++
  bytesOfNat 1 x.die ++ bytesOfNat 1 0 ++
  bytesOfNat 2 (ctxCode (some t.team) + at_ (ctxCode t.matrix) 3 + at_ (ctxCode t.access) 6) ++
  bytesOfNat 4 (flagBit t.cbar.isOpen 0 + flagBit (t.cbar.passed % 2 == 1) 1) ++
  parkField s t .team ++ List.replicate 96 0

/-- A mapping-entry record: M3 carries the entry number, and bit 57 says that the record is in use (R308). -/
def entryBytes (e : Option (Nat × List Word)) : List Byte :=
  match e with
  | none => List.replicate 32 0
  | some (n, ms) =>
    wordBytes (ms.getD 0 0) ++ wordBytes (ms.getD 1 0) ++ wordBytes (ms.getD 2 0) ++
    bytesOfNat 8 ((ms.getD 3 0).toNat % 2 ^ 57 + 2 ^ 57 + at_ n 58)

/-- Words of four bytes. -/
def laneBytes (ws : List Lane) : List Byte := ws.flatMap (fun x => bytesOfNat 4 x.toNat)

/-- A queue: its header and QDEPTH entries (R308). -/
def queueBytes (t : Team) (q : OpQueue) : List Byte :=
  padTo 64 (bytesOfNat 4 (q.entries.length + flagBit q.closed 16)) ++ padTo (4 * t.qdepth * t.nl) (q.entries.flatMap laneBytes)

/-- The record of one tile element. -/
def tileRecords (x : Tile) : List (List Byte) :=
  match x with
  | .exact es => es.map Xa.record
  | .semi tag es => es.map (fun e => padTo 96 (Config.semiRecord tag e))

/-- A term-buffer record: 2,368 bytes (R311). -/
def termBytes (b : TermBuf) : List Byte :=
  let head := b.typeA + at_ b.m 8 + at_ b.k 16 + at_ b.spat 24 + flagBit b.valid 31
  let e := elemWords b.typeA (b.m * b.k)
  padTo 64 (bytesOfNat 8 head ++ wordBytes b.stat) ++ padTo 2048 (laneBytes (b.words.take e)) ++ padTo 256 (laneBytes (b.words.drop e))

/-- A stream record: 96 bytes (R311). -/
def streamBytes (x : Option Stream) : List Byte :=
  match x with
  | none => List.replicate 96 0
  | some x =>
    padTo 96 (((List.range 8).flatMap (fun i => wordBytes (x.desc.getD i 0))) ++ bytesOfNat 8 (x.i0 + at_ x.i1 32) ++
      bytesOfNat 8 (x.i2 + 2 ^ 32))

/-- The image of a saved team (R308). -/
def imageBytes (s : State) (x : SavedTeam) : List Byte :=
  let t := x.team
  let mtx := match t.matrix with
    | none => []
    | some c => scalarBlock c ++ parkField s t .matrix ++ (t.tiles.flatMap tileRecords).flatten ++
        (List.range 4).flatMap (fun i => termBytes (t.termBuf i))
  let acc := match t.access with
    | none => []
    | some c => scalarBlock c ++ parkField s t .access ++ (List.range 4).flatMap (fun i => streamBytes (t.queue i).stream)
  padTo t.imageLen
    (headerBytes s x ++ scalarBlock t.team ++ (List.range 16).flatMap (fun i => bytesOfNat 128 t.k[Fin.ofNat 16 i].toNat) ++
      bytesOfNat 128 t.live.toNat ++ (List.range 4).flatMap (fun i => entryBytes x.entries[i]?) ++
      t.v.flatMap laneBytes ++ t.queues.flatMap (queueBytes t) ++ mtx ++ acc)

/-! ### Reading an image back (R302, R312) -/

/-- Whether a part of an image is zero. -/
def zerosAt (b : List Byte) (off n : Nat) : Bool := ((b.drop off).take n).all (· == 0)

/-- The reserved bits of a park-record field (R299). -/
def parkReserved (b : List Byte) (off : Nat) : Bool := bits (fld b (off + 0x10) 8) 63 48 == 0 && bits (fld b (off + 0x10) 8) 15 7 == 0

/-- The reserved bits of a mapping-entry record: those of M2, and those of M3 that hold neither n nor the mark of use (R102, R308). -/
def entryReserved (b : List Byte) (off : Nat) : Bool := bits (fld b (off + 16) 8) 63 40 == 0 && bits (fld b (off + 24) 8) 56 41 == 0

/-- The check of an image that a RESTORE reads (R302): fixed fields and reserved fields as in the saved one. -/
def imageOk (s : State) (x : SavedTeam) (b : List Byte) : Bool :=
  let t := x.team
  let lid := ((s.launch? x.launch).map (·.lrec.lid)).getD 0
  fld b 0 4 == 0x4C385349 && fld b 4 2 == 1 && fld b 6 2 == 0 && fld b 8 8 == lid.toNat && fld b 0x10 4 == t.t &&
  fld b 0x14 4 == t.imageLen && fld b 0x18 1 == x.die && fld b 0x19 1 == 0 && bits (fld b 0x1A 2) 15 9 == 0 &&
  bits (fld b 0x1C 4) 31 2 == 0 && zerosAt b 0xA0 96 && zerosAt b 0x130 16 && parkReserved b 0x20 &&
  (List.range 4).all (fun i => entryReserved b (0xBC0 + 32 * i)) &&
  (t.matrix.isNone || (zerosAt b (t.moff + 0x30) 16 && parkReserved b (t.moff + 0x240))) &&
  (t.access.isNone || (zerosAt b (t.aoff + 0x30) 16 && parkReserved b (t.aoff + 0x240)))

/-- A word of an image. -/
def wordAt (b : List Byte) (off : Nat) : Word := BitVec.ofNat 64 (fld b off 8)

/-- The bits of MD that are not reserved in a context's layout (R20, R21). -/
def mdMask (k : CtxKind) : BitVec 26 := if k = .matrix then 0x1FFFFFF else 0x1FFFF

/-- A context with the scalar state of a block of an image (R310); it stays running, parked or ended. PC and RGNPC hold no bits [1:0]
(R14), and MD's reserved bits are read-only: an image neither sets them nor fails by them (R20, R302; log 30). -/
def readScalars (k : CtxKind) (c : Ctx) (b : List Byte) (off : Nat) : Ctx :=
  let blk := (b.drop off).take 576
  let code (x : Word) : Word := x &&& ~~~3
  { c with
    pc := code (wordAt blk 0), isc := wordAt blk 8, rgnpc := code (wordAt blk 0x10), rgncnt := wordAt blk 0x18
    md := BitVec.ofNat 26 (fld blk 0x20 8) &&& mdMask k, fpfl := BitVec.ofNat 6 (fld blk 0x28 8)
    s := Vector.ofFn (fun i : Fin 64 => if i.val = 0 then 0 else wordAt blk (0x40 + 8 * i.val)) }

/-- `n` words of four bytes. -/
def lanesAt (b : List Byte) (off n : Nat) : List Lane :=
  let blk := (b.drop off).take (4 * n)
  (List.range n).map (fun i => BitVec.ofNat 32 (fld blk (4 * i) 4))

/-- A mapping-entry record in use (R308). -/
def readEntry (b : List Byte) (off : Nat) : Option (Nat × List Word) :=
  let m3 := fld b (off + 24) 8
  if bitAt m3 57 then
    some (bits m3 63 58, [wordAt b off, wordAt b (off + 8), wordAt b (off + 16), BitVec.ofNat 64 (m3 % 2 ^ 57)])
  else none

/-- A queue read from an image; its stream comes from the access section. -/
def readQueue (t : Team) (b : List Byte) (i : Nat) : OpQueue :=
  let blk := (b.drop (t.qoff + i * (64 + 4 * t.qdepth * t.nl))).take (64 + 4 * t.qdepth * t.nl)
  let head := fld blk 0 4
  { entries := (List.range (min (head % 65536) t.qdepth)).map (fun j => lanesAt blk (64 + 4 * t.nl * j) t.nl)
    closed := bitAt head 16, stream := none }

/-- A tile read from an image: a record that has not been edited gives the element that was saved. -/
def readTile (x : Tile) (b : List Byte) (off : Nat) : Tile :=
  let rec_ (i : Nat) : List Byte := (b.drop (off + 96 * i)).take 96
  match x with
  | .exact _ => .exact ((List.range 4096).map (fun i => Xa.ofRecord (rec_ i)))
  | .semi tag es =>
    .semi tag (es.zipIdx.map (fun p =>
      if rec_ p.2 = padTo 96 (Config.semiRecord tag p.1) then p.1 else Config.semiElement tag (rec_ p.2)))

/-- A term buffer read from an image (R311). -/
def readTerm (b : List Byte) (off : Nat) : TermBuf :=
  let head := fld b off 8
  let ty := bits head 3 0
  let m := bits head 14 8
  let k := bits head 22 16
  { valid := bitAt head 31, typeA := ty, m := m, k := k, spat := bits head 25 24, stat := wordAt b (off + 8)
    words := lanesAt b (off + 64) (elemWords ty (m * k)) ++ lanesAt b (off + 64 + 2048) (scaleWords ty (m * k)) }

/-- A stream read from an image (R311); a pause that awaits a reply goes on. -/
def readStream (old : Option Stream) (b : List Byte) (off : Nat) : Option Stream :=
  let w9 := fld b (off + 72) 8
  if bitAt w9 32 then
    some { desc := (List.range 8).map (fun i => wordAt b (off + 8 * i)), i0 := fld b (off + 64) 4, i1 := fld b (off + 68) 4
           i2 := w9 % 2 ^ 32, upto := 0, paused := (old.map (·.paused)).getD false }
  else none

/-- The saved team with the state of an image in place of its own (R302). -/
def readImage (x : SavedTeam) (b : List Byte) : SavedTeam :=
  let t := x.team
  let live : Mask := BitVec.ofNat 1024 (fld b 0xB40 128) &&& lanesBelow t.nl
  let ks := Vector.ofFn (fun i : Fin 16 => BitVec.ofNat 1024 (fld b (0x340 + 128 * i.val) 128) &&& lanesBelow t.nl)
  let ks := ks.set 0 (ks[0] &&& live)
  let flags := fld b 0x1C 4
  let turned := if bitAt flags 1 == (t.cbar.passed % 2 == 1) then 0 else 1
  let queues := (List.range t.nq).map (fun i =>
    let q := readQueue t b i
    if t.access.isSome then { q with stream := readStream (t.queue i).stream b (t.aoff + 0x2C0 + 96 * i) } else q)
  let base := t.moff + 0x2C0
  { x with
    entries := (List.range 4).filterMap (fun i => readEntry b (0xBC0 + 32 * i))
    team := { t with
      team := readScalars .team t.team b 0x100, live := live, k := ks
      v := (List.range t.nv).map (fun r => lanesAt b (0xC40 + 4 * r * t.nl) t.nl)
      queues := queues
      cbar := { t.cbar with isOpen := bitAt flags 0, arrived := t.cbar.arrived + turned, passed := t.cbar.passed + turned }
      matrix := t.matrix.map (fun c => readScalars .matrix c b t.moff)
      tiles := if t.matrix.isSome then t.tiles.zipIdx.map (fun p => readTile p.1 b (base + 393216 * p.2)) else t.tiles
      tbs := if t.matrix.isSome then (List.range 4).map (fun i => readTerm b (base + 393216 * t.nacc + 2368 * i)) else t.tbs
      access := t.access.map (fun c => readScalars .access c b t.aoff) } }

end Sys2Proof.Machine
end

