-- ==== Sys2Proof/Machine/Preempt.lean ====
section
/-! DEFINITION. Machine/Preempt.lean: pre-emption, saving, flushing and restoring teams (R304 to R307, R312), the kill by policy
(R313) and the loss of a core (R314). -/

namespace Sys2Proof.Machine

/-! ### Choosing what to pre-empt (R304) -/

/-- The first cluster of a launch that waits for placement on a die. -/
def firstWaiting (l : Launch) (die : Nat) : Option Nat := l.unplaced.find? (fun c => l.lrec.dieOf c == some die)

/-- Whether a cluster of a launch finds a rectangle on a die that has room now. -/
def fitsSomewhere (s : State) (l : Launch) (die : Nat) : Bool :=
  (List.range 8).any (fun col => (List.range 6).any (fun row =>
    match rectangle (s.die die) (l.coreSet die) l.lrec.cw l.lrec.ch col row with
    | some cores => cores.all (fun c => coreCanFit s die c l.lrec)
    | none => false))

/-- The package without the teams that are being pre-empted. -/
def withoutStopped (s : State) : State := { s with teams := s.teams.filter (fun t => t.stop.isNone) }

/-- The resident members of a cluster. -/
def State.members (s : State) (launch cluster : Nat) : List Team :=
  s.teams.filter (fun t => t.launch = launch && t.cluster = cluster)

/-- The launch to pre-empt on a die for one of this priority: the lowest priority, then the youngest (R304). -/
def victimLaunch (s : State) (die prio : Nat) : Option Launch :=
  (s.hub.launches.filter (fun k => k.isOpen && k.prio < prio &&
      s.teams.any (fun t => t.launch = k.sid && t.ref.die = die && t.stop.isNone))).foldl
    (fun (b : Option Launch) k =>
      match b with
      | none => some k
      | some x => if k.prio < x.prio || (k.prio = x.prio && x.adm < k.adm) then some k else some x) none

/-- Whether a team may be restarted (R307). -/
def Team.mayRestart (t : Team) : Bool :=
  let parked (c : Ctx) : Bool := match c.run with | .parkedFault | .parkedTrap | .parkedBrk => true | _ => false
  t.restartable && !parked t.team && !(t.matrix.map parked).getD false && !(t.access.map parked).getD false

/-- Bytes of save images that a die's pool holds or is to hold. -/
def poolUsed (s : State) (die : Nat) : Nat :=
  sumNat ((s.hub.saved.filter (fun x => x.die = die)).map (fun x => x.team.imageLen)) +
  sumNat ((s.teams.filter (fun t => t.ref.die = die && (match t.stop with | some (.save ..) => true | _ => false))).map Team.imageLen)

/-- Whether the pool has room for the images of these teams. -/
def poolFits (s : State) (die : Nat) (ts : List Team) : Bool :=
  poolUsed s die + sumNat (ts.map Team.imageLen) ≤ s.hub.spSize[Fin.ofNat 8 die]

/-- The action for a cluster: the first row of R304 that applies. A flush needs every member of the cluster in its slot. -/
def actionFor (s : State) (k : Launch) (die waiter : Nat) (ms : List Team) : Stop :=
  let isc := (ms.map (fun t => t.team.isc.toNat)).foldl max 0
  let e := k.lrec.expic
  let idle := ms.any (fun t => match t.slot with | .waiting _ | .parked => true | _ => false)
  if k.lrec.ppol = 2 then .drain
  else if e ≠ 0 && 3 * e ≤ 4 * isc && !idle then .drain
  else if k.lrec.ppol = 0 && k.lrec.idemp && ms.length = k.lrec.c && ms.all Team.mayRestart && (e = 0 || 4 * isc < e) then .flush waiter
  else if poolFits s die ms then .save false none
  else .drain

/-- Sets what a cluster awaits. -/
def State.stopCluster (s : State) (launch cluster : Nat) (f : Team → Stop) : State :=
  { s with teams := s.teams.map (fun t => if t.launch = launch && t.cluster = cluster then { t with stop := some (f t) } else t) }

/-- The hub pre-empts a cluster of a launch for another; a DRAIN holds back the launch's new teams on the die (R304, R305). -/
def preemptCluster (s : State) (k : Launch) (die cluster waiter : Nat) : State :=
  let act := actionFor s k die waiter (s.members k.sid cluster)
  let s := s.stopCluster k.sid cluster (fun _ => act)
  match act with
  | .drain => s.putLaunch { k with held := k.held ++ [(die, waiter)] }
  | _ => s

/-- Whether a launch waits to be placed on a die that has no room for it, even once what is being pre-empted has gone (R304). -/
def shutOut (s : State) (l : Launch) (die : Nat) : Bool :=
  l.st == .running && (firstWaiting l die).isSome && mayStart s l && dieServes s die && !fitsSomewhere (withoutStopped s) l die

/-- Whether a launch comes before every other that waits so on the die: the higher priority, then the earlier taken (R362). -/
def preemptsFirst (s : State) (l : Launch) (die : Nat) : Bool :=
  s.hub.launches.all (fun k => k.sid == l.sid || k.prio < l.prio || (k.prio == l.prio && l.sid < k.sid) || !shutOut s k die)

/-- PREEMPTION: for an admitted launch whose first cluster cannot be placed on a die, one cluster of a launch of lower priority is
pre-empted, unless those that are being pre-empted already make the room (R304, R305). Of the launches that wait so, the highest priority and
then the earliest taken is served (R362); of the victim's resident clusters the one placed first goes first (DESIGN CHOICE, log 53). -/
def execPreemption (launch die : Nat) (s : State) : Host.Outcome State Fault Refusal :=
  match s.launch? launch with
  | none => .next s
  | some l =>
    if !shutOut s l die || !preemptsFirst s l die then .next s
    else
      match victimLaunch s die l.prio with
      | none => .next s
      | some k =>
        match s.teams.find? (fun t => t.launch = k.sid && t.ref.die = die && t.stop.isNone) with
        | none => .next s
        | some v => .next (preemptCluster s k die v.cluster launch)

/-! ### Stopping a team (R306) -/

/-- Whether a context still runs between an argument store and its GO (R263). -/
def Ctx.mustRun (c : Ctx) : Bool := c.run == .running && c.argPend

/-- Whether some context of a team does. -/
def Team.mustRun (t : Team) : Bool := t.team.mustRun || (t.matrix.map Ctx.mustRun).getD false || (t.access.map Ctx.mustRun).getD false

/-- Whether a cluster that is pre-empted runs on: a context of a member has stored an argument since its last GO (R263, R306). It runs on
as a whole, since that context may wait on the others. -/
def runsOn (s : State) (t : Team) : Bool := (s.members t.launch t.cluster).any Team.mustRun

/-- Whether a context stands where a save may take it: every result of its windows is written (R306). -/
def ctxStill (s : State) (c : Ctx) : Bool := c.windows.all (fun w => s.written w.op)

/-- Whether a stopped team may be saved or flushed: R306, steps 1 to 3. -/
def stoppedStill (s : State) (t : Team) : Bool :=
  !runsOn s t && ctxStill s t.team && (t.matrix.map (ctxStill s)).getD true && (t.access.map (ctxStill s)).getD true &&
  s.ops.all (fun o => o.own.ref ≠ t.ref) && s.cmds.all (fun c => c.own.ref ≠ t.ref) &&
  s.arrivals.all (fun a => a.by_.ref ≠ t.ref && a.owner ≠ t.ref) && t.cbar.pending.isNone && !stashAwaited s t.ref

/-- A context as its image holds it: nothing pending. -/
def Ctx.settled (c : Ctx) : Ctx := { c with windows := [], hold := none, argPend := false }

/-- Whether the region entry of a restored context counts as explicit, and its tag, do not survive a save (R29): they are free (log 30). -/
def Ctx.reentered (c : Ctx) (n : Nat) : Ctx :=
  let x := Config.restoredEntry n
  { c with impl := x.getLsbD 16, tag := if x.getLsbD 16 then 0 else x.truncate 16 }

/-- Removes a team from its slot. -/
def State.removeTeam (s : State) (t : Team) : State :=
  let s := foldProgress s t
  let r := t.ref
  { s with
    teams := s.teams.filter (fun t => t.ref ≠ r)
    readyQ := s.readyQ.filter (fun x => x ≠ r)
    maps := s.maps.map (fun m => if m.home = some r then { m with home := none } else m) }

/-- The state of a team that is saved (R29, R306, step 4): in an open atomic region the team context stands at its region entry. The
SAVE closes every open region with code 4 (R249); whether the codes outlast the save is for the restore (log 30). -/
def Team.forImage (t : Team) : Team :=
  let open_ := t.regions.any (fun r => r.code = 0)
  let c := t.team.settled
  { t with
    team := if open_ && c.run = .running then { c with pc := c.rgnpc, isc := c.rgncnt } else c
    matrix := t.matrix.map Ctx.settled, access := t.access.map Ctx.settled
    v := t.vEnd.getD t.v
    queues := t.queues.map (fun q => { q with stream := q.stream.map (fun x => { x with words := [], part := [] }) })
    regions := (t.closeRegions 4).regions
    stash := [], bag := [], handles := [], args := Vector.replicate 4 (Vector.replicate 4 (0 : Word)), stop := none }

/-- Whether what the contexts of a team have observed is performed for DEVICE scope (R306, step 3). -/
def fencedOut (s : State) (t : Team) : Bool :=
  [CtxKind.team, .matrix, .access].all (fun k => s.observedPerformed { ref := t.ref, kind := k } .device s.serial)

/-- CONTEXT_SAVE: a team that is to be saved, and stands still, is performed for DEVICE scope; its windows are written back and
freed, its image goes to the save pool and its slot is free (R306). A SAVE reply's buffer receives the image (R302). -/
def execContextSave (die core slot : Nat) (s : State) : Host.Outcome State Fault Refusal :=
  match s.team? { die := die, core := core, slot := slot } with
  | none => .next s
  | some t =>
    match t.stop with
    | some (.save byReply buffer) =>
      if !stoppedStill s t || !fencedOut s t then .next s
      else
        let mine := s.attached t.ref
        let entries := mine.map (fun m => (m.n, [m.m0, m.m1, m.m2, m.m3]))
        let s := mine.foldl (fun s m => freeMap (writeBackAll s m) m) s
        let x : SavedTeam :=
          { launch := t.launch, cluster := t.cluster, die := die, team := t.forImage, entries := entries, byReply := byReply }
        let s := s.removeTeam t
        let s := match buffer with
          | some a => s.hostPut a.toNat (imageBytes s x)
          | none => s
        .next { s with hub := { s.hub with saved := s.hub.saved ++ [x] } }
    | _ => .next s

/-- FLUSH_AND_RESTART: a team that is to be flushed, and stands still, loses its state; its windows are detached and its slot is free.
When the last member is gone the cluster waits for placement as new (R307). A cluster that has run on (R263) and may no longer be
restarted is pre-empted anew (R304). -/
def execFlushAndRestart (die core slot : Nat) (s : State) : Host.Outcome State Fault Refusal :=
  match s.team? { die := die, core := core, slot := slot } with
  | none => .next s
  | some t =>
    match t.stop with
    | some (.flush waiter) =>
      if runsOn s t then .next s
      else if !(s.members t.launch t.cluster).all Team.mayRestart then
        match s.launch? t.launch with
        | none => .next s
        | some l => .next (preemptCluster s l die t.cluster waiter)
      else if !stoppedStill s t then .next s
      else
        let s : State := { s with maps := s.maps.map (fun m => if m.owner = some t.ref then { m with owner := none } else m) }
        let s := s.removeTeam t
        match s.launch? t.launch with
        | none => .next s
        | some l =>
          .next (if (s.members t.launch t.cluster).isEmpty then s.putLaunch { l with unplaced := l.unplaced ++ [t.cluster] } else s)
    | _ => .next s

/-! ### Restore (R312) -/

/-- Attaches a recorded entry to a restored team: a detached entry with the same parameters is reused, else it is mapped invalid
(R108, R312). -/
def attachEntry (s : State) (t : Team) (e : Nat × List Word) : State :=
  let die := t.ref.die
  let core := t.ref.core
  let m : MapEntry :=
    { die := die, core := core, n := e.1, lv := t.lv, owner := some t.ref, home := some t.ref, age := s.serial
      m0 := e.2.getD 0 0, m1 := e.2.getD 1 0, m2 := e.2.getD 2 0, m3 := e.2.getD 3 0, secs := [] }
  match s.map? die core t.lv e.1 with
  | some old =>
    if old.sameWindow m then
      s.putMap { old with owner := some t.ref, home := some t.ref }
    else
      let s := reclaimMap s old
      { s with maps := s.maps ++ [m], serial := s.serial + 1 }
  | none =>
    let full := 64 ≤ (s.maps.filter (fun x => x.die = die && x.core = core)).length
    let s := if full then (match oldestDetached s die core with | some o => reclaimMap s o | none => s) else s
    { s with maps := s.maps ++ [m], serial := s.serial + 1 }

/-- The slot state of a restored team (R312, step 4). One whose team context has ended waits in DRAINING for its bound contexts, of which
the step says nothing (log 30). -/
def restoredSlot (t : Team) : SlotState :=
  match t.team.run with
  | .running => .ready
  | .ended => .draining
  | _ => .parked

/-- A held reply acts on its context (R306). -/
def applyHeld (s : State) (h : HeldReply) (ref : TeamRef) : State :=
  if h.abort then s.requestAbort h.sid 0x42
  else
    match s.team? ref with
    | none => s
    | some t =>
      let k : CtxKind := if h.ctx = 0 then .team else if h.ctx = 1 then .matrix else .access
      match t.ctx? k with
      | none => s
      | some c =>
        let s := s.putTeam (t.resumeCtx k c h.rv1 h.rv2)
        if k = .team then s.makeReady ref else s

/-- The atomic regions of a restored team: those that closed with a code before or at the save, or none (R29, R249; log 30). -/
def Team.restoredRegions (t : Team) (n : Nat) : List LaneRegion := if Config.restoredCodes n then t.regions else []

/-- Puts one saved team into a slot (R312). -/
def restoreTeam (s : State) (x : SavedTeam) (ref : TeamRef) : State :=
  let enter (c : Ctx) : Ctx := c.reentered s.serial
  let t := { x.team with
    ref := ref, regions := x.team.restoredRegions s.serial, vEnd := if x.team.team.run = RunState.ended then some x.team.v else none
    team := enter x.team.team, matrix := x.team.matrix.map enter, access := x.team.access.map enter }
  let t := { t with slot := restoredSlot t }
  let s := seat { s with serial := s.serial + 1 } t
  let s := if t.slot = .ready then s.makeReady ref else s
  let s := x.entries.foldl (fun s e => attachEntry s t e) s
  let mine := s.hub.heldReplies.filter (fun h => h.sid = x.launch && h.team = t.t)
  let s := { s with hub := { s.hub with heldReplies := s.hub.heldReplies.filter (fun h => !(h.sid == x.launch && h.team == t.t)) } }
  mine.foldl (fun s h => applyHeld s h ref) s

/-- Whether a core may take a saved team: it has room, no entry number of the image is attached there to another live team (R312), and
no access in flight names a detached window there. -/
def coreTakes (s : State) (die core : Nat) (r : LaunchRec) (x : SavedTeam) : Bool :=
  coreCanFit s die core r && s.maps.all (fun m => m.die ≠ die || m.core ≠ core || m.owner.isSome || !homeBusy s m) &&
  x.entries.all (fun e => match s.map? die core x.team.lv e.1 with | some m => m.owner.isNone | none => true)

/-- Puts the members of a saved cluster on their cores. -/
def restoreMembers (die : Nat) (r : LaunchRec) : State → List (Nat × SavedTeam) → Option State
  | s, [] => some s
  | s, (core, x) :: rest =>
    let s := makeRoom s die core r
    match freeSlot s die core with
    | some slot =>
      if coreFits s die core r (stashTaken s die core) then
        restoreMembers die r (restoreTeam s x { die := die, core := core, slot := slot }) rest
      else none
    | none => none

/-- TEAM_RESTORE: a saved cluster, whole and held by no SAVE reply, returns to a rectangle of its die (R312). -/
def execTeamRestore (launch cluster col row : Nat) (s : State) : Host.Outcome State Fault Refusal :=
  match s.launch? launch with
  | none => .next s
  | some l =>
    let xs := s.hub.saved.filter (fun x => x.launch = launch && x.cluster = cluster)
    let leaving := (s.members launch cluster).any (fun t => match t.stop with | some (.save ..) => true | _ => false)
    match xs.head? with
    | none => .next s
    | some x0 =>
      if l.st ≠ .running || leaving || xs.any (·.byReply) || !dieServes s x0.die then .next s
      else
        match rectangle (s.die x0.die) (l.coreSet x0.die) l.lrec.cw l.lrec.ch col row with
        | none => .next s
        | some cores =>
          let seats := xs.map (fun x => (cores.getD (clrank l.lrec x.team.t) 0, x))
          if !seats.all (fun p => coreTakes s x0.die p.1 l.lrec p.2) then .next s
          else
            let s0 := { s with hub := { s.hub with saved := s.hub.saved.filter (fun x => !(x.launch == launch && x.cluster == cluster)) } }
            match restoreMembers x0.die l.lrec s0 seats with
            | none => .next s
            | some s' =>
              match s'.launch? launch with
              | none => .next s'
              | some k => .next (s'.putLaunch (k.watched s))

/-! ### Kills and lost cores (R313, R314) -/

/-- When a launch last showed progress: an instruction, an engine or stream step, a reply, or the placement that ended a time without a
resident team (R313). -/
def lastSign (s : State) (l : Launch) : Nat :=
  (s.teams.filter (fun t => t.launch = l.sid)).foldl (fun n t => max n t.progress.toNat) l.lastProgress.toNat

/-- KILL_BY_POLICY: a launch with a resident team and no progress for KLIM µs, and no record that awaits a reply (R313). -/
def execKillByPolicy (launch : Nat) (s : State) : Host.Outcome State Fault Refusal :=
  match s.launch? launch with
  | none => .next s
  | some l =>
    if l.st = .running && s.hub.klim ≠ 0 && s.teams.any (fun t => t.launch = launch) && !s.hub.parks.any (fun r => r.sid = launch) &&
        lastSign s l + 1000 * s.hub.klim.toNat ≤ s.time.toNat then
      .next (s.requestAbort launch 0x44)
    else .next s

/-- The presented mesh without a lost core (R314, step 2). -/
def Die.loseCore (d : Die) (core : Nat) : Die :=
  let c := d.cols.length
  let r := d.rows.length
  let d := { d with lost := d.lost ++ [core] }
  if !(d.cols.contains (core % 8) && d.rows.contains (core / 8)) then d
  else if (c - 1) * r ≥ c * (r - 1) then { d with cols := d.cols.filter (· ≠ core % 8) }
  else { d with rows := d.rows.filter (· ≠ core / 8) }

/-- Whether a launch holds anything on a core: a team, a command, or a window with data. -/
def onCore (s : State) (die core : Nat) (l : Launch) : Bool :=
  s.teams.any (fun t => t.launch = l.sid && t.ref.die = die && t.ref.core = core) ||
  s.cmds.any (fun c => c.lv = l.lv && c.own.ref.die = die && c.own.ref.core = core) ||
  s.maps.any (fun m => m.lv = l.lv && m.die = die && m.core = core)

/-- CORE_LOSS of a core of the full mesh, by its place (row × 8 + column): its launches end with ABORT_MEMERR, the mesh shrinks,
and launches that no longer fit end with ABORT_PLACEMENT (R314). -/
def execCoreLoss (die core : Nat) (s : State) : Host.Outcome State Fault Refusal :=
  let d := s.die die
  if 8 ≤ die || 48 ≤ core || d.fenced || d.lost.contains core || !s.sec.boot.ready then .next s
  else
    let s := s.abortAll (fun l => l.isOpen && onCore s die core l) 0x43
    let d' := d.loseCore core
    let s := s.setDie die d'
    if d'.cols = d.cols && d'.rows = d.rows then .next s
    else
      let s := s.setBoot (fun b => { b with degr := b.degr ||| BitVec.ofNat 8 (2 ^ die) })
      .next (s.abortAll (fun l => l.isOpen && l.lrec.uses die && !placeable d' l.lrec (l.coreSet die)) 0x46)

end Sys2Proof.Machine
end

