-- ==== Sys2Proof/Machine/Reply.lean ====
section
/-! DEFINITION. Machine/Reply.lean: the replies of the host to park records (R300 to R303, R366): the events REPLY_RESUME, REPLY_ABORT,
REPLY_SAVE and REPLY_RESTORE, each of which takes the next published reply when it carries that action. REPLY_DOORBELL, which
publishes them, is a register write (Driver.lean). -/

namespace Sys2Proof.Machine

/-- A reply entry (R366). -/
structure Reply where
  lid : Word
  lane : Nat
  ctx : Nat
  team : Nat
  action : Nat
  rv1 : Word
  rv2 : Word
  deriving DecidableEq, Repr

/-- The next published reply of a function that the hub has not taken. -/
def nextReply (s : State) (f : Nat) : Option Reply :=
  let r := s.func f
  if !r.rren || r.rrci = r.rrpi then none
  else
    let a := r.rrbase.toNat + 64 * (r.rrci.toNat % 2 ^ r.rrlog2n)
    let w1 := hostNat s (a + 8) 8
    some { lid := BitVec.ofNat 64 (hostNat s a 8), lane := bits w1 63 48, ctx := bits w1 33 32, team := bits w1 31 0
           action := hostNat s (a + 16) 1, rv1 := BitVec.ofNat 64 (hostNat s (a + 24) 8), rv2 := BitVec.ofNat 64 (hostNat s (a + 32) 8) }

/-- Whether a reply names a record (R366). -/
def Reply.names (x : Reply) (f : Nat) (r : ParkRec) : Bool :=
  r.func == f && r.lid == x.lid && r.team == x.team && r.ctx == x.ctx && (r.ctx != 3 || r.lane == x.lane)

/-- The outstanding record that a reply names, of a launch that goes on (R300, R301). -/
def namedRecord (s : State) (f : Nat) (x : Reply) : Option ParkRec :=
  s.hub.parks.find? (fun r => x.names f r && ((s.launch? r.sid).map (fun l => l.acts)).getD false)

/-- RRCI moves past the entry. -/
def passReply (s : State) (f : Nat) : State := s.setFunc f { s.func f with rrci := (s.func f).rrci + 1 }

/-- A reply without effect (R366). -/
def unmatched (s : State) (f : Nat) : State := s.setFunc f { s.func f with rrunm := (s.func f).rrunm + 1 }

/-- Whether the team of a record is on its way to the save pool: the hub then holds a reply for it (R306). -/
def leavingSlot (s : State) (r : ParkRec) : Bool :=
  s.teams.any (fun t => t.launch == r.sid && t.t == r.team && (match t.stop with | some (.save ..) => true | _ => false))

/-- Takes the next reply of a function if it carries this action; a reply with no known action is unmatched, whichever event takes
it. -/
def takeReply (s : State) (f action : Nat) (act : State → Reply → ParkRec → Option State) : State :=
  match nextReply s f with
  | none => s
  | some x =>
    if x.action = 0 || 4 < x.action then unmatched (passReply s f) f
    else if x.action ≠ action then s
    else
      match namedRecord s f x with
      | none => unmatched (passReply s f) f
      | some r => (act (passReply s f) x r).getD s

/-- Removes a record that a reply has answered; until now it was progress of its launch (R313). -/
def answer (s : State) (r : ParkRec) : State :=
  let s := { s with hub := { s.hub with parks := s.hub.parks.erase r } }
  s.progress r.sid

/-- Whether a saved team is the one of a record. -/
def SavedTeam.isOf (x : SavedTeam) (r : ParkRec) : Bool := x.launch == r.sid && x.team.t == r.team

/-- A cluster that a SAVE reply held may be restored: its saved members, and those still on their way to the pool (R302). -/
def freeCluster (s : State) (launch cluster : Nat) : State :=
  { s with
    teams := s.teams.map (fun m =>
      if m.launch = launch && m.cluster = cluster then
        { m with stop := match m.stop with | some (.save _ b) => some (.save false b) | x => x }
      else m)
    hub := { s.hub with saved := s.hub.saved.map (fun y =>
      if y.launch = launch && y.cluster = cluster then { y with byReply := false } else y) } }

/-- The cluster of a record's team, saved or resident. -/
def clusterOf (s : State) (r : ParkRec) : Option Nat :=
  ((s.hub.saved.find? (fun y => y.isOf r)).map (·.cluster)).or
    ((s.teams.find? (fun t => t.launch = r.sid && t.t = r.team)).map (·.cluster))

/-- The context code of a record. -/
def ParkRec.kind (r : ParkRec) : CtxKind := if r.ctx = 0 then .team else if r.ctx = 1 then .matrix else .access

/-- The paused engine command or stream of a record goes on (R303). -/
def unpause (s : State) (r : ParkRec) : State :=
  if r.lane < 4 then { s with cmds := s.cmds.map (fun c => if c.id = r.cmd then { c with paused := false } else c) }
  else
    let free (t : Team) : Team :=
      let q := t.queue (r.lane - 4)
      t.setQueue (r.lane - 4) { q with stream := q.stream.map (fun x => { x with paused := false }) }
    { s with
      teams := s.teams.map (fun t => if t.launch = r.sid && t.t = r.team then free t else t)
      hub := { s.hub with saved := s.hub.saved.map (fun x => if x.isOf r then { x with team := free x.team } else x) } }

/-- A RESUME or ABORT of a record whose team is saved or being saved: it is held until the context is restored, which it now may be
(R302, R306). -/
def holdReply (s : State) (r : ParkRec) (abort : Bool) (rv1 rv2 : Word) : State :=
  let s := match clusterOf s r with
    | some c => freeCluster (answer s r) r.sid c
    | none => answer s r
  { s with hub := { s.hub with
      heldReplies := s.hub.heldReplies ++
        [{ sid := r.sid, team := r.team, ctx := r.ctx, abort := abort, rv1 := rv1, rv2 := rv2, record := r }] } }

/-- Whether the team of a record is saved or being saved. -/
def outOfSlot (s : State) (r : ParkRec) : Bool := leavingSlot s r || s.hub.saved.any (fun y => y.isOf r)

/-- RESUME of a context (R297, R301): once every result it awaited has been written (R198). -/
def resumeContext (s : State) (x : Reply) (r : ParkRec) : Option State :=
  if outOfSlot s r then some (holdReply s r false x.rv1 x.rv2)
  else
    match s.teams.find? (fun t => t.launch = r.sid && t.t = r.team) with
    | none => none
    | some t =>
      match t.ctx? r.kind with
      | none => none
      | some c =>
        if !c.windows.all (fun w => s.written w.op) then none
        else
          let s := (answer s r).putTeam (t.resumeCtx r.kind c x.rv1 x.rv2)
          some (if r.kind = .team then s.makeReady t.ref else s)

/-- RESUME of a paused command or stream (R303): a cluster that a SAVE reply holds may be restored first (R302). -/
def resumeUnit (s : State) (r : ParkRec) : State :=
  let s := answer s r
  unpause (match clusterOf s r with | some c => freeCluster s r.sid c | none => s) r

/-- REPLY_RESUME (R301). -/
def execReplyResume (func : Nat) (s : State) : Host.Outcome State Fault Refusal :=
  .next (takeReply s func 1 (fun s x r => if r.ctx = 3 then some (resumeUnit s r) else resumeContext s x r))

/-- REPLY_ABORT (R301, R303). -/
def execReplyAbort (func : Nat) (s : State) : Host.Outcome State Fault Refusal :=
  .next (takeReply s func 2 (fun s _ r =>
    if r.ctx ≠ 3 && outOfSlot s r then some (holdReply s r true 0 0) else some ((answer s r).requestAbort r.sid 0x42)))

/-- The members of a cluster that pre-emption has saved are held by a SAVE reply (R302). -/
def holdSaved (s : State) (launch cluster : Nat) : State :=
  { s with hub := { s.hub with saved := s.hub.saved.map (fun z =>
      if z.launch = launch && z.cluster = cluster then { z with byReply := true } else z) } }

/-- A SAVE reply to the record of a team (R302): its resident cluster is to be saved, or the image of a cluster that pre-emption has
saved is written out at once. None where the reply is unmatched. -/
def saveCluster (s : State) (x : Reply) (r : ParkRec) : Option State :=
  match s.hub.saved.find? (fun y => y.isOf r) with
  | some y =>
    if y.byReply || x.rv2.toNat < y.team.imageLen then none
    else
      let s := holdSaved (s.hostPut x.rv1.toNat (imageBytes s y)) y.launch y.cluster
      some (s.stopCluster y.launch y.cluster (fun _ => .save true none))
  | none =>
    match s.teams.find? (fun t => t.launch = r.sid && t.t = r.team) with
    | none => none
    | some t =>
      let ms := s.members t.launch t.cluster
      let s0 := { s with teams := s.teams.map (fun m => if m.launch = t.launch && m.cluster = t.cluster then { m with stop := none } else m) }
      if x.rv2.toNat < t.imageLen || !poolFits s0 t.ref.die ms then none
      else
        some ((holdSaved s t.launch t.cluster).stopCluster t.launch t.cluster
          (fun m => .save true (if m.t = t.t then some x.rv1 else none)))

/-- Whether a SAVE reply has already been given for the team of a record. -/
def savingByReply (s : State) (r : ParkRec) : Bool :=
  s.teams.any (fun t => t.launch == r.sid && t.t == r.team && (match t.stop with | some (.save true _) => true | _ => false))

/-- REPLY_SAVE (R302). -/
def execReplySave (func : Nat) (s : State) : Host.Outcome State Fault Refusal :=
  .next (takeReply s func 3 (fun s x r =>
    if r.ctx = 3 || x.rv1.toNat % 256 ≠ 0 || savingByReply s r then some (unmatched s func)
    else some ((saveCluster s x r).getD (unmatched s func))))

/-- REPLY_RESTORE (R302): the edited image takes the place of the saved one, and the cluster may be restored; an image that fails
its check ends the launch with ABORT_MEMERR and fires alarm source 7 (R377). -/
def execReplyRestore (func : Nat) (s : State) : Host.Outcome State Fault Refusal :=
  .next (takeReply s func 4 (fun s x r =>
    if r.ctx = 3 then some (unmatched s func)
    else
      match s.hub.saved.find? (fun y => y.isOf r && y.byReply) with
      | none => some (unmatched s func)
      | some y =>
        let b := s.mem.getN (hostPa x.rv1.toNat) y.team.imageLen
        if !imageOk s y b then some ((s.requestAbort r.sid 0x43).raiseAlarm 7)
        else
          let put (z : SavedTeam) : SavedTeam := if z.isOf r then readImage z b else z
          some (freeCluster { s with hub := { s.hub with saved := s.hub.saved.map put } } y.launch y.cluster)))

end Sys2Proof.Machine
end

