-- ==== Sys2Proof/Machine/Sfu.lean ====
section
/-! DEFINITION. Machine/Sfu.lean: the special functions of R223 and R224, each the exact mathematical value rounded once.
Algebraic functions round from an exact quotient or root. A transcendental value is enclosed between two integers over a
power of two, ever more finely, until both ends round alike; it is irrational at every operand that reaches the enclosure,
so it never equals a boundary. -/

namespace Sys2Proof.Machine

/-- Bitwise integer square root: the largest r below 2^n with r² ≤ x, building on `r`. -/
def isqrtAux (x : Nat) : Nat → Nat → Nat
  | 0, r => r
  | n + 1, r => if (r + 2 ^ n) * (r + 2 ^ n) ≤ x then isqrtAux x n (r + 2 ^ n) else isqrtAux x n r

/-- Integer square root. -/
def isqrt (x : Nat) : Nat := isqrtAux x (bitLen x / 2 + 1) 0

/-- Rounds a positive quotient `a / b · 2^e`. -/
def roundQuot (t : Nat) (r : Rnd) (neg : Bool) (a b : Nat) (e : Int) : Nat × Flags :=
  let k := bitLen b + 100
  roundFin t r neg (a * 2 ^ k / b) (e - (k : Int)) (a * 2 ^ k % b != 0)

/-- Rounds the square root of a positive value `m · 2^e`. -/
def roundSqrt (t : Nat) (r : Rnd) (m : Nat) (e : Int) : Nat × Flags :=
  let (m, e) := if e % 2 = 0 then (m, e) else (2 * m, e - 1)
  let x := m * 2 ^ 200
  let s := isqrt x
  roundFin t r false s (e / 2 - 100) (s * s != x)

/-- Rounds the reciprocal square root of a positive value `m · 2^e`. -/
def roundRsqrt (t : Nat) (r : Rnd) (m : Nat) (e : Int) : Nat × Flags :=
  let (m, e) := if e % 2 = 0 then (m, e) else (2 * m, e - 1)
  let k := bitLen m / 2 + 101
  let x := 2 ^ (2 * k) / m
  let s := isqrt x
  roundFin t r false s (-(e / 2) - (k : Int)) (s * s * m != 2 ^ (2 * k))

/-! ### Enclosures

An enclosure (lo, hi) at precision p stands for a nonnegative real between lo/2^p and hi/2^p. -/

/-- An enclosure at a precision. -/
abbrev Encl := Nat × Nat

/-- Product. -/
def Encl.mul (p : Nat) (a b : Encl) : Encl := (a.1 * b.1 / 2 ^ p, a.2 * b.2 / 2 ^ p + 1)
/-- Sum. -/
def Encl.add (a b : Encl) : Encl := (a.1 + b.1, a.2 + b.2)
/-- Difference of a larger and a smaller real. -/
def Encl.sub (a b : Encl) : Encl := (a.1 - b.2, a.2 - b.1)
/-- Quotient by a positive natural number. -/
def Encl.divNat (a : Encl) (n : Nat) : Encl := (a.1 / n, a.2 / n + 1)
/-- Quotient by a positive real. -/
def Encl.div (p : Nat) (a b : Encl) : Encl := (a.1 * 2 ^ p / b.2, a.2 * 2 ^ p / b.1 + 1)

/-- Sum of the power series with first term `t` and ratio `x / f(k)` from term to term, every other term set apart: the
sums of the even and of the odd terms. -/
def series (p : Nat) (x : Encl) (f : Nat → Nat) : Nat → Nat → Encl → Encl → Encl → Encl × Encl
  | 0, _, t, ev, od => (ev.add t, od.add t)
  | n + 1, k, t, ev, od =>
    let t' := (Encl.mul p t x).divNat (f k)
    -- the sums swap places each term, so that `ev` always takes the next one
    let (a, b) := series p x f n (k + 1) t' od (ev.add t)
    (b, a)

/-- exp of a real in [0, 1]: after n terms the rest is below the last term. -/
def eexp (p : Nat) (x : Encl) : Encl :=
  let one : Encl := (2 ^ p, 2 ^ p)
  let (a, b) := series p x (fun k => k + 1) p 0 one (0, 0) (0, 0)
  (a.1 + b.1 - 1, a.2 + b.2 + 1)

/-- Σ x^(2k+1)/(2k+1) for a real x in [0, 1/2]: `y` is x², `t` the next power, `n` terms. -/
def oddPowers (p : Nat) (y : Encl) : Nat → Nat → Encl → Encl
  | 0, _, t => (0, 2 * t.2)
  | n + 1, k, t => (t.divNat (2 * k + 1)).add (oddPowers p y n (k + 1) (Encl.mul p t y))

/-- ln 2 = 2·artanh(1/3). -/
def ln2 (p : Nat) : Encl :=
  let x : Encl := (2 ^ p / 3, 2 ^ p / 3 + 1)
  let s := oddPowers p (Encl.mul p x x) p 0 x
  (2 * s.1, 2 * s.2)

/-- arctan(1/n) as the difference of the even and the odd terms of its series. -/
def arctanInv (p n : Nat) : Encl :=
  let x : Encl := (2 ^ p / n, 2 ^ p / n + 1)
  let y := Encl.mul p x x
  let z := Encl.mul p y y
  -- Σ x^(4k+1)/(4k+1) − Σ x^(4k+3)/(4k+3)
  let rec go : Nat → Nat → Encl → Encl
    | 0, _, t => (0, t.2)
    | m + 1, k, t => (t.divNat k).add (go m (k + 4) (Encl.mul p t z))
  (go (p / 4 + 2) 1 x).sub (go (p / 4 + 2) 3 (Encl.mul p x y))

/-- π by Machin's formula. -/
def epi (p : Nat) : Encl :=
  let a := arctanInv p 5
  let b := arctanInv p 239
  (16 * a.1 - 4 * b.2, 16 * a.2 - 4 * b.1)

/-- sin of a real in [0, 1]: Σ x^(4k+1)/(4k+1)! − Σ x^(4k+3)/(4k+3)!. -/
def esin (p : Nat) (x : Encl) : Encl :=
  let y := Encl.mul p x x
  let (a, b) := series p y (fun k => (2 * k + 2) * (2 * k + 3)) (p / 2 + 2) 0 x (0, 0) (0, 0)
  (a.1 - b.2 - 1, a.2 - b.1 + 1)

/-- cos of a real in [0, 1]. -/
def ecos (p : Nat) (x : Encl) : Encl :=
  let y := Encl.mul p x x
  let (a, b) := series p y (fun k => (2 * k + 1) * (2 * k + 2)) (p / 2 + 2) 0 (2 ^ p, 2 ^ p) (0, 0) (0, 0)
  (a.1 - b.2 - 1, a.2 - b.1 + 1)

/-- Rounds an irrational positive real enclosed by `f p`, an enclosure at precision p scaled by 2^e, trying one precision
after another; `tie` answers if none separates it from a boundary (log 11). -/
def roundEncl (t : Nat) (r : Rnd) (neg : Bool) (e : Int) (f : Nat → Encl) (tie : Nat) : List Nat → Nat × Flags
  | [] => (tie % 2 ^ typeBits t, fNX)
  | p :: ps =>
    let (lo, hi) := f p
    let a := roundFin t r neg lo (e - (p : Int)) true
    let b := roundFin t r neg (hi - 1) (e - (p : Int)) true
    if lo ≠ 0 && a = b then a else roundEncl t r neg e f tie ps

/-- The precisions tried. -/
def precisions : List Nat := [160, 320, 640, 1280, 2560]

/-- A positive value `m · 2^e` cut to a natural number at precision p (exact when the precision suffices). -/
def fixedAt (p : Nat) (m : Nat) (e : Int) : Encl :=
  if 0 ≤ e + (p : Int) then let x := m * 2 ^ (e + (p : Int)).toNat; (x, x)
  else let x := m / 2 ^ (-(e + (p : Int))).toNat; (x, x + 1)

/-- 2^a for finite nonzero a = (−1)^neg·m·2^e. -/
def fexp2 (t : Nat) (r : Rnd) (tie : Nat) (neg : Bool) (m : Nat) (e : Int) : Nat × Flags :=
  let top := (bitLen m : Int) - 1 + e
  if 13 ≤ top then
    -- far out of every range: overflow or a value below every subnormal
    if neg then roundFin t r false 1 (-5000) true else roundFin t r false 1 5000 true
  else if top < -200 then
    if neg then roundFin t r false (2 ^ 300 - 1) (-300) true else roundFin t r false (2 ^ 300) (-300) true
  else
    -- a = n + x/d with 0 ≤ x < d, exactly
    let d : Nat := 2 ^ (-e).toNat
    let v : Int := if neg then -((m * 2 ^ e.toNat : Nat) : Int) else (m * 2 ^ e.toNat : Nat)
    let n := v / (d : Int)
    let x := (v % (d : Int)).toNat
    if x = 0 then roundFin t r false 1 n false
    else
      let y (p : Nat) : Encl := (x * 2 ^ p / d, x * 2 ^ p / d + 1)
      roundEncl t r false n (fun p => eexp p (Encl.mul p (ln2 p) (y p))) tie precisions

/-- log2 of a positive finite value m·2^e. -/
def flog2 (t : Nat) (r : Rnd) (tie : Nat) (m : Nat) (e : Int) : Nat × Flags :=
  let k := bitLen m - 1
  let n : Int := (k : Int) + e
  if m = 2 ^ k then
    if n = 0 then (0, 0) else roundFin t r (n < 0) n.natAbs 0 false
  else
    -- x = m/2^k in (1, 2), z = (x − 1)/(x + 1), log2 x = 2·artanh z / ln 2; for x > 3/2 through 1 − log2 (2/x)
    let l (p : Nat) : Encl :=
      if 2 * m < 3 * 2 ^ k then
        let z := (m - 2 ^ k) * 2 ^ p / (m + 2 ^ k)
        let s := oddPowers p (Encl.mul p (z, z + 1) (z, z + 1)) p 0 (z, z + 1)
        Encl.div p (2 * s.1, 2 * s.2) (ln2 p)
      else
        let z := (2 ^ (k + 1) - m) * 2 ^ p / (m + 2 ^ (k + 1))
        let s := oddPowers p (Encl.mul p (z, z + 1) (z, z + 1)) p 0 (z, z + 1)
        (Encl.sub (2 ^ p, 2 ^ p) (Encl.div p (2 * s.1, 2 * s.2) (ln2 p)))
    if 0 ≤ n then roundEncl t r false 0 (fun p => Encl.add (n.toNat * 2 ^ p, n.toNat * 2 ^ p) (l p)) tie precisions
    else roundEncl t r true 0 (fun p => Encl.sub (n.natAbs * 2 ^ p, n.natAbs * 2 ^ p) (l p)) tie precisions

/-- sin(π·x/d) for 0 < x/d ≤ 1/2, folded onto an argument of at most 1/4. -/
def sinPiEncl (x d p : Nat) : Encl :=
  let arg (y : Nat) : Encl := Encl.mul p (epi p) (y * 2 ^ p / d, y * 2 ^ p / d + 1)
  if 4 * x ≤ d then esin p (arg x) else ecos p (arg (d / 2 - x))

/-- The sine of π·v/d for an integer v, or of its quarter turn later: the sign, and the argument x/d folded into
[0, 1/2]. -/
def foldTurn (v : Int) (d : Nat) : Bool × Nat :=
  let y := (v % (2 * d : Nat)).toNat
  let (s, y) := if y < d then (false, y) else (true, y - d)
  (s, if 2 * y ≤ d then y else d - y)

/-- sin(π·a) for finite nonzero a. -/
def fsinpi (t : Nat) (r : Rnd) (tie : Nat) (neg : Bool) (m : Nat) (e : Int) : Nat × Flags :=
  let top := (bitLen m : Int) - 1 + e
  if 0 ≤ e then (signBit t neg, 0)
  else if top < -200 then
    -- π·a·(1 − δ) with 0 < δ < 2^−396: between the ends of π·m, less one, at up to 300 bits
    roundEncl t r neg e (fun p => let q := epi p; (m * q.1 - 1, m * q.2)) tie [160, 300]
  else
    let d : Nat := 2 ^ (-e).toNat
    let (s, x) := foldTurn (m : Int) d
    let sg := s != neg
    if x = 0 then (signBit t neg, 0)
    else if 2 * x = d then roundFin t r sg 1 0 false
    else roundEncl t r sg 0 (sinPiEncl x d) tie precisions

/-- cos(π·a) for finite nonzero a. -/
def fcospi (t : Nat) (r : Rnd) (tie : Nat) (m : Nat) (e : Int) : Nat × Flags :=
  let top := (bitLen m : Int) - 1 + e
  if 0 < e then roundFin t r false 1 0 false
  else if e = 0 then roundFin t r (m % 2 == 1) 1 0 false
  else if top < -200 then roundFin t r false (2 ^ 300 - 1) (-300) true
  else
    let d : Nat := 2 ^ (-e).toNat
    -- cos(π·a) = sin(π·(a + 1/2))
    let (s, x) := foldTurn ((2 * m : Nat) + (d : Nat) : Int) (2 * d)
    if x = 0 then (0, 0)
    else if x = d then roundFin t r s 1 0 false
    else roundEncl t r s 0 (sinPiEncl x (2 * d)) tie precisions

/-- tanh a for finite nonzero a. -/
def ftanh (t : Nat) (r : Rnd) (tie : Nat) (neg : Bool) (m : Nat) (e : Int) : Nat × Flags :=
  let top := (bitLen m : Int) - 1 + e
  if 7 ≤ top then roundFin t r neg (2 ^ 300 - 1) (-300) true
  else if top < -200 then roundFin t r neg (m * 2 ^ 300 - 1) (e - 300) true
  else
    -- E = e^(2a) = (e^(2a/256))^256; tanh a = (E − 1)/(E + 1)
    let f (p : Nat) : Encl :=
      let b := eexp p ((fixedAt p m (e + 1)).divNat 256)
      let sq (z : Encl) : Encl := Encl.mul p z z
      let E := sq (sq (sq (sq (sq (sq (sq (sq b)))))))
      let one := 2 ^ p
      ((E.1 - one) * 2 ^ p / (E.1 + one), (E.2 - one) * 2 ^ p / (E.2 + one) + 1)
    roundEncl t r neg 0 f tie [320, 640, 1280, 2560]

/-- A special function by its code (R223), with the special operands of R224. `b` is the divisor of VFDIV. -/
def sfuVal (fn t : Nat) (r : Rnd) (tie : Nat) (a b : FVal) : Nat × Flags :=
  let nan := canonNan t
  match fn, a with
  | 0, a =>
    match a, b with
    | .nan, _ | _, .nan => (nan, 0)
    | .inf _, .inf _ => (nan, fNV)
    | .inf n, .fin n' _ _ => (infBits t (n != n'), 0)
    | .fin n _ _, .inf n' => (signBit t (n != n'), 0)
    | .fin n m e, .fin n' m' e' =>
      if m' = 0 then (if m = 0 then (nan, fNV) else (infBits t (n != n'), fDZ))
      else if m = 0 then (signBit t (n != n'), 0)
      else roundQuot t r (n != n') m m' (e - e')
  | _, .nan => (nan, 0)
  | 1, .inf n => if n then (nan, fNV) else (infBits t false, 0)
  | 1, .fin n m e => if m = 0 then (signBit t n, 0) else if n then (nan, fNV) else roundSqrt t r m e
  | 2, .inf n => (signBit t n, 0)
  | 2, .fin n m e => if m = 0 then (infBits t n, fDZ) else roundQuot t r n 1 m (-e)
  | 3, .inf n => if n then (nan, fNV) else (0, 0)
  | 3, .fin n m e => if m = 0 then (infBits t n, fDZ) else if n then (nan, fNV) else roundRsqrt t r m e
  | 4, .inf n => if n then (0, 0) else (infBits t false, 0)
  | 4, .fin n m e => if m = 0 then roundFin t r false 1 0 false else fexp2 t r tie n m e
  | 5, .inf n => if n then (nan, fNV) else (infBits t false, 0)
  | 5, .fin n m e => if m = 0 then (infBits t true, fDZ) else if n then (nan, fNV) else flog2 t r tie m e
  | 6, .inf _ => (nan, fNV)
  | 6, .fin n m e => if m = 0 then (signBit t n, 0) else fsinpi t r tie n m e
  | 7, .inf _ => (nan, fNV)
  | 7, .fin _ m e => if m = 0 then roundFin t r false 1 0 false else fcospi t r tie m e
  | _, .inf n => roundFin t r n 1 0 false
  | _, .fin n m e => if m = 0 then (signBit t n, 0) else ftanh t r tie n m e

end Sys2Proof.Machine
end

