-- ==== Sys2Proof/Machine/VSfu.lean ====
section
/-! DEFINITION. Machine/VSfu.lean: the special functions (R223, R224): long-latency L forms. Their results stand as soon as
they issue; their windows are checked by name all the same (R44, R46), so no program can tell. -/

namespace Sys2Proof.Machine

/-- The mode VSFU accepts: F16, BF16, F32 or F64, a plain layout, a legal RND (R211, R223, R388). -/
def sfuModeOk (md : BitVec 26) : Bool :=
  8 ≤ mdType md && mdType md ≤ 11 && (floatLayout md [.plain]).isSome && rndOk md

/-- A special function over the lanes of E. `b` is the divisor of VFDIV. -/
def sfuOp (s : State) (fn : Nat) (d a : Fin 64) (b : Option (Fin 64)) (la : Fin 16) : Host.Outcome State Fault Refusal :=
  instr s
    (fun v =>
      let w := isWide (mdType v.ctx.md)
      vreq v (sfuModeOk v.ctx.md) ((w, d.val) :: (w, a.val) :: b.toList.map (fun r => (w, r.val))) [])
    (fun v =>
      let md := v.ctx.md
      let ty := mdType md
      let w := isWide ty
      let lane (l : Nat) : Nat × Flags :=
        let x := v.team.elem w a l
        let y := (b.map (fun r => v.team.elem w r l)).getD 0
        sfuVal fn ty (laneRnd s v.team md v.ctx.isc l 0) (Config.sfuTie fn (x % 2 ^ typeBits ty))
          (fdecodeFtz (mdFtz md) ty x) (fdecodeFtz (mdFtz md) ty y)
      let t := v.team.setElems w d v.eff (fun l => some (lane l).1)
      let fl := flagsOr (v.lanes.map (fun l => (lane l).2))
      .ok (s.retire v t ((v.ctx.advance (v.ctx.pc + 4) (openWindow 0 la (vNames w d))).raise fl)))

/-- VFDIV (R223). -/
def execVfdiv (d a b : Fin 64) (l : Fin 16) (s : State) : Host.Outcome State Fault Refusal := sfuOp s 0 d a (some b) l

/-- VFSQRT (R223). -/
def execVfsqrt (d a : Fin 64) (l : Fin 16) (s : State) : Host.Outcome State Fault Refusal := sfuOp s 1 d a none l

/-- VFRCP (R223). -/
def execVfrcp (d a : Fin 64) (l : Fin 16) (s : State) : Host.Outcome State Fault Refusal := sfuOp s 2 d a none l

/-- VFRSQ (R223). -/
def execVfrsq (d a : Fin 64) (l : Fin 16) (s : State) : Host.Outcome State Fault Refusal := sfuOp s 3 d a none l

/-- VFEXP2 (R223). -/
def execVfexp2 (d a : Fin 64) (l : Fin 16) (s : State) : Host.Outcome State Fault Refusal := sfuOp s 4 d a none l

/-- VFLOG2 (R223). -/
def execVflog2 (d a : Fin 64) (l : Fin 16) (s : State) : Host.Outcome State Fault Refusal := sfuOp s 5 d a none l

/-- VFSINPI (R223). -/
def execVfsinpi (d a : Fin 64) (l : Fin 16) (s : State) : Host.Outcome State Fault Refusal := sfuOp s 6 d a none l

/-- VFCOSPI (R223). -/
def execVfcospi (d a : Fin 64) (l : Fin 16) (s : State) : Host.Outcome State Fault Refusal := sfuOp s 7 d a none l

/-- VFTANH (R223). -/
def execVftanh (d a : Fin 64) (l : Fin 16) (s : State) : Host.Outcome State Fault Refusal := sfuOp s 8 d a none l

end Sys2Proof.Machine
end

