-- ==== Sys2Proof/Machine/VXl.lean ====
section
/-! DEFINITION. Machine/VXl.lean: the cross-lane instructions (R225 to R228, R77): long-latency L forms that read their
sources in every lane at issue. -/

namespace Sys2Proof.Machine

/-- Completion of a cross-lane instruction whose pending destinations are `names`. -/
def xlDone (s : State) (v : View) (t : Team) (fl : Flags) (la : Fin 16) (names : List RegName) : State :=
  s.retire v t ((v.ctx.advance (v.ctx.pc + 4) (openWindow 0 la names)).raise fl)

/-- A raw cross-lane move: lane l of E receives the element of vA that `f` names, if any; `idx` are its 32-bit operands. -/
def xlMove (s : State) (d a : Fin 64) (idx : List Nat) (extra : List RegName) (la : Fin 16)
    (f : View → Nat → Option Nat) : Host.Outcome State Fault Refusal :=
  instr s
    (fun v =>
      let w := isWide (mdType v.ctx.md)
      vreq v (rawModeOk v.ctx.md) ((w, d.val) :: (w, a.val) :: idx.map (fun r => (false, r))) extra)
    (fun v =>
      let w := isWide (mdType v.ctx.md)
      let t := v.team.setElems w d v.eff (fun l => (f v l).map (fun j => v.team.elem w a j))
      .ok (xlDone s v t 0 la (vNames w d)))

/-- The first lane of a lane's group. -/
def groupBase (l : Nat) : Nat := l / 32 * 32

/-- VPERM (R225). -/
def execVperm (d a b : Fin 64) (l : Fin 16) (s : State) : Host.Outcome State Fault Refusal :=
  xlMove s d a [b.val] [] l (fun v i => some (groupBase i + (v.team.lane b i).toNat % 32))

/-- VSHUP (R225). -/
def execVshup (d a b : Fin 64) (l : Fin 16) (s : State) : Host.Outcome State Fault Refusal :=
  xlMove s d a [] [.s b.val] l (fun v i =>
    let n := (v.ctx.getS b).toNat
    if n ≤ i then some (i - n) else none)

/-- VSHDN (R225). -/
def execVshdn (d a b : Fin 64) (l : Fin 16) (s : State) : Host.Outcome State Fault Refusal :=
  xlMove s d a [] [.s b.val] l (fun v i =>
    let n := (v.ctx.getS b).toNat
    if i + n < v.team.nl then some (i + n) else none)

/-- VSHX (R225). -/
def execVshx (d a b : Fin 64) (l : Fin 16) (s : State) : Host.Outcome State Fault Refusal :=
  xlMove s d a [b.val] [] l (fun v i => some (groupBase i + (i % 32) ^^^ ((v.team.lane b i).toNat % 32)))

/-- VBCAST (R225): the lowest lane of E. -/
def execVbcast (d a : Fin 64) (l : Fin 16) (s : State) : Host.Outcome State Fault Refusal :=
  xlMove s d a [] [] l (fun v _ => v.lanes.head?)

/-- The mode of a scan (R211, R212, R226, R388). -/
def scanModeOk (md : BitVec 26) (op : Nat) : Bool :=
  let ty := mdType md
  ty ≤ 13 && layoutOf ty (mdSrct md) == some .plain &&
  (isIntType ty || (op ≤ 2 && (op != 0 || rndOk md)))

/-- The identity of a scan operation on integers (R226). -/
def scanIdentInt (ty op : Nat) : Int :=
  match op with
  | 1 => intMax ty
  | 2 => intMin ty
  | 3 => (2 ^ typeBits ty : Nat) - 1
  | _ => 0

/-- A bitwise operation on the elements' bits. -/
def bitOp (ty : Nat) (f : Nat → Nat → Nat) (x y : Int) : Int := f (wrapBits (typeBits ty) x) (wrapBits (typeBits ty) y)

/-- One step of an integer scan. -/
def scanStepInt (ty op : Nat) (x y : Int) : Int :=
  match op with
  | 0 => x + y
  | 1 => min x y
  | 2 => max x y
  | 3 => bitOp ty (· &&& ·) x y
  | 4 => bitOp ty (· ||| ·) x y
  | _ => bitOp ty (· ^^^ ·) x y

/-- The scan result over the elements of the lanes `js` of register `a`, rounded for lane `l`: under RSX with
that lane's own draw, VRED's too (R77, R226; DESIGN CHOICE, log 50). -/
def scanValue (s : State) (v : View) (op a : Nat) (js : List Nat) (l : Nat) : Nat × Flags :=
  let md := v.ctx.md
  let ty := mdType md
  if isIntType ty then
    let r := js.foldl (fun acc j => scanStepInt ty op acc (v.intAt ty a j)) (scanIdentInt ty op)
    intResult ty (mdSat md && op == 0) r
  else
    let xs := js.map (fun j => fdecodeFtz (mdFtz md) ty (v.team.elem (isWide ty) a j))
    match op with
    | 0 =>
      let x := fsum (mdRnd md) xs
      let y := roundVal ty (laneRnd s v.team md v.ctx.isc l 0) x.1
      (y.1, y.2 ||| x.2)
    | _ =>
      match xs with
      | [] => (if ty = 12 then canonNan ty else infBits ty (op == 2), 0)
      | x :: rest => roundVal ty { mode := 0 } (rest.foldl (if op = 1 then fmin else fmax) x)

/-- A scan or reduction: lane l of E receives the operation over the lanes of E that `sel` keeps. -/
def scanOp (s : State) (d a : Fin 64) (o : Fin 6) (la : Fin 16) (sel : Nat → Nat → Bool) :
    Host.Outcome State Fault Refusal :=
  instr s
    (fun v =>
      let w := isWide (mdType v.ctx.md)
      vreq v (scanModeOk v.ctx.md o) [(w, d.val), (w, a.val)] [])
    (fun v =>
      let ty := mdType v.ctx.md
      let w := isWide ty
      let js := v.lanes
      let lane (l : Nat) := scanValue s v o a (js.filter (fun j => sel j l)) l
      let t := v.team.setElems w d v.eff (fun l => some (wordOf ty (lane l).1))
      .ok (xlDone s v t (flagsOr (js.map (fun l => (lane l).2))) la (vNames w d)))

/-- VSCAN (R226): inclusive. -/
def execVscan (d a : Fin 64) (o : Fin 6) (l : Fin 16) (s : State) : Host.Outcome State Fault Refusal :=
  scanOp s d a o l (fun j i => j ≤ i)

/-- VSCANX (R226): exclusive. -/
def execVscanx (d a : Fin 64) (o : Fin 6) (l : Fin 16) (s : State) : Host.Outcome State Fault Refusal :=
  scanOp s d a o l (fun j i => j < i)

/-- VRED (R226). -/
def execVred (d a : Fin 64) (o : Fin 6) (l : Fin 16) (s : State) : Host.Outcome State Fault Refusal :=
  scanOp s d a o l (fun _ _ => true)

/-- VCMPR (R227): lane j receives the element of the j-th lane of E, whether or not lane j is in E. -/
def execVcmpr (d a : Fin 64) (l : Fin 16) (s : State) : Host.Outcome State Fault Refusal :=
  instr s
    (fun v =>
      let w := isWide (mdType v.ctx.md)
      vreq v (rawModeOk v.ctx.md) [(w, d.val), (w, a.val)] [])
    (fun v =>
      let w := isWide (mdType v.ctx.md)
      let js := v.lanes
      let t := v.team.setElems w d (lanesBelow js.length) (fun j => (js[j]?).map (fun i => v.team.elem w a i))
      .ok (xlDone s v t 0 l (vNames w d)))

/-- The row that holds item `i`: rows are (lane, length), `p` the exact sum of the lengths before. -/
def findRow (i : Nat) : Nat → List (Nat × Nat) → Option (Nat × Nat × Nat)
  | _, [] => none
  | p, (r, n) :: rest => if i < p + n then some (r, p, n) else findRow i (p + n) rest

/-- LBAL (R228): row and offset of each lane's item; past the end, or past 32 bits with SX. -/
def execLbal (d a b : Fin 64) (l : Fin 16) (s : State) : Host.Outcome State Fault Refusal :=
  instr s (fun v => vreq v true [(true, d.val), (false, a.val), (false, b.val)] [])
    (fun v =>
      let rows := v.lanes.map (fun j => (j, (v.team.lane a j).toNat))
      let lane (i : Nat) : Nat × Nat × Flags :=
        let item := (v.team.lane b i).toNat
        match findRow item 0 rows with
        | none => (0xFFFFFFFF, 0, 0)
        | some (r, p, n) => if 0xFFFFFFFF < p + n then (0xFFFFFFFF, 0xFFFFFFFF, fSX) else (r, item - p, 0)
      let t := v.team.setElems true d v.eff (fun i => some ((lane i).1 + (lane i).2.1 * 2 ^ 32))
      .ok (xlDone s v t (flagsOr (v.lanes.map (fun i => (lane i).2.2))) l (vNames true d)))

end Sys2Proof.Machine
end

