-- ==== Sys2Proof/Machine/Dispatch.lean ====
section
/-! DEFINITION. Machine/Dispatch.lean: the meaning of every row of the opcode table, one arm each: instruction words in the order of
the table, then its events. -/

namespace Sys2Proof.Machine

/-- What an instruction of the executing context, or an event, does to the machine. -/
def exec (i : Instr) (s : State) : Host.Outcome State Fault Refusal :=
  match i with
  | .nop => Sys2Proof.Machine.execNop s
  | .brk => Sys2Proof.Machine.execBrk s
  | .endCtx => Sys2Proof.Machine.execEndCtx s
  | .exitLanes => Sys2Proof.Machine.execExitLanes s
  | .ret a => Sys2Proof.Machine.execRet a s
  | .srd d b => Sys2Proof.Machine.execSrd d b s
  | .swr a b => Sys2Proof.Machine.execSwr a b s
  | .sliceof d a => Sys2Proof.Machine.execSliceof d a s
  | .mdrd d => Sys2Proof.Machine.execMdrd d s
  | .modev a => Sys2Proof.Machine.execModev a s
  | .mode imm => Sys2Proof.Machine.execMode imm s
  | .trap c => Sys2Proof.Machine.execTrap c s
  | .rgn t => Sys2Proof.Machine.execRgn t s
  | .bra o => Sys2Proof.Machine.execBra o s
  | .call o => Sys2Proof.Machine.execCall o s
  | .bsz c o => Sys2Proof.Machine.execBsz c o s
  | .bsnz c o => Sys2Proof.Machine.execBsnz c o s
  | .bkz c o => Sys2Proof.Machine.execBkz c o s
  | .bknz c o => Sys2Proof.Machine.execBknz c o s
  | .bkall c o => Sys2Proof.Machine.execBkall c o s
  | .sadd d a b => Sys2Proof.Machine.execSadd d a b s
  | .ssub d a b => Sys2Proof.Machine.execSsub d a b s
  | .smul d a b => Sys2Proof.Machine.execSmul d a b s
  | .smulhi d a b => Sys2Proof.Machine.execSmulhi d a b s
  | .smulhn d a b => Sys2Proof.Machine.execSmulhn d a b s
  | .sand d a b => Sys2Proof.Machine.execSand d a b s
  | .sor d a b => Sys2Proof.Machine.execSor d a b s
  | .sxor d a b => Sys2Proof.Machine.execSxor d a b s
  | .sandn d a b => Sys2Proof.Machine.execSandn d a b s
  | .sshl d a b => Sys2Proof.Machine.execSshl d a b s
  | .sshr d a b => Sys2Proof.Machine.execSshr d a b s
  | .ssra d a b => Sys2Proof.Machine.execSsra d a b s
  | .smin d a b => Sys2Proof.Machine.execSmin d a b s
  | .smax d a b => Sys2Proof.Machine.execSmax d a b s
  | .sminn d a b => Sys2Proof.Machine.execSminn d a b s
  | .smaxn d a b => Sys2Proof.Machine.execSmaxn d a b s
  | .sseq d a b => Sys2Proof.Machine.execSseq d a b s
  | .sslt d a b => Sys2Proof.Machine.execSslt d a b s
  | .ssltn d a b => Sys2Proof.Machine.execSsltn d a b s
  | .spop d a => Sys2Proof.Machine.execSpop d a s
  | .sclz d a => Sys2Proof.Machine.execSclz d a s
  | .sctz d a => Sys2Proof.Machine.execSctz d a s
  | .smov d a => Sys2Proof.Machine.execSmov d a s
  | .smovl d lit => Sys2Proof.Machine.execSmovl d lit s
  | .smovlSigned d lit => Sys2Proof.Machine.execSmovlSigned d lit s
  | .smovlHigh d a lit => Sys2Proof.Machine.execSmovlHigh d a lit s
  | .sshli d a n => Sys2Proof.Machine.execSshli d a n s
  | .sshri d a n => Sys2Proof.Machine.execSshri d a n s
  | .ssrai d a n => Sys2Proof.Machine.execSsrai d a n s
  | .sbfx d w p => Sys2Proof.Machine.execSbfx d w p s
  | .saddi d a imm => Sys2Proof.Machine.execSaddi d a imm s
  | .sandi d a imm => Sys2Proof.Machine.execSandi d a imm s
  | .sori d a imm => Sys2Proof.Machine.execSori d a imm s
  | .sxori d a imm => Sys2Proof.Machine.execSxori d a imm s
  | .sslti d a imm => Sys2Proof.Machine.execSslti d a imm s
  | .kand d a b => Sys2Proof.Machine.execKand d a b s
  | .kor d a b => Sys2Proof.Machine.execKor d a b s
  | .kxor d a b => Sys2Proof.Machine.execKxor d a b s
  | .kandn d a b => Sys2Proof.Machine.execKandn d a b s
  | .knot d a => Sys2Proof.Machine.execKnot d a s
  | .kmov d a => Sys2Proof.Machine.execKmov d a s
  | .kpop d a => Sys2Proof.Machine.execKpop d a s
  | .kfirst d a => Sys2Proof.Machine.execKfirst d a s
  | .ktos d a b => Sys2Proof.Machine.execKtos d a b s
  | .kfroms d a b => Sys2Proof.Machine.execKfroms d a b s
  | .kclr d => Sys2Proof.Machine.execKclr d s
  | .klive d => Sys2Proof.Machine.execKlive d s
  | .kld d a b l => Sys2Proof.Machine.execKld d a b l s
  | .kst d a b l => Sys2Proof.Machine.execKst d a b l s
  | .vadd d a b => Sys2Proof.Machine.execVadd d a b s
  | .vsub d a b => Sys2Proof.Machine.execVsub d a b s
  | .vmul d a b => Sys2Proof.Machine.execVmul d a b s
  | .vmulh d a b => Sys2Proof.Machine.execVmulh d a b s
  | .vand d a b => Sys2Proof.Machine.execVand d a b s
  | .vor d a b => Sys2Proof.Machine.execVor d a b s
  | .vxor d a b => Sys2Proof.Machine.execVxor d a b s
  | .vandn d a b => Sys2Proof.Machine.execVandn d a b s
  | .vshl d a b => Sys2Proof.Machine.execVshl d a b s
  | .vshr d a b => Sys2Proof.Machine.execVshr d a b s
  | .vsra d a b => Sys2Proof.Machine.execVsra d a b s
  | .vmin d a b => Sys2Proof.Machine.execVmin d a b s
  | .vmax d a b => Sys2Proof.Machine.execVmax d a b s
  | .vabs d a => Sys2Proof.Machine.execVabs d a s
  | .vneg d a => Sys2Proof.Machine.execVneg d a s
  | .vpopc d a => Sys2Proof.Machine.execVpopc d a s
  | .vclz d a => Sys2Proof.Machine.execVclz d a s
  | .vmov d a => Sys2Proof.Machine.execVmov d a s
  | .vmovs d a => Sys2Proof.Machine.execVmovs d a s
  | .viota d => Sys2Proof.Machine.execViota d s
  | .vsel d a b => Sys2Proof.Machine.execVsel d a b s
  | .vceq d a b => Sys2Proof.Machine.execVceq d a b s
  | .vcne d a b => Sys2Proof.Machine.execVcne d a b s
  | .vclt d a b => Sys2Proof.Machine.execVclt d a b s
  | .vcle d a b => Sys2Proof.Machine.execVcle d a b s
  | .vadds d a b => Sys2Proof.Machine.execVadds d a b s
  | .vmuls d a b => Sys2Proof.Machine.execVmuls d a b s
  | .vaddi d a imm => Sys2Proof.Machine.execVaddi d a imm s
  | .vmad d a b c => Sys2Proof.Machine.execVmad d a b c s
  | .vmsb d a b c => Sys2Proof.Machine.execVmsb d a b c s
  | .vbfx d a b c => Sys2Proof.Machine.execVbfx d a b c s
  | .vbfi d a b c => Sys2Proof.Machine.execVbfi d a b c s
  | .vfadd d a b => Sys2Proof.Machine.execVfadd d a b s
  | .vfsub d a b => Sys2Proof.Machine.execVfsub d a b s
  | .vfmul d a b => Sys2Proof.Machine.execVfmul d a b s
  | .vfmin d a b => Sys2Proof.Machine.execVfmin d a b s
  | .vfmax d a b => Sys2Proof.Machine.execVfmax d a b s
  | .vfabs d a => Sys2Proof.Machine.execVfabs d a s
  | .vfneg d a => Sys2Proof.Machine.execVfneg d a s
  | .vfceq d a b => Sys2Proof.Machine.execVfceq d a b s
  | .vfclt d a b => Sys2Proof.Machine.execVfclt d a b s
  | .vfcle d a b => Sys2Proof.Machine.execVfcle d a b s
  | .vfcun d a b => Sys2Proof.Machine.execVfcun d a b s
  | .vfclass d a => Sys2Proof.Machine.execVfclass d a s
  | .vcvt d a => Sys2Proof.Machine.execVcvt d a s
  | .vpack d a => Sys2Proof.Machine.execVpack d a s
  | .vunpk d a => Sys2Proof.Machine.execVunpk d a s
  | .vfadds d a b => Sys2Proof.Machine.execVfadds d a b s
  | .vfmuls d a b => Sys2Proof.Machine.execVfmuls d a b s
  | .vfma d a b c => Sys2Proof.Machine.execVfma d a b c s
  | .vfms d a b c => Sys2Proof.Machine.execVfms d a b c s
  | .vfnma d a b c => Sys2Proof.Machine.execVfnma d a b c s
  | .vfnms d a b c => Sys2Proof.Machine.execVfnms d a b c s
  | .vfdiv d a b l => Sys2Proof.Machine.execVfdiv d a b l s
  | .vfsqrt d a l => Sys2Proof.Machine.execVfsqrt d a l s
  | .vfrcp d a l => Sys2Proof.Machine.execVfrcp d a l s
  | .vfrsq d a l => Sys2Proof.Machine.execVfrsq d a l s
  | .vfexp2 d a l => Sys2Proof.Machine.execVfexp2 d a l s
  | .vflog2 d a l => Sys2Proof.Machine.execVflog2 d a l s
  | .vfsinpi d a l => Sys2Proof.Machine.execVfsinpi d a l s
  | .vfcospi d a l => Sys2Proof.Machine.execVfcospi d a l s
  | .vftanh d a l => Sys2Proof.Machine.execVftanh d a l s
  | .vperm d a b l => Sys2Proof.Machine.execVperm d a b l s
  | .vshup d a b l => Sys2Proof.Machine.execVshup d a b l s
  | .vshdn d a b l => Sys2Proof.Machine.execVshdn d a b l s
  | .vshx d a b l => Sys2Proof.Machine.execVshx d a b l s
  | .vbcast d a l => Sys2Proof.Machine.execVbcast d a l s
  | .vscan d a o l => Sys2Proof.Machine.execVscan d a o l s
  | .vscanx d a o l => Sys2Proof.Machine.execVscanx d a o l s
  | .vred d a o l => Sys2Proof.Machine.execVred d a o l s
  | .vcmpr d a l => Sys2Proof.Machine.execVcmpr d a l s
  | .lbal d a b l => Sys2Proof.Machine.execLbal d a b l s
  | .lds d a b c e z l => Sys2Proof.Machine.execLds d a b c e z l s
  | .sts d a b c z l => Sys2Proof.Machine.execSts d a b c z l s
  | .ldg d a b n e z l => Sys2Proof.Machine.execLdg d a b n e z l s
  | .stg d a b n z l => Sys2Proof.Machine.execStg d a b n z l s
  | .ldsc d a b sc z l => Sys2Proof.Machine.execLdsc d a b sc z l s
  | .stsc d a b sc z l => Sys2Proof.Machine.execStsc d a b sc z l s
  | .ldgs d a b z l => Sys2Proof.Machine.execLdgs d a b z l s
  | .stmap a n => Sys2Proof.Machine.execStmap a n s
  | .stunmap n => Sys2Proof.Machine.execStunmap n s
  | .stflush n => Sys2Proof.Machine.execStflush n s
  | .stinv n => Sys2Proof.Machine.execStinv n s
  | .pref a b => Sys2Proof.Machine.execPref a b s
  | .stqry d n => Sys2Proof.Machine.execStqry d n s
  | .atomAdd d a b l => Sys2Proof.Machine.execAtomAdd d a b l s
  | .atomMin d a b l => Sys2Proof.Machine.execAtomMin d a b l s
  | .atomMax d a b l => Sys2Proof.Machine.execAtomMax d a b l s
  | .atomMinn d a b l => Sys2Proof.Machine.execAtomMinn d a b l s
  | .atomMaxn d a b l => Sys2Proof.Machine.execAtomMaxn d a b l s
  | .atomAnd d a b l => Sys2Proof.Machine.execAtomAnd d a b l s
  | .atomOr d a b l => Sys2Proof.Machine.execAtomOr d a b l s
  | .atomXor d a b l => Sys2Proof.Machine.execAtomXor d a b l s
  | .atomExch d a b l => Sys2Proof.Machine.execAtomExch d a b l s
  | .atomCas d a b l => Sys2Proof.Machine.execAtomCas d a b l s
  | .atomIncw d a b l => Sys2Proof.Machine.execAtomIncw d a b l s
  | .atomAddb d a b l => Sys2Proof.Machine.execAtomAddb d a b l s
  | .atomExchq d a b l => Sys2Proof.Machine.execAtomExchq d a b l s
  | .redAdd d a b l => Sys2Proof.Machine.execRedAdd d a b l s
  | .redMin d a b l => Sys2Proof.Machine.execRedMin d a b l s
  | .redMax d a b l => Sys2Proof.Machine.execRedMax d a b l s
  | .redMinn d a b l => Sys2Proof.Machine.execRedMinn d a b l s
  | .redMaxn d a b l => Sys2Proof.Machine.execRedMaxn d a b l s
  | .redAnd d a b l => Sys2Proof.Machine.execRedAnd d a b l s
  | .redOr d a b l => Sys2Proof.Machine.execRedOr d a b l s
  | .redXor d a b l => Sys2Proof.Machine.execRedXor d a b l s
  | .redFadd d a b l => Sys2Proof.Machine.execRedFadd d a b l s
  | .redFmin d a b l => Sys2Proof.Machine.execRedFmin d a b l s
  | .redFmax d a b l => Sys2Proof.Machine.execRedFmax d a b l s
  | .xbegin => Sys2Proof.Machine.execXbegin s
  | .xend d a => Sys2Proof.Machine.execXend d a s
  | .xabort => Sys2Proof.Machine.execXabort s
  | .fenceAcq sc => Sys2Proof.Machine.execFenceAcq sc s
  | .fenceRel sc => Sys2Proof.Machine.execFenceRel sc s
  | .fenceFull sc => Sys2Proof.Machine.execFenceFull sc s
  | .waitc a p => Sys2Proof.Machine.execWaitc a p s
  | .binit a b => Sys2Proof.Machine.execBinit a b s
  | .barv a => Sys2Proof.Machine.execBarv a s
  | .barc a p => Sys2Proof.Machine.execBarc a p s
  | .bwait a b => Sys2Proof.Machine.execBwait a b s
  | .cbara => Sys2Proof.Machine.execCbara s
  | .cbarw => Sys2Proof.Machine.execCbarw s
  | .mzero d l => Sys2Proof.Machine.execMzero d l s
  | .mma d a b l => Sys2Proof.Machine.execMma d a b l s
  | .msplit d a l => Sys2Proof.Machine.execMsplit d a l s
  | .mmas d a b l => Sys2Proof.Machine.execMmas d a b l s
  | .mdrain d a b l => Sys2Proof.Machine.execMdrain d a b l s
  | .mxport d a b l => Sys2Proof.Machine.execMxport d a b l s
  | .mxload d a b l => Sys2Proof.Machine.execMxload d a b l s
  | .mstat d a l => Sys2Proof.Machine.execMstat d a l s
  | .vpop d a => Sys2Proof.Machine.execVpop d a s
  | .qstat d a => Sys2Proof.Machine.execQstat d a s
  | .astr d a => Sys2Proof.Machine.execAstr d a s
  | .aqwait d => Sys2Proof.Machine.execAqwait d s
  | .hdef h a l => Sys2Proof.Machine.execHdef h a l s
  | .fetch d h b l => Sys2Proof.Machine.execFetch d h b l s
  | .epool d h b l => Sys2Proof.Machine.execEpool d h b l s
  | .route d a b l => Sys2Proof.Machine.execRoute d a b l s
  | .illegalInstruction opcode => Sys2Proof.Machine.execIllegalInstruction opcode s
  | .copy cmd parts => Sys2Proof.Machine.execCopy cmd parts s
  | .fill cmd parts => Sys2Proof.Machine.execFill cmd parts s
  | .fwarm cmd => Sys2Proof.Machine.execFwarm cmd s
  | .cred cmd parts => Sys2Proof.Machine.execCred cmd parts s
  | .cbcast cmd parts => Sys2Proof.Machine.execCbcast cmd parts s
  | .merge cmd parts => Sys2Proof.Machine.execMerge cmd parts s
  | .streamEntryAppend die core slot q => Sys2Proof.Machine.execStreamEntryAppend die core slot q s
  | .loadComplete op lanes => Sys2Proof.Machine.execLoadComplete op lanes s
  | .storePerformed op lanes dieOnly => Sys2Proof.Machine.execStorePerformed op lanes dieOnly s
  | .windowFill op => Sys2Proof.Machine.execWindowFill op s
  | .stashCopyComplete op lanes => Sys2Proof.Machine.execStashCopyComplete op lanes s
  | .ownershipGrant op sector => Sys2Proof.Machine.execOwnershipGrant op sector s
  | .atomPerformed op lanes => Sys2Proof.Machine.execAtomPerformed op lanes s
  | .redMerge op lanes => Sys2Proof.Machine.execRedMerge op lanes s
  | .regionValidation op lanes => Sys2Proof.Machine.execRegionValidation op lanes s
  | .barrierArrival arrival => Sys2Proof.Machine.execBarrierArrival arrival s
  | .clusterArrival die core slot => Sys2Proof.Machine.execClusterArrival die core slot s
  | .fenceComplete die core slot kind => Sys2Proof.Machine.execFenceComplete die core slot kind s
  | .teamWake die core slot => Sys2Proof.Machine.execTeamWake die core slot s
  | .activeEntry die core => Sys2Proof.Machine.execActiveEntry die core s
  | .rotation die core slot => Sys2Proof.Machine.execRotation die core slot s
  | .cisternEvict sector => Sys2Proof.Machine.execCisternEvict sector s
  | .cisternCopyback sector => Sys2Proof.Machine.execCisternCopyback sector s
  | .teamPlacement launch cluster col row => Sys2Proof.Machine.execTeamPlacement launch cluster col row s
  | .drainingExit die core slot => Sys2Proof.Machine.execDrainingExit die core slot s
  | .doneReport launch die => Sys2Proof.Machine.execDoneReport launch die s
  | .prepare launch die => Sys2Proof.Machine.execPrepare launch die s
  | .ready launch => Sys2Proof.Machine.execReady launch s
  | .commit launch die => Sys2Proof.Machine.execCommit launch die s
  | .commitAck launch bad => Sys2Proof.Machine.execCommitAck launch bad s
  | .windowEnd domain occupied => Sys2Proof.Machine.execWindowEnd domain occupied s
  | .replicaCopyDone domain copyIx err => Sys2Proof.Machine.execReplicaCopyDone domain copyIx err s
  | .versionPublish domain => Sys2Proof.Machine.execVersionPublish domain s
  | .abort launch die => Sys2Proof.Machine.execAbort launch die s
  | .abortAck launch => Sys2Proof.Machine.execAbortAck launch s
  | .doorbell func lidx value => Sys2Proof.Machine.execDoorbell func lidx value s
  | .launch queue => Sys2Proof.Machine.execLaunch queue s
  | .releaseStream queue => Sys2Proof.Machine.execReleaseStream queue s
  | .kill queue => Sys2Proof.Machine.execKill queue s
  | .queueNop queue => Sys2Proof.Machine.execQueueNop queue s
  | .launchAdmission launch lv => Sys2Proof.Machine.execLaunchAdmission launch lv s
  | .preemption launch die => Sys2Proof.Machine.execPreemption launch die s
  | .contextSave die core slot => Sys2Proof.Machine.execContextSave die core slot s
  | .flushAndRestart die core slot => Sys2Proof.Machine.execFlushAndRestart die core slot s
  | .teamRestore launch cluster col row => Sys2Proof.Machine.execTeamRestore launch cluster col row s
  | .killByPolicy launch => Sys2Proof.Machine.execKillByPolicy launch s
  | .coreLoss die core => Sys2Proof.Machine.execCoreLoss die core s
  | .replyDoorbell func value => Sys2Proof.Machine.execReplyDoorbell func value s
  | .replyResume func => Sys2Proof.Machine.execReplyResume func s
  | .replyAbort func => Sys2Proof.Machine.execReplyAbort func s
  | .replySave func => Sys2Proof.Machine.execReplySave func s
  | .replyRestore func => Sys2Proof.Machine.execReplyRestore func s
  | .hostRead die off len => Sys2Proof.Machine.execHostRead die off len s
  | .hostWrite die off bytes => Sys2Proof.Machine.execHostWrite die off bytes s
  | .configWrite func bar off value => Sys2Proof.Machine.execConfigWrite func bar off value s
  | .perfSelect counter value => Sys2Proof.Machine.execPerfSelect counter value s
  | .queueEnable queue value => Sys2Proof.Machine.execQueueEnable queue value s
  | .faultRingEnable func value => Sys2Proof.Machine.execFaultRingEnable func value s
  | .faultRingConsume func value => Sys2Proof.Machine.execFaultRingConsume func value s
  | .replyRingEnable func value => Sys2Proof.Machine.execReplyRingEnable func value s
  | .windlassDomainEnable domain value => Sys2Proof.Machine.execWindlassDomainEnable domain value s
  | .windlassDomainDisable domain value => Sys2Proof.Machine.execWindlassDomainDisable domain value s
  | .svnup value => Sys2Proof.Machine.execSvnup value s
  | .coldBoot input => Sys2Proof.Machine.execColdBoot input s
  | .warmReset input => Sys2Proof.Machine.execWarmReset input s
  | .getVersion => Sys2Proof.Machine.execGetVersion s
  | .getCapabilities => Sys2Proof.Machine.execGetCapabilities s
  | .negotiateAlgorithms p521 sha512 => Sys2Proof.Machine.execNegotiateAlgorithms p521 sha512 s
  | .getDigests => Sys2Proof.Machine.execGetDigests s
  | .getCertificate certSlot => Sys2Proof.Machine.execGetCertificate certSlot s
  | .challenge certSlot => Sys2Proof.Machine.execChallenge certSlot s
  | .getMeasurements req => Sys2Proof.Machine.execGetMeasurements req s
  | .keyExchange certSlot => Sys2Proof.Machine.execKeyExchange certSlot s
  | .finish msg => Sys2Proof.Machine.execFinish msg s
  | .endSession msg => Sys2Proof.Machine.execEndSession msg s
  | .spdmUnsupported code => Sys2Proof.Machine.execSpdmUnsupported code s
  | .supplyVoltageEvent => Sys2Proof.Machine.execSupplyVoltageEvent s
  | .clockFrequencyEvent => Sys2Proof.Machine.execClockFrequencyEvent s
  | .temperatureShutdownEvent die => Sys2Proof.Machine.execTemperatureShutdownEvent die s
  | .securityControllerFault => Sys2Proof.Machine.execSecurityControllerFault s
  | .uncorrectableError site => Sys2Proof.Machine.execUncorrectableError site s
  | .correctedError die => Sys2Proof.Machine.execCorrectedError die s
  | .hubLinkFailure die => Sys2Proof.Machine.execHubLinkFailure die s
  | .ringLinkFailure die => Sys2Proof.Machine.execRingLinkFailure die s
  | .telemetryRefresh die pwr temp throttled => Sys2Proof.Machine.execTelemetryRefresh die pwr temp throttled s
  | .powerLoan lender borrower units => Sys2Proof.Machine.execPowerLoan lender borrower units s
  | .loanRepay loan units => Sys2Proof.Machine.execLoanRepay loan units s
  | .loanRenew loan => Sys2Proof.Machine.execLoanRenew loan s
  | .loanExpiry loan => Sys2Proof.Machine.execLoanExpiry loan s
  | .backInvalidationAck launch die => Sys2Proof.Machine.execBackInvalidationAck launch die s
  | .cisternLazyReclaim lv => Sys2Proof.Machine.execCisternLazyReclaim lv s
  | .readMarkClear sector => Sys2Proof.Machine.execReadMarkClear sector s
  | .linkRecovery hubLink die => Sys2Proof.Machine.execLinkRecovery hubLink die s
  | .hubLoss => Sys2Proof.Machine.execHubLoss s
  | .broryPortLoss loss => Sys2Proof.Machine.execBroryPortLoss loss s
  | .broryPeerAccess write die off len bytes => Sys2Proof.Machine.execBroryPeerAccess write die off len bytes s

end Sys2Proof.Machine
end

