-- ==== Sys2Proof/Decode.lean ====
section
/-! DEFINITION. Decode.lean: from bits to instructions and back (spec 07: R157 to R173). `decode` is total on any list of
bytes and rejects by name; `encode` is written from the same tables. -/

namespace Sys2Proof

/-- Why a word is no instruction (R162): no instruction stands at its opcode, or its encoding is malformed. `truncated`:
fewer bytes than the instruction has. -/
inductive Reject where
  | illegalOpcode
  | illegalEncoding
  | truncated
  deriving DecidableEq, Repr

/-- Bits [lo + n − 1 : lo] of an instruction word read as a number (R158). -/
def fld (w lo n : Nat) : Nat := w / 2 ^ lo % 2 ^ n

/-- An instruction whose reserved fields must pass the check `ok` (R159, R162). -/
def need (ok : Bool) (i : Instr) : Except Reject Instr := if ok then .ok i else .error .illegalEncoding

/-- Major 0x00 (R164). -/
def decSys (w : Nat) : Except Reject Instr :=
  match fld w 0 8 with
  | 0 => need (fld w 8 18 == 0) .nop
  | 1 => need (fld w 8 18 == 0) .brk
  | 2 => need (fld w 8 18 == 0) .endCtx
  | 3 => need (fld w 8 18 == 0) .exitLanes
  | 4 => need (fld w 20 6 == 0 && fld w 8 6 == 0) (.ret (Fin.ofNat 64 (fld w 14 6)))
  | 5 => need (fld w 14 6 == 0 && srdIndexOk (fld w 8 6)) (.srd (Fin.ofNat 64 (fld w 20 6)) (Fin.ofNat 64 (fld w 8 6)))
  | 6 => need (fld w 20 6 == 0 && srdIndexOk (fld w 8 6)) (.swr (Fin.ofNat 64 (fld w 14 6)) (Fin.ofNat 64 (fld w 8 6)))
  | 7 => need (fld w 8 6 == 0) (.sliceof (Fin.ofNat 64 (fld w 20 6)) (Fin.ofNat 64 (fld w 14 6)))
  | 8 => need (fld w 8 12 == 0) (.mdrd (Fin.ofNat 64 (fld w 20 6)))
  | 9 => need (fld w 20 6 == 0 && fld w 8 6 == 0) (.modev (Fin.ofNat 64 (fld w 14 6)))
  | _ => .error .illegalOpcode

/-- Major 0x01 (R164). -/
def decMode (w : Nat) : Except Reject Instr :=
  need (true) (.mode (BitVec.ofNat 26 (fld w 0 26)))

/-- Major 0x02 (R164). -/
def decTrap (w : Nat) : Except Reject Instr :=
  need (fld w 16 10 == 0) (.trap (BitVec.ofNat 16 (fld w 0 16)))

/-- Major 0x03 (R164). -/
def decRgn (w : Nat) : Except Reject Instr :=
  need (fld w 16 10 == 0) (.rgn (BitVec.ofNat 16 (fld w 0 16)))

/-- Major 0x04 (R164). -/
def decBra (w : Nat) : Except Reject Instr :=
  need (true) (.bra (BitVec.ofNat 26 (fld w 0 26)))

/-- Major 0x05 (R164). -/
def decCall (w : Nat) : Except Reject Instr :=
  need (true) (.call (BitVec.ofNat 26 (fld w 0 26)))

/-- Major 0x06 (R164). -/
def decBsz (w : Nat) : Except Reject Instr :=
  need (true) (.bsz (Fin.ofNat 64 (fld w 20 6)) (BitVec.ofNat 20 (fld w 0 20)))

/-- Major 0x07 (R164). -/
def decBsnz (w : Nat) : Except Reject Instr :=
  need (true) (.bsnz (Fin.ofNat 64 (fld w 20 6)) (BitVec.ofNat 20 (fld w 0 20)))

/-- Major 0x08 (R164). -/
def decBkz (w : Nat) : Except Reject Instr :=
  need (fld w 24 2 == 0) (.bkz (Fin.ofNat 16 (fld w 20 4)) (BitVec.ofNat 20 (fld w 0 20)))

/-- Major 0x09 (R164). -/
def decBknz (w : Nat) : Except Reject Instr :=
  need (fld w 24 2 == 0) (.bknz (Fin.ofNat 16 (fld w 20 4)) (BitVec.ofNat 20 (fld w 0 20)))

/-- Major 0x0A (R164). -/
def decBkall (w : Nat) : Except Reject Instr :=
  need (fld w 24 2 == 0) (.bkall (Fin.ofNat 16 (fld w 20 4)) (BitVec.ofNat 20 (fld w 0 20)))

/-- Major 0x0C (R164). -/
def decSalu (w : Nat) (lit : BitVec 32) : Except Reject Instr :=
  match fld w 0 8 with
  | 0 => need (true) (.sadd (Fin.ofNat 64 (fld w 20 6)) (Fin.ofNat 64 (fld w 14 6)) (Fin.ofNat 64 (fld w 8 6)))
  | 1 => need (true) (.ssub (Fin.ofNat 64 (fld w 20 6)) (Fin.ofNat 64 (fld w 14 6)) (Fin.ofNat 64 (fld w 8 6)))
  | 2 => need (true) (.smul (Fin.ofNat 64 (fld w 20 6)) (Fin.ofNat 64 (fld w 14 6)) (Fin.ofNat 64 (fld w 8 6)))
  | 3 => need (true) (.smulhi (Fin.ofNat 64 (fld w 20 6)) (Fin.ofNat 64 (fld w 14 6)) (Fin.ofNat 64 (fld w 8 6)))
  | 4 => need (true) (.smulhn (Fin.ofNat 64 (fld w 20 6)) (Fin.ofNat 64 (fld w 14 6)) (Fin.ofNat 64 (fld w 8 6)))
  | 5 => need (true) (.sand (Fin.ofNat 64 (fld w 20 6)) (Fin.ofNat 64 (fld w 14 6)) (Fin.ofNat 64 (fld w 8 6)))
  | 6 => need (true) (.sor (Fin.ofNat 64 (fld w 20 6)) (Fin.ofNat 64 (fld w 14 6)) (Fin.ofNat 64 (fld w 8 6)))
  | 7 => need (true) (.sxor (Fin.ofNat 64 (fld w 20 6)) (Fin.ofNat 64 (fld w 14 6)) (Fin.ofNat 64 (fld w 8 6)))
  | 8 => need (true) (.sandn (Fin.ofNat 64 (fld w 20 6)) (Fin.ofNat 64 (fld w 14 6)) (Fin.ofNat 64 (fld w 8 6)))
  | 9 => need (true) (.sshl (Fin.ofNat 64 (fld w 20 6)) (Fin.ofNat 64 (fld w 14 6)) (Fin.ofNat 64 (fld w 8 6)))
  | 10 => need (true) (.sshr (Fin.ofNat 64 (fld w 20 6)) (Fin.ofNat 64 (fld w 14 6)) (Fin.ofNat 64 (fld w 8 6)))
  | 11 => need (true) (.ssra (Fin.ofNat 64 (fld w 20 6)) (Fin.ofNat 64 (fld w 14 6)) (Fin.ofNat 64 (fld w 8 6)))
  | 12 => need (true) (.smin (Fin.ofNat 64 (fld w 20 6)) (Fin.ofNat 64 (fld w 14 6)) (Fin.ofNat 64 (fld w 8 6)))
  | 13 => need (true) (.smax (Fin.ofNat 64 (fld w 20 6)) (Fin.ofNat 64 (fld w 14 6)) (Fin.ofNat 64 (fld w 8 6)))
  | 14 => need (true) (.sminn (Fin.ofNat 64 (fld w 20 6)) (Fin.ofNat 64 (fld w 14 6)) (Fin.ofNat 64 (fld w 8 6)))
  | 15 => need (true) (.smaxn (Fin.ofNat 64 (fld w 20 6)) (Fin.ofNat 64 (fld w 14 6)) (Fin.ofNat 64 (fld w 8 6)))
  | 16 => need (true) (.sseq (Fin.ofNat 64 (fld w 20 6)) (Fin.ofNat 64 (fld w 14 6)) (Fin.ofNat 64 (fld w 8 6)))
  | 17 => need (true) (.sslt (Fin.ofNat 64 (fld w 20 6)) (Fin.ofNat 64 (fld w 14 6)) (Fin.ofNat 64 (fld w 8 6)))
  | 18 => need (true) (.ssltn (Fin.ofNat 64 (fld w 20 6)) (Fin.ofNat 64 (fld w 14 6)) (Fin.ofNat 64 (fld w 8 6)))
  | 19 => need (fld w 8 6 == 0) (.spop (Fin.ofNat 64 (fld w 20 6)) (Fin.ofNat 64 (fld w 14 6)))
  | 20 => need (fld w 8 6 == 0) (.sclz (Fin.ofNat 64 (fld w 20 6)) (Fin.ofNat 64 (fld w 14 6)))
  | 21 => need (fld w 8 6 == 0) (.sctz (Fin.ofNat 64 (fld w 20 6)) (Fin.ofNat 64 (fld w 14 6)))
  | 22 => need (fld w 8 6 == 0) (.smov (Fin.ofNat 64 (fld w 20 6)) (Fin.ofNat 64 (fld w 14 6)))
  | 23 =>
    match fld w 8 6 with
    | 0 => need (fld w 14 6 == 0) (.smovl (Fin.ofNat 64 (fld w 20 6)) lit)
    | 1 => need (fld w 14 6 == 0) (.smovlSigned (Fin.ofNat 64 (fld w 20 6)) lit)
    | 2 => .ok (.smovlHigh (Fin.ofNat 64 (fld w 20 6)) (Fin.ofNat 64 (fld w 14 6)) lit)
    | _ => .error .illegalEncoding
  | 24 => need (true) (.sshli (Fin.ofNat 64 (fld w 20 6)) (Fin.ofNat 64 (fld w 14 6)) (Fin.ofNat 64 (fld w 8 6)))
  | 25 => need (true) (.sshri (Fin.ofNat 64 (fld w 20 6)) (Fin.ofNat 64 (fld w 14 6)) (Fin.ofNat 64 (fld w 8 6)))
  | 26 => need (true) (.ssrai (Fin.ofNat 64 (fld w 20 6)) (Fin.ofNat 64 (fld w 14 6)) (Fin.ofNat 64 (fld w 8 6)))
  | 27 => need (decide (fld w 8 6 + fld w 14 6 + 1 ≤ 64)) (.sbfx (Fin.ofNat 64 (fld w 20 6)) (Fin.ofNat 64 (fld w 14 6)) (Fin.ofNat 64 (fld w 8 6)))
  | _ => .error .illegalOpcode

/-- Major 0x0D (R164). -/
def decSaddi (w : Nat) : Except Reject Instr :=
  need (true) (.saddi (Fin.ofNat 64 (fld w 20 6)) (Fin.ofNat 64 (fld w 14 6)) (BitVec.ofNat 14 (fld w 0 14)))

/-- Major 0x0E (R164). -/
def decSandi (w : Nat) : Except Reject Instr :=
  need (true) (.sandi (Fin.ofNat 64 (fld w 20 6)) (Fin.ofNat 64 (fld w 14 6)) (BitVec.ofNat 14 (fld w 0 14)))

/-- Major 0x0F (R164). -/
def decSori (w : Nat) : Except Reject Instr :=
  need (true) (.sori (Fin.ofNat 64 (fld w 20 6)) (Fin.ofNat 64 (fld w 14 6)) (BitVec.ofNat 14 (fld w 0 14)))

/-- Major 0x10 (R164). -/
def decSxori (w : Nat) : Except Reject Instr :=
  need (true) (.sxori (Fin.ofNat 64 (fld w 20 6)) (Fin.ofNat 64 (fld w 14 6)) (BitVec.ofNat 14 (fld w 0 14)))

/-- Major 0x11 (R164). -/
def decSslti (w : Nat) : Except Reject Instr :=
  need (true) (.sslti (Fin.ofNat 64 (fld w 20 6)) (Fin.ofNat 64 (fld w 14 6)) (BitVec.ofNat 14 (fld w 0 14)))

/-- Major 0x14 (R164). -/
def decMask (w : Nat) : Except Reject Instr :=
  match fld w 0 8 with
  | 0 => need (fld w 24 2 == 0 && fld w 18 2 == 0 && fld w 12 2 == 0) (.kand (Fin.ofNat 16 (fld w 20 4)) (Fin.ofNat 16 (fld w 14 4)) (Fin.ofNat 16 (fld w 8 4)))
  | 1 => need (fld w 24 2 == 0 && fld w 18 2 == 0 && fld w 12 2 == 0) (.kor (Fin.ofNat 16 (fld w 20 4)) (Fin.ofNat 16 (fld w 14 4)) (Fin.ofNat 16 (fld w 8 4)))
  | 2 => need (fld w 24 2 == 0 && fld w 18 2 == 0 && fld w 12 2 == 0) (.kxor (Fin.ofNat 16 (fld w 20 4)) (Fin.ofNat 16 (fld w 14 4)) (Fin.ofNat 16 (fld w 8 4)))
  | 3 => need (fld w 24 2 == 0 && fld w 18 2 == 0 && fld w 12 2 == 0) (.kandn (Fin.ofNat 16 (fld w 20 4)) (Fin.ofNat 16 (fld w 14 4)) (Fin.ofNat 16 (fld w 8 4)))
  | 4 => need (fld w 24 2 == 0 && fld w 18 2 == 0 && fld w 8 6 == 0) (.knot (Fin.ofNat 16 (fld w 20 4)) (Fin.ofNat 16 (fld w 14 4)))
  | 5 => need (fld w 24 2 == 0 && fld w 18 2 == 0 && fld w 8 6 == 0) (.kmov (Fin.ofNat 16 (fld w 20 4)) (Fin.ofNat 16 (fld w 14 4)))
  | 6 => need (fld w 18 2 == 0 && fld w 8 6 == 0) (.kpop (Fin.ofNat 64 (fld w 20 6)) (Fin.ofNat 16 (fld w 14 4)))
  | 7 => need (fld w 18 2 == 0 && fld w 8 6 == 0) (.kfirst (Fin.ofNat 64 (fld w 20 6)) (Fin.ofNat 16 (fld w 14 4)))
  | 8 => need (fld w 18 2 == 0) (.ktos (Fin.ofNat 64 (fld w 20 6)) (Fin.ofNat 16 (fld w 14 4)) (Fin.ofNat 64 (fld w 8 6)))
  | 9 => need (fld w 24 2 == 0) (.kfroms (Fin.ofNat 16 (fld w 20 4)) (Fin.ofNat 64 (fld w 14 6)) (Fin.ofNat 64 (fld w 8 6)))
  | 10 => need (fld w 24 2 == 0 && fld w 8 12 == 0) (.kclr (Fin.ofNat 16 (fld w 20 4)))
  | 11 => need (fld w 24 2 == 0 && fld w 8 12 == 0) (.klive (Fin.ofNat 16 (fld w 20 4)))
  | _ => .error .illegalOpcode

/-- Major 0x15 (R164). -/
def decKmem (w : Nat) : Except Reject Instr :=
  match fld w 4 4 with
  | 0 => need (fld w 24 2 == 0) (.kld (Fin.ofNat 16 (fld w 20 4)) (Fin.ofNat 64 (fld w 14 6)) (Fin.ofNat 64 (fld w 8 6)) (Fin.ofNat 16 (fld w 0 4)))
  | 1 => need (fld w 24 2 == 0) (.kst (Fin.ofNat 16 (fld w 20 4)) (Fin.ofNat 64 (fld w 14 6)) (Fin.ofNat 64 (fld w 8 6)) (Fin.ofNat 16 (fld w 0 4)))
  | _ => .error .illegalEncoding

/-- Major 0x18 (R164). -/
def decVint (w : Nat) : Except Reject Instr :=
  match fld w 0 8 with
  | 0 => need (true) (.vadd (Fin.ofNat 64 (fld w 20 6)) (Fin.ofNat 64 (fld w 14 6)) (Fin.ofNat 64 (fld w 8 6)))
  | 1 => need (true) (.vsub (Fin.ofNat 64 (fld w 20 6)) (Fin.ofNat 64 (fld w 14 6)) (Fin.ofNat 64 (fld w 8 6)))
  | 2 => need (true) (.vmul (Fin.ofNat 64 (fld w 20 6)) (Fin.ofNat 64 (fld w 14 6)) (Fin.ofNat 64 (fld w 8 6)))
  | 3 => need (true) (.vmulh (Fin.ofNat 64 (fld w 20 6)) (Fin.ofNat 64 (fld w 14 6)) (Fin.ofNat 64 (fld w 8 6)))
  | 4 => need (true) (.vand (Fin.ofNat 64 (fld w 20 6)) (Fin.ofNat 64 (fld w 14 6)) (Fin.ofNat 64 (fld w 8 6)))
  | 5 => need (true) (.vor (Fin.ofNat 64 (fld w 20 6)) (Fin.ofNat 64 (fld w 14 6)) (Fin.ofNat 64 (fld w 8 6)))
  | 6 => need (true) (.vxor (Fin.ofNat 64 (fld w 20 6)) (Fin.ofNat 64 (fld w 14 6)) (Fin.ofNat 64 (fld w 8 6)))
  | 7 => need (true) (.vandn (Fin.ofNat 64 (fld w 20 6)) (Fin.ofNat 64 (fld w 14 6)) (Fin.ofNat 64 (fld w 8 6)))
  | 8 => need (true) (.vshl (Fin.ofNat 64 (fld w 20 6)) (Fin.ofNat 64 (fld w 14 6)) (Fin.ofNat 64 (fld w 8 6)))
  | 9 => need (true) (.vshr (Fin.ofNat 64 (fld w 20 6)) (Fin.ofNat 64 (fld w 14 6)) (Fin.ofNat 64 (fld w 8 6)))
  | 10 => need (true) (.vsra (Fin.ofNat 64 (fld w 20 6)) (Fin.ofNat 64 (fld w 14 6)) (Fin.ofNat 64 (fld w 8 6)))
  | 11 => need (true) (.vmin (Fin.ofNat 64 (fld w 20 6)) (Fin.ofNat 64 (fld w 14 6)) (Fin.ofNat 64 (fld w 8 6)))
  | 12 => need (true) (.vmax (Fin.ofNat 64 (fld w 20 6)) (Fin.ofNat 64 (fld w 14 6)) (Fin.ofNat 64 (fld w 8 6)))
  | 13 => need (fld w 8 6 == 0) (.vabs (Fin.ofNat 64 (fld w 20 6)) (Fin.ofNat 64 (fld w 14 6)))
  | 14 => need (fld w 8 6 == 0) (.vneg (Fin.ofNat 64 (fld w 20 6)) (Fin.ofNat 64 (fld w 14 6)))
  | 15 => need (fld w 8 6 == 0) (.vpopc (Fin.ofNat 64 (fld w 20 6)) (Fin.ofNat 64 (fld w 14 6)))
  | 16 => need (fld w 8 6 == 0) (.vclz (Fin.ofNat 64 (fld w 20 6)) (Fin.ofNat 64 (fld w 14 6)))
  | 17 => need (fld w 8 6 == 0) (.vmov (Fin.ofNat 64 (fld w 20 6)) (Fin.ofNat 64 (fld w 14 6)))
  | 18 => need (fld w 8 6 == 0) (.vmovs (Fin.ofNat 64 (fld w 20 6)) (Fin.ofNat 64 (fld w 14 6)))
  | 19 => need (fld w 8 12 == 0) (.viota (Fin.ofNat 64 (fld w 20 6)))
  | 20 => need (fld w 12 2 == 0) (.vsel (Fin.ofNat 64 (fld w 20 6)) (Fin.ofNat 64 (fld w 14 6)) (Fin.ofNat 16 (fld w 8 4)))
  | 21 => need (fld w 24 2 == 0) (.vceq (Fin.ofNat 16 (fld w 20 4)) (Fin.ofNat 64 (fld w 14 6)) (Fin.ofNat 64 (fld w 8 6)))
  | 22 => need (fld w 24 2 == 0) (.vcne (Fin.ofNat 16 (fld w 20 4)) (Fin.ofNat 64 (fld w 14 6)) (Fin.ofNat 64 (fld w 8 6)))
  | 23 => need (fld w 24 2 == 0) (.vclt (Fin.ofNat 16 (fld w 20 4)) (Fin.ofNat 64 (fld w 14 6)) (Fin.ofNat 64 (fld w 8 6)))
  | 24 => need (fld w 24 2 == 0) (.vcle (Fin.ofNat 16 (fld w 20 4)) (Fin.ofNat 64 (fld w 14 6)) (Fin.ofNat 64 (fld w 8 6)))
  | 25 => need (true) (.vadds (Fin.ofNat 64 (fld w 20 6)) (Fin.ofNat 64 (fld w 14 6)) (Fin.ofNat 64 (fld w 8 6)))
  | 26 => need (true) (.vmuls (Fin.ofNat 64 (fld w 20 6)) (Fin.ofNat 64 (fld w 14 6)) (Fin.ofNat 64 (fld w 8 6)))
  | _ => .error .illegalOpcode

/-- Major 0x19 (R164). -/
def decVaddi (w : Nat) : Except Reject Instr :=
  need (true) (.vaddi (Fin.ofNat 64 (fld w 20 6)) (Fin.ofNat 64 (fld w 14 6)) (BitVec.ofNat 14 (fld w 0 14)))

/-- Major 0x1A (R164). -/
def decVmad (w : Nat) : Except Reject Instr :=
  match fld w 0 2 with
  | 0 => need (true) (.vmad (Fin.ofNat 64 (fld w 20 6)) (Fin.ofNat 64 (fld w 14 6)) (Fin.ofNat 64 (fld w 8 6)) (Fin.ofNat 64 (fld w 2 6)))
  | 1 => need (true) (.vmsb (Fin.ofNat 64 (fld w 20 6)) (Fin.ofNat 64 (fld w 14 6)) (Fin.ofNat 64 (fld w 8 6)) (Fin.ofNat 64 (fld w 2 6)))
  | 2 => need (true) (.vbfx (Fin.ofNat 64 (fld w 20 6)) (Fin.ofNat 64 (fld w 14 6)) (Fin.ofNat 64 (fld w 8 6)) (Fin.ofNat 64 (fld w 2 6)))
  | 3 => need (true) (.vbfi (Fin.ofNat 64 (fld w 20 6)) (Fin.ofNat 64 (fld w 14 6)) (Fin.ofNat 64 (fld w 8 6)) (Fin.ofNat 64 (fld w 2 6)))
  | _ => .error .illegalOpcode

/-- Major 0x1C (R164). -/
def decVfp (w : Nat) : Except Reject Instr :=
  match fld w 0 8 with
  | 0 => need (true) (.vfadd (Fin.ofNat 64 (fld w 20 6)) (Fin.ofNat 64 (fld w 14 6)) (Fin.ofNat 64 (fld w 8 6)))
  | 1 => need (true) (.vfsub (Fin.ofNat 64 (fld w 20 6)) (Fin.ofNat 64 (fld w 14 6)) (Fin.ofNat 64 (fld w 8 6)))
  | 2 => need (true) (.vfmul (Fin.ofNat 64 (fld w 20 6)) (Fin.ofNat 64 (fld w 14 6)) (Fin.ofNat 64 (fld w 8 6)))
  | 3 => need (true) (.vfmin (Fin.ofNat 64 (fld w 20 6)) (Fin.ofNat 64 (fld w 14 6)) (Fin.ofNat 64 (fld w 8 6)))
  | 4 => need (true) (.vfmax (Fin.ofNat 64 (fld w 20 6)) (Fin.ofNat 64 (fld w 14 6)) (Fin.ofNat 64 (fld w 8 6)))
  | 5 => need (fld w 8 6 == 0) (.vfabs (Fin.ofNat 64 (fld w 20 6)) (Fin.ofNat 64 (fld w 14 6)))
  | 6 => need (fld w 8 6 == 0) (.vfneg (Fin.ofNat 64 (fld w 20 6)) (Fin.ofNat 64 (fld w 14 6)))
  | 7 => need (fld w 24 2 == 0) (.vfceq (Fin.ofNat 16 (fld w 20 4)) (Fin.ofNat 64 (fld w 14 6)) (Fin.ofNat 64 (fld w 8 6)))
  | 8 => need (fld w 24 2 == 0) (.vfclt (Fin.ofNat 16 (fld w 20 4)) (Fin.ofNat 64 (fld w 14 6)) (Fin.ofNat 64 (fld w 8 6)))
  | 9 => need (fld w 24 2 == 0) (.vfcle (Fin.ofNat 16 (fld w 20 4)) (Fin.ofNat 64 (fld w 14 6)) (Fin.ofNat 64 (fld w 8 6)))
  | 10 => need (fld w 24 2 == 0) (.vfcun (Fin.ofNat 16 (fld w 20 4)) (Fin.ofNat 64 (fld w 14 6)) (Fin.ofNat 64 (fld w 8 6)))
  | 11 => need (fld w 8 6 == 0) (.vfclass (Fin.ofNat 64 (fld w 20 6)) (Fin.ofNat 64 (fld w 14 6)))
  | 12 => need (fld w 8 6 == 0) (.vcvt (Fin.ofNat 64 (fld w 20 6)) (Fin.ofNat 64 (fld w 14 6)))
  | 13 => need (fld w 8 6 == 0) (.vpack (Fin.ofNat 64 (fld w 20 6)) (Fin.ofNat 64 (fld w 14 6)))
  | 14 => need (fld w 8 6 == 0) (.vunpk (Fin.ofNat 64 (fld w 20 6)) (Fin.ofNat 64 (fld w 14 6)))
  | 15 => need (true) (.vfadds (Fin.ofNat 64 (fld w 20 6)) (Fin.ofNat 64 (fld w 14 6)) (Fin.ofNat 64 (fld w 8 6)))
  | 16 => need (true) (.vfmuls (Fin.ofNat 64 (fld w 20 6)) (Fin.ofNat 64 (fld w 14 6)) (Fin.ofNat 64 (fld w 8 6)))
  | _ => .error .illegalOpcode

/-- Major 0x1D (R164). -/
def decVfma (w : Nat) : Except Reject Instr :=
  match fld w 0 2 with
  | 0 => need (true) (.vfma (Fin.ofNat 64 (fld w 20 6)) (Fin.ofNat 64 (fld w 14 6)) (Fin.ofNat 64 (fld w 8 6)) (Fin.ofNat 64 (fld w 2 6)))
  | 1 => need (true) (.vfms (Fin.ofNat 64 (fld w 20 6)) (Fin.ofNat 64 (fld w 14 6)) (Fin.ofNat 64 (fld w 8 6)) (Fin.ofNat 64 (fld w 2 6)))
  | 2 => need (true) (.vfnma (Fin.ofNat 64 (fld w 20 6)) (Fin.ofNat 64 (fld w 14 6)) (Fin.ofNat 64 (fld w 8 6)) (Fin.ofNat 64 (fld w 2 6)))
  | 3 => need (true) (.vfnms (Fin.ofNat 64 (fld w 20 6)) (Fin.ofNat 64 (fld w 14 6)) (Fin.ofNat 64 (fld w 8 6)) (Fin.ofNat 64 (fld w 2 6)))
  | _ => .error .illegalOpcode

/-- Major 0x1E (R164). -/
def decVsfu (w : Nat) : Except Reject Instr :=
  match fld w 4 4 with
  | 0 => need (true) (.vfdiv (Fin.ofNat 64 (fld w 20 6)) (Fin.ofNat 64 (fld w 14 6)) (Fin.ofNat 64 (fld w 8 6)) (Fin.ofNat 16 (fld w 0 4)))
  | 1 => need (fld w 8 6 == 0) (.vfsqrt (Fin.ofNat 64 (fld w 20 6)) (Fin.ofNat 64 (fld w 14 6)) (Fin.ofNat 16 (fld w 0 4)))
  | 2 => need (fld w 8 6 == 0) (.vfrcp (Fin.ofNat 64 (fld w 20 6)) (Fin.ofNat 64 (fld w 14 6)) (Fin.ofNat 16 (fld w 0 4)))
  | 3 => need (fld w 8 6 == 0) (.vfrsq (Fin.ofNat 64 (fld w 20 6)) (Fin.ofNat 64 (fld w 14 6)) (Fin.ofNat 16 (fld w 0 4)))
  | 4 => need (fld w 8 6 == 0) (.vfexp2 (Fin.ofNat 64 (fld w 20 6)) (Fin.ofNat 64 (fld w 14 6)) (Fin.ofNat 16 (fld w 0 4)))
  | 5 => need (fld w 8 6 == 0) (.vflog2 (Fin.ofNat 64 (fld w 20 6)) (Fin.ofNat 64 (fld w 14 6)) (Fin.ofNat 16 (fld w 0 4)))
  | 6 => need (fld w 8 6 == 0) (.vfsinpi (Fin.ofNat 64 (fld w 20 6)) (Fin.ofNat 64 (fld w 14 6)) (Fin.ofNat 16 (fld w 0 4)))
  | 7 => need (fld w 8 6 == 0) (.vfcospi (Fin.ofNat 64 (fld w 20 6)) (Fin.ofNat 64 (fld w 14 6)) (Fin.ofNat 16 (fld w 0 4)))
  | 8 => need (fld w 8 6 == 0) (.vftanh (Fin.ofNat 64 (fld w 20 6)) (Fin.ofNat 64 (fld w 14 6)) (Fin.ofNat 16 (fld w 0 4)))
  | _ => .error .illegalOpcode

/-- Major 0x20 (R164). -/
def decVxl (w : Nat) : Except Reject Instr :=
  match fld w 4 4 with
  | 0 => need (true) (.vperm (Fin.ofNat 64 (fld w 20 6)) (Fin.ofNat 64 (fld w 14 6)) (Fin.ofNat 64 (fld w 8 6)) (Fin.ofNat 16 (fld w 0 4)))
  | 1 => need (true) (.vshup (Fin.ofNat 64 (fld w 20 6)) (Fin.ofNat 64 (fld w 14 6)) (Fin.ofNat 64 (fld w 8 6)) (Fin.ofNat 16 (fld w 0 4)))
  | 2 => need (true) (.vshdn (Fin.ofNat 64 (fld w 20 6)) (Fin.ofNat 64 (fld w 14 6)) (Fin.ofNat 64 (fld w 8 6)) (Fin.ofNat 16 (fld w 0 4)))
  | 3 => need (true) (.vshx (Fin.ofNat 64 (fld w 20 6)) (Fin.ofNat 64 (fld w 14 6)) (Fin.ofNat 64 (fld w 8 6)) (Fin.ofNat 16 (fld w 0 4)))
  | 4 => need (fld w 8 6 == 0) (.vbcast (Fin.ofNat 64 (fld w 20 6)) (Fin.ofNat 64 (fld w 14 6)) (Fin.ofNat 16 (fld w 0 4)))
  | 5 => need (fld w 11 3 == 0 && decide (fld w 8 3 < 6)) (.vscan (Fin.ofNat 64 (fld w 20 6)) (Fin.ofNat 64 (fld w 14 6)) (Fin.ofNat 6 (fld w 8 3)) (Fin.ofNat 16 (fld w 0 4)))
  | 6 => need (fld w 11 3 == 0 && decide (fld w 8 3 < 6)) (.vscanx (Fin.ofNat 64 (fld w 20 6)) (Fin.ofNat 64 (fld w 14 6)) (Fin.ofNat 6 (fld w 8 3)) (Fin.ofNat 16 (fld w 0 4)))
  | 7 => need (fld w 11 3 == 0 && decide (fld w 8 3 < 6)) (.vred (Fin.ofNat 64 (fld w 20 6)) (Fin.ofNat 64 (fld w 14 6)) (Fin.ofNat 6 (fld w 8 3)) (Fin.ofNat 16 (fld w 0 4)))
  | 8 => need (fld w 8 6 == 0) (.vcmpr (Fin.ofNat 64 (fld w 20 6)) (Fin.ofNat 64 (fld w 14 6)) (Fin.ofNat 16 (fld w 0 4)))
  | 9 => need (true) (.lbal (Fin.ofNat 64 (fld w 20 6)) (Fin.ofNat 64 (fld w 14 6)) (Fin.ofNat 64 (fld w 8 6)) (Fin.ofNat 16 (fld w 0 4)))
  | _ => .error .illegalOpcode

/-- Major 0x24 (R164). -/
def decLds (w : Nat) : Except Reject Instr :=
  need (!(fld w 6 1 == 1 && fld w 4 2 == 3)) (.lds (Fin.ofNat 64 (fld w 20 6)) (Fin.ofNat 64 (fld w 14 6)) (Fin.ofNat 64 (fld w 8 6)) (fld w 7 1 == 1) (fld w 6 1 == 1) (Fin.ofNat 4 (fld w 4 2)) (Fin.ofNat 16 (fld w 0 4)))

/-- Major 0x25 (R164). -/
def decSts (w : Nat) : Except Reject Instr :=
  need (fld w 6 1 == 0) (.sts (Fin.ofNat 64 (fld w 20 6)) (Fin.ofNat 64 (fld w 14 6)) (Fin.ofNat 64 (fld w 8 6)) (fld w 7 1 == 1) (Fin.ofNat 4 (fld w 4 2)) (Fin.ofNat 16 (fld w 0 4)))

/-- Major 0x26 (R164). -/
def decLdg (w : Nat) : Except Reject Instr :=
  need (!(fld w 6 1 == 1 && fld w 4 2 == 3)) (.ldg (Fin.ofNat 64 (fld w 20 6)) (Fin.ofNat 64 (fld w 14 6)) (Fin.ofNat 64 (fld w 8 6)) (fld w 7 1 == 1) (fld w 6 1 == 1) (Fin.ofNat 4 (fld w 4 2)) (Fin.ofNat 16 (fld w 0 4)))

/-- Major 0x27 (R164). -/
def decStg (w : Nat) : Except Reject Instr :=
  need (fld w 6 1 == 0) (.stg (Fin.ofNat 64 (fld w 20 6)) (Fin.ofNat 64 (fld w 14 6)) (Fin.ofNat 64 (fld w 8 6)) (fld w 7 1 == 1) (Fin.ofNat 4 (fld w 4 2)) (Fin.ofNat 16 (fld w 0 4)))

/-- Major 0x28 (R164). -/
def decLdsc (w : Nat) : Except Reject Instr :=
  need ((fld w 6 2 != 3 || fld w 4 2 == 3)) (.ldsc (Fin.ofNat 64 (fld w 20 6)) (Fin.ofNat 64 (fld w 14 6)) (Fin.ofNat 64 (fld w 8 6)) (Fin.ofNat 4 (fld w 6 2)) (Fin.ofNat 4 (fld w 4 2)) (Fin.ofNat 16 (fld w 0 4)))

/-- Major 0x29 (R164). -/
def decStsc (w : Nat) : Except Reject Instr :=
  need ((fld w 6 2 != 3 || fld w 4 2 == 3)) (.stsc (Fin.ofNat 64 (fld w 20 6)) (Fin.ofNat 64 (fld w 14 6)) (Fin.ofNat 64 (fld w 8 6)) (Fin.ofNat 4 (fld w 6 2)) (Fin.ofNat 4 (fld w 4 2)) (Fin.ofNat 16 (fld w 0 4)))

/-- Major 0x2A (R164). -/
def decLdgs (w : Nat) : Except Reject Instr :=
  need (fld w 6 2 == 0) (.ldgs (Fin.ofNat 64 (fld w 20 6)) (Fin.ofNat 64 (fld w 14 6)) (Fin.ofNat 64 (fld w 8 6)) (Fin.ofNat 4 (fld w 4 2)) (Fin.ofNat 16 (fld w 0 4)))

/-- Major 0x2B (R164). -/
def decSmap (w : Nat) : Except Reject Instr :=
  match fld w 0 8 with
  | 0 => need (fld w 20 6 == 0 && decide (fld w 14 6 ≤ 60)) (.stmap (Fin.ofNat 64 (fld w 14 6)) (Fin.ofNat 64 (fld w 8 6)))
  | 1 => need (fld w 14 12 == 0) (.stunmap (Fin.ofNat 64 (fld w 8 6)))
  | 2 => need (fld w 14 12 == 0) (.stflush (Fin.ofNat 64 (fld w 8 6)))
  | 3 => need (fld w 14 12 == 0) (.stinv (Fin.ofNat 64 (fld w 8 6)))
  | 4 => need (fld w 20 6 == 0) (.pref (Fin.ofNat 64 (fld w 14 6)) (Fin.ofNat 64 (fld w 8 6)))
  | 5 => need (fld w 14 6 == 0) (.stqry (Fin.ofNat 64 (fld w 20 6)) (Fin.ofNat 64 (fld w 8 6)))
  | _ => .error .illegalOpcode

/-- Major 0x2C (R164). -/
def decAtom (w : Nat) : Except Reject Instr :=
  match fld w 4 4 with
  | 0 => need (true) (.atomAdd (Fin.ofNat 64 (fld w 20 6)) (Fin.ofNat 64 (fld w 14 6)) (Fin.ofNat 64 (fld w 8 6)) (Fin.ofNat 16 (fld w 0 4)))
  | 1 => need (true) (.atomMin (Fin.ofNat 64 (fld w 20 6)) (Fin.ofNat 64 (fld w 14 6)) (Fin.ofNat 64 (fld w 8 6)) (Fin.ofNat 16 (fld w 0 4)))
  | 2 => need (true) (.atomMax (Fin.ofNat 64 (fld w 20 6)) (Fin.ofNat 64 (fld w 14 6)) (Fin.ofNat 64 (fld w 8 6)) (Fin.ofNat 16 (fld w 0 4)))
  | 3 => need (true) (.atomMinn (Fin.ofNat 64 (fld w 20 6)) (Fin.ofNat 64 (fld w 14 6)) (Fin.ofNat 64 (fld w 8 6)) (Fin.ofNat 16 (fld w 0 4)))
  | 4 => need (true) (.atomMaxn (Fin.ofNat 64 (fld w 20 6)) (Fin.ofNat 64 (fld w 14 6)) (Fin.ofNat 64 (fld w 8 6)) (Fin.ofNat 16 (fld w 0 4)))
  | 5 => need (true) (.atomAnd (Fin.ofNat 64 (fld w 20 6)) (Fin.ofNat 64 (fld w 14 6)) (Fin.ofNat 64 (fld w 8 6)) (Fin.ofNat 16 (fld w 0 4)))
  | 6 => need (true) (.atomOr (Fin.ofNat 64 (fld w 20 6)) (Fin.ofNat 64 (fld w 14 6)) (Fin.ofNat 64 (fld w 8 6)) (Fin.ofNat 16 (fld w 0 4)))
  | 7 => need (true) (.atomXor (Fin.ofNat 64 (fld w 20 6)) (Fin.ofNat 64 (fld w 14 6)) (Fin.ofNat 64 (fld w 8 6)) (Fin.ofNat 16 (fld w 0 4)))
  | 8 => need (true) (.atomExch (Fin.ofNat 64 (fld w 20 6)) (Fin.ofNat 64 (fld w 14 6)) (Fin.ofNat 64 (fld w 8 6)) (Fin.ofNat 16 (fld w 0 4)))
  | 9 => need (true) (.atomCas (Fin.ofNat 64 (fld w 20 6)) (Fin.ofNat 64 (fld w 14 6)) (Fin.ofNat 64 (fld w 8 6)) (Fin.ofNat 16 (fld w 0 4)))
  | 10 => need (true) (.atomIncw (Fin.ofNat 64 (fld w 20 6)) (Fin.ofNat 64 (fld w 14 6)) (Fin.ofNat 64 (fld w 8 6)) (Fin.ofNat 16 (fld w 0 4)))
  | 11 => need (true) (.atomAddb (Fin.ofNat 64 (fld w 20 6)) (Fin.ofNat 64 (fld w 14 6)) (Fin.ofNat 64 (fld w 8 6)) (Fin.ofNat 16 (fld w 0 4)))
  | 12 => need (true) (.atomExchq (Fin.ofNat 64 (fld w 20 6)) (Fin.ofNat 64 (fld w 14 6)) (Fin.ofNat 64 (fld w 8 6)) (Fin.ofNat 16 (fld w 0 4)))
  | _ => .error .illegalEncoding

/-- Major 0x2D (R164). -/
def decRed (w : Nat) : Except Reject Instr :=
  match fld w 4 4 with
  | 0 => need (true) (.redAdd (Fin.ofNat 64 (fld w 20 6)) (Fin.ofNat 64 (fld w 14 6)) (Fin.ofNat 64 (fld w 8 6)) (Fin.ofNat 16 (fld w 0 4)))
  | 1 => need (true) (.redMin (Fin.ofNat 64 (fld w 20 6)) (Fin.ofNat 64 (fld w 14 6)) (Fin.ofNat 64 (fld w 8 6)) (Fin.ofNat 16 (fld w 0 4)))
  | 2 => need (true) (.redMax (Fin.ofNat 64 (fld w 20 6)) (Fin.ofNat 64 (fld w 14 6)) (Fin.ofNat 64 (fld w 8 6)) (Fin.ofNat 16 (fld w 0 4)))
  | 3 => need (true) (.redMinn (Fin.ofNat 64 (fld w 20 6)) (Fin.ofNat 64 (fld w 14 6)) (Fin.ofNat 64 (fld w 8 6)) (Fin.ofNat 16 (fld w 0 4)))
  | 4 => need (true) (.redMaxn (Fin.ofNat 64 (fld w 20 6)) (Fin.ofNat 64 (fld w 14 6)) (Fin.ofNat 64 (fld w 8 6)) (Fin.ofNat 16 (fld w 0 4)))
  | 5 => need (true) (.redAnd (Fin.ofNat 64 (fld w 20 6)) (Fin.ofNat 64 (fld w 14 6)) (Fin.ofNat 64 (fld w 8 6)) (Fin.ofNat 16 (fld w 0 4)))
  | 6 => need (true) (.redOr (Fin.ofNat 64 (fld w 20 6)) (Fin.ofNat 64 (fld w 14 6)) (Fin.ofNat 64 (fld w 8 6)) (Fin.ofNat 16 (fld w 0 4)))
  | 7 => need (true) (.redXor (Fin.ofNat 64 (fld w 20 6)) (Fin.ofNat 64 (fld w 14 6)) (Fin.ofNat 64 (fld w 8 6)) (Fin.ofNat 16 (fld w 0 4)))
  | 8 => need (true) (.redFadd (Fin.ofNat 64 (fld w 20 6)) (Fin.ofNat 64 (fld w 14 6)) (Fin.ofNat 64 (fld w 8 6)) (Fin.ofNat 16 (fld w 0 4)))
  | 9 => need (true) (.redFmin (Fin.ofNat 64 (fld w 20 6)) (Fin.ofNat 64 (fld w 14 6)) (Fin.ofNat 64 (fld w 8 6)) (Fin.ofNat 16 (fld w 0 4)))
  | 10 => need (true) (.redFmax (Fin.ofNat 64 (fld w 20 6)) (Fin.ofNat 64 (fld w 14 6)) (Fin.ofNat 64 (fld w 8 6)) (Fin.ofNat 16 (fld w 0 4)))
  | _ => .error .illegalEncoding

/-- Major 0x2E (R164). -/
def decXrgn (w : Nat) : Except Reject Instr :=
  match fld w 0 8 with
  | 0 => need (fld w 8 18 == 0) .xbegin
  | 1 => need (fld w 24 2 == 0 && fld w 8 6 == 0) (.xend (Fin.ofNat 16 (fld w 20 4)) (Fin.ofNat 64 (fld w 14 6)))
  | 2 => need (fld w 8 18 == 0) .xabort
  | _ => .error .illegalOpcode

/-- Major 0x2F (R164). -/
def decSync (w : Nat) : Except Reject Instr :=
  match fld w 0 8 with
  | 0 => need (fld w 11 15 == 0 && decide (fld w 8 3 < 6)) (.fenceAcq (Fin.ofNat 6 (fld w 8 3)))
  | 1 => need (fld w 11 15 == 0 && decide (fld w 8 3 < 6)) (.fenceRel (Fin.ofNat 6 (fld w 8 3)))
  | 2 => need (fld w 11 15 == 0 && decide (fld w 8 3 < 6)) (.fenceFull (Fin.ofNat 6 (fld w 8 3)))
  | 3 => need (fld w 20 6 == 0 && fld w 11 3 == 0 && decide (fld w 8 3 < 6)) (.waitc (Fin.ofNat 64 (fld w 14 6)) (Fin.ofNat 6 (fld w 8 3)))
  | 4 => need (fld w 20 6 == 0) (.binit (Fin.ofNat 64 (fld w 14 6)) (Fin.ofNat 64 (fld w 8 6)))
  | 5 => need (fld w 20 6 == 0 && fld w 8 6 == 0) (.barv (Fin.ofNat 64 (fld w 14 6)))
  | 6 => need (fld w 20 6 == 0 && fld w 11 3 == 0 && decide (fld w 8 3 < 6)) (.barc (Fin.ofNat 64 (fld w 14 6)) (Fin.ofNat 6 (fld w 8 3)))
  | 7 => need (fld w 20 6 == 0) (.bwait (Fin.ofNat 64 (fld w 14 6)) (Fin.ofNat 64 (fld w 8 6)))
  | 8 => need (fld w 8 18 == 0) .cbara
  | 9 => need (fld w 8 18 == 0) .cbarw
  | _ => .error .illegalOpcode

/-- Major 0x30 (R164). -/
def decMtx (w : Nat) : Except Reject Instr :=
  match fld w 4 4 with
  | 0 => need (fld w 22 4 == 0 && fld w 8 12 == 0) (.mzero (Fin.ofNat 4 (fld w 20 2)) (Fin.ofNat 16 (fld w 0 4)))
  | 1 => need (fld w 22 4 == 0) (.mma (Fin.ofNat 4 (fld w 20 2)) (Fin.ofNat 64 (fld w 14 6)) (Fin.ofNat 64 (fld w 8 6)) (Fin.ofNat 16 (fld w 0 4)))
  | 2 => need (fld w 22 4 == 0 && fld w 8 6 == 0) (.msplit (Fin.ofNat 4 (fld w 20 2)) (Fin.ofNat 64 (fld w 14 6)) (Fin.ofNat 16 (fld w 0 4)))
  | 3 => need (fld w 22 4 == 0 && fld w 16 4 == 0) (.mmas (Fin.ofNat 4 (fld w 20 2)) (Fin.ofNat 4 (fld w 14 2)) (Fin.ofNat 64 (fld w 8 6)) (Fin.ofNat 16 (fld w 0 4)))
  | 4 => need (fld w 16 4 == 0) (.mdrain (Fin.ofNat 64 (fld w 20 6)) (Fin.ofNat 4 (fld w 14 2)) (Fin.ofNat 64 (fld w 8 6)) (Fin.ofNat 16 (fld w 0 4)))
  | 5 => need (fld w 22 4 == 0) (.mxport (Fin.ofNat 4 (fld w 20 2)) (Fin.ofNat 64 (fld w 14 6)) (Fin.ofNat 64 (fld w 8 6)) (Fin.ofNat 16 (fld w 0 4)))
  | 6 => need (fld w 22 4 == 0) (.mxload (Fin.ofNat 4 (fld w 20 2)) (Fin.ofNat 64 (fld w 14 6)) (Fin.ofNat 64 (fld w 8 6)) (Fin.ofNat 16 (fld w 0 4)))
  | 7 => need (fld w 16 4 == 0 && fld w 8 6 == 0) (.mstat (Fin.ofNat 64 (fld w 20 6)) (Fin.ofNat 4 (fld w 14 2)) (Fin.ofNat 16 (fld w 0 4)))
  | _ => .error .illegalOpcode

/-- Major 0x32 (R164). -/
def decQop (w : Nat) : Except Reject Instr :=
  match fld w 0 8 with
  | 0 => need (fld w 16 4 == 0 && fld w 8 6 == 0) (.vpop (Fin.ofNat 64 (fld w 20 6)) (Fin.ofNat 4 (fld w 14 2)))
  | 1 => need (fld w 16 4 == 0 && fld w 8 6 == 0) (.qstat (Fin.ofNat 64 (fld w 20 6)) (Fin.ofNat 4 (fld w 14 2)))
  | _ => .error .illegalOpcode

/-- Major 0x33 (R164). -/
def decAcc (w : Nat) : Except Reject Instr :=
  match fld w 0 8 with
  | 0 => need (fld w 22 4 == 0 && fld w 8 6 == 0 && decide (fld w 14 6 ≤ 56)) (.astr (Fin.ofNat 4 (fld w 20 2)) (Fin.ofNat 64 (fld w 14 6)))
  | 1 => need (fld w 22 4 == 0 && fld w 8 12 == 0) (.aqwait (Fin.ofNat 4 (fld w 20 2)))
  | _ => .error .illegalOpcode

/-- Major 0x34 (R164). -/
def decFetch (w : Nat) : Except Reject Instr :=
  match fld w 4 4 with
  | 0 => need (fld w 24 2 == 0 && fld w 8 6 == 0 && decide (fld w 14 6 ≤ 60)) (.hdef (Fin.ofNat 16 (fld w 20 4)) (Fin.ofNat 64 (fld w 14 6)) (Fin.ofNat 16 (fld w 0 4)))
  | 1 => need (fld w 18 2 == 0) (.fetch (Fin.ofNat 64 (fld w 20 6)) (Fin.ofNat 16 (fld w 14 4)) (Fin.ofNat 64 (fld w 8 6)) (Fin.ofNat 16 (fld w 0 4)))
  | 2 => need (fld w 18 2 == 0 && decide (fld w 8 6 ≤ 62)) (.epool (Fin.ofNat 64 (fld w 20 6)) (Fin.ofNat 16 (fld w 14 4)) (Fin.ofNat 64 (fld w 8 6)) (Fin.ofNat 16 (fld w 0 4)))
  | _ => .error .illegalOpcode

/-- Major 0x35 (R164). -/
def decRoute (w : Nat) : Except Reject Instr :=
  match fld w 4 4 with
  | 0 => need (true) (.route (Fin.ofNat 64 (fld w 20 6)) (Fin.ofNat 64 (fld w 14 6)) (Fin.ofNat 64 (fld w 8 6)) (Fin.ofNat 16 (fld w 0 4)))
  | _ => .error .illegalOpcode

/-- One instruction word and the literal word that follows it (R157 to R171). -/
def decodeWord (w : Nat) (lit : BitVec 32) : Except Reject Instr :=
  match fld w 26 6 with
  | 0 => decSys w
  | 1 => decMode w
  | 2 => decTrap w
  | 3 => decRgn w
  | 4 => decBra w
  | 5 => decCall w
  | 6 => decBsz w
  | 7 => decBsnz w
  | 8 => decBkz w
  | 9 => decBknz w
  | 10 => decBkall w
  | 12 => decSalu w lit
  | 13 => decSaddi w
  | 14 => decSandi w
  | 15 => decSori w
  | 16 => decSxori w
  | 17 => decSslti w
  | 20 => decMask w
  | 21 => decKmem w
  | 24 => decVint w
  | 25 => decVaddi w
  | 26 => decVmad w
  | 28 => decVfp w
  | 29 => decVfma w
  | 30 => decVsfu w
  | 32 => decVxl w
  | 36 => decLds w
  | 37 => decSts w
  | 38 => decLdg w
  | 39 => decStg w
  | 40 => decLdsc w
  | 41 => decStsc w
  | 42 => decLdgs w
  | 43 => decSmap w
  | 44 => decAtom w
  | 45 => decRed w
  | 46 => decXrgn w
  | 47 => decSync w
  | 48 => decMtx w
  | 50 => decQop w
  | 51 => decAcc w
  | 52 => decFetch w
  | 53 => decRoute w
  | _ => .error .illegalOpcode

/-- The word of an instruction and its literal word, if it has one (R158, R164 to R171); an event has no word. -/
def encodeNat : Instr → Option (Nat × Option (BitVec 32))
  | .nop => some (0x00000000, none)
  | .brk => some (0x00000001, none)
  | .endCtx => some (0x00000002, none)
  | .exitLanes => some (0x00000003, none)
  | .ret a => some (0x00000004 + a.val * 16384, none)
  | .srd d b => some (0x00000005 + d.val * 1048576 + b.val * 256, none)
  | .swr a b => some (0x00000006 + a.val * 16384 + b.val * 256, none)
  | .sliceof d a => some (0x00000007 + d.val * 1048576 + a.val * 16384, none)
  | .mdrd d => some (0x00000008 + d.val * 1048576, none)
  | .modev a => some (0x00000009 + a.val * 16384, none)
  | .mode i => some (0x04000000 + i.toNat, none)
  | .trap c => some (0x08000000 + c.toNat, none)
  | .rgn t => some (0x0C000000 + t.toNat, none)
  | .bra o => some (0x10000000 + o.toNat, none)
  | .call o => some (0x14000000 + o.toNat, none)
  | .bsz c o => some (0x18000000 + c.val * 1048576 + o.toNat, none)
  | .bsnz c o => some (0x1C000000 + c.val * 1048576 + o.toNat, none)
  | .bkz c o => some (0x20000000 + c.val * 1048576 + o.toNat, none)
  | .bknz c o => some (0x24000000 + c.val * 1048576 + o.toNat, none)
  | .bkall c o => some (0x28000000 + c.val * 1048576 + o.toNat, none)
  | .sadd d a b => some (0x30000000 + d.val * 1048576 + a.val * 16384 + b.val * 256, none)
  | .ssub d a b => some (0x30000001 + d.val * 1048576 + a.val * 16384 + b.val * 256, none)
  | .smul d a b => some (0x30000002 + d.val * 1048576 + a.val * 16384 + b.val * 256, none)
  | .smulhi d a b => some (0x30000003 + d.val * 1048576 + a.val * 16384 + b.val * 256, none)
  | .smulhn d a b => some (0x30000004 + d.val * 1048576 + a.val * 16384 + b.val * 256, none)
  | .sand d a b => some (0x30000005 + d.val * 1048576 + a.val * 16384 + b.val * 256, none)
  | .sor d a b => some (0x30000006 + d.val * 1048576 + a.val * 16384 + b.val * 256, none)
  | .sxor d a b => some (0x30000007 + d.val * 1048576 + a.val * 16384 + b.val * 256, none)
  | .sandn d a b => some (0x30000008 + d.val * 1048576 + a.val * 16384 + b.val * 256, none)
  | .sshl d a b => some (0x30000009 + d.val * 1048576 + a.val * 16384 + b.val * 256, none)
  | .sshr d a b => some (0x3000000A + d.val * 1048576 + a.val * 16384 + b.val * 256, none)
  | .ssra d a b => some (0x3000000B + d.val * 1048576 + a.val * 16384 + b.val * 256, none)
  | .smin d a b => some (0x3000000C + d.val * 1048576 + a.val * 16384 + b.val * 256, none)
  | .smax d a b => some (0x3000000D + d.val * 1048576 + a.val * 16384 + b.val * 256, none)
  | .sminn d a b => some (0x3000000E + d.val * 1048576 + a.val * 16384 + b.val * 256, none)
  | .smaxn d a b => some (0x3000000F + d.val * 1048576 + a.val * 16384 + b.val * 256, none)
  | .sseq d a b => some (0x30000010 + d.val * 1048576 + a.val * 16384 + b.val * 256, none)
  | .sslt d a b => some (0x30000011 + d.val * 1048576 + a.val * 16384 + b.val * 256, none)
  | .ssltn d a b => some (0x30000012 + d.val * 1048576 + a.val * 16384 + b.val * 256, none)
  | .spop d a => some (0x30000013 + d.val * 1048576 + a.val * 16384, none)
  | .sclz d a => some (0x30000014 + d.val * 1048576 + a.val * 16384, none)
  | .sctz d a => some (0x30000015 + d.val * 1048576 + a.val * 16384, none)
  | .smov d a => some (0x30000016 + d.val * 1048576 + a.val * 16384, none)
  | .smovl d lit => some (0x30000017 + d.val * 1048576, some lit)
  | .smovlSigned d lit => some (0x30000117 + d.val * 1048576, some lit)
  | .smovlHigh d a lit => some (0x30000217 + d.val * 1048576 + a.val * 16384, some lit)
  | .sshli d a n => some (0x30000018 + d.val * 1048576 + a.val * 16384 + n.val * 256, none)
  | .sshri d a n => some (0x30000019 + d.val * 1048576 + a.val * 16384 + n.val * 256, none)
  | .ssrai d a n => some (0x3000001A + d.val * 1048576 + a.val * 16384 + n.val * 256, none)
  | .sbfx d w p => some (0x3000001B + d.val * 1048576 + w.val * 16384 + p.val * 256, none)
  | .saddi d a i => some (0x34000000 + d.val * 1048576 + a.val * 16384 + i.toNat, none)
  | .sandi d a i => some (0x38000000 + d.val * 1048576 + a.val * 16384 + i.toNat, none)
  | .sori d a i => some (0x3C000000 + d.val * 1048576 + a.val * 16384 + i.toNat, none)
  | .sxori d a i => some (0x40000000 + d.val * 1048576 + a.val * 16384 + i.toNat, none)
  | .sslti d a i => some (0x44000000 + d.val * 1048576 + a.val * 16384 + i.toNat, none)
  | .kand d a b => some (0x50000000 + d.val * 1048576 + a.val * 16384 + b.val * 256, none)
  | .kor d a b => some (0x50000001 + d.val * 1048576 + a.val * 16384 + b.val * 256, none)
  | .kxor d a b => some (0x50000002 + d.val * 1048576 + a.val * 16384 + b.val * 256, none)
  | .kandn d a b => some (0x50000003 + d.val * 1048576 + a.val * 16384 + b.val * 256, none)
  | .knot d a => some (0x50000004 + d.val * 1048576 + a.val * 16384, none)
  | .kmov d a => some (0x50000005 + d.val * 1048576 + a.val * 16384, none)
  | .kpop d a => some (0x50000006 + d.val * 1048576 + a.val * 16384, none)
  | .kfirst d a => some (0x50000007 + d.val * 1048576 + a.val * 16384, none)
  | .ktos d a b => some (0x50000008 + d.val * 1048576 + a.val * 16384 + b.val * 256, none)
  | .kfroms d a b => some (0x50000009 + d.val * 1048576 + a.val * 16384 + b.val * 256, none)
  | .kclr d => some (0x5000000A + d.val * 1048576, none)
  | .klive d => some (0x5000000B + d.val * 1048576, none)
  | .kld d a b l => some (0x54000000 + d.val * 1048576 + a.val * 16384 + b.val * 256 + l.val, none)
  | .kst d a b l => some (0x54000010 + d.val * 1048576 + a.val * 16384 + b.val * 256 + l.val, none)
  | .vadd d a b => some (0x60000000 + d.val * 1048576 + a.val * 16384 + b.val * 256, none)
  | .vsub d a b => some (0x60000001 + d.val * 1048576 + a.val * 16384 + b.val * 256, none)
  | .vmul d a b => some (0x60000002 + d.val * 1048576 + a.val * 16384 + b.val * 256, none)
  | .vmulh d a b => some (0x60000003 + d.val * 1048576 + a.val * 16384 + b.val * 256, none)
  | .vand d a b => some (0x60000004 + d.val * 1048576 + a.val * 16384 + b.val * 256, none)
  | .vor d a b => some (0x60000005 + d.val * 1048576 + a.val * 16384 + b.val * 256, none)
  | .vxor d a b => some (0x60000006 + d.val * 1048576 + a.val * 16384 + b.val * 256, none)
  | .vandn d a b => some (0x60000007 + d.val * 1048576 + a.val * 16384 + b.val * 256, none)
  | .vshl d a b => some (0x60000008 + d.val * 1048576 + a.val * 16384 + b.val * 256, none)
  | .vshr d a b => some (0x60000009 + d.val * 1048576 + a.val * 16384 + b.val * 256, none)
  | .vsra d a b => some (0x6000000A + d.val * 1048576 + a.val * 16384 + b.val * 256, none)
  | .vmin d a b => some (0x6000000B + d.val * 1048576 + a.val * 16384 + b.val * 256, none)
  | .vmax d a b => some (0x6000000C + d.val * 1048576 + a.val * 16384 + b.val * 256, none)
  | .vabs d a => some (0x6000000D + d.val * 1048576 + a.val * 16384, none)
  | .vneg d a => some (0x6000000E + d.val * 1048576 + a.val * 16384, none)
  | .vpopc d a => some (0x6000000F + d.val * 1048576 + a.val * 16384, none)
  | .vclz d a => some (0x60000010 + d.val * 1048576 + a.val * 16384, none)
  | .vmov d a => some (0x60000011 + d.val * 1048576 + a.val * 16384, none)
  | .vmovs d a => some (0x60000012 + d.val * 1048576 + a.val * 16384, none)
  | .viota d => some (0x60000013 + d.val * 1048576, none)
  | .vsel d a b => some (0x60000014 + d.val * 1048576 + a.val * 16384 + b.val * 256, none)
  | .vceq d a b => some (0x60000015 + d.val * 1048576 + a.val * 16384 + b.val * 256, none)
  | .vcne d a b => some (0x60000016 + d.val * 1048576 + a.val * 16384 + b.val * 256, none)
  | .vclt d a b => some (0x60000017 + d.val * 1048576 + a.val * 16384 + b.val * 256, none)
  | .vcle d a b => some (0x60000018 + d.val * 1048576 + a.val * 16384 + b.val * 256, none)
  | .vadds d a b => some (0x60000019 + d.val * 1048576 + a.val * 16384 + b.val * 256, none)
  | .vmuls d a b => some (0x6000001A + d.val * 1048576 + a.val * 16384 + b.val * 256, none)
  | .vaddi d a i => some (0x64000000 + d.val * 1048576 + a.val * 16384 + i.toNat, none)
  | .vmad d a b c => some (0x68000000 + d.val * 1048576 + a.val * 16384 + b.val * 256 + c.val * 4, none)
  | .vmsb d a b c => some (0x68000001 + d.val * 1048576 + a.val * 16384 + b.val * 256 + c.val * 4, none)
  | .vbfx d a b c => some (0x68000002 + d.val * 1048576 + a.val * 16384 + b.val * 256 + c.val * 4, none)
  | .vbfi d a b c => some (0x68000003 + d.val * 1048576 + a.val * 16384 + b.val * 256 + c.val * 4, none)
  | .vfadd d a b => some (0x70000000 + d.val * 1048576 + a.val * 16384 + b.val * 256, none)
  | .vfsub d a b => some (0x70000001 + d.val * 1048576 + a.val * 16384 + b.val * 256, none)
  | .vfmul d a b => some (0x70000002 + d.val * 1048576 + a.val * 16384 + b.val * 256, none)
  | .vfmin d a b => some (0x70000003 + d.val * 1048576 + a.val * 16384 + b.val * 256, none)
  | .vfmax d a b => some (0x70000004 + d.val * 1048576 + a.val * 16384 + b.val * 256, none)
  | .vfabs d a => some (0x70000005 + d.val * 1048576 + a.val * 16384, none)
  | .vfneg d a => some (0x70000006 + d.val * 1048576 + a.val * 16384, none)
  | .vfceq d a b => some (0x70000007 + d.val * 1048576 + a.val * 16384 + b.val * 256, none)
  | .vfclt d a b => some (0x70000008 + d.val * 1048576 + a.val * 16384 + b.val * 256, none)
  | .vfcle d a b => some (0x70000009 + d.val * 1048576 + a.val * 16384 + b.val * 256, none)
  | .vfcun d a b => some (0x7000000A + d.val * 1048576 + a.val * 16384 + b.val * 256, none)
  | .vfclass d a => some (0x7000000B + d.val * 1048576 + a.val * 16384, none)
  | .vcvt d a => some (0x7000000C + d.val * 1048576 + a.val * 16384, none)
  | .vpack d a => some (0x7000000D + d.val * 1048576 + a.val * 16384, none)
  | .vunpk d a => some (0x7000000E + d.val * 1048576 + a.val * 16384, none)
  | .vfadds d a b => some (0x7000000F + d.val * 1048576 + a.val * 16384 + b.val * 256, none)
  | .vfmuls d a b => some (0x70000010 + d.val * 1048576 + a.val * 16384 + b.val * 256, none)
  | .vfma d a b c => some (0x74000000 + d.val * 1048576 + a.val * 16384 + b.val * 256 + c.val * 4, none)
  | .vfms d a b c => some (0x74000001 + d.val * 1048576 + a.val * 16384 + b.val * 256 + c.val * 4, none)
  | .vfnma d a b c => some (0x74000002 + d.val * 1048576 + a.val * 16384 + b.val * 256 + c.val * 4, none)
  | .vfnms d a b c => some (0x74000003 + d.val * 1048576 + a.val * 16384 + b.val * 256 + c.val * 4, none)
  | .vfdiv d a b l => some (0x78000000 + d.val * 1048576 + a.val * 16384 + b.val * 256 + l.val, none)
  | .vfsqrt d a l => some (0x78000010 + d.val * 1048576 + a.val * 16384 + l.val, none)
  | .vfrcp d a l => some (0x78000020 + d.val * 1048576 + a.val * 16384 + l.val, none)
  | .vfrsq d a l => some (0x78000030 + d.val * 1048576 + a.val * 16384 + l.val, none)
  | .vfexp2 d a l => some (0x78000040 + d.val * 1048576 + a.val * 16384 + l.val, none)
  | .vflog2 d a l => some (0x78000050 + d.val * 1048576 + a.val * 16384 + l.val, none)
  | .vfsinpi d a l => some (0x78000060 + d.val * 1048576 + a.val * 16384 + l.val, none)
  | .vfcospi d a l => some (0x78000070 + d.val * 1048576 + a.val * 16384 + l.val, none)
  | .vftanh d a l => some (0x78000080 + d.val * 1048576 + a.val * 16384 + l.val, none)
  | .vperm d a b l => some (0x80000000 + d.val * 1048576 + a.val * 16384 + b.val * 256 + l.val, none)
  | .vshup d a b l => some (0x80000010 + d.val * 1048576 + a.val * 16384 + b.val * 256 + l.val, none)
  | .vshdn d a b l => some (0x80000020 + d.val * 1048576 + a.val * 16384 + b.val * 256 + l.val, none)
  | .vshx d a b l => some (0x80000030 + d.val * 1048576 + a.val * 16384 + b.val * 256 + l.val, none)
  | .vbcast d a l => some (0x80000040 + d.val * 1048576 + a.val * 16384 + l.val, none)
  | .vscan d a o l => some (0x80000050 + d.val * 1048576 + a.val * 16384 + o.val * 256 + l.val, none)
  | .vscanx d a o l => some (0x80000060 + d.val * 1048576 + a.val * 16384 + o.val * 256 + l.val, none)
  | .vred d a o l => some (0x80000070 + d.val * 1048576 + a.val * 16384 + o.val * 256 + l.val, none)
  | .vcmpr d a l => some (0x80000080 + d.val * 1048576 + a.val * 16384 + l.val, none)
  | .lbal d a b l => some (0x80000090 + d.val * 1048576 + a.val * 16384 + b.val * 256 + l.val, none)
  | .lds d a b c e z l => some (0x90000000 + d.val * 1048576 + a.val * 16384 + b.val * 256 + c.toNat * 128 + e.toNat * 64 + z.val * 16 + l.val, none)
  | .sts d a b c z l => some (0x94000000 + d.val * 1048576 + a.val * 16384 + b.val * 256 + c.toNat * 128 + z.val * 16 + l.val, none)
  | .ldg d a b n e z l => some (0x98000000 + d.val * 1048576 + a.val * 16384 + b.val * 256 + n.toNat * 128 + e.toNat * 64 + z.val * 16 + l.val, none)
  | .stg d a b n z l => some (0x9C000000 + d.val * 1048576 + a.val * 16384 + b.val * 256 + n.toNat * 128 + z.val * 16 + l.val, none)
  | .ldsc d a b s z l => some (0xA0000000 + d.val * 1048576 + a.val * 16384 + b.val * 256 + s.val * 64 + z.val * 16 + l.val, none)
  | .stsc d a b s z l => some (0xA4000000 + d.val * 1048576 + a.val * 16384 + b.val * 256 + s.val * 64 + z.val * 16 + l.val, none)
  | .ldgs d a b z l => some (0xA8000000 + d.val * 1048576 + a.val * 16384 + b.val * 256 + z.val * 16 + l.val, none)
  | .stmap a n => some (0xAC000000 + a.val * 16384 + n.val * 256, none)
  | .stunmap n => some (0xAC000001 + n.val * 256, none)
  | .stflush n => some (0xAC000002 + n.val * 256, none)
  | .stinv n => some (0xAC000003 + n.val * 256, none)
  | .pref a b => some (0xAC000004 + a.val * 16384 + b.val * 256, none)
  | .stqry d n => some (0xAC000005 + d.val * 1048576 + n.val * 256, none)
  | .atomAdd d a b l => some (0xB0000000 + d.val * 1048576 + a.val * 16384 + b.val * 256 + l.val, none)
  | .atomMin d a b l => some (0xB0000010 + d.val * 1048576 + a.val * 16384 + b.val * 256 + l.val, none)
  | .atomMax d a b l => some (0xB0000020 + d.val * 1048576 + a.val * 16384 + b.val * 256 + l.val, none)
  | .atomMinn d a b l => some (0xB0000030 + d.val * 1048576 + a.val * 16384 + b.val * 256 + l.val, none)
  | .atomMaxn d a b l => some (0xB0000040 + d.val * 1048576 + a.val * 16384 + b.val * 256 + l.val, none)
  | .atomAnd d a b l => some (0xB0000050 + d.val * 1048576 + a.val * 16384 + b.val * 256 + l.val, none)
  | .atomOr d a b l => some (0xB0000060 + d.val * 1048576 + a.val * 16384 + b.val * 256 + l.val, none)
  | .atomXor d a b l => some (0xB0000070 + d.val * 1048576 + a.val * 16384 + b.val * 256 + l.val, none)
  | .atomExch d a b l => some (0xB0000080 + d.val * 1048576 + a.val * 16384 + b.val * 256 + l.val, none)
  | .atomCas d a b l => some (0xB0000090 + d.val * 1048576 + a.val * 16384 + b.val * 256 + l.val, none)
  | .atomIncw d a b l => some (0xB00000A0 + d.val * 1048576 + a.val * 16384 + b.val * 256 + l.val, none)
  | .atomAddb d a b l => some (0xB00000B0 + d.val * 1048576 + a.val * 16384 + b.val * 256 + l.val, none)
  | .atomExchq d a b l => some (0xB00000C0 + d.val * 1048576 + a.val * 16384 + b.val * 256 + l.val, none)
  | .redAdd d a b l => some (0xB4000000 + d.val * 1048576 + a.val * 16384 + b.val * 256 + l.val, none)
  | .redMin d a b l => some (0xB4000010 + d.val * 1048576 + a.val * 16384 + b.val * 256 + l.val, none)
  | .redMax d a b l => some (0xB4000020 + d.val * 1048576 + a.val * 16384 + b.val * 256 + l.val, none)
  | .redMinn d a b l => some (0xB4000030 + d.val * 1048576 + a.val * 16384 + b.val * 256 + l.val, none)
  | .redMaxn d a b l => some (0xB4000040 + d.val * 1048576 + a.val * 16384 + b.val * 256 + l.val, none)
  | .redAnd d a b l => some (0xB4000050 + d.val * 1048576 + a.val * 16384 + b.val * 256 + l.val, none)
  | .redOr d a b l => some (0xB4000060 + d.val * 1048576 + a.val * 16384 + b.val * 256 + l.val, none)
  | .redXor d a b l => some (0xB4000070 + d.val * 1048576 + a.val * 16384 + b.val * 256 + l.val, none)
  | .redFadd d a b l => some (0xB4000080 + d.val * 1048576 + a.val * 16384 + b.val * 256 + l.val, none)
  | .redFmin d a b l => some (0xB4000090 + d.val * 1048576 + a.val * 16384 + b.val * 256 + l.val, none)
  | .redFmax d a b l => some (0xB40000A0 + d.val * 1048576 + a.val * 16384 + b.val * 256 + l.val, none)
  | .xbegin => some (0xB8000000, none)
  | .xend d a => some (0xB8000001 + d.val * 1048576 + a.val * 16384, none)
  | .xabort => some (0xB8000002, none)
  | .fenceAcq s => some (0xBC000000 + s.val * 256, none)
  | .fenceRel s => some (0xBC000001 + s.val * 256, none)
  | .fenceFull s => some (0xBC000002 + s.val * 256, none)
  | .waitc a p => some (0xBC000003 + a.val * 16384 + p.val * 256, none)
  | .binit a b => some (0xBC000004 + a.val * 16384 + b.val * 256, none)
  | .barv a => some (0xBC000005 + a.val * 16384, none)
  | .barc a p => some (0xBC000006 + a.val * 16384 + p.val * 256, none)
  | .bwait a b => some (0xBC000007 + a.val * 16384 + b.val * 256, none)
  | .cbara => some (0xBC000008, none)
  | .cbarw => some (0xBC000009, none)
  | .mzero d l => some (0xC0000000 + d.val * 1048576 + l.val, none)
  | .mma d a b l => some (0xC0000010 + d.val * 1048576 + a.val * 16384 + b.val * 256 + l.val, none)
  | .msplit d a l => some (0xC0000020 + d.val * 1048576 + a.val * 16384 + l.val, none)
  | .mmas d a b l => some (0xC0000030 + d.val * 1048576 + a.val * 16384 + b.val * 256 + l.val, none)
  | .mdrain d a b l => some (0xC0000040 + d.val * 1048576 + a.val * 16384 + b.val * 256 + l.val, none)
  | .mxport d a b l => some (0xC0000050 + d.val * 1048576 + a.val * 16384 + b.val * 256 + l.val, none)
  | .mxload d a b l => some (0xC0000060 + d.val * 1048576 + a.val * 16384 + b.val * 256 + l.val, none)
  | .mstat d a l => some (0xC0000070 + d.val * 1048576 + a.val * 16384 + l.val, none)
  | .vpop d a => some (0xC8000000 + d.val * 1048576 + a.val * 16384, none)
  | .qstat d a => some (0xC8000001 + d.val * 1048576 + a.val * 16384, none)
  | .astr d a => some (0xCC000000 + d.val * 1048576 + a.val * 16384, none)
  | .aqwait d => some (0xCC000001 + d.val * 1048576, none)
  | .hdef h a l => some (0xD0000000 + h.val * 1048576 + a.val * 16384 + l.val, none)
  | .fetch d h b l => some (0xD0000010 + d.val * 1048576 + h.val * 16384 + b.val * 256 + l.val, none)
  | .epool d h b l => some (0xD0000020 + d.val * 1048576 + h.val * 16384 + b.val * 256 + l.val, none)
  | .route d a b l => some (0xD4000000 + d.val * 1048576 + a.val * 16384 + b.val * 256 + l.val, none)
  | .illegalInstruction _ => none
  | .copy _ _ => none
  | .fill _ _ => none
  | .fwarm _ => none
  | .cred _ _ => none
  | .cbcast _ _ => none
  | .merge _ _ => none
  | .streamEntryAppend _ _ _ _ => none
  | .loadComplete _ _ => none
  | .storePerformed _ _ _ => none
  | .windowFill _ => none
  | .stashCopyComplete _ _ => none
  | .ownershipGrant _ _ => none
  | .atomPerformed _ _ => none
  | .redMerge _ _ => none
  | .regionValidation _ _ => none
  | .barrierArrival _ => none
  | .clusterArrival _ _ _ => none
  | .fenceComplete _ _ _ _ => none
  | .teamWake _ _ _ => none
  | .activeEntry _ _ => none
  | .rotation _ _ _ => none
  | .cisternEvict _ => none
  | .cisternCopyback _ => none
  | .teamPlacement _ _ _ _ => none
  | .drainingExit _ _ _ => none
  | .doneReport _ _ => none
  | .prepare _ _ => none
  | .ready _ => none
  | .commit _ _ => none
  | .commitAck _ _ => none
  | .windowEnd _ _ => none
  | .replicaCopyDone _ _ _ => none
  | .versionPublish _ => none
  | .abort _ _ => none
  | .abortAck _ => none
  | .doorbell _ _ _ => none
  | .launch _ => none
  | .releaseStream _ => none
  | .kill _ => none
  | .queueNop _ => none
  | .launchAdmission _ _ => none
  | .preemption _ _ => none
  | .contextSave _ _ _ => none
  | .flushAndRestart _ _ _ => none
  | .teamRestore _ _ _ _ => none
  | .killByPolicy _ => none
  | .coreLoss _ _ => none
  | .replyDoorbell _ _ => none
  | .replyResume _ => none
  | .replyAbort _ => none
  | .replySave _ => none
  | .replyRestore _ => none
  | .hostRead _ _ _ => none
  | .hostWrite _ _ _ => none
  | .configWrite _ _ _ _ => none
  | .perfSelect _ _ => none
  | .queueEnable _ _ => none
  | .faultRingEnable _ _ => none
  | .faultRingConsume _ _ => none
  | .replyRingEnable _ _ => none
  | .windlassDomainEnable _ _ => none
  | .windlassDomainDisable _ _ => none
  | .svnup _ => none
  | .coldBoot _ => none
  | .warmReset _ => none
  | .getVersion => none
  | .getCapabilities => none
  | .negotiateAlgorithms _ _ => none
  | .getDigests => none
  | .getCertificate _ => none
  | .challenge _ => none
  | .getMeasurements _ => none
  | .keyExchange _ => none
  | .finish _ => none
  | .endSession _ => none
  | .spdmUnsupported _ => none
  | .supplyVoltageEvent => none
  | .clockFrequencyEvent => none
  | .temperatureShutdownEvent _ => none
  | .securityControllerFault => none
  | .uncorrectableError _ => none
  | .correctedError _ => none
  | .hubLinkFailure _ => none
  | .ringLinkFailure _ => none
  | .telemetryRefresh _ _ _ _ => none
  | .powerLoan _ _ _ => none
  | .loanRepay _ _ => none
  | .loanRenew _ => none
  | .loanExpiry _ => none
  | .backInvalidationAck _ _ => none
  | .cisternLazyReclaim _ => none
  | .readMarkClear _ => none
  | .linkRecovery _ _ => none
  | .hubLoss => none
  | .broryPortLoss _ => none
  | .broryPeerAccess _ _ _ _ _ => none

/-- Whether the first word is an SMOVL, which takes a literal word (R161). -/
def hasLiteral (w : Nat) : Bool := fld w 26 6 == 12 && fld w 0 8 == 23

/-- The number little-endian bytes stand for (R5). -/
def leNat : List Byte → Nat
  | [] => 0
  | b :: bs => b.toNat + 256 * leNat bs

/-- The `n` little-endian bytes of a number (R5). -/
def leBytes : Nat → Nat → List Byte
  | 0, _ => []
  | n + 1, v => BitVec.ofNat 8 v :: leBytes n (v / 256)

/-- One instruction from the front of a list of bytes (R157, R161), with the bytes that follow it. -/
def decode (bs : List Byte) : Except Reject (Instr × List Byte) :=
  if bs.length < 4 then .error .truncated
  else
    let w := leNat (bs.take 4)
    if hasLiteral w then
      if bs.length < 8 then .error .truncated
      else
        match decodeWord w (BitVec.ofNat 32 (leNat ((bs.drop 4).take 4))) with
        | .ok i => .ok (i, bs.drop 8)
        | .error r => .error r
    else
      match decodeWord w 0 with
      | .ok i => .ok (i, bs.drop 4)
      | .error r => .error r

/-- The words of an instruction, first word first; an event has none. -/
def encode (i : Instr) : List (BitVec 32) :=
  match encodeNat i with
  | some (w, some l) => [BitVec.ofNat 32 w, l]
  | some (w, none) => [BitVec.ofNat 32 w]
  | none => []

/-- The bytes of an instruction as memory holds them (R5, R157). -/
def encodeBytes (i : Instr) : List Byte := (encode i).flatMap fun w => leBytes 4 w.toNat

/-- The bytes of a word of the opcode table's bit numbering, padded with zero to the longest instruction (R161). -/
def tableBytes (nbits w : Nat) : List Byte := leBytes 8 (w % 2 ^ nbits)

/-- The instruction the decoder reads from an instruction whose bits are `w`, numbered as the opcode table numbers them. -/
def decodeTableWord (nbits w : Nat) : Option Instr :=
  match decode (tableBytes nbits w) with
  | .ok (i, _) => some i
  | .error _ => none

end Sys2Proof
end

