-- ==== Sys2Proof/Machine/Issue.lean ====
section
/-! DEFINITION. Machine/Issue.lean: what the machine does next: whose turn it is (log 1), when a context may issue (R45, R48), the fetch
of its instruction (R157, R161, R162), and what the performance counters count of a step (R390). -/

namespace Sys2Proof.Machine

/-! ### Fetch (R157) -/

/-- What a fetch comes to. -/
inductive Fetched where
  | word (w : Nat) (frames : List Nat)
  | faults (code : FaultCode)
  | ends (status : Nat)
  | stalls
  deriving DecidableEq, Repr

/-- Fetches the four bytes at an address, through pages that grant X (R157): the code committed before the launch's admission (R115); a
sector being committed holds the fetch (R144), and a lost home, of the code or of a table, ends the launch (R379, R386). -/
def fetchAt (s : State) (t : Team) (a : Word) : Fetched :=
  let adm := ((s.launch? t.launch).map (·.adm)).getD 0
  match ((s.launch? t.launch).map (fun l => s.tablesFor l [a.toNat])).getD [] |>.findSome? s.lostHome with
  | some status => .ends status
  | none =>
  match testAll ((List.range 4).map (fun i =>
      match s.resolveFor t { x := true } (a + BitVec.ofNat 64 i) with
      | .ok pa => Except.ok pa
      | .error c => .error ({ code := c } : Flt))) with
  | .error f => .faults f.code
  | .ok pas =>
    match pas.findSome? (fun pa => s.lostHome (pa / 64)) with
    | some status => .ends status
    | none =>
      if pas.any (fun pa => (s.sectorRec (pa / 64)).prep) then .stalls
      else .word (natOfBytes (pas.map (s.codeByte adm))) (pas.map (fun pa => pa / 4096))

/-- Notes the frames that a fetch has read for its launch (R379). -/
def State.noteFrames (s : State) (sid : Nat) (frames : List Nat) : State :=
  match s.launch? sid with
  | none => s
  | some l => if frames.all l.readFrames.contains then s else s.putLaunch { l with readFrames := (l.readFrames ++ frames).dedup }

/-! ### What the machine does in a step -/

/-- The next move: the machine has stopped; nothing more happens in this step; or an instruction runs from a state. -/
inductive NextMove where
  | stop (f : Fault)
  | idle (s : State)
  | run (i : Instr) (s : State)
  deriving DecidableEq, Repr

/-- The event a word that decodes to no instruction comes to (R162). -/
def illegalOf (r : Reject) : Instr := .illegalInstruction (r == Reject.illegalOpcode)

/-- The literal word of SMOVL, or nothing for any other word. -/
def literalOf (s : State) (t : Team) (c : Ctx) (w : Nat) : Fetched :=
  if hasLiteral w then fetchAt s t (c.pc + 4) else .word 0 []

/-- A fetch fault parks the context (R157, R163 step 1), after the walk that met it (R101, R379); the address is that of the word that was
not there. -/
def fetchFault (s : State) (v : View) (code : FaultCode) (a : Word) : State :=
  park (s.noteTeam v.team [a.toNat]) v { code := code, addr := a, x := true } 0 []

/-- The fetch and decoding of the instruction at a context's PC. -/
def fetchMove (s : State) (v : View) : NextMove :=
  match fetchAt s v.team v.ctx.pc with
  | .faults code => .idle (fetchFault s v code v.ctx.pc)
  | .ends status => .idle (s.requestAbort v.team.launch status)
  | .stalls => .idle s
  | .word w f1 =>
    match literalOf s v.team v.ctx w with
    | .faults code => .idle (fetchFault s v code (v.ctx.pc + 4))
    | .ends status => .idle (s.requestAbort v.team.launch status)
    | .stalls => .idle s
    | .word lit f2 =>
      let s := (s.noteFrames v.team.launch (f1 ++ f2)).noteTeam v.team (v.ctx.pc.toNat :: if hasLiteral w then [(v.ctx.pc + 4).toNat] else [])
      match decodeWord w (BitVec.ofNat 32 lit) with
      | .ok i => .run i s
      | .error r => .run (illegalOf r) s

/-- Whether a pre-emption lets a team issue: one to be saved or flushed issues no more (R306, R307), except that its cluster runs on while
a context is in the middle of an engine command (R263). -/
def stopAllows (s : State) (t : Team) : Bool :=
  match t.stop with
  | none | some .drain => true
  | some (.save ..) | some (.flush _) => runsOn s t

/-- Whether a context may issue at all: it runs and is not held, its launch runs, its die is in service and its cores are not stopped,
and a team context is in the active set (R12, R48, R151, R378). -/
def mayIssue (s : State) (v : View) : Bool :=
  v.ctx.run == .running && v.ctx.hold.isNone &&
  ((s.launch? v.team.launch).map (fun l => l.st == .running)).getD false &&
  !(s.die v.team.ref.die).fenced && !s.alarm.coresStopped &&
  (v.kind != .team || v.team.slot == .active) && stopAllows s v.team

/-- The boundary that a context has reached and whose destinations are not yet written (R45). -/
def boundaryOf (s : State) (c : Ctx) : Option Window := c.windows.find? (fun w => w.left = 0 && !s.written w.op)

/-- A context's turn to issue. A stall at a boundary takes a team context out of the active set when the core expects it to be long
(R49, log 7). -/
def issueMove (s : State) (r : CtxRef) : NextMove :=
  let s : State := { s with cur := r }
  match s.view with
  | none => .idle s
  | some v =>
    if !mayIssue s v then .idle s
    else
      match boundaryOf s v.ctx with
      | some w => .idle (if Config.longStall w.op then s.await v (.boundary w.op) else s)
      | none => fetchMove s v

/-! ### The autopilot (log 1) -/

/-- The contexts of a team. -/
def Team.kinds (t : Team) : List CtxKind :=
  [CtxKind.team] ++ (if t.matrix.isSome then [.matrix] else []) ++ (if t.access.isSome then [.access] else [])

/-- What may come about for the contexts and the slot of a team. -/
def teamTurns (t : Team) : List Turn :=
  let d := t.ref.die
  let c := t.ref.core
  let n := t.ref.slot
  t.kinds.map (fun k => Turn.issue { ref := t.ref, kind := k }) ++
  (match t.slot with
   | .waiting _ => [.event (.teamWake d c n)]
   | .active => [.event (.rotation d c n)]
   | .draining => [.event (.drainingExit d c n)]
   | _ => []) ++
  [.event (.fenceComplete d c n 0), .event (.fenceComplete d c n 1), .event (.fenceComplete d c n 2)] ++
  (if t.cbar.pending.isSome then [.event (.clusterArrival d c n)] else []) ++
  (t.queues.zipIdx.filter (fun q => q.1.stream.isSome)).map (fun q => .event (.streamEntryAppend d c n (Fin.ofNat 4 q.2))) ++
  (match t.stop with
   | some (.save ..) => [.event (.contextSave d c n)]
   | some (.flush _) => [.event (.flushAndRestart d c n)]
   | _ => [])

/-- What may come about for an operation in flight. -/
def opTurns (s : State) (o : Op) : List Turn :=
  match o.kind with
  | .load .. | .value .. | .fetch .. | .epool .. => [.event (.loadComplete o.id [])]
  | .store ls _ _ =>
    ls.filterMap (fun l => match l.place with | .glob _ pa => some (.event (.ownershipGrant o.id (pa / 64))) | _ => none) ++
    [.event (.storePerformed o.id [] false)]
  | .fill .. => [.event (.windowFill o.id)]
  | .own d c n ix _ =>
    match (s.map? d c o.lv n).bind (fun m => m.sec? ix) with
    | some x => ((x.pas.map (· / 64)).dedup).map (fun g => .event (.ownershipGrant o.id g))
    | none => [.event (.ownershipGrant o.id 0)]
  | .ldgs _ => [.event (.stashCopyComplete o.id [])]
  | .atom .. => [.event (.atomPerformed o.id [])]
  | .red .. => [.event (.redMerge o.id [])]
  | .xend .. => [.event (.regionValidation o.id [])]
  | .hdef | .engine _ => []

/-- What may come about for an engine command. -/
def cmdTurns (c : Cmd) : List Turn :=
  match c.engine, c.code with
  | 0, 1 => [.event (.copy c.id [])]
  | 0, _ => [.event (.fill c.id [])]
  | 1, _ => [.event (.fwarm c.id)]
  | 2, 1 => [.event (.cred c.id [])]
  | 2, _ => [.event (.cbcast c.id [])]
  | _, _ => [.event (.merge c.id [])]

/-- A rectangle on which a cluster of a launch could go now. -/
def seatFor (s : State) (l : Launch) (die : Nat) : Option (Nat × Nat) :=
  ((List.range 8).flatMap (fun c => (List.range 6).map (fun r => (c, r)))).find? (fun p =>
    match rectangle (s.die die) (l.coreSet die) l.lrec.cw l.lrec.ch p.1 p.2 with
    | some cores => cores.all (fun c => coreCanFit s die c l.lrec)
    | none => false)

/-- What may come about for a launch. -/
def launchTurns (s : State) (l : Launch) : List Turn :=
  let dies := List.range 8
  match l.st with
  | .waiting =>
    match (List.range 65536).find? (fun n => tagFree s (BitVec.ofNat 16 n)) with
    | some n => [.event (.launchAdmission l.sid (BitVec.ofNat 16 n))]
    | none => []
  | .running | .preparing =>
    (match l.unplaced.head? with
     | some k =>
       match (l.lrec.dieOf k).bind (seatFor s l) with
       | some p => [.event (.teamPlacement l.sid k p.1 p.2)]
       | none => []
     | none => []) ++
    dies.flatMap (fun d => [.event (.doneReport l.sid d), .event (.prepare l.sid d), .event (.backInvalidationAck l.sid d)]) ++
    [.event (.ready l.sid)]
  | .committing => dies.map (fun d => .event (.commit l.sid d)) ++ [.event (.commitAck l.sid [])]
  | .aborting _ => dies.map (fun d => .event (.abort l.sid d)) ++ [.event (.abortAck l.sid)]

/-- What may come about for a Windlass domain. -/
def domainTurns (d : Domain) (m : Nat) : List Turn :=
  (if d.windowDue then [.event (.windowEnd m [])] else []) ++
  (match d.pending with
   | p :: _ => (List.range p.changes.length).map (fun i => .event (.replicaCopyDone m i none))
   | [] => []) ++
  (if d.publishCsn.isSome then [.event (.versionPublish m)] else [])

/-- What may come about at the queues and reply rings. -/
def hubTurns (s : State) : List Turn :=
  (match nextQueue s with
   | some q => [.event (.launch q), .event (.releaseStream q), .event (.kill q), .event (.queueNop q)]
   | none => []) ++
  (s.hub.funcs.filter (fun p => p.2.rren && p.2.rrci != p.2.rrpi)).flatMap (fun p =>
    [.event (.replyResume p.1), .event (.replyAbort p.1), .event (.replySave p.1)])

/-- What comes about inside the package by itself. What comes from outside it (the host, boot, faults, power) and what is the hub's or a
slice's own choice of policy (pre-emption, restoring teams, kills, evictions, reclaiming) stands in the agenda or does not happen. -/
def openTurns (s : State) : List Turn :=
  s.teams.flatMap teamTurns ++ s.readyQ.map (fun r => .event (.activeEntry r.die r.core)) ++
  (s.ops.filter (fun o => !o.done)).flatMap (opTurns s) ++ s.cmds.flatMap cmdTurns ++
  s.arrivals.map (fun a => .event (.barrierArrival a.id)) ++ hubTurns s ++ s.hub.launches.flatMap (launchTurns s) ++
  (List.range 16).flatMap (fun m => domainTurns (s.domain m) m)

/-- The next turn, and the state without it: the agenda's first, or one of those that are open, in rotation. -/
def nextTurn (s : State) : Option Turn × State :=
  match s.agenda with
  | t :: rest => (some t, { s with agenda := rest })
  | [] =>
    let ts := openTurns s
    (ts[s.turn % ts.length]?, { s with turn := s.turn + 1 })

/-- Counter values, by die, core and counter. -/
abbrev Counts := List ((Nat × Nat × Nat) × Word)

/-- Adds an amount to the counters of a core that select an event (R390): event, die, core, amount. -/
def bumpPerf (sel : Vector (BitVec 8) 8) (cs : Counts) (e : Nat × Nat × Nat × Nat) : Counts :=
  (List.range 8).foldl
    (fun cs i =>
      let k := (e.2.1, e.2.2.1, i)
      if (sel[Fin.ofNat 8 i]).toNat = e.1 then setAssoc cs k (assoc cs k 0 + BitVec.ofNat 64 e.2.2.2) else cs)
    cs

/-- Whether some counter selects one of these events. -/
def State.counts (s : State) (events : List Nat) : Bool := s.hub.perfSel.toList.any (fun x => events.contains x.toNat)

/-- The clocks of a step on every core, for the events that count clocks (log 6). -/
def clocksOf (n : Nat) : List (Nat × Nat × Nat × Nat) :=
  (List.range 8).flatMap (fun d => (List.range 48).flatMap (fun c => [1, 8].map (fun e => (e, d, c, Config.perfClocks n e d c))))

/-- The counters of clocks go on (R390). -/
def State.clockPerf (s : State) : State :=
  { s with perf := if s.counts [1, 8] then (clocksOf s.tick).foldl (bumpPerf s.hub.perfSel) s.perf else s.perf }

/-- A step's clock: the step is counted and time passes; TIME never decreases (R26, log 5). Reports a millisecond old are refreshed
(R382), and the counters of clocks go on (R390). -/
def State.clock (s : State) : State :=
  ({ s with
     tick := s.tick + 1
     time := BitVec.ofNat 64 (min (2 ^ 64 - 1) (s.time.toNat + Config.elapsed s.tick)) } : State).refreshDue.clockPerf

/-- Whether an event may come about: an instruction word only runs where a context fetches it. -/
def mayComeAbout (i : Instr) : Bool :=
  match i with
  | .illegalInstruction _ => false
  | i => i.isEvent

/-- What follows a turn. -/
def moveOf (s : State) (t : Option Turn) : NextMove :=
  match t with
  | none => .idle s
  | some (.issue r) => issueMove s r
  | some (.event i) => if mayComeAbout i then .run i s else .idle s

/-- Whether a turn is the cold boot, which alone brings the package back after the loss of its hub (R386). -/
def isColdBoot (t : Option Turn) : Bool :=
  match t with
  | some (.event (.coldBoot _)) => true
  | _ => false

/-- The next move of the machine: an overdue loan returns before anything else comes about (R384). -/
def nextMove (s : State) : NextMove :=
  let s := s.clock
  match if s.hubLost then none else s.overdue with
  | some x => .idle (s.returnLoan x x.units)
  | none =>
    let (t, s) := nextTurn s
    if s.hubLost && !isColdBoot t then .stop .hubLost else moveOf s t

/-! ### Performance counters (R390) -/

/-- Whether a team instruction acts per lane (R36, R52), by its first word. -/
def perLaneWord (w : Nat) : Bool :=
  let major := Sys2Proof.fld w 26 6
  [0x18, 0x19, 0x1A, 0x1C, 0x1D, 0x1E, 0x20, 0x24, 0x25, 0x26, 0x27, 0x2A, 0x2C, 0x2D, 0x2E, 0x35].contains major ||
  (major == 0x34 && Sys2Proof.fld w 4 4 != 0) || (major == 0x32 && Sys2Proof.fld w 0 8 == 0) ||
  (major == 0 && Sys2Proof.fld w 0 8 == 5 && (Sys2Proof.fld w 8 6 == 5 || Sys2Proof.fld w 8 6 == 6))

/-- P, the passes of a per-lane instruction (R36). -/
def passes (v : View) : Nat := max 1 ((List.range 32).countP (fun g => (summary v.eff).testBit g))

/-- The global sectors that an operation has still to access. -/
def State.pendingSectors (s : State) (o : Op) : List Nat :=
  ((s.pendingLocs o).filterMap (fun x => match x with | .g pa => some (pa / 64) | .s .. => none)).dedup

/-- An access of a step for the counters: its core and sector, whether it goes through the core's L1, and whether it is made at the
sector's home whatever the L1 holds. -/
structure Accessed where
  die : Nat
  core : Nat
  sector : Nat
  l1 : Bool
  home : Bool
  deriving DecidableEq, Repr

/-- How an operation accesses a sector: ATOM and region decisions at the home; RED and the no-allocate stores of a core at the home unless
the core holds the sector in M or E; the rest through the L1 (R88, R93, R244, R249). -/
def Op.accessOf (s : State) (o : Op) (sector : Nat) : Accessed :=
  let d := o.own.ref.die
  let c := o.own.ref.core
  match o.kind with
  | .atom .. | .xend .. => { die := d, core := c, sector := sector, l1 := false, home := true }
  | .red .. => { die := d, core := c, sector := sector, l1 := false, home := !s.holdsME d c sector }
  | .store .. => { die := d, core := c, sector := sector, l1 := true, home := !s.holdsME d c sector }
  | _ => { die := d, core := c, sector := sector, l1 := true, home := false }

/-- The global sectors of the words of an entry that a stream has read in a step (R284). -/
def streamed (s s' : State) (r : TeamRef) (q : Nat) : List Nat :=
  match s.team? r with
  | none => []
  | some t =>
    match (t.queue q).stream with
    | none => []
    | some x =>
      let same (y : Stream) : Bool := y.i0 == x.i0 && y.i1 == x.i1 && y.i2 == x.i2 && x.words.length ≤ y.words.length
      let upto :=
        match (s'.team? r).bind (fun u => (u.queue q).stream) with
        | some y => if same y then y.words.length else t.nl
        | none => t.nl
      if bitAt (qa x.desc 6) 32 then []
      else
        ((((List.range (min upto (bits (qa x.desc 7) 10 0))).drop x.words.length).filterMap (fun l =>
          match s.resolveFor t { r := true } (BitVec.ofInt 64 (streamAddr x.desc x.i0 x.i1 x.i2 l)) with
          | .ok pa => some (pa / 64)
          | .error _ => none))).dedup

/-- The accesses to global sectors that a step has made for the contexts of each core; those of engines and of walks count only by the copies
(log 42). -/
def accessed (i : Instr) (s s' : State) : List Accessed :=
  let made (o : Op) : List Accessed :=
    let left := match s'.ops.find? (fun x => x.id = o.id) with | some x => s'.pendingSectors x | none => []
    ((s.pendingSectors o).filter (fun x => !left.contains x)).map (o.accessOf s)
  match i with
  | .loadComplete .. | .stashCopyComplete .. | .atomPerformed .. | .redMerge .. | .regionValidation .. => s.ops.flatMap made
  | .storePerformed .. =>
    (s.ops.filter (fun o => o.path.isSome && (match o.kind with | .store _ na _ => na | _ => false))).flatMap made
  | .streamEntryAppend die core slot q =>
    (streamed s s' { die := die, core := core, slot := slot } q).map (fun x =>
      { die := die, core := core, sector := x, l1 := true, home := false })
  | _ => []

/-- The copies that L1s have obtained in a step: die, core, sector. -/
def obtained (s s' : State) : List (Nat × Nat × Nat) :=
  (s'.copies.filterMap (fun k => k.core.map (fun c => (k.die, c, k.sector)))).filter (fun k => s.l1State k.1 k.2.1 k.2.2 == .I)

/-- The sectors whose bytes windows have obtained in a step: die, core, sector. -/
def windowed (s s' : State) : List (Nat × Nat × Nat) :=
  s'.maps.flatMap (fun m =>
    let old := (s.map? m.die m.core m.lv m.n).map (·.secs) |>.getD []
    (m.secs.filter (fun x => old.all (fun y => y.ix ≠ x.ix))).flatMap (fun x =>
      ((x.pas.map (· / 64)).dedup).map (fun g => (m.die, m.core, g))))

/-- Whether another die's L2 or HBM serves a read of a sector: the home is another die, and the own die's proxy does not hold it (R92,
R390). -/
def servedAfar (s : State) (die sector : Nat) : Bool :=
  dieOf (64 * sector) ≠ die && !s.copies.any (fun k => k.sector = sector && k.die = die && k.core.isNone)

/-- The L1 misses of a step (event 4) and the accesses that another die served (event 6), by core: each sector once. An access at the home
is served there, whatever the L1 and the die's proxy hold. -/
def missesOf (i : Instr) (s s' : State) : List (Nat × Nat × Nat × Nat) :=
  let seen := accessed i s s'
  let key (a : Accessed) : Nat × Nat × Nat := (a.die, a.core, a.sector)
  let missed := (obtained s s' ++ (seen.filter (fun a => a.l1 && s.l1State a.die a.core a.sector == .I)).map key).dedup
  let afar := ((missed ++ windowed s s').filter (fun k => servedAfar s k.1 k.2.2) ++
    (seen.filter (fun a => a.home && dieOf (64 * a.sector) ≠ a.die)).map key).dedup
  missed.map (fun k => (4, k.1, k.2.1, 1)) ++ afar.map (fun k => (6, k.1, k.2.1, 1))

/-- What one step adds for the events that are no clocks: event, die, core, amount. An instruction counts when it completes or parks its
context. -/
def countsOf (i : Instr) (s s' : State) : List (Nat × Nat × Nat × Nat) :=
  let issued : List (Nat × Nat × Nat × Nat) :=
    match encode i, s.view, s'.view with
    | w :: _, some v, some v' =>
      let d := v.team.ref.die
      let c := v.team.ref.core
      let completed := v'.ctx.isc != v.ctx.isc
      (if v.kind = .team && (completed || v'.ctx.run != v.ctx.run) then
        [(2, d, c, 1)] ++ (if perLaneWord w.toNat then [(3, d, c, passes v)] else []) else []) ++
      (if completed && (match i with | .mma .. => true | .mmas .. => true | _ => false) then [(7, d, c, 1)] else [])
    | _, _, _ => []
  let fills := s'.maps.flatMap (fun m =>
    let old := (s.map? m.die m.core m.lv m.n).map (·.secs) |>.getD []
    (m.secs.filter (fun x => old.all (fun y => y.ix ≠ x.ix))).map (fun _ => ((5, m.die, m.core, 1) : Nat × Nat × Nat × Nat)))
  let entered := (s'.readyQ.filter (fun r => !s.readyQ.contains r)).map (fun r => ((9, r.die, r.core, 1) : Nat × Nat × Nat × Nat))
  issued ++ fills ++ entered ++ (if s'.counts [4, 6] then missesOf i s s' else [])

/-- The state after a step with what the counters counted of it: nothing while none selects an event. -/
def counted (i : Instr) (s s' : State) : State :=
  { s' with perf :=
      if s'.hub.perfSel.toList.all (· == 0) then s'.perf else (countsOf i s s').foldl (bumpPerf s'.hub.perfSel) s'.perf }

/-! ### Placing an instruction for the next step -/

/-- The context that a word of a major runs in (R13). -/
def kindOfWord (w : Nat) : CtxKind :=
  let major := Sys2Proof.fld w 26 6
  if major = 0x30 then .matrix else if major = 0x33 then .access else .team

/-- The launch of the placed instruction: one team of one cluster, with every resource a team may have of the smaller kinds. -/
def placedRec : LaunchRec :=
  { kdesc := 0, lid := 1, gx := 1, gy := 1, gz := 1, cw := 1, ch := 1, ppol := 0, idemp := false, ser := false, prio := 0, retry := 0
    nl := 32, nv := 64, nq := 4, nacc := 4, actx := true, mctx := true, stash := 4096, qdepth := 4, nh := 16, pin := 0, stream := 0
    deps := [0, 0, 0, 0], ranges := (0, 1) :: List.replicate 7 (0, 0), segends := List.replicate 15 0, nseg := 1, argn := 0, quota := 0
    expic := 0, seed := 0, compl := 0, csetp := 0, argp := 0 }

/-- That launch, admitted and running under tag 1. -/
def placedLaunch : Launch :=
  { sid := 0, func := 0, queue := 0, asid := 0, hostmem := true, irq := false, qvec := 0, prio := 0, lrec := placedRec, teamoff := 0x10000
    matoff := 0x10000, accoff := 0x10000, st := .running, lv := 1, adm := 1, deps := [], base := 0, after := none, doomed := false, later := none
    args := [], coreSets := [], pin := none, tadm := 0, seg := 0, retriesLeft := 0, rused := 0, exactLost := false, csn := 0
    unplaced := [], held := [], doneDies := [], prepDies := [], biDies := [], ackDies := [], tokens := [], written := [], readFrames := []
    lastProgress := 0, killPending := false }

/-- Its team, in the active set of slot 0 of core 0 of die 0. -/
def placedTeam (now : Word) : Team :=
  { startTeam placedLaunch { die := 0, core := 0, slot := 0 } 0 with slot := .active, progress := now }

/-- The state with an instruction as the next one of a fresh team (log 2): address 0 to 2^39 − 1 of ASID 0 is mapped onto die 0 by a root
table at 0x1000 and one leaf at 0x2000, function 0 may access it, and the words lie at 0x10000, the entry of all three contexts. -/
def State.placeWord (s : State) (nbits w : Nat) : State :=
  let mem := ((s.mem.setN 0x1000 (bytesOfNat 8 0x2001)).setN 0x2000 (bytesOfNat 8 0x3D)).setN 0x10000 (Sys2Proof.tableBytes nbits w)
  let cur : CtxRef := { ref := { die := 0, core := 0, slot := 0 }, kind := kindOfWord (w % 2 ^ nbits) }
  let entry : AccessEntry := { valid := true, rd := true, wr := true, func := 0, base := 0, limit := 0x40000000 }
  let asid : Asid := { valid := true, rdie := 0, root := 0x1000, domain := 0, domv := false, func := 0 }
  { s with
    agenda := [.issue cur], cur := cur, mem := mem, sectors := [], maps := [], teams := [placedTeam s.time], ops := [], loans := [], hubLost := false
    hub := { s.hub with
      launches := [placedLaunch], asids := setAssoc s.hub.asids 0 asid, access := setAssoc s.hub.access (0, 0) entry
      cisSize := s.hub.cisSize.set 0 0, spSize := s.hub.spSize.set 0 0 }
    alarm := { s.alarm with coresStopped := false }
    dies := s.dies.set 0 { s.dies[0] with fenced := false, retired := [] } }

end Sys2Proof.Machine
end

