-- ==== Sys2Proof/Machine/Step.lean ====
section
/-! DEFINITION. Machine/Step.lean: one step of the whole package, and how an instruction is placed for the next step. -/

namespace Sys2Proof.Machine

/-- One step: the next move of the machine, the table walks of the accesses it has issued (R101), and what the performance counters count
of it. -/
def step (s : State) : Host.Outcome State Fault Refusal :=
  match nextMove s with
  | .stop f => .fault f
  | .idle s' => .next s'
  | .run i s1 =>
    match exec i s1 with
    | .next s2 => .next (counted i s1 (s1.walked i s2))
    | .fault f => .fault f
    | .refused r => .refused r

/-- The state with a table word as the next instruction of a fresh team (log 2). -/
def State.withFetchWord (s : State) (nbits w : Nat) : State := s.placeWord nbits w

end Sys2Proof.Machine
end

