-- ==== Sys2Proof/Machine/Registers.lean ====
section
/-! DEFINITION. Machine/Registers.lean: what a host read of a register returns (R6, R355 to R359, R365, R367, R369, R371, R373, R377,
R382, R383, R390): fields at their bits, reserved bits zero, a WO field zero. A read has no effect, and no event of the table makes
one. Before READY only BOOTST answers (R370). -/

namespace Sys2Proof.Machine

/-- A field of one bit. -/
def flag (x : Bool) (lo : Nat) : Nat := if x then 2 ^ lo else 0

/-- BOOTST (R371). -/
def Boot.word (b : Boot) : Nat :=
  at_ b.degr.toNat 32 + at_ b.dieok.toNat 24 + at_ (b.fstep % 16) 12 + at_ (b.fcause % 16) 8 + flag b.ready 0

/-- The alarm register (R377). -/
def Alarm.word (a : Alarm) : Nat := at_ a.src.toNat 8 + flag a.keylock 2 + a.level % 4

/-- A word of a die's report (R382). -/
def Report.word (r : Report) (w : Nat) : Nat :=
  match w with
  | 0 => at_ r.link.toNat 48 + at_ r.temp.toNat 32 + at_ r.budget.toNat 16 + r.pwr.toNat
  | 1 => at_ r.retired.toNat 32 + r.cecc.toNat
  | 2 => r.throt.toNat
  | _ => 0

/-- A field in 2 MiB units at bits [36:21], from bytes. -/
def of2M (x : Nat) : Nat := at_ (x / 2 ^ 21 % 2 ^ 16) 21

/-- A word of an ASID table entry (R357). -/
def Asid.word (x : Asid) (w : Nat) : Nat :=
  if w = 0 then flag x.valid 63 + at_ (x.rdie % 8) 60 + at_ (x.root / 4096 % 2 ^ 25) 12
  else at_ (x.domain % 16) 8 + flag x.domv 7 + x.func % 128

/-- A word of a queue block (R359). -/
def Queue.word (x : Queue) (w : Nat) : Nat :=
  match w with
  | 0 => x.qbase.toNat
  | 1 =>
    flag x.en 63 + flag x.qerr 62 + at_ (x.lidx % 2 ^ 13) 48 + at_ (x.asid % 2 ^ 10) 24 + flag x.hostmem 23 + at_ (x.func % 128) 16 +
      at_ (x.qprio % 4) 8 + x.log2n % 32
  | 2 => at_ x.ci.toNat 32 + x.pi.toNat
  | _ => x.qvec % 2 ^ 11

/-- A word of a Windlass domain's block, by offset (R367). -/
def Domain.word (d : Domain) (off : Nat) : Nat :=
  let k := Fin.ofNat 8 ((off - 0x40) / 16)
  if off = 0 then flag d.en 63 + flag d.werr 62 + at_ (d.maxch % 2 ^ 13) 16 + at_ (d.cmax % 16) 8 + d.policy % 2
  else if off = 0x08 then at_ (d.plead % 2 ^ 16) 16 + d.win % 2 ^ 16
  else if off = 0x10 then at_ (d.cold % 2 ^ 32) 32 + d.hot % 2 ^ 32
  else if off = 0x18 then d.slotsz
  else if off = 0x20 then d.farbase
  else if off = 0x28 then at_ (d.vdie % 8) 60 + at_ (d.varea / 4096 % 2 ^ 25) 12
  else if off = 0x30 then d.wasid % 2 ^ 10
  else if 0x40 ≤ off && off < 0xC0 then (if off % 16 = 0 then d.store[k].toNat else d.nslot[k] % 2 ^ 29)
  else if off = 0xC0 then at_ d.wdraw.toNat 32 + at_ d.drop.toNat 16 + d.skip.toNat
  else if off = 0xC8 then at_ (d.newestSlot % 16) 32 + d.newest % 2 ^ 32
  else 0

/-- A word of an access-table entry (R369). -/
def AccessEntry.word (x : AccessEntry) (w : Nat) : Nat :=
  if w = 0 then flag x.valid 63 + flag x.rd 62 + flag x.wr 61 + at_ (x.func % 128) 54 + of2M x.base else of2M x.limit

/-- A ring register of a function, by offset from BAR2 + 0x1_0000 (R365). RRPI is write-only. -/
def FuncRegs.word (r : FuncRegs) (off : Nat) : Nat :=
  match off with
  | 0x00 => r.frbase.toNat
  | 0x08 => flag r.fren 63 + r.frlog2n % 32
  | 0x10 => at_ r.frci.toNat 32 + r.frpi.toNat
  | 0x18 => r.frlost.toNat
  | 0x20 => r.rrbase.toNat
  | 0x28 => flag r.rren 63 + r.rrlog2n % 32
  | 0x38 => r.rrunm.toNat
  | 0x40 => r.fvec % 2 ^ 11
  | 0x48 => r.rrci.toNat
  | _ => 0

/-- A register of PF BAR0. SVNUP, at 0x0408, is write-only. -/
def readBar0 (s : State) (off : Nat) : Nat :=
  let h := s.hub
  let d := Fin.ofNat 8 (off / 16)
  if 0x100 ≤ off && off < 0x180 then of2M (if off % 16 = 0 then h.cisBase[d] else h.cisSize[d])
  else if 0x200 ≤ off && off < 0x280 then of2M (if off % 16 = 0 then h.spBase[d] else h.spSize[d])
  else if off = 0x300 then h.klim.toNat
  else if off = 0x308 then openCount s % 1024
  else if off = 0x310 then flag h.cfgerr 0
  else if off = 0x400 then s.sec.boot.word
  else if off = 0x500 then s.alarm.word
  else if off = 0x508 then s.alarm.cfg.toNat
  else if 0x800 ≤ off && off < 0xA00 then (s.die ((off - 0x800) / 64)).report.word (off % 64 / 8)
  else if 0xA00 ≤ off && off < 0xA50 then h.outcomes[Fin.ofNat 10 ((off - 0xA00) / 8)].toNat
  else if 0xC00 ≤ off && off < 0xC40 then (h.perfSel[Fin.ofNat 8 ((off - 0xC00) / 8)]).toNat
  else if 0x10000 ≤ off && off < 0x14000 then (assoc h.asids ((off - 0x10000) / 16) Asid.reset).word (off / 8 % 2)
  else if 0x20000 ≤ off && off < 0x60000 then (s.queue ((off - 0x20000) / 32)).word (off / 8 % 4)
  else if 0x60000 ≤ off && off < 0x61000 then (s.domain ((off - 0x60000) / 256)).word (off % 256)
  else if 0x70000 ≤ off && off < 0x78000 && off % 0x1000 < 0x400 then
    (assoc h.access ((off - 0x70000) / 0x1000, off % 0x1000 / 16) AccessEntry.reset).word (off / 8 % 2)
  else if 0x78000 ≤ off && off < 0x78000 + 8 * 65 then (assoc h.engMask ((off - 0x78000) / 8) 0).toNat
  else 0

/-- What a 64-bit read of a function's BAR returns: nothing where no register answers (R355, R370). -/
def readRegister (s : State) (func bar off : Nat) : Option Word :=
  if 64 < func || off % 8 ≠ 0 || (!s.sec.boot.ready && !(bar = 0 && off = 0x400)) then none
  else if bar = 0 && func = 0 then some (BitVec.ofNat 64 (readBar0 s off))
  else if bar = 2 && 0x10000 ≤ off then some (BitVec.ofNat 64 ((s.func func).word (off - 0x10000)))
  else none

end Sys2Proof.Machine
end

