-- ==== Sys2Proof/Safety.lean ====
section
/-! DEFINITION. Safety.lean: the terms in which the statements speak: when an instruction is ready to take its effect, what a
frame leaves unchanged, and what holds of every state a step leaves. -/

namespace Sys2Proof.Machine

/-! ### Before an instruction -/

/-- Some context executes, as `v`, and none of these register names is pending in a lookahead window (R46). -/
def Ready (s : State) (v : View) (names : List RegName) : Prop :=
  s.view = some v ∧ lookaheadHit v.ctx.windows names = false

/-- The team context executes, and none of these names nor the mask registers of E are pending: what R13 and R46 ask of a
per-lane instruction before its registers and its mode. -/
def LaneReady (s : State) (v : View) (names : List RegName) : Prop :=
  Ready s v (names ++ v.maskNames) ∧ v.kind = .team

/-- A per-lane instruction with vector operands `regs` (each with whether it is a pair) and other names `extra` is ready: every
operand exists (R16) and none is pending. -/
def VectorReady (s : State) (v : View) (regs : List (Bool × Nat)) (extra : List RegName) : Prop :=
  LaneReady s v ((regs.map (fun p => vNames p.1 p.2)).flatten ++ extra) ∧ ∀ p ∈ regs, v.team.vOk p.1 p.2 = true

/-- A matrix instruction is ready. -/
def MatrixReady (s : State) (v : View) (names : List RegName) : Prop := Ready s v names ∧ v.kind = .matrix

/-- The width of MD.TYPE: whether vector operands are pairs (R16). -/
def View.wide (v : View) : Bool := isWide (mdType v.ctx.md)

/-- MD.TYPE. -/
def View.ty (v : View) : Nat := mdType v.ctx.md

/-! ### Operations begun -/

/-- No byte of a place lies in a stash window. -/
def Plain (s : State) (p : Place) (n : Nat) : Prop :=
  match p with
  | .glob .. => True
  | .stash r off => s.inWindow r off n = false

/-- The fills and the takings of ownership that an instruction sets in motion for the window sectors it touches (R105, R106),
numbered from the next number on. -/
def WindowOps (s : State) (v : View) (pre : List Op) : Prop :=
  ∀ p ∈ pre.zipIdx, p.1.id = s.serial + p.2 ∧ p.1.own = v.ref ∧ p.1.done = false ∧
    ∃ die core n ix,
      (p.1.path = some .fill ∧ ∃ pas, p.1.kind = .fill die core n ix pas) ∨
      (p.1.path = some .store ∧ p.1.kind = .own die core n ix [])

/-- The state with operations `pre` and then one of `kind`, counted on `path`, in flight for the executing context. -/
def State.began (s : State) (v : View) (pre : List Op) (path : Path) (kind : OpKind) : State :=
  { s with
    ops := s.ops ++ pre ++
      [{ id := s.serial + pre.length, own := v.ref, lv := v.team.lv, path := some path, kind := kind, done := false }]
    serial := s.serial + pre.length + 1 }

/-- Instruction `i` puts one operation in flight, after the fills and ownerships of the windows it touches (none when it touches
none), and its context goes on as `next` says of the operation's number. Nothing else changes. -/
def Begins (s : State) (v : View) (i : Instr) (path : Path) (kind : OpKind) (places : List (Place × Nat))
    (next : Nat → Ctx) : Prop :=
  ∃ pre, WindowOps s v pre ∧ ((∀ p ∈ places, Plain s p.1 p.2) → pre = []) ∧
    exec i s = .next ((s.began v pre path kind).retire v v.team (next (s.serial + pre.length)))

/-- Whether the team's counter of a path can rise (R172). -/
def Room (s : State) (v : View) (ps : List Path) : Prop := ∀ p ∈ ps, s.counter v.team.ref p < 65535

/-- Whether the counters that the accesses of a load or store raise have room for all they can raise (R172): its own path, and for the
window sectors they touch a fill each and, for a store, ownership each. -/
def RoomFor (s : State) (v : View) (path : Path) (places : List (Place × Nat)) : Prop :=
  let touched := (s.touchedBy places).length
  s.counter v.team.ref path < 65535 ∧ s.counter v.team.ref .fill + touched ≤ 65535 ∧
  (path = .store → s.counter v.team.ref .store + touched + 1 ≤ 65535)

/-- Whether every run of leaf entries (CONT 1 or 2) of every table agrees, as R99 asks of software. -/
def RunsAgree (s : State) : Prop :=
  ∀ die table level ix : Nat,
    let e := pte s die (table + 8 * ix)
    let n := runLen (pteCont e)
    bitAt e 0 = true → pteLeaf e = true → pteCont e ≠ 3 → 1 < n →
      runAgrees ((List.range n).map (fun k => pte s die (table + 8 * (ix - ix % n + k)))) (leafSize level) = true

/-- The place that a lane's access of a memory instruction names, with its size, by the operations its meaning uses: the test of a
stash or a global address. None when the test fails. -/
def View.laneStore (s : State) (v : View) : Instr → List (Place × Nat)
  | .sts _ a b c z _ => v.lanes.filterMap (fun l =>
      (stashTest s v.team (some l) c (laneAddr v a b l) (sizeBytes z) (sizeBytes z) true).toOption.map (·, sizeBytes z))
  | .stg _ a b _ z _ => v.lanes.filterMap (fun l =>
      (globTest s v.team (some l) (laneAddr v a b l) (sizeBytes z) { w := true }).toOption.map (·, sizeBytes z))
  | .kst _ a b _ => ((stashTest s v.team none false (scalarAddr v a b) 128 8 true).toOption.map (·, 128)).toList
  | .stsc _ a b sp z _ => ((scalarPlace s v sp (scalarAddr v a b) (sizeBytes z) true).toOption.map (·, sizeBytes z)).toList
  | _ => []

/-! ### What an instruction leaves unchanged -/

/-- Every party reads every byte of memory and of every stash as before. -/
structure SameBytes (s u : State) : Prop where
  global : ∀ w pa, u.seenByte w pa = s.seenByte w pa
  stash : ∀ w r off, stashSeen u w r off = stashSeen s w r off

/-- Both states hold the same data at every home; only where it lies there, in the L2 or the Cistern, may differ. -/
def SameHomes (s u : State) : Prop :=
  u.mem = s.mem ∧ ∀ x, { u.sectorRec x with cis := (s.sectorRec x).cis } = s.sectorRec x

/-- Nothing of the package has changed but the team of slot `r`. -/
structure OnlyTeam (s u : State) (r : TeamRef) : Prop where
  rest : u = { s with teams := u.teams }
  others : ∀ x, x ≠ r → u.team? x = s.team? x

/-- Of a context nothing has changed but its program counter, its instruction count, its lookahead windows and scalar
register `d`. -/
structure CtxKeeps (c c' : Ctx) (d : Option Nat) : Prop where
  scalars : ∀ n : Fin 64, d ≠ some n.val → c'.getS n = c.getS n
  others : { c' with pc := c.pc, isc := c.isc, windows := c.windows, s := c.s } = c

/-- Frame of an instruction that writes scalar register `d` of its context, or none: everything else is as before. -/
def ScalarFrame (s u : State) (v : View) (d : Option Nat) : Prop :=
  OnlyTeam s u v.team.ref ∧ SameBytes s u ∧
  ∃ v', u.view = some v' ∧ CtxKeeps v.ctx v'.ctx d ∧ v'.ctx.isc = v.ctx.isc + 1 ∧
    v'.team.setCtx v.kind v.ctx = { v.team with progress := s.time }

/-- Frame of an instruction that writes mask register `d`: every other mask register, and everything else, is as before. -/
def MaskFrame (s u : State) (v : View) (d : Fin 16) : Prop :=
  OnlyTeam s u v.team.ref ∧ SameBytes s u ∧
  ∃ v', u.view = some v' ∧ CtxKeeps v.ctx v'.ctx none ∧ v'.ctx.isc = v.ctx.isc + 1 ∧
    (∀ n : Fin 16, n ≠ d → v'.team.k[n] = v.team.k[n]) ∧
    ({ v'.team with k := v.team.k }).setCtx v.kind v.ctx = { v.team with progress := s.time }

/-- Frame of an instruction that writes the lanes `e` of vector register `d`, or of the pair at `d`: every other lane of them,
every other register, and everything else but FPFL is as before. -/
def VectorFrame (s u : State) (v : View) (wide : Bool) (d : Nat) (e : Mask) : Prop :=
  OnlyTeam s u v.team.ref ∧ SameBytes s u ∧
  ∃ v', u.view = some v' ∧ CtxKeeps v.ctx { v'.ctx with fpfl := v.ctx.fpfl } none ∧ v'.ctx.isc = v.ctx.isc + 1 ∧
    (∀ r l, (r ≠ d ∧ (wide = true → r ≠ d + 1)) ∨ inMask e l = false → v'.team.lane r l = v.team.lane r l) ∧
    ({ v'.team with v := v.team.v }).setCtx v.kind v.ctx = { v.team with progress := s.time }

/-- Frame of an instruction that only puts accesses in flight: every register, mask, vector and stash of every team is as before but
the PC, ISC and windows of its context, and the regions of its team; and nothing of the package but the operations in flight. -/
def IssueFrame (s u : State) (v : View) : Prop :=
  u = { s with teams := u.teams, ops := u.ops, serial := u.serial } ∧ (∃ more, u.ops = s.ops ++ more) ∧
  (∀ x, x ≠ v.team.ref → u.team? x = s.team? x) ∧
  ∃ v', u.view = some v' ∧ CtxKeeps v.ctx v'.ctx none ∧ v'.ctx.isc = v.ctx.isc + 1 ∧ v'.ctx.pc = v.ctx.pc + 4 ∧
    ({ v'.team with regions := v.team.regions }).setCtx v.kind v.ctx = { v.team with progress := s.time }

/-! ### What rounding means -/

/-- The real number that a finite floating value stands for (R58). -/
def FVal.isReal (v : FVal) (x : ℝ) : Prop :=
  match v with
  | .fin neg m e => x = (if neg then -1 else 1) * (m : ℝ) * (2 : ℝ) ^ e
  | _ => False

/-- Some finite number of floating type `ty` has this value. -/
def Representable (ty : Nat) (z : ℝ) : Prop := ∃ b < 2 ^ typeBits ty, (fdecode ty b).isReal z

/-- `bits` encodes `y`, the number of type `ty` that the real `x` rounds to under a mode of R65: no number of the type lies strictly
between; to nearest none is nearer, a tie going to the even significand (RNE) or away from zero (RNA); else toward zero, up or down. -/
structure CorrectlyRounded (ty mode : Nat) (x : ℝ) (bits : Nat) (y : ℝ) : Prop where
  value : (fdecode ty bits).isReal y
  neighbour : ∀ z, Representable ty z → ¬ (min x y < z ∧ z < max x y)
  nearest : mode = 0 ∨ mode = 4 → ∀ z, Representable ty z → |x - y| ≤ |x - z|
  even : mode = 0 → ∀ z, Representable ty z → z ≠ y → |x - z| = |x - y| → bits % 2 = 0
  away : mode = 4 → ∀ z, Representable ty z → z ≠ y → |x - z| = |x - y| → |z| < |y|
  towardZero : mode = 1 → |y| ≤ |x|
  up : mode = 2 → x ≤ y
  down : mode = 3 → y ≤ x

/-- A result without overflow is the correctly rounded `x`, and NX is raised exactly when it differs from `x` (R65, R70, R223). -/
def RoundsTo (ty : Nat) (r : Rnd) (x : ℝ) (o : Nat × Flags) : Prop :=
  o.2 &&& fOF = 0 → ∃ y, CorrectlyRounded ty r.mode x o.1 y ∧ (o.2 &&& fNX = 0 ↔ y = x)

/-! ### What holds of every state -/

/-- Memory is in its canonical form: strictly rising addresses, no byte listed that reads 0. -/
def MemoryCanonical (s : State) : Prop := s.mem.wf = true

end Sys2Proof.Machine

namespace Sys2Proof

open Machine

/-! ### Which instructions have which frame -/

/-- The scalar register an instruction of the scalar families writes at once, by its number. -/
def Instr.scalarDest : Instr → Option Nat
  | .sadd d _ _ | .ssub d _ _ | .smul d _ _ | .smulhi d _ _ | .smulhn d _ _ | .sand d _ _ | .sor d _ _ | .sxor d _ _
  | .sandn d _ _ | .sshl d _ _ | .sshr d _ _ | .ssra d _ _ | .smin d _ _ | .smax d _ _ | .sminn d _ _ | .smaxn d _ _
  | .sseq d _ _ | .sslt d _ _ | .ssltn d _ _ | .spop d _ | .sclz d _ | .sctz d _ | .smov d _ | .sshli d _ _
  | .sshri d _ _ | .ssrai d _ _ | .sbfx d _ _ | .smovl d _ | .smovlSigned d _ | .smovlHigh d _ _ | .saddi d _ _
  | .sandi d _ _ | .sori d _ _ | .sxori d _ _ | .sslti d _ _ | .sliceof d _ | .mdrd d | .kpop d _ | .kfirst d _
  | .ktos d _ _ | .stqry d _ | .qstat d _ | .mstat d _ _ => some d.val
  | .srd d b => if isVectorSpecial b then none else some d.val
  | .call _ => some 62
  | _ => none

/-- The instructions that write no register but their context's program counter and count. -/
def Instr.onlyFlow : Instr → Bool
  | .nop | .ret _ | .bra _ | .bsz _ _ | .bsnz _ _ | .bkz _ _ | .bknz _ _ | .bkall _ _ => true
  | _ => false

/-- The mask register that a MASK instruction or a compare writes. -/
def Instr.maskDest : Instr → Option (Fin 16)
  | .kand d _ _ | .kor d _ _ | .kxor d _ _ | .kandn d _ _ | .knot d _ | .kmov d _ | .kfroms d _ _ | .kclr d | .klive d
  | .vceq d _ _ | .vcne d _ _ | .vclt d _ _ | .vcle d _ _ | .vfceq d _ _ | .vfclt d _ _ | .vfcle d _ _ | .vfcun d _ _ => some d
  | _ => none

/-- The vector register that a per-lane instruction writes in the lanes of E under TYPE `ty`, with whether it is a pair. -/
def Instr.laneDest (ty : Nat) : Instr → Option (Bool × Nat)
  | .vadd d _ _ | .vsub d _ _ | .vmul d _ _ | .vmulh d _ _ | .vshl d _ _ | .vshr d _ _ | .vsra d _ _ | .vmin d _ _
  | .vmax d _ _ | .vand d _ _ | .vor d _ _ | .vxor d _ _ | .vandn d _ _ | .vabs d _ | .vneg d _ | .vpopc d _ | .vclz d _
  | .vmov d _ | .vmovs d _ | .vsel d _ _ | .vadds d _ _ | .vmuls d _ _ | .vaddi d _ _ | .vmad d _ _ _ | .vmsb d _ _ _
  | .vbfx d _ _ _ | .vbfi d _ _ _ | .vfadd d _ _ | .vfsub d _ _ | .vfmul d _ _ | .vfmin d _ _ | .vfmax d _ _ | .vfabs d _
  | .vfneg d _ | .vcvt d _ | .vunpk d _ | .vfadds d _ _ | .vfmuls d _ _ | .vfma d _ _ _ | .vfms d _ _ _ | .vfnma d _ _ _
  | .vfnms d _ _ _ | .vfdiv d _ _ _ | .vfsqrt d _ _ | .vfrcp d _ _ | .vfrsq d _ _ | .vfexp2 d _ _ | .vflog2 d _ _
  | .vfsinpi d _ _ | .vfcospi d _ _ | .vftanh d _ _ | .vperm d _ _ _ | .vshup d _ _ _ | .vshdn d _ _ _ | .vshx d _ _ _
  | .vbcast d _ _ | .vscan d _ _ _ | .vscanx d _ _ _ | .vred d _ _ _ => some (isWide ty, d.val)
  | .viota d | .vfclass d _ => some (false, d.val)
  | .srd d b => if isVectorSpecial b then some (false, d.val) else none
  | .lbal d _ _ _ => some (true, d.val)
  | _ => none

/-- The contexts an instruction may run in (R13). -/
def Instr.runsIn (i : Instr) (k : CtxKind) : Bool :=
  match i with
  | .kand _ _ _ | .kor _ _ _ | .kxor _ _ _ | .kandn _ _ _ | .knot _ _ | .kmov _ _ | .kpop _ _ | .kfirst _ _
  | .ktos _ _ _ | .kfroms _ _ _ | .kclr _ | .klive _ | .kld _ _ _ _ | .kst _ _ _ _ | .vadd _ _ _ | .vsub _ _ _
  | .vmul _ _ _ | .vmulh _ _ _ | .vand _ _ _ | .vor _ _ _ | .vxor _ _ _ | .vandn _ _ _ | .vshl _ _ _ | .vshr _ _ _
  | .vsra _ _ _ | .vmin _ _ _ | .vmax _ _ _ | .vabs _ _ | .vneg _ _ | .vpopc _ _ | .vclz _ _ | .vmov _ _ | .vmovs _ _
  | .viota _ | .vsel _ _ _ | .vceq _ _ _ | .vcne _ _ _ | .vclt _ _ _ | .vcle _ _ _ | .vadds _ _ _ | .vmuls _ _ _
  | .vaddi _ _ _ | .vmad _ _ _ _ | .vmsb _ _ _ _ | .vbfx _ _ _ _ | .vbfi _ _ _ _ | .vfadd _ _ _ | .vfsub _ _ _
  | .vfmul _ _ _ | .vfmin _ _ _ | .vfmax _ _ _ | .vfabs _ _ | .vfneg _ _ | .vfceq _ _ _ | .vfclt _ _ _ | .vfcle _ _ _
  | .vfcun _ _ _ | .vfclass _ _ | .vcvt _ _ | .vpack _ _ | .vunpk _ _ | .vfadds _ _ _ | .vfmuls _ _ _ | .vfma _ _ _ _
  | .vfms _ _ _ _ | .vfnma _ _ _ _ | .vfnms _ _ _ _ | .vfdiv _ _ _ _ | .vfsqrt _ _ _ | .vfrcp _ _ _ | .vfrsq _ _ _
  | .vfexp2 _ _ _ | .vflog2 _ _ _ | .vfsinpi _ _ _ | .vfcospi _ _ _ | .vftanh _ _ _ | .vperm _ _ _ _ | .vshup _ _ _ _
  | .vshdn _ _ _ _ | .vshx _ _ _ _ | .vbcast _ _ _ | .vscan _ _ _ _ | .vscanx _ _ _ _ | .vred _ _ _ _ | .vcmpr _ _ _
  | .lbal _ _ _ _ | .lds _ _ _ _ _ _ _ | .sts _ _ _ _ _ _ | .ldg _ _ _ _ _ _ _ | .stg _ _ _ _ _ _ | .ldgs _ _ _ _ _
  | .stmap _ _ | .stunmap _ | .stflush _ | .stinv _ | .pref _ _ | .stqry _ _ | .atomAdd _ _ _ _ | .atomMin _ _ _ _
  | .atomMax _ _ _ _ | .atomMinn _ _ _ _ | .atomMaxn _ _ _ _ | .atomAnd _ _ _ _ | .atomOr _ _ _ _ | .atomXor _ _ _ _
  | .atomExch _ _ _ _ | .atomCas _ _ _ _ | .atomIncw _ _ _ _ | .atomAddb _ _ _ _ | .atomExchq _ _ _ _
  | .redAdd _ _ _ _ | .redMin _ _ _ _ | .redMax _ _ _ _ | .redMinn _ _ _ _ | .redMaxn _ _ _ _ | .redAnd _ _ _ _
  | .redOr _ _ _ _ | .redXor _ _ _ _ | .redFadd _ _ _ _ | .redFmin _ _ _ _ | .redFmax _ _ _ _ | .xbegin | .xend _ _
  | .xabort | .waitc _ _ | .barc _ _ | .cbara | .cbarw | .vpop _ _ | .qstat _ _ | .hdef _ _ _ | .fetch _ _ _ _
  | .epool _ _ _ _ | .route _ _ _ _ | .exitLanes | .bkz _ _ | .bknz _ _ | .bkall _ _ => k == .team
  | .mzero _ _ | .mma _ _ _ _ | .msplit _ _ _ | .mmas _ _ _ _ | .mdrain _ _ _ _ | .mxport _ _ _ _ | .mxload _ _ _ _
  | .mstat _ _ _ => k == .matrix
  | .astr _ _ | .aqwait _ => k == .access
  | .srd _ b => k == .team || !isVectorSpecial b
  | _ => true

end Sys2Proof
end

