-- ==== Sys2Proof/Certificates/Slice0/Obligations.lean ====
section
/-! DEFINITION. Certificates/Slice0/Obligations.lean: the statements about the machine that the provers settle. Each docstring
names the rules of the manual behind it. -/

section
open Sys2Proof Sys2Proof.Machine

/-! ### Control (R186 to R202) -/

/-- R186: NOP advances PC by 4 and ISC by 1, and counts as one instruction of every lookahead window that contains it; nothing
else changes but the team's time of last progress (R313). -/
def Obligations.NopOnlyAdvances : Prop :=
  ∀ (s : State) (v : View), s.view = some v →
    exec .nop s = .next (s.retire v v.team
      { v.ctx with
        pc := v.ctx.pc + 4, isc := v.ctx.isc + 1
        windows := (v.ctx.windows.filter (fun w => w.left ≠ 0)).map (fun w => { w with left := w.left - 1 }) })

/-- R190: BRA and CALL jump to PC + 4 × sign-extend(OFF26), always taken; CALL also writes PC + 4 into s62. -/
def Obligations.BraAndCallJump : Prop :=
  ∀ (s : State) (v : View) (o : BitVec 26), Ready s v [.s 62] →
    exec (.bra o) s = .next (s.retire v v.team (v.ctx.advance (v.ctx.pc + 4 * o.signExtend 64) none)) ∧
    ∃ u v', exec (.call o) s = .next u ∧ u.view = some v' ∧ v'.ctx.pc = v.ctx.pc + 4 * o.signExtend 64 ∧
      v'.ctx.getS 62 = v.ctx.pc + 4 ∧ (∀ n, n ≠ 62 → v'.ctx.getS n = v.ctx.getS n)

/-- R191, R192, R193: RET continues at the address in sA when its low two bits are zero, and otherwise faults with MISALIGNED, without
effect; that the record's ADDR is then the target is the model's choice (log 34, DEDUCED). BSZ is taken when sC is zero, BSNZ when it
is not; the target is PC + 4 × sign-extend(OFF20), else execution continues at PC + 4. BKZ, BKNZ and BKALL decide once for the team on
k[C] and E: no lane of E in k[C], some lane, every lane. -/
def Obligations.BranchesAndReturnsDecide : Prop :=
  (∀ (s : State) (v : View) (a : Fin 64), Ready s v [.s a] →
     exec (.ret a) s =
       if (v.ctx.getS a) &&& 3 = 0 then .next (s.retire v v.team (v.ctx.advance (v.ctx.getS a) none))
       else .next (park s v { code := .misaligned, addr := v.ctx.getS a } 0 [])) ∧
  (∀ (s : State) (v : View) (c : Fin 64) (o : BitVec 20), Ready s v [.s c] →
     let target := v.ctx.pc + 4 * o.signExtend 64
     let next := v.ctx.pc + 4
     exec (.bsz c o) s =
       .next (s.retire v v.team (v.ctx.advance (if v.ctx.getS c = 0 then target else next) none)) ∧
     exec (.bsnz c o) s =
       .next (s.retire v v.team (v.ctx.advance (if v.ctx.getS c = 0 then next else target) none))) ∧
  (∀ (s : State) (v : View) (c : Fin 16) (o : BitVec 20), LaneReady s v [.k c] →
     let target := v.ctx.pc + 4 * o.signExtend 64
     let next := v.ctx.pc + 4
     let holds := fun l : Nat => inMask v.team.k[c] l = true
     ∀ (taken : Bool),
       ((taken = true ↔ ∀ l, inMask v.eff l = true → ¬ holds l) →
         exec (.bkz c o) s = .next (s.retire v v.team (v.ctx.advance (if taken then target else next) none))) ∧
       ((taken = true ↔ ∃ l, inMask v.eff l = true ∧ holds l) →
         exec (.bknz c o) s = .next (s.retire v v.team (v.ctx.advance (if taken then target else next) none))) ∧
       ((taken = true ↔ ∀ l, inMask v.eff l = true → holds l) →
         exec (.bkall c o) s = .next (s.retire v v.team (v.ctx.advance (if taken then target else next) none))))

/-- R188: MODEV writes sA[25:0] into MD with the effect of MODE. A nonzero bit in sA[63:26], or one reserved for the context's
layout, faults with ILLEGAL_ENCODING; the value is judged after the lookahead check, so a pending sA faults with
ILLEGAL_LOOKAHEAD. -/
def Obligations.ModevJudgesItsValue : Prop :=
  ∀ (s : State) (v : View) (a : Fin 64), s.view = some v →
    let x := v.ctx.getS a
    let reserved := x >>> 26 ≠ 0 ∨ (if v.kind = .matrix then x.getLsbD 25 = true else x >>> 17 ≠ 0)
    (lookaheadHit v.ctx.windows [.s a] = true →
      exec (.modev a) s = .next (park s v { code := .illegalLookahead } 0 [])) ∧
    (lookaheadHit v.ctx.windows [.s a] = false → reserved →
      exec (.modev a) s = .next (park s v { code := .illegalEncoding } 0 [])) ∧
    (lookaheadHit v.ctx.windows [.s a] = false → ¬ reserved →
      exec (.modev a) s = .next (s.retire v v.team { v.ctx.step4 with md := x.truncate 26 }) ∧
      exec (.mode (x.truncate 26)) s = exec (.modev a) s)

/-- R22, R187, R189, R199: MODE stores IMM26 into MD when no bit reserved in the context's layout is set (bits 25 to 17 of a team
or access context, bit 25 of a matrix context), and else faults with ILLEGAL_ENCODING; MDRD reads MD zero-extended. RGN makes
its own address the region entry, with the ISC before it and its tag. -/
def Obligations.ModeAndRegionMarks : Prop :=
  (∀ (s : State) (v : View) (i : BitVec 26) (d : Fin 64), Ready s v [.s d] →
     let reserved := if v.kind = .matrix then i.getLsbD 25 else decide (i >>> 17 ≠ 0)
     exec (.mode i) s =
       (if reserved then .next (park s v { code := .illegalEncoding } 0 [])
        else .next (s.retire v v.team { v.ctx.step4 with md := i })) ∧
     exec (.mdrd d) s = .next (s.retire v v.team (v.ctx.setS d (v.ctx.md.zeroExtend 64)).step4)) ∧
  (∀ (s : State) (v : View) (t : BitVec 16), s.view = some v →
     ∃ u v', exec (.rgn t) s = .next u ∧ u.view = some v' ∧ v'.ctx.rgnpc = v.ctx.pc ∧ v'.ctx.rgncnt = v.ctx.isc ∧
       v'.ctx.tag = t ∧ v'.ctx.impl = false ∧ v'.ctx.pc = v.ctx.pc + 4 ∧ v'.ctx.isc = v.ctx.isc + 1 ∧ v'.ctx.s = v.ctx.s)

/-- R23 to R28, R200, R201, R202: SRD of the identity of a team reads its place in the grid and its cluster, and SRD of ISC, RGNPC,
RGNCNT, FPFL, NL, NV and LV reads the context's and the team's own; CORE reads the logical number of the core, and one of the presented
mesh also once that core has left it (which one is free, log 9); MESH reads the presented mesh; PERFi reads 0 without an event and else
the core's count (what each event counts is the model's reading, logs 6 and 42, DEDUCED); LANE and GROUP write the lane and its group
into the lanes of E; SLICEOF writes the home of an address. SWR replaces FPFL with bits [5:0] of sA once every earlier instruction that
can raise a flag has written its result, and waits until then; a nonzero bit in [63:6], and every other register, faults with
ILLEGAL_ENCODING. -/
def Obligations.SpecialRegistersReadAndWritten : Prop :=
  (∀ (s : State) (v : View) (d a : Fin 64) (l : Launch), Ready s v [.s d, .s a] → s.launch? v.team.launch = some l →
     let num := fun n : Nat => BitVec.ofNat 64 n
     let t := v.team.t
     (∀ p ∈ ([(0x00, num (t % l.lrec.gx)), (0x01, num (t / l.lrec.gx % l.lrec.gy)), (0x02, num (t / l.lrec.gx / l.lrec.gy)),
         (0x03, num v.team.nl), (0x04, num v.team.nv), (0x07, num (t / (l.lrec.cw * l.lrec.ch))),
         (0x08, num (t % (l.lrec.cw * l.lrec.ch))), (0x0A, num v.team.ref.die), (0x0C, v.team.lv.zeroExtend 64),
         (0x0D, l.lrec.seed), (0x0E, s.time), (0x10, v.ctx.isc), (0x11, v.ctx.rgnpc), (0x12, v.ctx.rgncnt)] :
           List (Fin 64 × Word)),
       exec (.srd d p.1) s = .next (s.retire v v.team (v.ctx.setS d p.2).step4)) ∧
     (let x := s.die v.team.ref.die
      ∃ n : Nat, exec (.srd d 0x09) s = .next (s.retire v v.team (v.ctx.setS d (num n)).step4) ∧
       (∀ k, coreNow x v.team.ref.core = some k → n = k) ∧
       (1 ≤ x.cols.length → x.cols.length ≤ 8 → 1 ≤ x.rows.length → n % 8 < x.cols.length ∧ n / 8 < x.rows.length)) ∧
     (let x := s.die v.team.ref.die
      exec (.srd d 0x0B) s = .next (s.retire v v.team (v.ctx.setS d (num (16 * x.rows.length + x.cols.length))).step4)) ∧
     (∀ i : Fin 8, ∃ x : Word,
       exec (.srd d (Fin.ofNat 64 (0x18 + i.val))) s = .next (s.retire v v.team (v.ctx.setS d x).step4) ∧
       (s.hub.perfSel[i] = 0 → x = 0) ∧
       (s.hub.perfSel[i] ≠ 0 → x = assoc s.perf (v.team.ref.die, v.team.ref.core, i.val) 0)) ∧
     (flagsSettled s v = true →
       exec (.srd d 0x0F) s = .next (s.retire v v.team (v.ctx.setS d (v.ctx.fpfl.zeroExtend 64)).step4)) ∧
     (flagsSettled s v = false → exec (.srd d 0x0F) s = .next s) ∧
     (LaneReady s v [.v d] → v.team.vOk false d = true →
       exec (.srd d 5) s = .next (s.retire v (v.team.setElems false d v.eff (fun l => some l)) v.ctx.step4) ∧
       exec (.srd d 6) s = .next (s.retire v (v.team.setElems false d v.eff (fun l => some (l / 32))) v.ctx.step4)) ∧
     exec (.sliceof d a) s =
       .next (s.retire v v.team (v.ctx.setS d (sliceWord s l.asid (v.ctx.getS a))).step4)) ∧
  (∀ (s : State) (v : View) (a b : Fin 64), Ready s v [.s a] →
     let x := v.ctx.getS a
     (b ≠ 0x0F ∨ x >>> 6 ≠ 0 → exec (.swr a b) s = .next (park s v { code := .illegalEncoding } 0 [])) ∧
     (b = 0x0F → x >>> 6 = 0 → flagsSettled s v = false → exec (.swr a b) s = .next s) ∧
     (b = 0x0F → x >>> 6 = 0 → flagsSettled s v = true →
       exec (.swr a b) s = .next (s.retire v v.team { v.ctx.step4 with fpfl := x.truncate 6 })))

/-- R13, R18, R41, R42, R194, R195: EXIT removes the lanes of E from LIVE and from k0; with lanes left the team goes on at PC + 4,
with none left it ends. END ends the team whatever E holds, or only the bound context that executes it. A team that ends is
DRAINING, with LIVE and k0 empty, and its context executes no more; the vector registers as they stand are kept for the bound
matrix reads that follow; its stash windows become detached. END in a matrix or
access context ends that context alone: its team keeps its slot, its lanes and its team context. -/
def Obligations.ExitAndEnd : Prop :=
  (∀ (s : State) (v : View), LaneReady s v [.k 0] →
     (v.team.live &&& ~~~ v.eff ≠ 0 →
       exec .exitLanes s = .next (s.retire v
         { v.team with live := v.team.live &&& ~~~ v.eff, k := v.team.k.set 0 (v.team.k[0] &&& ~~~ v.eff) } v.ctx.step4)) ∧
     (∀ i ∈ (if v.team.live &&& ~~~ v.eff = 0 then [Instr.exitLanes, .endCtx] else [.endCtx]),
       ∃ u v', exec i s = .next u ∧ u.view = some v' ∧ v'.team.slot = .draining ∧ v'.team.live = 0 ∧ v'.team.k[0] = 0 ∧
         v'.ctx.run = .ended ∧ v'.ctx.isc = v.ctx.isc + 1 ∧ (∀ q ∈ v'.team.queues, q.closed = true) ∧
         v'.team.v = v.team.v ∧ v'.team.vEnd = some v.team.v ∧ u.mem = s.mem ∧ u.ops = s.ops ∧ (∀ m ∈ u.maps, m.owner ≠ some v.team.ref))) ∧
  (∀ (s : State) (v : View), s.view = some v → v.kind ≠ .team →
     exec .endCtx s = .next (s.retire v v.team { v.ctx.step4 with run := .ended }) ∧
     ∃ u v', exec .endCtx s = .next u ∧ u.view = some v' ∧ v'.ctx.run = .ended ∧ v'.team.slot = v.team.slot ∧
       v'.team.live = v.team.live ∧ v'.team.team = v.team.team)

/-! ### Faults, traps and parking (R13, R162, R163, R196, R197, R299, R300) -/

/-- R162, R163, R297: whatever fault a context takes, it stops with its registers, PC and ISC as they were, and the registers,
masks and stash bytes of its team, every other team, the operations in flight, the sectors, caches and windows stay as they
were. A team context's slot becomes PARKED (R49). The open atomic regions of the team close with code 4, and their held writes are
gone, when its team context takes the fault or any of its contexts takes a TRAP; else they stay as they are (R249, R296). -/
def Obligations.FaultKeepsTheState : Prop :=
  ∀ (s : State) (v : View) (f : Flt) (tcode : BitVec 16) (ss : List Word), s.view = some v →
    let u := park s v f tcode ss
    u.sectors = s.sectors ∧ u.ops = s.ops ∧ u.copies = s.copies ∧ u.maps = s.maps ∧ u.exact = s.exact ∧ u.cmds = s.cmds ∧
    (∀ r, r ≠ v.team.ref → u.team? r = s.team? r) ∧
    ∃ v', u.view = some v' ∧ v'.ctx = { v.ctx with run := parkState f.code } ∧ v'.team.k = v.team.k ∧
      v'.team.live = v.team.live ∧ v'.team.v = v.team.v ∧ v'.team.stash = v.team.stash ∧ v'.team.tiles = v.team.tiles ∧
      v'.team.regions =
        (if v.kind = .team ∨ f.code = .trap then
          v.team.regions.map (fun r => if r.code = 0 then { r with code := 4, reads := [], writes := [] } else r)
        else v.team.regions) ∧
      (if v.kind = .team then v'.team.slot = .parked else v'.team.slot = v.team.slot ∧ v'.team.team = v.team.team)

/-- R299, R300: a fault that no reply can resolve ends its launch with ABORT_FAULT, unless the launch has passed its commit point
or an earlier cause stands; a record that awaits a reply is outstanding at the hub, and its launch runs on. A denial by an access
table ends the launch so too, or with the status of a lost home in which the walk for its address read a table (R379, R386), and then source 6 of the security alarm fires (R315, R377): at level 0 nothing, else its bit of SRC is
set and the level rises to its own. A park record is
128 bytes, little-endian, with each field at its place. -/
def Obligations.ParkRecords : Prop :=
  (∀ (s : State) (v : View) (c : FaultCode) (x : Word) (l : Launch), s.view = some v → c ≠ .accessTable →
     s.launch? v.team.launch = some l → l.st = .running →
     let u := park s v { code := c, addr := x } 0 []
     let awaits := c = .pageNotPresent ∨ (c = .pagePermission ∧ canonical x = true) ∨ c = .trap ∨ c = .brk
     (¬ awaits → (u.launch? v.team.launch).map (·.st) = some (.aborting 0x42)) ∧
     (awaits → (u.launch? v.team.launch).map (·.st) = some .running ∧
       ∃ r ∈ u.hub.parks, r.code = c.toNat ∧ r.pc = v.ctx.pc ∧ r.rgnpc = v.ctx.rgnpc ∧ r.rgncnt = v.ctx.rgncnt ∧
         r.isc = v.ctx.isc ∧ r.addr = x ∧ r.team = v.team.t ∧ r.sid = v.team.launch ∧ r.die = v.team.ref.die ∧ r.svc = true)) ∧
  (∀ (s : State) (v : View) (f : Flt) (l : Launch), s.view = some v → f.code = .accessTable →
     s.launch? v.team.launch = some l → l.st = .running →
     let u := park s v f 0 []
     let level := s.alarm.levelOf 6
     let lost := if f.engine then none else (tableSectors s l.asid f.addr.toNat).findSome? s.lostHome
     (u.launch? v.team.launch).map (·.st) = some (.aborting (lost.getD 0x42)) ∧
     (level = 0 → u.alarm = s.alarm) ∧
     (level ≠ 0 → u.alarm.src = s.alarm.src ||| 0x40 ∧ u.alarm.level = max s.alarm.level level ∧
       u.alarm.cpStopped = (s.alarm.cpStopped || decide (2 ≤ level)) ∧
       u.alarm.keylock = (s.alarm.keylock || decide (3 ≤ level)))) ∧
  (∀ (r : ParkRec), r.code < 256 → r.ctx < 4 → r.core < 64 → r.team < 2 ^ 32 → r.lane < 65536 → r.die < 8 → r.ss.length ≤ 8 →
     let word := fun i : Nat => natOfBytes ((r.bytes.drop (8 * i)).take 8)
     r.bytes.length = 128 ∧ word 0 = r.lid.toNat ∧
     bits (word 1) 63 48 = r.tcode.toNat ∧ bits (word 1) 47 40 = r.code ∧ bits (word 1) 39 38 = r.ctx ∧
     bits (word 1) 37 32 = r.core ∧ bits (word 1) 31 0 = r.team ∧
     bits (word 2) 63 48 = 0 ∧ bits (word 2) 47 32 = r.lane ∧ bits (word 2) 31 16 = r.tag.toNat ∧ bits (word 2) 15 7 = 0 ∧
     bitAt (word 2) 6 = r.impl ∧ bitAt (word 2) 5 = r.x ∧ bitAt (word 2) 4 = r.w ∧ bitAt (word 2) 3 = r.svc ∧
     bits (word 2) 2 0 = r.die ∧ word 3 = r.pc.toNat ∧ word 4 = r.rgnpc.toNat ∧ word 5 = r.rgncnt.toNat ∧
     word 6 = r.addr.toNat ∧ word 7 = r.isc.toNat ∧ ∀ i < 8, word (8 + i) = (r.ss.getD i 0).toNat)

/-- R13, R16, R46, R162, R163, R211: a word that decodes to no instruction takes the fault of its condition; ISC and everything
else of its context stay. An instruction that its context may not run faults with ILLEGAL_CONTEXT and has no effect, in any
state. An integer vector instruction of two sources names a register at or above NV, or an odd pair: it faults with
ILLEGAL_REGISTER; TYPE is no integer type: ILLEGAL_MODE; a register is a pending destination: ILLEGAL_LOOKAHEAD; the earlier
step is reported first. -/
def Obligations.IllegalInstructionsFault : Prop :=
  (∀ (s : State) (v : View) (opcode : Bool), s.view = some v →
     exec (.illegalInstruction opcode) s =
       .next (park s v { code := if opcode then .illegalOpcode else .illegalEncoding } 0 []) ∧
     ∀ u v', exec (.illegalInstruction opcode) s = .next u → u.view = some v' →
       v'.ctx = { v.ctx with run := .parkedFault }) ∧
  (∀ (s : State) (v : View) (i : Instr), s.view = some v → i.isEvent = false → i.wf = true → i.runsIn v.kind = false →
     exec i s = .next (park s v { code := .illegalContext } 0 [])) ∧
  (∀ (s : State) (v : View) (d a b : Fin 64), s.view = some v → v.kind = .team →
     let ok := ∀ r ∈ [d.val, a.val, b.val], r < v.team.nv ∧ (v.wide = true → r % 2 = 0 ∧ r + 1 < v.team.nv)
     let names := ([d.val, a.val, b.val].flatMap (vNames v.wide)) ++ v.maskNames
     ∀ i ∈ ([.vadd d a b, .vsub d a b, .vmul d a b, .vmulh d a b, .vshl d a b, .vshr d a b, .vsra d a b, .vmin d a b,
         .vmax d a b] : List Instr),
       (¬ ok → exec i s = .next (park s v { code := .illegalRegister } 0 [])) ∧
       (ok → 7 < v.ty → exec i s = .next (park s v { code := .illegalMode } 0 [])) ∧
       (ok → v.ty ≤ 7 → lookaheadHit v.ctx.windows names = true →
         exec i s = .next (park s v { code := .illegalLookahead } 0 [])))

/-- R196 to R198, R297, R299, R301: TRAP parks its context with a record of its code and s1 to s8, ends the region and makes the
team no longer restartable; BRK parks it with code 0x12. The PC and ISC are those of the instruction itself, and the hub
awaits a reply. A context resumed from a fault goes on at its region entry with the ISC of that entry; from TRAP at PC + 4,
one instruction later, with the reply's results in s1 and s2 and a new implicit region there; from BRK at PC + 4. No lookahead
window stays open. TRAP, and the return of any context to its region entry, close the team's open atomic regions with code 4. -/
def Obligations.ParkingAndResumption : Prop :=
  (∀ (s : State) (v : View) (c : BitVec 16),
     Ready s v [.s 1, .s 2, .s 3, .s 4, .s 5, .s 6, .s 7, .s 8] →
     (∃ u v', exec (.trap c) s = .next u ∧ u.view = some v' ∧ v'.ctx = { v.ctx with run := .parkedTrap } ∧
       v'.team.restartable = false ∧ (v.kind = .team → v'.team.slot = .parked) ∧
       v'.team.regions = v.team.regions.map (fun r => if r.code = 0 then { r with code := 4, reads := [], writes := [] } else r) ∧
       ∃ r ∈ u.hub.parks, r.code = 0x11 ∧ r.tcode = c ∧ r.pc = v.ctx.pc ∧ r.isc = v.ctx.isc ∧ r.team = v.team.t ∧
         r.svc = true ∧ r.ss = [1, 2, 3, 4, 5, 6, 7, 8].map v.ctx.getS) ∧
     (∃ u v', exec .brk s = .next u ∧ u.view = some v' ∧ v'.ctx = { v.ctx with run := .parkedBrk } ∧
       v'.team.restartable = v.team.restartable ∧ (v.kind = .team → v'.team.slot = .parked) ∧
       ∃ r ∈ u.hub.parks, r.code = 0x12 ∧ r.pc = v.ctx.pc ∧ r.isc = v.ctx.isc ∧ r.team = v.team.t ∧ r.svc = true)) ∧
  (∀ (t : Team) (k : CtxKind) (c : Ctx) (rv1 rv2 : Word),
     (t.resumeCtx k c rv1 rv2).ctx? k = some (c.resume rv1 rv2) ∧
     (t.resumeCtx k c rv1 rv2).regions =
       (if c.run = .parkedFault then
         t.regions.map (fun r => if r.code = 0 then { r with code := 4, reads := [], writes := [] } else r)
       else t.regions)) ∧
  (∀ (c : Ctx) (rv1 rv2 : Word),
     (c.resume rv1 rv2).windows = [] ∧
     (c.run = .parkedFault → c.resume rv1 rv2 =
       { c with pc := c.rgnpc, isc := c.rgncnt, run := .running, windows := [], hold := none }) ∧
     (c.run = .parkedTrap → (c.resume rv1 rv2).pc = c.pc + 4 ∧ (c.resume rv1 rv2).isc = c.isc + 1 ∧
       (c.resume rv1 rv2).getS 1 = rv1 ∧ (c.resume rv1 rv2).getS 2 = rv2 ∧ (c.resume rv1 rv2).rgnpc = c.pc + 4 ∧
       (c.resume rv1 rv2).rgncnt = c.isc + 1 ∧ (c.resume rv1 rv2).impl = true ∧ (c.resume rv1 rv2).run = .running ∧
       ∀ n : Fin 64, n ≠ 1 → n ≠ 2 → (c.resume rv1 rv2).getS n = c.getS n) ∧
     (c.run = .parkedBrk → c.resume rv1 rv2 =
       { c with pc := c.pc + 4, isc := c.isc + 1, run := .running, windows := [], hold := none }))

/-! ### Scalar arithmetic (R203 to R206) -/

/-- R203: each SALU instruction writes its result, computed modulo 2^64, into sD, and execution goes on at PC + 4; a write to s0
is discarded (R14). Shifts use the low six bits of the count. -/
def Obligations.ScalarResults : Prop :=
  ∀ (s : State) (v : View) (d a b : Fin 64), Ready s v [.s d, .s a, .s b] →
    let x := v.ctx.getS a
    let y := v.ctx.getS b
    let flag := fun p : Bool => if p then (1 : Word) else 0
    ∀ p ∈ ([(.sadd d a b, x + y), (.ssub d a b, x - y), (.smul d a b, x * y),
        (.smulhi d a b, BitVec.ofInt 64 (x.toInt * y.toInt / 2 ^ 64)),
        (.smulhn d a b, BitVec.ofNat 64 (x.toNat * y.toNat / 2 ^ 64)),
        (.sand d a b, x &&& y), (.sor d a b, x ||| y), (.sxor d a b, x ^^^ y), (.sandn d a b, x &&& ~~~ y),
        (.sshl d a b, x <<< (y.toNat % 64)), (.sshr d a b, x >>> (y.toNat % 64)),
        (.ssra d a b, BitVec.ofInt 64 (x.toInt / 2 ^ (y.toNat % 64))),
        (.smin d a b, if x.toInt ≤ y.toInt then x else y), (.smax d a b, if x.toInt ≤ y.toInt then y else x),
        (.sminn d a b, if x.toNat ≤ y.toNat then x else y), (.smaxn d a b, if x.toNat ≤ y.toNat then y else x),
        (.sseq d a b, flag (x = y)), (.sslt d a b, flag (x.toInt < y.toInt)), (.ssltn d a b, flag (x.toNat < y.toNat)),
        (.spop d a, BitVec.ofNat 64 ((List.range 64).countP (fun i => x.getLsbD i))),
        (.sclz d a, if x = 0 then 64 else BitVec.ofNat 64 (63 - x.toNat.log2)),
        (.sctz d a, BitVec.ofNat 64 (((List.range 64).find? (fun i => x.getLsbD i)).getD 64)),
        (.smov d a, x), (.sshli d a b, x <<< b.val), (.sshri d a b, x >>> b.val),
        (.ssrai d a b, BitVec.ofInt 64 (x.toInt / 2 ^ b.val))] : List (Instr × Word)),
      exec p.1 s = .next (s.retire v v.team (v.ctx.setS d p.2).step4)

/-- R161, R204, R205, R206: the scalar immediates compute sD from sA and m := sign-extend(IMM14). SMOVL loads its literal
zero-extended, sign-extended, or over the low half of sA; PC passes the literal word too, and ISC counts one instruction. SBFX
leaves in sD its bits [p + w − 1 : p], zero-extended, where w := A + 1 and p := B; p + w > 64 faults with ILLEGAL_ENCODING. -/
def Obligations.ImmediatesLiteralsFields : Prop :=
  (∀ (s : State) (v : View) (d a : Fin 64) (i : BitVec 14), Ready s v [.s d, .s a] →
     let x := v.ctx.getS a
     let m : Word := BitVec.ofInt 64 i.toInt
     ∀ p ∈ ([(.saddi d a i, x + m), (.sandi d a i, x &&& m), (.sori d a i, x ||| m), (.sxori d a i, x ^^^ m),
         (.sslti d a i, if x.toInt < i.toInt then 1 else 0)] : List (Instr × Word)),
       exec p.1 s = .next (s.retire v v.team (v.ctx.setS d p.2).step4)) ∧
  (∀ (s : State) (v : View) (d a : Fin 64) (lit : BitVec 32), Ready s v [.s d, .s a] →
     ∀ p ∈ ([(.smovl d lit, BitVec.ofNat 64 lit.toNat), (.smovlSigned d lit, BitVec.ofInt 64 lit.toInt),
         (.smovlHigh d a lit, BitVec.ofNat 64 (lit.toNat * 2 ^ 32 + (v.ctx.getS a).toNat % 2 ^ 32))] : List (Instr × Word)),
       exec p.1 s = .next (s.retire v v.team ((v.ctx.setS d p.2).advance (v.ctx.pc + 8) none))) ∧
  (∀ (s : State) (v : View) (d a b : Fin 64), Ready s v [.s d] →
     let w := a.val + 1
     let p := b.val
     (64 < p + w → exec (.sbfx d a b) s = .next (park s v { code := .illegalEncoding } 0 [])) ∧
     (p + w ≤ 64 → ∃ u v', exec (.sbfx d a b) s = .next u ∧ u.view = some v' ∧ v'.ctx.pc = v.ctx.pc + 4 ∧
       ∀ i < 64, (v'.ctx.getS d).getLsbD i = (decide (i < w) && (v.ctx.getS d).getLsbD (p + i))))

/-- R14, R203 to R207, R241, R287: an instruction that writes one scalar register, and the branches, which write none or s62, take
a fault, wait, or leave every other register, flag, mask, vector, special register, every other context and team, and every
byte of memory and of every stash as they were. -/
def Obligations.ScalarInstructionsFrame : Prop :=
  ∀ (s u : State) (v : View) (i : Instr) (d : Option Nat), s.view = some v →
    (i.scalarDest = d ∧ d.isSome = true ∨ i.onlyFlow = true ∧ d = none) → exec i s = .next u →
    (∃ f, u = park s v f 0 []) ∨ u = s ∨ ScalarFrame s u v d

/-! ### Masks (R17, R18, R207) -/

/-- R17, R18, R207: each MASK instruction that writes kD sets bit l as its operation says for l < NL and clears it above; a write
to k0 keeps only the lanes of LIVE. KFROMS replaces one group word. KPOP counts the lanes of a mask, KFIRST finds its lowest
lane, and KTOS reads a group word, the summary word at 32, and 0 at any other index. -/
def Obligations.MaskWritesAndReads : Prop :=
  (∀ (s : State) (v : View) (d a b : Fin 16) (x y : Fin 64), Ready s v [.k d, .k a, .k b, .s x, .s y] → v.kind = .team →
     let ka := fun l : Nat => inMask v.team.k[a] l
     let kb := fun l : Nat => inMask v.team.k[b] l
     let group := (v.ctx.getS y).toNat
     ∀ p ∈ ([(.kand d a b, fun l => ka l && kb l), (.kor d a b, fun l => ka l || kb l), (.kxor d a b, fun l => ka l ^^ kb l),
         (.kandn d a b, fun l => ka l && !kb l), (.knot d a, fun l => !ka l), (.kmov d a, ka),
         (.kfroms d x y, fun l => if l / 32 = group then (v.ctx.getS x).getLsbD (l % 32) else inMask v.team.k[d] l),
         (.kclr d, fun _ => false), (.klive d, fun l => inMask v.team.live l)] : List (Instr × (Nat → Bool))),
       ∃ u v', exec p.1 s = .next u ∧ u.view = some v' ∧ v'.ctx = v.ctx.step4 ∧
         ∀ l < 1024, inMask v'.team.k[d] l =
           (decide (l < v.team.nl) && p.2 l && (decide (d ≠ 0) || inMask v.team.live l))) ∧
  (∀ (s : State) (v : View) (d b : Fin 64) (a : Fin 16), Ready s v [.s d, .k a, .s b] → v.kind = .team →
     let m := v.team.k[a]
     let i := (v.ctx.getS b).toNat
     exec (.kpop d a) s =
       .next (s.retire v v.team (v.ctx.setS d (BitVec.ofNat 64 ((List.range 1024).countP (inMask m)))).step4) ∧
     exec (.kfirst d a) s = .next (s.retire v v.team (v.ctx.setS d
       (match (List.range 1024).find? (inMask m) with | some l => BitVec.ofNat 64 l | none => BitVec.allOnes 64)).step4) ∧
     exec (.ktos d a b) s = .next (s.retire v v.team (v.ctx.setS d (
       if i < 32 then BitVec.ofNat 64 (m.toNat / 2 ^ (32 * i) % 2 ^ 32)
       else if i = 32 then
         BitVec.ofNat 64 ((List.range 32).foldl (fun n g => if m.toNat / 2 ^ (32 * g) % 2 ^ 32 = 0 then n else n + 2 ^ g) 0)
       else 0)).step4))

/-- R17, R18, R38, R207, R215: an instruction that writes one mask register takes a fault or leaves every other mask register,
every other register and flag, every other context and team, and every byte of memory and of every stash as they were. -/
def Obligations.MaskInstructionsFrame : Prop :=
  ∀ (s u : State) (v : View) (i : Instr) (d : Fin 16), s.view = some v → i.maskDest = some d → exec i s = .next u →
    (∃ f, u = park s v f 0 []) ∨ MaskFrame s u v d

/-! ### Integer and raw vector instructions (R57, R210 to R217) -/

/-- R57, R213, R216, R217: the arithmetic instructions compute the exact result of each lane of E and wrap it modulo 2^bits when
MD.SAT is 0, without a flag; when SAT is 1 they clamp it to the type's range and raise SX if they clamped. Each asks of its own operands
alone that they are valid and not pending: the B of VADDS and VMULS is any scalar register. -/
def Obligations.IntegerArithmeticWrapsOrClamps : Prop :=
  ∀ (s : State) (v : View) (d a b c : Fin 64) (i : BitVec 14),
    let w := v.wide
    let ty := v.ty
    ty ≤ 7 →
    let x := fun r l => v.intAt ty r l
    let y : Int := intOf ty (v.ctx.getS b).toNat
    let store := fun z : Int =>
      if mdSat v.ctx.md then (if z < intMin ty then (intMin ty, fSX) else if intMax ty < z then (intMax ty, fSX) else (z, 0))
      else (z, (0 : Flags))
    ∀ p ∈ ([(.vadd d a b, [d, a, b], [], fun l => x a l + x b l), (.vsub d a b, [d, a, b], [], fun l => x a l - x b l),
        (.vmul d a b, [d, a, b], [], fun l => x a l * x b l),
        (.vabs d a, [d, a], [], fun l => if x a l < 0 then -x a l else x a l), (.vneg d a, [d, a], [], fun l => -x a l),
        (.vadds d a b, [d, a], [.s b], fun l => x a l + y), (.vmuls d a b, [d, a], [.s b], fun l => x a l * y),
        (.vaddi d a i, [d, a], [], fun l => x a l + i.toInt),
        (.vmad d a b c, [d, a, b, c], [], fun l => x a l * x b l + x c l),
        (.vmsb d a b c, [d, a, b, c], [], fun l => x c l - x a l * x b l)] :
          List (Instr × List (Fin 64) × List RegName × (Nat → Int))),
      VectorReady s v (p.2.1.map (fun r => (w, r.val))) p.2.2.1 →
      exec p.1 s = .next (laneResult s v w d (fun l =>
        let z := store (p.2.2.2 l)
        some (wordOf ty (wrapBits (typeBits ty) z.1), z.2)))

/-- R211, R213, R214, R217: the shifts, minima, products' high halves, counts and field extraction work on the elements' bits: a
shift by the width or more leaves nothing (or the sign), and no flag is raised. The raw instructions work on whole lane words,
or pairs under a 64-bit TYPE, for every TYPE up to 14; VSEL writes only the lanes of k[B]; VIOTA counts the lanes of E below
its own, in one lane word whatever TYPE holds. VMOVS narrows with saturation: the whole lane word, read as I32 or N32 as TYPE is signed or not, clamped to TYPE's
range with SX when it clamps, whatever SAT holds; a pair moves unchanged. -/
def Obligations.BitwiseAndRawResults : Prop :=
  (∀ (s : State) (v : View) (d a b c : Fin 64),
     let w := v.wide
     let ty := v.ty
     VectorReady s v [(w, d), (w, a), (w, b), (w, c)] [] → ty ≤ 7 →
     let n := typeBits ty
     let m : Nat := 2 ^ n
     let x := fun l => v.bitsAt ty a l
     let y := fun l => v.bitsAt ty b l
     let z := fun l => v.bitsAt ty c l
     let sx := fun l => v.intAt ty a l
     let sy := fun l => v.intAt ty b l
     let low := fun k : Int => (k % (m : Int)).toNat
     let field := fun l => min (z l) (n - y l)
     (∀ p ∈ ([(.vmulh d a b, fun l => low (sx l * sy l / (m : Int))),
         (.vshl d a b, fun l => x l * 2 ^ y l % m), (.vshr d a b, fun l => x l / 2 ^ y l),
         (.vsra d a b, fun l => low (signedOf n (x l) / (2 : Int) ^ y l)),
         (.vmin d a b, fun l => low (if sx l ≤ sy l then sx l else sy l)), (.vmax d a b, fun l => low (if sx l ≤ sy l then sy l else sx l)),
         (.vpopc d a, fun l => (List.range n).countP (fun i => (x l).testBit i)),
         (.vclz d a, fun l => if x l = 0 then n else n - 1 - (x l).log2),
         (.vbfx d a b c, fun l =>
           let f := x l / 2 ^ y l % 2 ^ field l
           if field l = 0 then 0 else if isSigned ty then low (signedOf (field l) f) else f)] : List (Instr × (Nat → Nat))),
       exec p.1 s = .next (laneResult s v w d (fun l => some (wordOf ty (p.2 l), 0)))) ∧
     exec (.vbfi d a b c) s = .next (laneResult s v w d (fun l =>
       let old := v.bitsAt ty d l
       if field l = 0 then none
       else some (wordOf ty (old % 2 ^ y l + x l % 2 ^ field l * 2 ^ y l + old / 2 ^ (y l + field l) * 2 ^ (y l + field l)), 0)))) ∧
  (∀ (s : State) (v : View) (d a b : Fin 64) (k : Fin 16),
     let w := v.wide
     VectorReady s v [(w, d), (w, a), (w, b)] [.k k] → v.ty ≤ 14 →
     let x := fun l => v.team.elem w a l
     let y := fun l => v.team.elem w b l
     (∀ p ∈ ([(.vand d a b, fun l => some (x l &&& y l)), (.vor d a b, fun l => some (x l ||| y l)),
         (.vxor d a b, fun l => some (x l ^^^ y l)), (.vandn d a b, fun l => some (x l &&& (2 ^ 64 - 1 - y l))),
         (.vmov d a, fun l => some (x l)), (.vsel d a k, fun l => if inMask v.team.k[k] l then some (x l) else none)] :
           List (Instr × (Nat → Option Nat))),
       exec p.1 s = .next (laneResult s v w d (fun l => (p.2 l).map (fun z => (z, 0)))))) ∧
  (∀ (s : State) (v : View) (d : Fin 64), VectorReady s v [(false, d)] [] →
     exec (.viota d) s = .next (laneResult s v false d (fun l => some (v.lanes.countP (fun j => decide (j < l)), 0)))) ∧
  (∀ (s : State) (v : View) (d a : Fin 64),
     let w := v.wide
     let ty := v.ty
     VectorReady s v [(w, d), (w, a)] [] → ty ≤ 7 →
     exec (.vmovs d a) s = .next (laneResult s v w d (fun l =>
       if w then some (v.team.elem true a l, 0)
       else
         let x : Int := if isSigned ty then (v.team.lane a l).toInt else (v.team.lane a l).toNat
         let z := if x < intMin ty then (intMin ty, fSX) else if intMax ty < x then (intMax ty, fSX) else (x, (0 : Flags))
         some (wordOf ty (wrapBits (typeBits ty) z.1), z.2))))

/-- R215, R219: a compare sets bit l of kD to its result for each lane l of E; bits outside E keep their values, bits at or above
NL stay clear, and a write to k0 keeps only the lanes of LIVE. Integer compares are signed for I types and unsigned for N
types. A floating compare takes no packed or widened layout; with a NaN operand only VFCUN gives 1. -/
def Obligations.ComparesSetMaskBits : Prop :=
  ∀ (s : State) (v : View) (d : Fin 16) (a b : Fin 64),
    let w := v.wide
    let ty := v.ty
    VectorReady s v [(w, a), (w, b)] [.k d] →
    let x := fun l => v.intAt ty a l
    let y := fun l => v.intAt ty b l
    let fx := fun l => fdecodeFtz (mdFtz v.ctx.md) ty (v.team.elem w a l)
    let fy := fun l => fdecodeFtz (mdFtz v.ctx.md) ty (v.team.elem w b l)
    let nan := fun l => fx l == .nan || fy l == .nan
    let agrees := fun l o => !nan l && fcompare (fx l) (fy l) == some o
    let sets := fun (p : Instr × (Nat → Bool)) =>
      ∃ u v', exec p.1 s = .next u ∧ u.view = some v' ∧ v'.ctx = v.ctx.step4 ∧
        ∀ l < 1024, inMask v'.team.k[d] l =
          ((if inMask v.eff l then p.2 l else inMask v.team.k[d] l) && decide (l < v.team.nl) &&
            (decide (d ≠ 0) || inMask v.team.live l))
    (ty ≤ 7 → ∀ p ∈ ([(.vceq d a b, fun l => decide (x l = y l)), (.vcne d a b, fun l => decide (x l ≠ y l)),
        (.vclt d a b, fun l => decide (x l < y l)), (.vcle d a b, fun l => decide (x l ≤ y l))] : List (Instr × (Nat → Bool))),
      sets p) ∧
    (floatLayout v.ctx.md [.plain] = some .plain →
      ∀ p ∈ ([(.vfceq d a b, fun l => agrees l .eq), (.vfclt d a b, fun l => agrees l .lt),
        (.vfcle d a b, fun l => agrees l .lt || agrees l .eq), (.vfcun d a b, nan)] : List (Instr × (Nat → Bool))),
      sets p) ∧
    (floatLayout v.ctx.md [.plain] = none → ∀ i ∈ ([.vfceq d a b, .vfclt d a b, .vfcle d a b, .vfcun d a b] : List Instr),
      exec i s = .next (park s v { code := .illegalMode } 0 []))

/-! ### Floating point (R58 to R71, R212, R218 to R223) -/

/-- R58, R65, R70: rounding, in any of the six modes, a value that a floating type represents gives its own encoding and no flag.
-/
def Obligations.RoundingKeepsRepresentableValues : Prop :=
  ∀ (ty : Nat) (r : Rnd) (n : Nat), 8 ≤ ty → ty ≤ 13 → r.mode ≤ 5 → r.ftz = false → r.sat = false → n < 2 ^ typeBits ty →
    fdecode ty n ≠ .nan → roundVal ty r (fdecode ty n) = (n, 0)

/-- R58, R60, R212, R218, R222: the arithmetic instructions compute each element exactly on their sources' values and round it
once to TYPE, under the layout that SRCT selects; in the fused forms the product is not rounded. The sum and the product of finite
values are exact, 0 × ∞ and ∞ − ∞ are NaN with NV, and a rounding without overflow picks the number that the mode names. Minima, maxima, magnitude and
negation return an operand's value exactly, without a flag of their own and whatever RND holds; minimum and maximum prefer the
operand that is no NaN. -/
def Obligations.FloatArithmetic : Prop :=
  (∀ (s : State) (v : View) (d a b c : Fin 64) (lay : Layout),
     let md := v.ctx.md
     floatLayout md [.plain, .packed, .widen] = some lay → rndOk md = true →
     let rnd := mdRnd md
     let x := fun (o : FSrc) l e => o.val v lay l e
     let once := fun (f : Nat → Nat → FVal × Flags) l e =>
       let y := roundVal v.ty (laneRnd s v.team md v.ctx.isc l e) (f l e).1
       (y.1, y.2 ||| (f l e).2)
     let fused := fun (p q : FVal → FVal) l e =>
       let m := fmul (x (.vec a) l e) (x (.vec b) l e)
       let z := fadd rnd (p m.1) (q (x (.acc c) l e))
       (z.1, m.2 ||| z.2)
     let two : List FSrc := [.vec a, .vec b]
     let three : List FSrc := [.vec a, .vec b, .acc c]
     ∀ p ∈ ([(.vfadd d a b, two, [], fun l e => fadd rnd (x (.vec a) l e) (x (.vec b) l e)),
         (.vfsub d a b, two, [], fun l e => fadd rnd (x (.vec a) l e) (x (.vec b) l e).negate),
         (.vfmul d a b, two, [], fun l e => fmul (x (.vec a) l e) (x (.vec b) l e)),
         (.vfadds d a b, [.vec a], [.s b], fun l e => fadd rnd (x (.vec a) l e) (x (.sca b) l e)),
         (.vfmuls d a b, [.vec a], [.s b], fun l e => fmul (x (.vec a) l e) (x (.sca b) l e)),
         (.vfma d a b c, three, [], fused id id), (.vfms d a b c, three, [], fused id FVal.negate),
         (.vfnma d a b c, three, [], fused FVal.negate id), (.vfnms d a b c, three, [], fused FVal.negate FVal.negate)] :
           List (Instr × List FSrc × List RegName × (Nat → Nat → FVal × Flags))),
       VectorReady s v ((v.wide, d.val) :: srcRegs md (some lay) p.2.1) p.2.2.1 →
       exec p.1 s = .next (laneResult s v v.wide d (fun l => some (
         let o := fun e => once p.2.2.2 l e
         if lay = .packed then ((o 0).1 + (o 1).1 * 2 ^ 16, (o 0).2 ||| (o 1).2) else o 0)))) ∧
  (∀ (s : State) (v : View) (d a b : Fin 64) (lay : Layout),
     let md := v.ctx.md
     VectorReady s v [(v.wide, d), (v.wide, a), (v.wide, b)] [] → floatLayout md [.plain, .packed] = some lay →
     let x := fun (r : Fin 64) l e => (FSrc.vec r).val v lay l e
     let pick := fun (f : FVal → FVal → FVal) l e => match x a l e, x b l e with
       | .nan, y => y
       | y, .nan => y
       | y, z => f y z
     let low := fun y z => if fcompare y z = some .gt ∨ (fcompare y z = some .eq ∧ z.isNegZero = true) then z else y
     let high := fun y z => if fcompare y z = some .lt ∨ (fcompare y z = some .eq ∧ y.isNegZero = true) then z else y
     let out := fun (f : Nat → Nat → FVal) l e => roundVal v.ty { mode := 0 } (f l e)
     ∀ p ∈ ([(.vfmin d a b, pick low), (.vfmax d a b, pick high), (.vfabs d a, fun l e => (x a l e).abs),
         (.vfneg d a, fun l e => (x a l e).negate)] : List (Instr × (Nat → Nat → FVal))),
       exec p.1 s = .next (laneResult s v v.wide d (fun l => some (
         if lay = .packed then ((out p.2 l 0).1 + (out p.2 l 1).1 * 2 ^ 16, (out p.2 l 0).2 ||| (out p.2 l 1).2) else out p.2 l 0)))) ∧
  (∀ (rnd : Nat) (p q : FVal) (x y : ℝ), p.isReal x → q.isReal y →
     (fadd rnd p q).1.isReal (x + y) ∧ (fadd rnd p q).2 = 0 ∧ (fmul p q).1.isReal (x * y) ∧ (fmul p q).2 = 0 ∧
     ∀ n : Bool, fadd rnd (.inf n) q = (.inf n, 0) ∧ fadd rnd p (.inf n) = (.inf n, 0) ∧
       fadd rnd (.inf n) (.inf n) = (.inf n, 0) ∧ fadd rnd (.inf n) (.inf (!n)) = (.nan, fNV) ∧
       fmul (.inf n) (.inf n) = (.inf false, 0) ∧ fmul (.inf n) (.inf (!n)) = (.inf true, 0) ∧
       (y = 0 → fmul (.inf n) q = (.nan, fNV)) ∧ (0 < y → fmul (.inf n) q = (.inf n, 0)) ∧
       (y < 0 → fmul (.inf n) q = (.inf (!n), 0)) ∧
       (x = 0 → fmul p (.inf n) = (.nan, fNV)) ∧ (0 < x → fmul p (.inf n) = (.inf n, 0)) ∧
       (x < 0 → fmul p (.inf n) = (.inf (!n), 0))) ∧
  (∀ (ty : Nat) (r : Rnd) (z : FVal) (x : ℝ), 8 ≤ ty → ty ≤ 13 → r.mode ≤ 5 → r.ftz = false → z.isReal x →
     RoundsTo ty r x (roundVal ty r z))

/-- R62, R64, R71, R218, R220, R221: VFCLASS writes the class of the encoding as it stands, one bit of nine; VCVT converts each
lane by the rule of its pair of types; VUNPK reads the block of its group and converts it to TYPE. VPACK forms one block for
each group with a lane of E, lanes outside E counting as zero: its 32 codes fill four lanes of vD, eight codes a lane, and its
scale code and extra value fill half of a lane of vD+1. Groups without a lane of E keep theirs; of the rest of the state only PC, ISC,
the windows and the flags of the blocks change. What a conversion gives: the same bits for one type, also of a NaN (the model's reading of
R71, log 39, DEDUCED); an integer wraps or clamps into
another; an integer or a floating value rounds to a floating type; a floating value in an integer type's range gives the integer it
is, or one next to it with NX (under RSX the one that U selects), and out of range the nearer end with NV and SX. What a block is: all NaN with NV if a source is no
number; else under RNE every code names the nearest of the fifteen magnitudes, and the one extra element comes nearer than any. -/
def Obligations.Conversions : Prop :=
  (∀ (s : State) (v : View) (d a : Fin 64),
     let md := v.ctx.md
     let ty := v.ty
     let src := mdSrct md
     let round := fun l => { laneRnd s v.team md v.ctx.isc l 0 with sat := mdSat md }
     (VectorReady s v [(false, d), (v.wide, a)] [] → floatLayout md [.plain] = some .plain →
       exec (.vfclass d a) s = .next (laneResult s v false d (fun l => some (classOf ty (v.team.elem v.wide a l), 0))) ∧
       ∀ l, ∃ i < 9, classOf ty (v.team.elem v.wide a l) = 2 ^ i) ∧
     (VectorReady s v [(v.wide, d), (isWide src, a)] [] → cvtModeOk md = true →
       exec (.vcvt d a) s = .next (laneResult s v v.wide d (fun l =>
         let y := convert src ty (round l) (v.team.elem (isWide src) a l)
         some (wordOf ty y.1, y.2)))) ∧
     (VectorReady s v [(v.wide, d), (true, a)] [] → src = 14 → isFloatType ty = true → rndOk md = true →
       exec (.vunpk d a) s = .next (laneResult s v v.wide d (fun l =>
         let g := l / 32
         let j := l % 32
         let code := (v.team.lane a (4 * g + j / 8)).toNat / 2 ^ (4 * (j % 8)) % 16
         let scales := (v.team.lane (a + 1) (g / 2)).toNat / 2 ^ (16 * (g % 2))
         some (toFloatQ ty (round l) (blockValue code (scales % 256) (scales / 256 % 256))))))) ∧
  (∀ (s : State) (v : View) (d a : Fin 64),
     let md := v.ctx.md
     VectorReady s v [(true, d), (isWide (mdSrct md), a)] [] → v.ty = 14 → isFloatType (mdSrct md) = true → rndOk md = true →
     v.team.v.length = v.team.nv → (∀ row ∈ v.team.v, row.length = v.team.nl) →
     let packed := fun g => decide (g < v.team.nl / 32) && (List.range 32).any (fun j => inMask v.eff (32 * g + j))
     let half := fun g =>
       if packed g then (packGroup s v a g).2.1 + (packGroup s v a g).2.2.1 * 2 ^ 8
       else (v.team.lane (d + 1) (g / 2)).toNat / 2 ^ (16 * (g % 2)) % 2 ^ 16
     let flags := flagsOr ((List.range (v.team.nl / 32)).map (fun g => if packed g then (packGroup s v a g).2.2.2 else 0))
     ∃ t, exec (.vpack d a) s = .next (s.retire v t (v.ctx.step4.raise flags)) ∧ { t with v := v.team.v } = v.team ∧
       (∀ r l, r ≠ d.val → r ≠ d.val + 1 → t.lane r l = v.team.lane r l) ∧
       ∀ l < v.team.nl,
         t.lane d l =
           (if packed (l / 4) then BitVec.ofNat 32 (planeWord (packGroup s v a (l / 4)).1 (l % 4)) else v.team.lane d l) ∧
         t.lane (d + 1) l = BitVec.ofNat 32 (half (2 * l) + half (2 * l + 1) * 2 ^ 16)) ∧
  (∀ (src ty : Nat) (r : Rnd) (n : Nat), src ≤ 13 → ty ≤ 13 → r.mode ≤ 5 →
     let i := intOf src n
     let f := fdecodeFtz r.ftz src n
     (src = ty → convert src ty r n = (n % 2 ^ typeBits ty, 0)) ∧
     (src ≠ ty → src ≤ 7 → ty ≤ 7 → convert src ty r n =
       if r.sat then
         (if i < intMin ty then (wrapBits (typeBits ty) (intMin ty), fSX)
          else if intMax ty < i then (wrapBits (typeBits ty) (intMax ty), fSX) else (wrapBits (typeBits ty) i, 0))
       else (wrapBits (typeBits ty) i, 0)) ∧
     (src ≤ 7 → 8 ≤ ty → r.ftz = false → RoundsTo ty r i (convert src ty r n)) ∧
     (8 ≤ src → 8 ≤ ty → src ≠ ty →
       (f = .nan → convert src ty r n = (canonNan ty, 0)) ∧
       (r.ftz = false → ∀ x : ℝ, f.isReal x → RoundsTo ty r x (convert src ty r n))) ∧
     (8 ≤ src → ty ≤ 7 →
       (f = .nan → convert src ty r n = (0, fNV ||| fSX)) ∧
       (∀ neg, f = .inf neg → convert src ty r n = (wrapBits (typeBits ty) (if neg then intMin ty else intMax ty), fNV ||| fSX)) ∧
       (∀ x : ℝ, f.isReal x → ∃ k : Int, |(k : ℝ) - x| < 1 ∧ (r.mode = 0 ∨ r.mode = 4 → |(k : ℝ) - x| ≤ 1 / 2) ∧
         (r.mode = 1 → |(k : ℝ)| ≤ |x|) ∧ (r.mode = 2 → x ≤ k) ∧ (r.mode = 3 → (k : ℝ) ≤ x) ∧
         (r.mode = 5 → ((r.u : ℝ) < (|x| - ⌊|x|⌋) * 2 ^ 24 → |k| = ⌊|x|⌋ + 1) ∧
           ((|x| - ⌊|x|⌋) * 2 ^ 24 ≤ (r.u : ℝ) → |k| = ⌊|x|⌋)) ∧
         (k < intMin ty → convert src ty r n = (wrapBits (typeBits ty) (intMin ty), fNV ||| fSX)) ∧
         (intMax ty < k → convert src ty r n = (wrapBits (typeBits ty) (intMax ty), fNV ||| fSX)) ∧
         (intMin ty ≤ k → k ≤ intMax ty → (convert src ty r n).1 = wrapBits (typeBits ty) k ∧
           ((k : ℝ) = x → (convert src ty r n).2 = 0) ∧ ((k : ℝ) ≠ x → (convert src ty r n).2 = fNX))))) ∧
  (∀ (rnd : Nat) (u : Nat → Nat) (a : List FVal), a.length = 32 →
     let o := packBlock rnd u a
     let zeros := List.replicate 32 0
     ((∃ x ∈ a, ∀ y : ℝ, ¬ x.isReal y) → o = (zeros, 0xFF, 0, fNV)) ∧
     ((∀ x ∈ a, x.isReal 0) → o = (zeros, 0, 0, 0)) ∧
     ((∀ x ∈ a, ∃ y : ℝ, x.isReal y) → (∃ x ∈ a, ¬ x.isReal 0) → o.2.1 ≤ 254 ∧ o.1.length = 32 ∧
       (rnd = 0 → ∀ i < 32, ∀ x y z : ℝ, ∀ c < 16, (a.getD i .nan).isReal x → (blockValue (o.1.getD i 0) o.2.1 o.2.2.1).isReal y →
         c ≠ 8 → (blockValue c o.2.1 0).isReal z →
         (o.1.getD i 0 ≠ 8 → |x - y| ≤ |x - z|) ∧ (o.1.getD i 0 = 8 → o.2.2.1 ≠ 0 ∧ |x - y| < |x - z|))))

/-- R44, R223, R224: each special function completes: it writes its value in each lane of E, raises its flags, and opens a window of
its lookahead over its destination (that the value is written at issue is the model's choice, log 38). The values: VFDIV, VFSQRT, VFRCP
and VFRSQ of finite operands are the quotient, root and reciprocals rounded once, with NX exactly when that is inexact; VFEXP2 of
integers, VFLOG2 of powers of two, and VFSINPI and VFCOSPI of halves are exact; the special operands give R224's results. -/
def Obligations.SpecialFunctionResults : Prop :=
  (∀ (s : State) (v : View) (d a b : Fin 64) (la : Fin 16),
    let md := v.ctx.md
    let w := v.wide
    VectorReady s v [(w, d), (w, a), (w, b)] [] → 8 ≤ v.ty → v.ty ≤ 11 → floatLayout md [.plain] = some .plain → rndOk md = true →
    ∀ p ∈ ([(.vfdiv d a b la, 0), (.vfsqrt d a la, 1), (.vfrcp d a la, 2), (.vfrsq d a la, 3), (.vfexp2 d a la, 4),
        (.vflog2 d a la, 5), (.vfsinpi d a la, 6), (.vfcospi d a la, 7), (.vftanh d a la, 8)] : List (Instr × Nat)),
      let f := fun l =>
        let x := v.team.elem w a l
        sfuVal p.2 v.ty (laneRnd s v.team md v.ctx.isc l 0) (Config.sfuTie p.2 (x % 2 ^ typeBits v.ty))
          (fdecodeFtz (mdFtz md) v.ty x) (fdecodeFtz (mdFtz md) v.ty (if p.2 = 0 then v.team.elem w b l else 0))
      exec p.1 s = .next (s.retire v (v.team.setElems w d v.eff (fun l => some (f l).1))
        ((v.ctx.advance (v.ctx.pc + 4) (some { op := 0, left := la, names := vNames w d })).raise
          (flagsOr (v.lanes.map (fun l => (f l).2)))))) ∧
  (∀ (ty : Nat) (r : Rnd) (tie : Nat) (p q : FVal), 8 ≤ ty → ty ≤ 11 → r.mode ≤ 5 → r.sat = false →
     let f := fun fn => sfuVal fn ty r tie p q
     let inf := infBits ty
     let zero := signBit ty
     let nan := canonNan ty
     let one := fun n : Bool => roundVal ty r (.fin n 1 0)
     (p = .nan → ∀ fn < 9, f fn = (nan, 0)) ∧ (q = .nan → f 0 = (nan, 0)) ∧
     (r.ftz = false → ∀ x y : ℝ, p.isReal x → x ≠ 0 →
       (q.isReal y → y ≠ 0 → RoundsTo ty r (x / y) (f 0)) ∧ (0 < x → RoundsTo ty r (Real.sqrt x) (f 1)) ∧
       RoundsTo ty r (1 / x) (f 2) ∧ (0 < x → RoundsTo ty r (1 / Real.sqrt x) (f 3))) ∧
     (∀ (n : Bool) (m : Nat) (e : Int), p = .fin n m e →
       (∀ n', q = .inf n' → f 0 = (zero (n != n'), 0)) ∧
       (∀ n' m' e', q = .fin n' m' e' →
         (m' = 0 → m = 0 → f 0 = (nan, fNV)) ∧ (m' = 0 → m ≠ 0 → f 0 = (inf (n != n'), fDZ)) ∧
         (m' ≠ 0 → m = 0 → f 0 = (zero (n != n'), 0))) ∧
       (m = 0 → f 1 = (zero n, 0) ∧ f 2 = (inf n, fDZ) ∧ f 3 = (inf n, fDZ) ∧ f 4 = one false ∧ f 5 = (inf true, fDZ) ∧
         f 6 = (zero n, 0) ∧ f 7 = one false ∧ f 8 = (zero n, 0)) ∧
       (m ≠ 0 → n = true → f 1 = (nan, fNV) ∧ f 3 = (nan, fNV) ∧ f 5 = (nan, fNV)) ∧
       (m ≠ 0 → ∀ k : Int,
         (p.isReal k → (k.natAbs < 8192 → f 4 = roundVal ty r (.fin false 1 k)) ∧ f 6 = (zero n, 0) ∧ f 7 = one (decide (k % 2 = 1))) ∧
         (p.isReal (2 ^ k) → f 5 = roundVal ty r (.fin (decide (k < 0)) k.natAbs 0)) ∧
         (p.isReal (k + 1 / 2) → f 6 = one (decide (k % 2 = 1)) ∧ f 7 = (0, 0)))) ∧
     (∀ n : Bool, p = .inf n →
       (∀ n', q = .inf n' → f 0 = (nan, fNV)) ∧ (∀ n' m' e', q = .fin n' m' e' → f 0 = (inf (n != n'), 0)) ∧
       f 1 = (if n then (nan, fNV) else (inf false, 0)) ∧ f 2 = (zero n, 0) ∧ f 3 = (if n then (nan, fNV) else (0, 0)) ∧
       f 4 = (if n then (0, 0) else (inf false, 0)) ∧ f 5 = (if n then (nan, fNV) else (inf false, 0)) ∧
       f 6 = (nan, fNV) ∧ f 7 = (nan, fNV) ∧ f 8 = one n))

/-! ### Across lanes (R77, R225 to R228) -/

/-- R44, R225, R227: the moves across lanes deliver to each lane of E the element of the lane their rule names, read in every lane
at issue (that they are written then is the model's choice, log 38, DEDUCED): VPERM and VSHX within the group of 32, VSHUP and VSHDN over the team without wrapping, VBCAST from the lowest lane
of E. VCMPR packs the lanes of E into the lowest lanes. -/
def Obligations.CrossLaneMoves : Prop :=
  ∀ (s : State) (v : View) (d a b : Fin 64) (la : Fin 16),
    let w := v.wide
    v.ty ≤ 14 →
    let n := (v.ctx.getS b).toNat
    let idx := fun l => (v.team.lane b l).toNat % 32
    let done := fun (t : Team) =>
      s.retire v t ((v.ctx.advance (v.ctx.pc + 4) (some { op := 0, left := la, names := vNames w d })).raise 0)
    (∀ p ∈ ([(.vperm d a b la, [(false, b.val)], [], fun l => some (32 * (l / 32) + idx l)),
        (.vshup d a b la, [], [.s b], fun l => if l < n then none else some (l - n)),
        (.vshdn d a b la, [], [.s b], fun l => if v.team.nl ≤ l + n then none else some (l + n)),
        (.vshx d a b la, [(false, b.val)], [], fun l => some (32 * (l / 32) + Nat.xor (l % 32) (idx l))),
        (.vbcast d a la, [], [], fun _ => v.lanes.head?)] :
          List (Instr × List (Bool × Nat) × List RegName × (Nat → Option Nat))),
      VectorReady s v ((w, d.val) :: (w, a.val) :: p.2.1) p.2.2.1 →
      exec p.1 s = .next (done (v.team.setElems w d v.eff (fun l => (p.2.2.2 l).map (fun j => v.team.elem w a j))))) ∧
    (VectorReady s v [(w, d), (w, a)] [] → exec (.vcmpr d a la) s =
      .next (done (v.team.setElems w d (lanesBelow v.lanes.length) (fun j => (v.lanes[j]?).map (fun i => v.team.elem w a i)))))

/-- R57, R60, R77, R226, R228: VSCAN, VSCANX and VRED combine the elements of the lanes of E up to, before, and throughout: an integer
result is exact and wraps, or for a sum clamps under SAT; a floating sum is the exact real sum rounded once, NaN for a NaN or for both
infinities (then with NV), else the infinity among its terms, and +0 of nothing; a floating minimum or maximum prefers the operand that is
no NaN, orders −0 below +0, and of nothing is the infinity beyond every number, or NaN in a type without one. That the results are written
at issue (log 38, DEDUCED), and that VRED rounds in each lane with that lane's draw under RSX (log 50, DESIGN CHOICE), is the model's. LBAL gives each lane of E
the row that holds its item and the item's offset in the row, the lanes of E being the rows in order and vA their lengths;
past the last row, and with SX when the row ends beyond 2^32 − 1, the row is all ones. -/
def Obligations.ScansAndLoadBalance : Prop :=
  (∀ (s : State) (v : View) (d a : Fin 64) (o : Fin 6) (la : Fin 16),
     let w := v.wide
     let ty := v.ty
     VectorReady s v [(w, d), (w, a)] [] → scanModeOk v.ctx.md o = true →
     let step := fun x y : Int =>
       if o = 0 then x + y else if o = 1 then min x y else if o = 2 then max x y
       else
         let p := wrapBits (typeBits ty) x
         let q := wrapBits (typeBits ty) y
         ((if o = 3 then p &&& q else if o = 4 then p ||| q else p ^^^ q : Nat) : Int)
     let first : Int := if o = 1 then intMax ty else if o = 2 then intMin ty else if o = 3 then 2 ^ typeBits ty - 1 else 0
     let low := fun y z : FVal => if fcompare y z = some .gt ∨ (fcompare y z = some .eq ∧ z.isNegZero = true) then z else y
     let high := fun y z : FVal => if fcompare y z = some .lt ∨ (fcompare y z = some .eq ∧ y.isNegZero = true) then z else y
     let pick := fun (f : FVal → FVal → FVal) (y z : FVal) => match y, z with
       | .nan, z => z
       | y, .nan => y
       | y, z => f y z
     ∀ p ∈ ([(.vscan d a o la, fun j l => decide (j ≤ l)), (.vscanx d a o la, fun j l => decide (j < l)),
         (.vred d a o la, fun _ _ => true)] : List (Instr × (Nat → Nat → Bool))),
       let taken := fun l => v.lanes.filter (fun j => p.2 j l)
       let out := fun l =>
         if isIntType ty then
           intResult ty (mdSat v.ctx.md && o == 0) ((taken l).foldl (fun x j => step x (v.intAt ty a j)) first)
         else if o = 0 then
           let sum := fsum (mdRnd v.ctx.md) ((taken l).map (fun j => fdecodeFtz (mdFtz v.ctx.md) ty (v.team.elem w a j)))
           let y := roundVal ty (laneRnd s v.team v.ctx.md v.ctx.isc l 0) sum.1
           (y.1, y.2 ||| sum.2)
         else
           let y := match (taken l).map (fun j => fdecodeFtz (mdFtz v.ctx.md) ty (v.team.elem w a j)) with
             | [] => ((if ty = 12 then canonNan ty else infBits ty (decide (o ≠ 1))), (0 : Flags))
             | z :: zs => roundVal ty { mode := 0 } (zs.foldl (pick (if o = 1 then low else high)) z)
           y
       exec p.1 s = .next (s.retire v (v.team.setElems w d v.eff (fun l => some (wordOf ty (out l).1)))
         ((v.ctx.advance (v.ctx.pc + 4) (some { op := 0, left := la, names := vNames w d })).raise
           (flagsOr (v.lanes.map (fun l => (out l).2)))))) ∧
  (∀ (rnd : Nat) (xs : List FVal),
     let inf := fun n : Bool => FVal.inf n ∈ xs
     (∀ ys : List ℝ, List.Forall₂ FVal.isReal xs ys → (fsum rnd xs).1.isReal ys.sum ∧ (fsum rnd xs).2 = 0 ∧
       ∀ (ty : Nat) (r : Rnd), 8 ≤ ty → ty ≤ 13 → r.mode ≤ 5 → r.ftz = false → RoundsTo ty r ys.sum (roundVal ty r (fsum rnd xs).1)) ∧
     (inf true ∧ inf false → fsum rnd xs = (.nan, fNV)) ∧
     (¬ (inf true ∧ inf false) → .nan ∈ xs → fsum rnd xs = (.nan, 0)) ∧
     (.nan ∉ xs → ∀ n, inf n → ¬ inf (!n) → fsum rnd xs = (.inf n, 0)) ∧
     (xs ≠ [] → (∀ x ∈ xs, x.isNegZero = true) → (fsum rnd xs).1.isNegZero = true)) ∧
  (∀ (s : State) (v : View) (d a b : Fin 64) (la : Fin 16), VectorReady s v [(true, d), (false, a), (false, b)] [] →
     ∃ f : Nat → Nat × Nat × Flags,
       exec (.lbal d a b la) s = .next (s.retire v (v.team.setElems true d v.eff (fun l => some ((f l).1 + (f l).2.1 * 2 ^ 32)))
         ((v.ctx.advance (v.ctx.pc + 4) (some { op := 0, left := la, names := [.v d, .v (d + 1)] })).raise
           (flagsOr (v.lanes.map (fun l => (f l).2.2))))) ∧
       ∀ l,
         let item := (v.team.lane b l).toNat
         let before := fun r => ((v.lanes.filter (fun j => decide (j < r))).map (fun j => (v.team.lane a j).toNat)).sum
         let ends := fun r => before r + (v.team.lane a r).toNat
         (∀ r ∈ v.lanes, before r ≤ item → item < ends r →
           f l = if ends r < 2 ^ 32 then (r, item - before r, 0) else (0xFFFFFFFF, 0xFFFFFFFF, fSX)) ∧
         ((∀ r ∈ v.lanes, ends r ≤ item) → f l = (0xFFFFFFFF, 0, 0)))

/-- R25, R38: an instruction that writes a vector register in the lanes of E takes a fault, waits, or leaves every other lane,
register, mask and scalar, every other context and team, and every byte of memory and of every stash as they were; of the
context only PC, ISC, the windows and FPFL may change. -/
def Obligations.VectorInstructionsFrame : Prop :=
  ∀ (s u : State) (v : View) (i : Instr) (w : Bool) (d : Nat), s.view = some v → i.laneDest v.ty = some (w, d) →
    exec i s = .next u →
    (∃ f, u = park s v f 0 []) ∨ u = s ∨ VectorFrame s u v w d v.eff

/-! ### Memory: addresses, loads and stores (R84 to R100, R208, R230 to R236) -/

/-- R85, R86, R95, R97, R98, R99, R163, R230, R231: where runs of entries agree, the addresses of one aligned 4 KiB of a virtual space
lie in one page: they translate by one table entry, to one die, each to the byte of the frame that its low twelve bits name; in a run
that does not agree one of its entries translates (which one is free, log 8; an address whose own entry has V = 0 or CONT = 0 uses that
one, the model's choice). A non-canonical address resolves to no byte. What the tests of an access find. A misaligned address is
MISALIGNED before any other test; an own-stash address with a bit in [63:31], or that ends above the `.stash` bytes, is STASH_RANGE;
one inside names its byte of the team's own stash. A cluster-stash address names the member whose rank it holds. Before any access,
every lane of E is tested. A vector load or store with a misaligned lane faults with MISALIGNED at the address of the lowest such lane,
and makes no access. -/
def Obligations.AddressTests : Prop :=
  (∀ (s : State) (asid func : Nat) (n : Need) (va va' : Nat),
     (RunsAgree s → va / 4096 = va' / 4096 → translate s asid va' = translate s asid va ∧
       ∀ p, translate s asid va = some p →
         (p.place va').1 = (p.place va).1 ∧ (p.place va').2 + va % 4096 = (p.place va).2 + va' % 4096) ∧
     (∀ x : Word, (∃ i < 7, x.getLsbD (57 + i) ≠ x.getLsbD 56) → resolve s asid func n x = .error .pagePermission)) ∧
  (∀ (s : State) (va level die table : Nat),
     let ix := va / 2 ^ (12 + 9 * level) % 512
     let e := pte s die (table + 8 * ix)
     let n := runLen (pteCont e)
     bitAt e 0 = true → pteLeaf e = true → pteCont e ≠ 3 →
     ∃ k < n, walkFrom s va level die table = leafPage (pte s die (table + 8 * (ix - ix % n + k))) level n k va) ∧
  (∀ (s : State) (t : Team) (lane : Option Nat) (x : Word) (z : Fin 4) (w : Bool) (need : Need) (l : Launch),
     let n := 2 ^ z.val
     let a := x.toNat
     let fault := fun (c : FaultCode) (w : Bool) => (Except.error { code := c, lane := lane, addr := x, w := w } : Except Flt Place)
     s.launch? t.launch = some l →
     (a % n ≠ 0 → (∀ c, stashTest s t lane c x n n w = fault .misaligned w) ∧ globTest s t lane x n need = fault .misaligned need.w) ∧
     (a % n = 0 → (2 ^ 31 ≤ a ∨ t.stashLen < a + n) → stashTest s t lane false x n n w = fault .stashRange w) ∧
     (a % n = 0 → a < 2 ^ 31 → a + n ≤ t.stashLen → s.inWindow t.ref a n = false →
       stashTest s t lane false x n n w = .ok (.stash t.ref a)) ∧
     (a % n = 0 → (a < 2 ^ 31 ∨ 2 ^ 32 ≤ a ∨ l.lrec.cw * l.lrec.ch ≤ a / 2 ^ 27 % 16 ∨ t.stashLen < a % 2 ^ 27 + n) →
       stashTest s t lane true x n n w = fault .stashRange w) ∧
     (a % n = 0 → 2 ^ 31 ≤ a → a < 2 ^ 32 → a / 2 ^ 27 % 16 < l.lrec.cw * l.lrec.ch → a % 2 ^ 27 + n ≤ t.stashLen → s.maps = [] →
       ∀ m, s.teams.find? (fun m => m.launch == t.launch && m.cluster == t.cluster && clrank l.lrec m.t == a / 2 ^ 27 % 16) = some m →
         stashTest s t lane true x n n w = .ok (.stash m.ref (a % 2 ^ 27))) ∧
     (a % n = 0 → globTest s t lane x n need = match resolve s l.asid l.func need x with
       | .ok pa => .ok (.glob a pa)
       | .error c => fault c need.w)) ∧
  (∀ (s : State) (v : View) (d a b : Fin 64) (c e na : Bool) (z : Fin 4) (la : Fin 16) (l : Nat),
     let n := 2 ^ z.val
     let x := fun i => v.ctx.getS a + (v.team.lane b i).zeroExtend 64
     VectorReady s v [(decide (n = 8), d), (false, b)] [.s a] → l ∈ v.lanes → (x l).toNat % n ≠ 0 →
     (∀ i ∈ v.lanes, i < l → (x i).toNat % n = 0) →
     ∀ p ∈ ([(.lds d a b c e z la, false), (.sts d a b c z la, true), (.ldg d a b na e z la, false), (.stg d a b na z la, true)] :
         List (Instr × Bool)),
       exec p.1 s = .next (park s v { code := .misaligned, lane := some l, addr := x l, w := p.2 } 0 []))

/-- R38, R44, R45, R172, R208, R230, R233 to R236: a load whose every access passes its tests puts one LOAD operation in flight, whose
accesses are one for each lane of E (or one, or the sixteen units of a mask image), and opens a window over its destinations; nothing
is written yet. An access that lies in no window is one piece; one in a window that leaves a field or an aligned 8-byte unit of global
memory is as many pieces as it has bytes (R109). LDGS puts one FILL operation in flight for each lane. With an empty E a vector form
makes no access. A store whose every access passes its tests puts one STORE operation in flight, with the low bytes of its data
register for each access, lowest first; with an empty E a vector form makes no access. -/
def Obligations.LoadsAndStoresBegin : Prop :=
  (∀ (s : State) (v : View) (d a b : Fin 64) (k : Fin 16) (c e na : Bool) (sp z : Fin 4) (la : Fin 16) (place : Nat → Place)
       (pa : Nat → Nat),
     let n := 2 ^ z.val
     let w := decide (n = 8)
     let x := fun i => v.ctx.getS a + (v.team.lane b i).zeroExtend 64
     let y := v.ctx.getS a + v.ctx.getS b
     let dst : List RegName := if w then [.v d, .v (d + 1)] else [.v d]
     let opened := fun (names : List RegName) (op : Nat) =>
       v.ctx.advance (v.ctx.pc + 4) (some { op := op, left := la, names := names })
     let each := v.lanes.map (fun i => ({ lane := i, place := place i, n := n, val := none } : LoadLane))
     let places := v.lanes.map (fun i => (place i, n))
     (VectorReady s v [(w, d), (false, b)] [.s a] →
       (v.lanes ≠ [] → RoomFor s v .load places → (∀ i ∈ v.lanes, stashTest s v.team (some i) c (x i) n n false = .ok (place i)) →
         Begins s v (.lds d a b c e z la) .load (.load (.vec d w e) (each.flatMap (splitLoad s)) false) places (opened dst)) ∧
       (v.lanes ≠ [] → Room s v [.load] → v.team.regions = [] →
         (∀ i ∈ v.lanes, globTest s v.team (some i) (x i) n { r := true } = .ok (place i)) →
         Begins s v (.ldg d a b na e z la) .load (.load (.vec d w e) each na) places (opened dst)) ∧
       (v.lanes = [] → ∀ i ∈ ([.lds d a b c e z la, .ldg d a b na e z la] : List Instr),
         exec i s = .next (s.retire v v.team (opened dst 0)))) ∧
     (Ready s v [.k k, .s a, .s b] → v.kind = .team → ∀ r off, RoomFor s v .load [(.stash r off, 128)] →
       stashTest s v.team none false y 128 8 false = .ok (.stash r off) →
       Begins s v (.kld k a b la) .load
         (.load (.mask k) (((List.range 16).map (fun i =>
           ({ lane := i, place := .stash r (off + 8 * i), n := 8, val := none } : LoadLane))).flatMap (splitLoad s)) false)
         [(.stash r off, 128)] (opened [.k k])) ∧
     (Ready s v [.s d, .s a, .s b] → sp ≠ 3 → ∀ p, RoomFor s v .load [(p, n)] →
       (if sp = 0 then globTest s v.team none y n { r := true } else stashTest s v.team none (decide (sp = 2)) y n n false) = .ok p →
       Begins s v (.ldsc d a b sp z la) .load (.load (.sca d) (splitLoad s { lane := 0, place := p, n := n, val := none }) false) [(p, n)]
         (fun op => if d = 0 then v.ctx.step4 else opened [.s d] op)) ∧
     (VectorReady s v [(false, d), (false, b)] [.s a] →
       (∀ i ∈ v.lanes, let off := (v.team.lane d i).toNat
         (x i).toNat % n = 0 ∧ off % n = 0 ∧ off < 2 ^ 31 ∧ off + n ≤ v.team.stashLen ∧ s.inWindow v.team.ref off n = false ∧
         s.resolveFor v.team { r := true } (x i) = .ok (pa i)) →
       s.counter v.team.ref .fill + v.lanes.length ≤ 65535 →
       let copies := v.lanes.zipIdx.map (fun p =>
         ({ id := s.serial + p.2, own := v.ref, lv := v.team.lv, path := some .fill, done := false
            kind := .ldgs { lane := p.1, va := (x p.1).toNat, pa := pa p.1, off := (v.team.lane d p.1).toNat, n := n } } : Op))
       exec (.ldgs d a b z la) s =
         .next ({ s with ops := s.ops ++ copies, serial := s.serial + v.lanes.length }.retire v (v.team.closeRegions 4) v.ctx.step4))) ∧
  (∀ (s : State) (v : View) (d a b : Fin 64) (k : Fin 16) (c na : Bool) (sp z : Fin 4) (la : Fin 16) (place : Nat → Place),
     let n := 2 ^ z.val
     let w := decide (n = 8)
     let x := fun i => v.ctx.getS a + (v.team.lane b i).zeroExtend 64
     let y := v.ctx.getS a + v.ctx.getS b
     let low := fun (m value : Nat) => (List.range m).map (fun j => BitVec.ofNat 8 (value / 256 ^ j))
     let value := fun i => if w then (v.team.lane d i).toNat + 2 ^ 32 * (v.team.lane (d + 1) i).toNat else (v.team.lane d i).toNat
     let each := v.lanes.map (fun i => ({ lane := i, place := place i, bytes := low n (value i), stage := .issued } : StoreLane))
     let places := v.lanes.map (fun i => (place i, n))
     let on := fun _ : Nat => v.ctx.step4
     (VectorReady s v [(w, d), (false, b)] [.s a] →
       (v.lanes ≠ [] → RoomFor s v .store places → (∀ i ∈ v.lanes, stashTest s v.team (some i) c (x i) n n true = .ok (place i)) →
         Begins s v (.sts d a b c z la) .store (.store (each.flatMap (splitStore s)) false []) places on) ∧
       (v.lanes ≠ [] → Room s v [.store] → v.team.regions = [] →
         (∀ i ∈ v.lanes, globTest s v.team (some i) (x i) n { w := true } = .ok (place i)) →
         Begins s v (.stg d a b na z la) .store (.store each na []) places on) ∧
       (v.lanes = [] → ∀ i ∈ ([.sts d a b c z la, .stg d a b na z la] : List Instr),
         exec i s = .next (s.retire v v.team v.ctx.step4))) ∧
     (Ready s v [.k k, .s a, .s b] → v.kind = .team → ∀ r off, RoomFor s v .store [(.stash r off, 128)] →
       stashTest s v.team none false y 128 8 true = .ok (.stash r off) →
       Begins s v (.kst k a b la) .store
         (.store (((List.range 16).map (fun i =>
           ({ lane := i, place := .stash r (off + 8 * i), bytes := low 8 (v.team.k[k].toNat / 2 ^ (64 * i)), stage := .issued } :
             StoreLane))).flatMap (splitStore s)) false [])
         [(.stash r off, 128)] on) ∧
     (Ready s v [.s d, .s a, .s b] → sp ≠ 3 → ∀ p, RoomFor s v .store [(p, n)] →
       (if sp = 0 then globTest s v.team none y n { w := true } else stashTest s v.team none (decide (sp = 2)) y n n true) = .ok p →
       Begins s v (.stsc d a b sp z la) .store
         (.store (splitStore s { lane := 0, place := p, bytes := low n (v.ctx.getS d).toNat, stage := .issued }) false []) [(p, n)] on)) ∧
  (∀ (s : State) (x : LoadLane) (y : StoreLane),
     (Plain s x.place x.n → 0 < x.n → splitLoad s x = [x]) ∧ (Plain s y.place y.bytes.length → y.bytes ≠ [] → splitStore s y = [y]) ∧
     ∀ (r : TeamRef) (off : Nat) (m : MapEntry), s.windowOf r off = some m →
       let whole := fun n => (off - m.woff) / m.w = (off - m.woff + n - 1) / m.w ∧ (m.g (off - m.woff)).toNat % 8 + n ≤ 8
       (x.place = .stash r off → splitLoad s x =
         if whole x.n then [x]
         else (List.range x.n).map (fun i => { lane := x.lane + 65536 * i, place := .stash r (off + i), n := 1, val := none })) ∧
       (y.place = .stash r off → splitStore s y =
         if whole y.bytes.length then [y]
         else y.bytes.zipIdx.map (fun p =>
           { lane := y.lane + 65536 * p.2, place := .stash r (off + p.2), bytes := [p.1], stage := y.stage })))

/-- R38, R47, R103, R230, R233 to R236: a load or store (space 3, the engine window, apart) of a team without open regions takes a
fault, waits, or puts accesses in flight; it then leaves every register, every other context and team and the home of every
byte as they were. Every party reads every byte as before, but for the bytes that a store stores to, which its own core
already reads. -/
def Obligations.MemoryInstructionsFrame : Prop :=
  ∀ (s u : State) (v : View) (d a b : Fin 64) (k : Fin 16) (c e na : Bool) (sp z : Fin 4) (la : Fin 16), s.view = some v →
    v.team.regions = [] → sp ≠ 3 →
    ∀ i ∈ ([.lds d a b c e z la, .ldg d a b na e z la, .kld k a b la, .ldsc d a b sp z la, .ldgs d a b z la, .sts d a b c z la,
        .stg d a b na z la, .kst k a b la, .stsc d a b sp z la] : List Instr),
      exec i s = .next u →
      let stored := (View.laneStore s v i).flatMap (fun p => s.locs p.1 p.2)
      (∃ f, u = park s v f 0 []) ∨ u = s ∨
      (IssueFrame s u v ∧ (∀ w x, .g x ∉ stored → u.seenByte w x = s.seenByte w x) ∧
        (∀ w r off,
          (match s.windowOf r off with
           | none => Loc.s r off ∉ stored
           | some m => ∀ y pa, m.sec? ((off - m.woff) / 64) = some y → y.pas[(off - m.woff) % 64]? = some pa → Loc.g pa ∉ stored) →
          stashSeen u w r off = stashSeen s w r off))

/-! ### Engine windows, stash mapping, atomics, regions (R87, R102 to R108, R237 to R249, R256, R257, R296) -/

/-- R87, R256 to R258, R296: the engine windows. Register r of engine e stands at 256·e + 8·r; another address faults with
ENGINE_COMMAND and another size with ILLEGAL_ENCODING. An argument register reads and keeps what was stored last, and GO reads
the team's commands on the engine. A register of an engine that the function may not use faults with ACCESS_TABLE, GO too, whose own tests
come first. A GO whose word and arguments pass the tests of R258 captures the four arguments and MD as
a command, with the team's handle that an SWEEP names, raises ENGINE and ends the region, or holds the context while the team has
sixteen commands there; one that fails them faults. Argument bits that no fault is stated for are ignored (log 51). The record of a fault of an engine window has W = 0, the model's reading (log 34). -/
def Obligations.EngineWindowAccesses : Prop :=
  ∀ (s : State) (v : View) (d a b : Fin 64) (z : Fin 4) (la : Fin 16) (e : Fin 4) (r : Fin 4), Ready s v [.s d, .s a, .s b] →
    let x := v.ctx.getS a + v.ctx.getS b
    let g := (v.ctx.getS d).toNat
    let load : Instr := .ldsc d a b 3 z la
    let store : Instr := .stsc d a b 3 z la
    let mine := s.cmds.filter (fun c => c.own.ref == v.team.ref && c.engine == e.val)
    let got := fun value => s.retire v v.team
      ((v.ctx.setS d value).advance (v.ctx.pc + 4) (if d = 0 then none else some { op := 0, left := la, names := [.s d] }))
    (z ≠ 3 → ∀ i ∈ [load, store], exec i s = .next (park s v { code := .illegalEncoding } 0 [])) ∧
    (z = 3 → (1024 ≤ x.toNat ∨ 0x20 < x.toNat % 256 ∨ x.toNat % 8 ≠ 0) →
      exec load s = .next (park s v { code := .engineCommand, addr := x } 0 []) ∧
      exec store s = .next (park s v { code := .engineCommand, addr := x } 0 [])) ∧
    (z = 3 → x.toNat = 256 * e.val + 8 * r.val → s.engineAllowed v.team e = false →
      ∀ i ∈ [load, store], exec i s = .next (park s v { code := .accessTable, addr := x, engine := true } 0 [])) ∧
    (z = 3 → x.toNat = 256 * e.val + 8 * r.val → s.engineAllowed v.team e = true →
      exec load s = .next (got (v.team.args[e][r])) ∧
      exec store s = .next (s.retire v { v.team with args := v.team.args.set e ((v.team.args[e]).set r (v.ctx.getS d)) }
        { v.ctx.step4 with argPend := true })) ∧
    (z = 3 → x.toNat = 256 * e.val + 0x20 → s.engineAllowed v.team e = false →
      exec load s = .next (park s v { code := .accessTable, addr := x, engine := true } 0 []) ∧
      exec store s = .next (park s v
        (if goOk v.team e g v.team.args[e] v.ctx.md then { code := .accessTable, addr := x, engine := true }
         else { code := .engineCommand, addr := x }) 0 [])) ∧
    (z = 3 → x.toNat = 256 * e.val + 0x20 → s.engineAllowed v.team e = true →
      exec load s = .next (got (BitVec.ofNat 64 mine.length)) ∧
      (goOk v.team e g v.team.args[e] v.ctx.md = false →
        exec store s = .next (park s v { code := .engineCommand, addr := x } 0 [])) ∧
      (goOk v.team e g v.team.args[e] v.ctx.md = true → 16 ≤ mine.length →
        exec store s = .next (if v.kind = .team then s.putTeam { v.team with slot := .waiting (.goFull e) } else s)) ∧
      (goOk v.team e g v.team.args[e] v.ctx.md = true → mine.length < 16 → Room s v [.engine] →
        ∃ u v' cmd, exec store s = .next u ∧ u.view = some v' ∧ u.cmds = s.cmds ++ [cmd] ∧
          u.ops = s.ops ++ [{ id := s.serial, own := v.ref, lv := v.team.lv, path := some .engine, kind := .engine s.serial
                              done := false }] ∧
          cmd.id = s.serial ∧ cmd.own = v.ref ∧ cmd.engine = e.val ∧ cmd.args = v.team.args[e] ∧ cmd.md = v.ctx.md ∧
          cmd.code = g % 256 ∧ cmd.opf = g / 2 ^ 32 % 16 ∧ cmd.dsp = g.testBit 17 ∧ cmd.ssp = g.testBit 16 ∧
          cmd.rel = (if g.testBit 15 then some (scopeOf (g / 2 ^ 12 % 8)) else none) ∧
          cmd.acq = (if g.testBit 11 then some (scopeOf (g / 2 ^ 8 % 8)) else none) ∧ cmd.paused = false ∧
          v'.ctx.pc = v.ctx.pc + 4 ∧ v'.ctx.rgnpc = v.ctx.pc + 4 ∧ v'.ctx.rgncnt = v.ctx.isc + 1 ∧ v'.ctx.argPend = false ∧
          (e = 1 → cmd.handle =
            (v.team.handles.find? (fun p => decide (p.1 = (v.team.args[e][(0 : Fin 4)]).toNat))).map (·.2)) ∧
          v'.team.args = v.team.args ∧ v'.team.restartable = false ∧ u.mem = s.mem ∧
          v'.team.regions = v.team.regions.map (fun r => if r.code = 0 then { r with code := 4, reads := [], writes := [] } else r)))

/-- R102, R104, R107, R108, R237 to R239, R240, R241: STMAP completes in every legal case: it attaches the entry with the four
parameters, with no valid sector when the entry is free or its parameters change, and with the sectors it has when a detached entry of
the same parameters is attached again; the team's entries that the window overlaps are unmapped, and a core whose entries are all in
use gives up the oldest detached one; it waits for accesses to these windows and for one made in part where its own is to stand (R242). STMAP of an attached entry with its own parameters has no effect; parameters outside their limits,
an entry of another live team and a fifth entry fault with STASH_RANGE. STUNMAP writes an entry back and frees it, STFLUSH writes it
back and leaves its sectors valid and clean, STINV discards its bytes, in every copy of them, owns its sectors no longer, and frees it when
detached; on a free
entry they have no effect; a write-back without translation or permission faults. Each dirty byte that is written back becomes the
launch's tentative byte at its home. PREF starts a fill of each invalid window sector of the team in its byte range and does not wait,
drops one that has no translation or permission, and faults with STASH_RANGE when the range ends above the `.stash` bytes and with
ACCESS_TABLE when an access table denies a fill. What the freed bytes hold, and which detached entry is the
oldest, is the model's choice (logs 14, 50), and so is one STORE entry for each window written back (log 41). STQRY reads the state of an entry, with its valid and its dirty sectors. -/
def Obligations.WindowMappings : Prop :=
  (∀ (s : State) (v : View) (a n : Fin 64), Ready s v ((List.range 4).map (fun i => .s (a.val + i))) → v.kind = .team → a.val ≤ 60 →
     let m := fun i => (v.ctx.getSN (a.val + i)).toNat
     let woff := m 0 % 2 ^ 32
     let len := m 0 / 2 ^ 32
     let w := m 3 / 2 ^ 32
     let legal := len % 256 = 0 ∧ 256 ≤ len ∧ woff % 256 = 0 ∧ woff + len ≤ v.team.stashLen ∧ m 2 < 2 ^ 40 ∧ m 3 < 2 ^ 41 ∧
       1 ≤ w ∧ w ≤ 256 ∧ w ≤ m 2
     let r := v.team.ref
     let named := fun u : State => u.map? r.die r.core v.team.lv n
     let stay := Host.Outcome.next (s.retire v v.team v.ctx.step4)
     let fault := Host.Outcome.next (park s v { code := .stashRange } 0 [])
     let fresh : MapEntry :=
       { die := r.die, core := r.core, n := n, lv := v.team.lv, owner := some r, home := some r, age := s.serial
         m0 := v.ctx.getSN a.val, m1 := v.ctx.getSN (a.val + 1), m2 := v.ctx.getSN (a.val + 2), m3 := v.ctx.getSN (a.val + 3)
         secs := [] }
     let mine := s.maps.filter (fun x => x.owner == some r && x.n != n.val)
     (¬ legal → exec (.stmap a n) s = fault) ∧
     (∀ x, named s = some x → x.owner ≠ none → x.owner ≠ some r →
       ∀ i ∈ ([.stmap a n, .stunmap n, .stflush n, .stinv n] : List Instr), exec i s = fault) ∧
     let same := fun x : MapEntry => x.m0 = fresh.m0 ∧ x.m1 = fresh.m1 ∧ x.m2 = fresh.m2 ∧ x.m3 = fresh.m3
     let mayMap := legal ∧ ∀ x, named s = some x → x.owner = none ∨ (x.owner = some r ∧ ¬ same x)
     let apart := fun x : MapEntry => decide (x.woff + x.len ≤ woff ∨ woff + len ≤ x.woff)
     let hit := mine.filter (fun x => !apart x)
     let remapped := (named s).toList.filter (fun x => decide (¬ same x))
     let dirty := (hit ++ remapped).countP (fun x => x.secs.any (fun y => decide (y.dirty ≠ 0)))
     let waits := (hit ++ (named s).toList ++ (reclaimed s r.die r.core hit (named s)).toList).any (mapBusy s v.ref) ||
       stashBusy s v.ref woff (woff + len) || halfMade s fresh
     (mayMap → 4 ≤ (mine.filter apart).length → exec (.stmap a n) s = fault) ∧
     (mayMap → (mine.filter apart).length < 4 → ∀ f, backFlt s (hit ++ remapped) = some f → exec (.stmap a n) s = .next (park s v f 0 [])) ∧
     (mayMap → (mine.filter apart).length < 4 → backFlt s (hit ++ remapped) = none →
       s.counter v.team.ref .store + dirty ≤ 65535 →
       (waits = true → exec (.stmap a n) s = .next s) ∧
       (waits = false → ∃ u v' y, exec (.stmap a n) s = .next u ∧ u.view = some v' ∧ v'.ctx = v.ctx.step4 ∧ named u = some y ∧
         y.owner = some r ∧ y.home = some r ∧ same y ∧ y.secs = (((named s).filter (fun x => decide (same x))).map (·.secs)).getD [] ∧
         (∀ h ∈ hit, u.map? h.die h.core h.lv h.n = none) ∧
         (hit = [] → ∀ h, reclaimed s r.die r.core [] (named s) = some h → u.map? h.die h.core h.lv h.n = none))) ∧
     (named s = none → hit = [] →
       reclaimed s r.die r.core [] none =
         if (s.maps.filter (fun x => decide (x.die = r.die) && decide (x.core = r.core))).length < 64 then none
         else oldestDetached s r.die r.core) ∧
     (legal → named s = none → mine.length < 4 → (∀ x ∈ mine, x.woff + x.len ≤ woff ∨ woff + len ≤ x.woff) →
       (s.maps.filter (fun x => decide (x.die = r.die) && decide (x.core = r.core))).length < 64 →
       stashBusy s v.ref woff (woff + len) = false → halfMade s fresh = false →
       exec (.stmap a n) s = .next ({ s with maps := s.maps ++ [fresh], serial := s.serial + 1 }.retire v v.team v.ctx.step4)) ∧
     (legal → (∃ x, named s = some x ∧ x.owner = some r ∧ x.m0 = fresh.m0 ∧ x.m1 = fresh.m1 ∧ x.m2 = fresh.m2 ∧ x.m3 = fresh.m3) →
       exec (.stmap a n) s = stay) ∧
     (named s = none → ∀ i ∈ ([.stunmap n, .stflush n, .stinv n] : List Instr), exec i s = stay) ∧
     (∀ x, named s = some x → x.owner = none ∨ x.owner = some r →
       let done := fun t : State => Host.Outcome.next (t.retire v ((t.team? r).getD v.team) v.ctx.step4)
       (∀ f, backFlt s [x] = some f → ∀ i ∈ ([.stunmap n, .stflush n] : List Instr), exec i s = .next (park s v f 0 [])) ∧
       (mapBusy s v.ref x = true → backFlt s [x] = none →
         ∀ i ∈ ([.stunmap n, .stflush n, .stinv n] : List Instr), exec i s = .next s) ∧
       (mapBusy s v.ref x = false → Room s v [.store] → backFlt s [x] = none →
         exec (.stunmap n) s = done (freeMap (writeBackCounted s v x) x) ∧
         exec (.stflush n) s = done (releaseHomes ((writeBackCounted s v x).putMap { x with secs := x.secs.map WinSector.cleaned }) x) ∧
         (∃ u v', exec (.stunmap n) s = .next u ∧ u.view = some v' ∧ v'.ctx = v.ctx.step4 ∧ named u = none) ∧
         (∃ u v' y, exec (.stflush n) s = .next u ∧ u.view = some v' ∧ v'.ctx = v.ctx.step4 ∧ named u = some y ∧
           y.secs.map (·.ix) = x.secs.map (·.ix) ∧ y.secs.map (·.bytes) = x.secs.map (·.bytes) ∧ ∀ c ∈ y.secs, c.dirty = 0)) ∧
       (mapBusy s v.ref x = false →
         ∃ u v', exec (.stinv n) s = .next u ∧ u.view = some v' ∧ v'.ctx = v.ctx.step4 ∧
           (named u).map (·.secs) = (if x.owner = none then none else some []) ∧
           (∀ c ∈ x.secs, ∀ i pa, c.pas[i]? = some pa → c.dirty.getLsbD i = true →
             (∀ k ∈ u.copies, k.sector ≠ pa / 64) ∧ ∀ m ∈ u.maps, ∀ k ∈ m.secs, ∀ q ∈ k.pas, q / 64 ≠ pa / 64) ∧
           ((∀ m ∈ s.maps, m.same x = true) → u.sectors = s.sectors ∧ ∀ c ∈ x.secs, c.owns = true → ∀ pa ∈ c.pas,
             u.proxyState x.die (pa / 64) ≠ .M ∧ u.proxyState x.die (pa / 64) ≠ .O)))) ∧
  (∀ (s : State) (m : MapEntry) (x : WinSector) (l : Launch), s.holder m.lv = some l → s.launch? l.sid = some l →
     backFault s m x = none → x.pas.Nodup → (∀ g ∈ s.tablesFor l (m.dirtyVas x), s.lostHome g = none) →
     (∀ o ∈ s.ops, ∀ sub ty rnd seed lanes, o.kind ≠ .red sub ty rnd seed lanes) →
     (∀ pa ∈ x.pas, s.lostHome (pa / 64) = none ∧ (s.sectorRec (pa / 64)).tbytes.wf = true ∧ ∀ e ∈ s.exact, e.sector ≠ pa / 64) →
     ∀ i pa, x.pas[i]? = some pa → x.dirty.getLsbD i = true →
       ((s.writeBack m x).sectorRec (pa / 64)).tent = true ∧
       ((s.writeBack m x).sectorRec (pa / 64)).tbytes.get pa = x.bytes.getD i 0) ∧
  (∀ (s : State) (v : View) (d a b n : Fin 64), Ready s v [.s d, .s a, .s b] → v.kind = .team →
     let lo := (v.ctx.getS a).toNat
     let hi := lo + (v.ctx.getS b).toNat
     let entry := s.map? v.team.ref.die v.team.ref.core v.team.lv n
     (v.team.stashLen < hi → exec (.pref a b) s = .next (park s v { code := .stashRange, addr := v.ctx.getS a } 0 [])) ∧
     let secs := prefSectors s v.team lo (hi - lo)
     (hi ≤ v.team.stashLen → ∀ c va, prefDenied s v.team lo (hi - lo) = some (c, va) →
       c = .accessTable ∧ exec (.pref a b) s = .next (park s v { code := .accessTable, addr := va } 0 [])) ∧
     (prefDenied s v.team lo (hi - lo) = none ↔
       ∀ q ∈ prefTouched s v.team lo (hi - lo), ∀ va, fillFault s q ≠ some (.accessTable, va)) ∧
     (hi ≤ v.team.stashLen → prefDenied s v.team lo (hi - lo) = none → s.counter v.team.ref .fill + secs.length ≤ 65535 →
       exec (.pref a b) s = .next ((secs.foldl (fun s p => s.startSector v.ref p.1 p.2 false) s).retire v v.team v.ctx.step4)) ∧
     (∀ m ix, (m, ix) ∈ secs ↔ m ∈ s.maps ∧ m.owner = some v.team.ref ∧ ix < m.len / 64 ∧ lo ≠ hi ∧
       m.woff + 64 * ix < hi ∧ lo < m.woff + 64 * ix + 64 ∧ m.sec? ix = none ∧ ∃ pas, windowPas s m ix { r := true } = .ok pas) ∧
     (∀ m ix pas, windowPas s m ix { r := true } = .ok pas → m.sec? ix = none →
       s.startSector v.ref m ix false =
         if s.filling m ix then s else s.addOp v.ref m.lv (some .fill) (.fill m.die m.core m.n ix pas)) ∧
     (hi ≤ v.team.stashLen → prefDenied s v.team lo (hi - lo) = none → s.counter v.team.ref .fill + secs.length ≤ 65535 → ∃ pre, WindowOps s v pre ∧ (∀ o ∈ pre, o.path = some .fill) ∧
       (lo = hi ∨ (∀ m ∈ s.maps, m.owner ≠ some v.team.ref) → pre = []) ∧
       exec (.pref a b) s =
         .next ({ s with ops := s.ops ++ pre, serial := s.serial + pre.length }.retire v v.team v.ctx.step4)) ∧
     ∀ x : Nat,
       (entry = none → x = 0) →
       (∀ m, entry = some m → x = m.secs.length * 2 ^ 32 + (m.secs.filter (fun y => decide (y.dirty ≠ 0))).length * 2 ^ 16 +
         (if m.owner = none then 3 else if m.owner = some v.team.ref then 1 else 2)) →
       exec (.stqry d n) s = .next (s.retire v v.team (v.ctx.setS d (BitVec.ofNat 64 x)).step4))

/-- R44, R93, R172, R230, R243, R244, R246, R296: an ATOM whose lanes pass their tests puts one ATOM operation in flight, with
each lane's operands, and opens a window over its destinations (with the tag's for EXCHQ); operand b is read by CAS, INCW and ADDB
alone, so that no other operation minds whether it is pending, but its register beyond NV is ILLEGAL_REGISTER in all; a RED puts one RED operation in
flight. Both end the region, also with an empty E, which makes no access. A TYPE that they do not take faults with
ILLEGAL_MODE. The value that each operation leaves in memory, on w bits. -/
def Obligations.AtomicInstructions : Prop :=
  (∀ (s : State) (v : View) (d a b : Fin 64) (la : Fin 16) (pa : Nat → Nat),
     let w := v.wide
     let ty := v.ty
     let d2 := if w then d.val + 2 else d.val + 1
     let x := fun i => v.ctx.getS a + (v.team.lane b i).zeroExtend 64
     let atoms : List (Instr × Nat) := [(.atomAdd d a b la, 0), (.atomMin d a b la, 1), (.atomMax d a b la, 2), (.atomMinn d a b la, 3),
       (.atomMaxn d a b la, 4), (.atomAnd d a b la, 5), (.atomOr d a b la, 6), (.atomXor d a b la, 7), (.atomExch d a b la, 8),
       (.atomCas d a b la, 9), (.atomIncw d a b la, 10), (.atomAddb d a b la, 11), (.atomExchq d a b la, 12)]
     let reds : List (Instr × Nat) := [(.redAdd d a b la, 0), (.redMin d a b la, 1), (.redMax d a b la, 2), (.redMinn d a b la, 3),
       (.redMaxn d a b la, 4), (.redAnd d a b la, 5), (.redOr d a b la, 6), (.redXor d a b la, 7), (.redFadd d a b la, 8),
       (.redFmin d a b la, 9), (.redFmax d a b la, 10)]
     let redType := fun sub => if sub ≤ 7 then 4 ≤ ty ∧ ty ≤ 7 else 8 ≤ ty ∧ ty ≤ 10 ∧ (sub = 8 → rndOk v.ctx.md = true)
     (s.view = some v → v.kind = .team → (v.team.vOk w d && v.team.vOk w d2 && v.team.vOk false b) = false →
       ∀ p ∈ atoms, exec p.1 s = .next (park s v { code := .illegalRegister } 0 [])) ∧
     (s.view = some v → v.kind = .team → v.team.vOk w d = true → v.team.vOk w d2 = true → v.team.vOk false b = true →
       (ty < 4 ∨ 7 < ty → ∀ p ∈ atoms, exec p.1 s = .next (park s v { code := .illegalMode } 0 [])) ∧
       (4 ≤ ty → ty ≤ 7 → (∀ i ∈ v.lanes, globTest s v.team (some i) (x i) (if w then 8 else 4) { r := true, w := true } =
           .ok (.glob (x i).toNat (pa i))) → ∀ p ∈ atoms,
         let names := (if w then [.v d, .v (d + 1)] else [.v d]) ++
           (if p.2 = 12 then (if w then [.v d2, .v (d2 + 1)] else [RegName.v d2]) else [])
         let read := if p.2 ∈ [9, 10, 11] then (if w then [.v d2, .v (d2 + 1)] else [RegName.v d2]) else []
         LaneReady s v (names ++ read ++ [.s a, .v b]) →
         let next := fun op => v.ctx.advance (v.ctx.pc + 4) (some { op := op, left := la, names := names })
         let each := v.lanes.map (fun i => ({ lane := i, va := (x i).toNat, pa := pa i, a := BitVec.ofNat 64 (v.team.elem w d i)
                                              b := BitVec.ofNat 64 (v.team.elem w d2 i), res := none } : AtomLane))
         (v.lanes = [] → exec p.1 s = .next (s.retireEnding v v.team (next 0))) ∧
         (v.lanes ≠ [] → Room s v [.atom] →
           exec p.1 s = .next ((s.began v [] .atom (.atom p.2 w d each)).retireEnding v v.team (next s.serial))))) ∧
     (VectorReady s v [(w, d.val), (false, b)] [.s a] → ∀ p ∈ reds,
       (¬ redType p.2 → exec p.1 s = .next (park s v { code := .illegalMode } 0 [])) ∧
       (redType p.2 → (∀ i ∈ v.lanes, globTest s v.team (some i) (x i) (typeBits ty / 8) { w := true } =
           .ok (.glob (x i).toNat (pa i))) →
         let each := v.lanes.map (fun i =>
           ({ lane := i, va := (x i).toNat, pa := pa i, bits := BitVec.ofNat 64 (v.team.elem w d i) } : RedLane))
         (v.lanes = [] → exec p.1 s = .next (s.retireEnding v v.team v.ctx.step4)) ∧
         (v.lanes ≠ [] → Room s v [.red] → exec p.1 s = .next
           ((s.began v [] .red (.red p.2 ty (mdRnd v.ctx.md) (seedOf s v.team) each)).retireEnding v v.team v.ctx.step4))))) ∧
  (∀ (x : Bool) (old a b : Nat),
     let w := if x then 64 else 32
     let signed := fun n : Nat => (BitVec.ofNat w n).toInt
     old < 2 ^ w → a < 2 ^ w → b < 2 ^ w →
     let low := fun (le : Prop) [Decidable le] => if le then old else a
     let high := fun (le : Prop) [Decidable le] => if le then a else old
     (∀ p ∈ ([(0, (old + a) % 2 ^ w), (1, low (signed old ≤ signed a)), (2, high (signed old ≤ signed a)), (3, low (old ≤ a)),
         (4, high (old ≤ a)), (5, old &&& a), (6, old ||| a), (7, old ^^^ a), (8, a), (9, if old = a then b else old),
         (10, if b = 0 then (old + a) % 2 ^ w else (old + a) % b), (11, if b ≤ old then old else min (old + a) b), (12, a)] :
           List (Nat × Nat)), atomValue p.1 w old a b = p.2) ∧
     (∀ p ∈ ([(0, (old + a) % 2 ^ w), (1, low (signed old ≤ signed a)), (2, high (signed old ≤ signed a)), (3, low (old ≤ a)),
         (4, high (old ≤ a)), (5, old &&& a), (6, old ||| a), (7, old ^^^ a)] : List (Nat × Nat)),
       redValue p.1 (if x then 6 else 4) old a = p.2))

/-- R247 to R249, R295, R296, R307: XBEGIN opens a fresh region for each lane of E and closes every other open one with code 4; a
store in an open region is held there and touches no memory; a load there reads at once, returns the lane's own held bytes before
those of memory, and records the others; both need R and W. The first access of a region fixes its line, and an access to another line
closes it with code 1 and is not made; XABORT closes the regions of E with code 2; an XEND that has no
decision to await reports each lane of E (0 for an open region without an access, 5 where there is none), sets kD to the lanes
that committed and ends their regions; one that has a decision to await holds the team. Every instruction of R296 ends its
context's region and every atomic region. -/
def Obligations.RegionInstructions : Prop :=
  ∀ (s : State) (v : View) (d : Fin 16) (a b x : Fin 64) (z : Fin 4) (na : Bool) (la : Fin 16) (pa : Nat → Nat),
    LaneReady s v [.k d, .v a] →
    let isOpen := fun (t : Team) l => (t.region? l).any (fun r => r.code == 0)
    let code := fun l => match v.team.region? l with | none => 5 | some r => r.code
    (∃ u v', exec .xbegin s = .next u ∧ u.view = some v' ∧ v'.ctx = v.ctx.step4 ∧ v'.team.restartable = v.team.restartable ∧
      ∀ l, (l ∈ v.lanes → v'.team.region? l = some { lane := l, line := none, code := 0, reads := [], writes := [] }) ∧
        (l ∉ v.lanes → isOpen v'.team l = false) ∧
        (l < v.team.nl → l ∉ v.lanes → v'.team.region? l = (v.team.region? l).map
          (fun r => if r.code = 0 then { r with code := 4, reads := [], writes := [] } else r))) ∧
    (∃ u v', exec .xabort s = .next u ∧ u.view = some v' ∧ v'.ctx = v.ctx.step4 ∧ v'.team.restartable = v.team.restartable ∧
      ∀ l < 1024, (inMask v.eff l = true → isOpen v'.team l = false ∧
          (isOpen v.team l = true → (v'.team.region? l).map (·.code) = some 2)) ∧
        (inMask v.eff l = false → v'.team.region? l = v.team.region? l)) ∧
    (v.team.vOk false a = true → (∀ l ∈ v.lanes, ∀ r, v.team.region? l = some r → r.code ≠ 0 ∨ r.line = none) →
      ∃ u v', exec (.xend d a) s = .next u ∧ u.view = some v' ∧ v'.ctx = v.ctx.step4.endRegion ∧ v'.team.restartable = false ∧
        (∀ l ∈ v.lanes, v'.team.region? l = none ∧
          ((v.team.v.getD a []).length = v.team.nl → a.val < v.team.v.length → v'.team.lane a l = BitVec.ofNat 32 (code l)) ∧
          inMask v'.team.k[d] l = (decide (code l = 0) && (decide (d ≠ 0) || inMask v.team.live l))) ∧
        (∀ l < v.team.nl, l ∉ v.lanes → v'.team.region? l = v.team.region? l ∧ v'.team.lane a l = v.team.lane a l)) ∧
    (v.team.vOk false a = true → (∃ l ∈ v.lanes, ∃ r, v.team.region? l = some r ∧ r.code = 0 ∧ r.line ≠ none) → Room s v [.atom] →
      ∃ u v', exec (.xend d a) s = .next u ∧ u.view = some v' ∧ v'.ctx.hold = some (.xend s.serial) ∧ v'.ctx.pc = v.ctx.pc + 4 ∧
        v'.team.v = v.team.v ∧ v'.team.k = v.team.k ∧ ∃ o, u.ops = s.ops ++ [o] ∧ o.id = s.serial ∧ o.path = some .atom) ∧
    (let n := 2 ^ z.val
     let w := decide (n = 8)
     let at_ := fun i => v.ctx.getS a + (v.team.lane b i).zeroExtend 64
     let place := fun i => Place.glob (at_ i).toNat (pa i)
     let sameLine := fun (r : LaneRegion) i => r.line = none ∨ r.line = some (pa i / 256)
     let left := fun (r : LaneRegion) => ({ r with code := 1, reads := [], writes := [] } : LaneRegion)
     let fixed := fun (r : LaneRegion) i =>
       (if r.line = none then { r with line := some (pa i / 256), va := (at_ i).toNat } else r : LaneRegion)
     VectorReady s v [(w, x), (false, b)] [.s a] →
     (∀ i ∈ v.lanes, globTest s v.team (some i) (at_ i) n { r := true, w := true } = .ok (place i) ∧ isOpen v.team i = true) →
     (Room s v [.store] →
       ∃ u v', exec (.stg x a b na z la) s = .next u ∧ u.view = some v' ∧ v'.ctx = v.ctx.step4 ∧ u.ops = s.ops ∧ SameBytes s u ∧
         ∀ i ∈ v.lanes, ∀ r, v.team.region? i = some r →
           (sameLine r i → ∃ r', v'.team.region? i = some r' ∧ r' = { fixed r i with writes := r'.writes } ∧
             (∀ j < n, r'.heldByte (pa i + j) = some (BitVec.ofNat 8 (v.team.elem w x i / 256 ^ j))) ∧
             ∀ q, (q < pa i ∨ pa i + n ≤ q) → r'.heldByte q = r.heldByte q) ∧
           (¬ sameLine r i → v'.team.region? i = some (left r))) ∧
     (∀ i r l s1, v.lanes = [i] → Room s v [.load] → v.team.region? i = some r → s.launch? v.team.launch = some l →
       s.held v.ref s.serial (s.locs (place i) n) = false → s.readSector (s.whoOf v.team) l (pa i / 64) = .ok s1 →
       let opened := fun op => v.ctx.advance (v.ctx.pc + 4) (some { op := op, left := la, names := if w then [.v x, .v (x + 1)] else [.v x] })
       let seen := s1.observeAt (s.whoOf v.team) v.ref s1.serial (s1.locs (place i) n)
       let byte := fun j => (r.heldByte (pa i + j)).getD (seen.seenByte (s.whoOf v.team) (pa i + j))
       (sameLine r i → ∃ u v' lane, exec (.ldg x a b na true z la) s = .next u ∧ u.view = some v' ∧ v'.ctx = opened seen.serial ∧
         u.ops = seen.ops ++ [{ id := seen.serial, own := v.ref, lv := v.team.lv, path := some .load, done := false
                                kind := .load (.vec x w true) [lane] na }] ∧
         lane.lane = i ∧ lane.place = place i ∧ lane.n = n ∧
         lane.held = (List.range n).filter (fun j => (r.heldByte (pa i + j)).isSome) ∧
         (∃ value, lane.val = some value ∧ ∀ j < n, BitVec.ofNat 8 (value / 256 ^ j) = byte j) ∧
         v'.team.region? i = some { fixed r i with
           reads := r.reads ++ (((List.range n).filter (fun j => (r.heldByte (pa i + j)).isNone)).map (fun j => (pa i + j, byte j))) }) ∧
       (¬ sameLine r i → ∃ u v', exec (.ldg x a b na true z la) s = .next u ∧ u.view = some v' ∧ v'.ctx = opened 0 ∧
         u.ops = s.ops ∧ v'.team.region? i = some (left r)))) ∧
    (∀ t c, t.ref = v.team.ref → ∃ v', (s.retireEnding v t c).view = some v' ∧
      v'.ctx = { c with rgnpc := c.pc, rgncnt := c.isc, impl := true, tag := 0 } ∧ v'.team.restartable = false ∧
      v'.team.regions = t.regions.map (fun r => if r.code = 0 then { r with code := 4, reads := [], writes := [] } else r))

/-! ### Fences and barriers (R116 to R125, R250 to R255) -/

/-- R119, R120, R249 to R251: a fence closes the team's open atomic regions, ends no region of its context and holds it;
FENCE_COMPLETE releases it once the team's earlier LOAD, FILL and ATOM entries are done and, for a release, its RED entries
too, its stores performed for the scope and the writes its context has observed before it as well; while one of those entries or writes is
outstanding it stays held, and no write that the context has not observed holds it. A fence that acquires does so first: the context has then
observed what its core and die show (R121; also what no release orders: DESIGN CHOICE, log 1), which the release of FENCE.FULL waits for
too. WAITC completes when the counter is at most sA, and else makes the team WAITING. -/
def Obligations.FencesAndCounterWaits : Prop :=
  ∀ (s : State) (v : View) (a : Fin 64) (c p : Fin 6), s.view = some v →
    let scope := ([.team, .core, .cluster, .die, .device, .system] : List Scope).getD c .team
    let path := ([.load, .store, .fill, .engine, .atom, .red] : List Path).getD p .load
    let fences : List (Instr × Bool × Bool) := [(.fenceAcq c, true, false), (.fenceRel c, false, true), (.fenceFull c, true, true)]
    (∀ q ∈ fences, exec q.1 s = .next (s.retire v (v.team.closeRegions 4)
      { v.ctx.step4 with hold := some (.fence q.2.1 q.2.2 scope s.serial) })) ∧
    (∀ (acq rel : Bool) (upto : Nat) (kind : Fin 3), v.kind = ([.team, .matrix, .access] : List CtxKind).getD kind .team →
      v.ctx.hold = some (.fence acq rel scope upto) → (acq = true ∨ rel = true) →
      let mine := fun o : Op => o.done = false ∧ o.id < upto ∧ o.own.ref = v.team.ref
      let reads := fun o : Op => mine o ∧ (o.path = some .load ∨ o.path = some .fill ∨ o.path = some .atom)
      let s1 := if acq then s.observeAll (s.whoOf v.team) v.ref upto else s
      let waitsFor := fun o : Op => rel = true ∧
        (reads o ∨ (mine o ∧ (o.path = some .red ∨ (o.path = some .store ∧ o.performedFor scope = false))))
      let observed := ∀ o ∈ s1.ops, o.done = false → ∀ lanes na g, o.kind = .store lanes na g →
        ∀ l ∈ lanes, l.observedBy v.ref upto = true → l.stage.performedFor scope l.place = true
      let r := v.team.ref
      (acq = true → (∃ o ∈ s.ops, reads o) → exec (.fenceComplete r.die r.core r.slot kind) s = .next s) ∧
      ((acq = true → ∀ o ∈ s.ops, ¬ reads o) →
        ((∀ o ∈ s1.ops, ¬ waitsFor o) → (rel = true → observed) →
          exec (.fenceComplete r.die r.core r.slot kind) s =
            .next (s1.putTeam { v.team.setCtx v.kind { v.ctx with hold := none } with progress := s.time })) ∧
        ((∃ o ∈ s1.ops, waitsFor o) ∨ (rel = true ∧ ¬ observed) →
          exec (.fenceComplete r.die r.core r.slot kind) s =
            .next (s1.putTeam (v.team.setCtx v.kind { v.ctx with hold := some (.fence false rel scope upto) }))))) ∧
    (Ready s v [.s a] → v.kind = .team →
      let n := (s.ops.filter (fun o => decide (o.own.ref = v.team.ref) && decide (o.path = some path))).length
      exec (.waitc a p) s = .next (
        if n ≤ (v.ctx.getS a).toNat then s.retire v v.team v.ctx.step4
        else s.putTeam { v.team with slot := .waiting (.waitc path (v.ctx.getS a).toNat) }))

/-- R42, R123, R124, R125, R252 to R254, R255: barrier objects in the own stash. BINIT writes PHASE 0 and both counts; a bad
value, and an address in a window, fault with BARRIER_MISUSE. BARV and BARC leave an arrival behind, end the region and go on;
BARRIER_ARRIVAL applies it once the context's earlier accesses are performed at CLUSTER scope and the named path has drained:
the last pending arrival of a phase restores PENDING and inverts PHASE; one at an object of a former allocation ends no phase that a
team waits on (who may wait there: log 10). BWAIT acquires at CLUSTER scope when the phase
differs, and else waits. CBARA opens the team's part of the cluster barrier, ends the region and goes on; CLUSTER_ARRIVAL
makes the arrival once the team's earlier accesses and observed writes are performed at CLUSTER scope. That BINIT is written at issue
(log 38), and the ADDR and order of BARRIER_MISUSE (log 34), are the model's readings (DEDUCED). CBARW passes when every
live member, a saved one as well, has arrived in the same phase or has ended, and the team has then observed what its core and die
show; else it waits. CBARA in an open part and CBARW in a closed one fault with
BARRIER_MISUSE. -/
def Obligations.Barriers : Prop :=
  (∀ (s : State) (v : View) (a b : Fin 64) (p : Fin 6), Ready s v [.s a, .s b] →
     let x := (v.ctx.getS a).toNat
     let n := (v.ctx.getS b).toNat
     let r := v.team.ref
     let path := ([.load, .store, .fill, .engine, .atom, .red] : List Path).getD p .load
     let word := objectWord s r x
     (n = 0 ∨ 65535 < n → exec (.binit a b) s = .next (park s v { code := .barrierMisuse } 0 [])) ∧
     (1 < n → exec (.bwait a b) s = .next (park s v { code := .barrierMisuse } 0 [])) ∧
     (0 < n → n ≤ 65535 → x < 2 ^ 31 → x < v.team.stashLen → s.inWindow r x 1 = true →
       exec (.binit a b) s = .next (park s v { code := .barrierMisuse, addr := v.ctx.getS a, w := true } 0 [])) ∧
     (x % 8 = 0 → x < 2 ^ 31 → x + 8 ≤ v.team.stashLen → s.inWindow r x 1 = false →
       s.held v.ref s.serial ((List.range 8).map (fun i => .s r (x + i))) = false →
       (0 < n → n ≤ 65535 → ∃ u v', exec (.binit a b) s = .next u ∧ u.view = some v' ∧ v'.ctx = v.ctx.step4 ∧
         v'.team.stash = v.team.stash.setN x (bytesOfNat 8 (n * 2 ^ 16 + n)) ∧
         ({ v'.team with stash := v.team.stash }).setCtx v.kind v.ctx = { v.team with progress := s.time } ∧
         u.mem = s.mem ∧ u.ops = s.ops ∧ ∀ y, y ≠ r → u.team? y = s.team? y) ∧
       (∀ q ∈ ((.barv a, none) :: (if v.kind = .team then [(.barc a p, some path)] else []) : List (Instr × Option Path)),
         let issued : State := { s with
           arrivals := s.arrivals ++ [{ id := s.serial, by_ := v.ref, owner := r, off := x, path := q.2, upto := s.serial }]
           serial := s.serial + 1 }
         exec q.1 s = .next (issued.retireEnding v v.team v.ctx.step4)) ∧
       (n ≤ 1 → word / 2 ^ 32 % 2 ≠ n →
         exec (.bwait a b) s =
           .next (s.retire v v.team { v.ctx.step4 with hold := some (.fence true false .cluster s.serial) })) ∧
       (n ≤ 1 → word / 2 ^ 32 % 2 = n →
         exec (.bwait a b) s =
           .next (if v.kind = .team then s.putTeam { v.team with slot := .waiting (.bwait r x (decide (n = 1))) } else s))) ∧
     (∀ y t, s.arrivals.find? (fun z => z.id == y.id) = some y → s.team? y.by_.ref = some t →
       releaseReady s y.by_ .cluster y.upto = true →
       (∀ o ∈ s.ops, o.own.ref = t.ref → y.path ≠ none → o.path = y.path → y.upto ≤ o.id) →
       let old := objectWord s y.owner y.off
       let expected := old / 2 ^ 16 % 2 ^ 16
       let new := arriveWord old
       let endsAWait := s.team? y.owner = none ∧ new / 2 ^ 32 % 2 ≠ old / 2 ^ 32 % 2 ∧ ∃ f ∈ s.former, f.ref = y.owner ∧ s.waitedOn f y.off = true
       let after := fun w : Nat =>
         ({ s.setStash y.owner y.off (bytesOfNat 8 w) with arrivals := s.arrivals.filter (fun z => z.id ≠ y.id) } : State)
       (¬ endsAWait → exec (.barrierArrival y.id) s = .next (after new)) ∧
       (endsAWait → exec (.barrierArrival y.id) s = .next (after old)) ∧
       (expected = 0 → new = old) ∧
       (expected ≠ 0 → new / 2 ^ 16 % 2 ^ 16 = expected ∧
         (old % 2 ^ 16 ≤ 1 → new % 2 ^ 16 = expected ∧ new / 2 ^ 32 % 2 = 1 - old / 2 ^ 32 % 2) ∧
         (1 < old % 2 ^ 16 → new % 2 ^ 16 = old % 2 ^ 16 - 1 ∧ new / 2 ^ 32 % 2 = old / 2 ^ 32 % 2)))) ∧
  (∀ (s : State) (v : View), s.view = some v → v.kind = .team →
     let bar := v.team.cbar
     let r := v.team.ref
     let misuse := Host.Outcome.next (park s v { code := .barrierMisuse } 0 [])
     (bar.isOpen = true → exec .cbara s = misuse) ∧
     (bar.isOpen = false → exec .cbarw s = misuse) ∧
     (bar.isOpen = false → exec .cbara s =
       .next (s.retireEnding v { v.team with cbar := { bar with isOpen := true, pending := some s.serial } } v.ctx.step4)) ∧
     (∀ upto, bar.pending = some upto →
       exec (.clusterArrival r.die r.core r.slot) s =
         .next (if releaseReady s { ref := r, kind := .team } .cluster upto then
           s.putTeam { v.team with cbar := { bar with pending := none, arrived := bar.arrived + 1 } } else s)) ∧
     let ended := fun m : Team => m.team.run = .ended ∧ m.cbar.pending = none
     (bar.isOpen = true →
       (∀ m ∈ s.teams, m.launch = v.team.launch → m.cluster = v.team.cluster → bar.passed < m.cbar.arrived ∨ ended m) →
       (∀ x ∈ s.hub.saved, x.launch = v.team.launch → x.cluster = v.team.cluster → bar.passed < x.team.cbar.arrived ∨ ended x.team) →
       exec .cbarw s = .next ((s.observeAll (s.whoOf v.team) v.ref s.serial).retire v
         { v.team with cbar := { bar with isOpen := false, passed := bar.passed + 1 } } v.ctx.step4)) ∧
     (bar.isOpen = true →
       (∃ m ∈ s.teams, m.launch = v.team.launch ∧ m.cluster = v.team.cluster ∧ m.cbar.arrived ≤ bar.passed ∧ ¬ ended m) ∨
         (∃ x ∈ s.hub.saved, x.launch = v.team.launch ∧ x.cluster = v.team.cluster ∧ x.team.cbar.arrived ≤ bar.passed ∧ ¬ ended x.team) →
       exec .cbarw s = .next (s.putTeam { v.team with slot := .waiting .cbarw })))

/-! ### The matrix context (R265 to R281) -/

/-- R82, R265 to R273, R275, R276, R277 to R281: MZERO fills a tile with the identity of ⊕ and tags it; MMA adds one K-step to each
element with m < M and n < N, exactly under PLUS_TIMES and k by k under the other semirings, whose ⊗ and ⊕ and flags are spelled out,
and faults with MATRIX_SHAPE on a tile of another tag; MMAS adds a valid buffer of the same TYPEA, M and K; MSPLIT replaces the buffer:
it takes the least t of TERMS whose residual list, less the entries that DROPB lets it drop (those of least magnitude first, no more
than the list needs), holds at most 128, clears the dropped entries and no others, and records TERMS, RCNT, DCNT and DMASS; with no
such t it keeps the dense tile and reads FALLBACK; MSTAT reads its statistics. MMA and MMAS end the region. MDRAIN converts a row range
of a tile into the result fragment, MXPORT stores its records of 96 bytes in the own stash and MXLOAD loads them; a row range that R275
forbids, and for the last two a tile of another tag than PLUS_TIMES, fault with MATRIX_SHAPE, and a TYPED above 13 or an RND above 5
make MDRAIN fault with ILLEGAL_MODE; a TYPED or a row range that is not accepted does so whatever register the fragment starts at. That
tiles, buffers, fragments and statistics are written at issue is the model's reading (log 38, DEDUCED); that registers are read, and MDRAIN's
written, at issue is its choice (log 53, DESIGN CHOICE). -/
def Obligations.MatrixInstructions : Prop :=
  (∀ (s : State) (v : View) (d tb : Fin 4) (x a b : Fin 64) (la : Fin 16) (k : Nat),
     let md := v.ctx.md
     let m := mxM md
     let n := mxN md
     let nl := v.team.nl
     let ra := fragRegs nl (mxTypeA md) (m * k)
     let rb := fragRegs nl (mxTypeB md) (k * n)
     let tile := v.team.tile d
     let opened := fun (c : Ctx) (names : List RegName) => c.advance (c.pc + 4) (some { op := 0, left := la, names := names })
     let setTile := fun (y : Tile) => ({ v.team with tiles := v.team.tiles.set d y } : Team)
     let inside := fun i => i / 64 < m ∧ i % 64 < n
     let aOf := valuesA (readFrag v.team a (mxTypeA md) (m * k)) (mxTypeA md) m k
     let bOf := valuesB (readFrag v.team b (mxTypeB md) (k * n)) (mxTypeB md) k n
     let sum := fun (as : Array FVal) (es : List Xa) i =>
       if inside i then accumulate (es.getD i Xa.zero) k (fun q => valAt as (i / 64 * k + q)) (fun q => valAt bOf (q * n + i % 64))
       else es.getD i Xa.zero
     let free := d.val < v.team.nacc ∧ tileBusy s v d = false
     (MatrixReady s v [.acc d] → free → mxSemi md ≤ 5 →
       let zero : Lane := ([0, 0x7F800000, 0xFF800000, 0xFF800000, 0, 0x7F800000] : List Lane).getD (mxSemi md) 0
       exec (.mzero d la) s = .next (s.retire v
         (setTile (if mxSemi md = 0 then .exact (List.replicate 4096 Xa.zero) else .semi (mxSemi md) (List.replicate 4096 zero)))
         (opened v.ctx [.acc d]))) ∧
     (MatrixReady s v (.acc d :: (fragNames a ra ++ fragNames b rb)) → free → pairK (mxSemi md) (mxTypeA md) (mxTypeB md) = some k →
       a.val + ra ≤ v.team.nv → b.val + rb ≤ v.team.nv → (mxSemi md = 3 → mxRnd md ≤ 5) →
       (tile.tag ≠ mxSemi md → exec (.mma d a b la) s = .next (park s v { code := .matrixShape } 0 [])) ∧
       (∀ es, mxSemi md = 0 → tile = .exact es → es.length = 4096 → ∃ new : List Xa, new.length = 4096 ∧
         (∀ i < 4096, new.getD i Xa.zero = sum aOf es i) ∧
         exec (.mma d a b la) s = .next (s.retireEnding v (setTile (.exact new)) (opened v.ctx [.acc d]))) ∧
       (∀ g es, mxSemi md = g → g ≠ 0 → tile = .semi g es → es.length = 4096 →
         let value := fun (x : FVal) => BitVec.ofNat 32 (roundVal 10 { mode := 0 } x).1
         let step := fun (i : Nat) (acc : Lane × Flags) (q : Nat) =>
           let x := valAt aOf (i / 64 * k + q)
           let y := valAt bOf (q * n + i % 64)
           let old := fdecode 10 acc.1.toNat
           let sum := roundVal 10 { mode := 0 } (fadd 0 x y).1
           let product := roundVal 10 (productRnd s v (i / 64) (i % 64) q) (fmul x y).1
           match g with
           | 1 => if x = .inf false ∨ y = .inf false then (value (fmin old (.inf false)), acc.2)
             else (value (fmin old (fdecode 10 sum.1)), acc.2 ||| (fadd 0 x y).2 ||| sum.2)
           | 2 => if x = .inf true ∨ y = .inf true then (value (fmax old (.inf true)), acc.2)
             else (value (fmax old (fdecode 10 sum.1)), acc.2 ||| (fadd 0 x y).2 ||| sum.2)
           | 3 => (value (fmax old (fdecode 10 product.1)), acc.2 ||| (fmul x y).2 ||| product.2)
           | 4 => (acc.1 ||| ((readFrag v.team a 5 (m * k)).getD (i / 64 * k + q) 0 &&& (readFrag v.team b 5 (k * n)).getD (q * n + i % 64) 0),
               acc.2)
           | _ => (value (fmin old (fmax x y)), acc.2)
         let result := fun i => if inside i then (List.range k).foldl (step i) (es.getD i 0, 0) else (es.getD i 0, 0)
         ∃ (new : List Lane), new.length = 4096 ∧ (∀ i < 4096, new.getD i 0 = (result i).1) ∧
           exec (.mma d a b la) s = .next (s.retireEnding v (setTile (.semi g new))
             (opened (v.ctx.raise (flagsOr ((List.range 4096).map (fun i => (result i).2)))) [.acc d])))) ∧
     (MatrixReady s v (.tb tb :: .s 1 :: fragNames a ra) → mxSemi md = 0 → mxK (mxTypeA md) = some k →
       (mxSpat md = 1 ∨ mxSpat md = 2) → a.val + ra ≤ v.team.nv →
       let buffer := splitBuffer md (v.ctx.getSN 1) (readFrag v.team a (mxTypeA md) (m * k))
       exec (.msplit tb a la) s = .next (s.retire v { v.team with tbs := v.team.tbs.set tb buffer } (opened v.ctx [.tb tb]))) ∧
     (MatrixReady s v (.acc d :: .tb tb :: fragNames b rb) → free → mxSemi md = 0 → pairK 0 (mxTypeA md) (mxTypeB md) = some k →
       b.val + rb ≤ v.team.nv → ∀ es, tile = .exact es → es.length = 4096 →
       let y := v.team.termBuf tb
       let fits := y.valid = true ∧ y.typeA = mxTypeA md ∧ y.m = m ∧ y.k = k
       (¬ fits → exec (.mmas d tb b la) s = .next (park s v { code := .matrixShape } 0 [])) ∧
       (fits → ∃ new : List Xa, new.length = 4096 ∧
         (∀ i < 4096, new.getD i Xa.zero = sum (valuesA y.words (mxTypeA md) m k) es i) ∧
         exec (.mmas d tb b la) s = .next (s.retireEnding v (setTile (.exact new)) (opened v.ctx [.acc d])))) ∧
     (MatrixReady s v [.s x, .tb tb] →
       exec (.mstat x tb la) s = .next (s.retire v v.team
         (if x = 0 then v.ctx.step4 else opened (v.ctx.setS x (v.team.termBuf tb).stat) [.s x])))) ∧
  (∀ (md : BitVec 26) (s1 : Word) (words : List Lane) (k : Nat), mxK (mxTypeA md) = some k →
     let ty := mxTypeA md
     let count := mxM md * k
     words.length = elemWords ty count + scaleWords ty count →
     let y := splitBuffer md s1 words
     let a := valuesA words ty (mxM md) k
     let e0 := leastExp a
     let l1 := (a.toList.map (magAt e0)).sum
     let residue := fun t => residual a (mxM md) k (if mxSpat md = 1 then 4 else 8) t e0
     let bound := fdecode 10 (s1.toNat % 2 ^ 32)
     let mayDrop := mxDrop md = true ∧ (∀ x ∈ a.toList, x.isFin = true) ∧ (bound = .inf false ∨ ∃ mb eb, 0 < mb ∧ bound = .fin false mb eb)
     let within := fun mass : Nat =>
       bound = .inf false ∨ ∃ mb eb, bound = .fin false mb eb ∧ (mass : ℝ) * 2 ^ e0 ≤ (mb : ℝ) * 2 ^ eb * ((l1 : ℝ) * 2 ^ e0)
     let mass := fun xs : List SipEl => (xs.map SipEl.mag).sum
     y.valid = true ∧ y.typeA = ty ∧ y.m = mxM md ∧ y.k = k ∧ y.spat = mxSpat md ∧
     ∃ (rising : Nat → List SipEl) (n : Nat → Nat),
       (∀ t, let goes := fun j => mayDrop ∧ 128 + j < (residue t).length ∧ within (mass ((rising t).take (j + 1)))
         (rising t).Perm (residue t) ∧
         (rising t).Pairwise (fun x z => x.mag < z.mag ∨ x.mag = z.mag ∧ (x.m < z.m ∨ x.m = z.m ∧ x.k < z.k)) ∧
         (∀ j < n t, goes j) ∧ ¬ goes (n t)) ∧
       let fits := fun t => 1 ≤ t ∧ t ≤ mxTmaxm1 md + 1 ∧ (residue t).length ≤ 128 + n t
       ((∀ t, ¬ fits t) → y.words = words ∧ y.stat = 2 ^ 3 + 2 ^ 4) ∧
       ∀ t, fits t → (∀ t' < t, ¬ fits t') →
         let dropped := (rising t).take (n t)
         y.stat = BitVec.ofNat 64 ((roundVal 10 { mode := 0 } (.fin false (mass dropped) e0)).1 * 2 ^ 32 + n t * 2 ^ 16 +
           ((residue t).length - n t) * 2 ^ 8 + 2 ^ 4 + t) ∧
         y.words.length = words.length ∧ (∀ j, elemWords ty count ≤ j → y.words.getD j 0 = words.getD j 0) ∧
         ∀ i < count, ((∃ x ∈ dropped, x.m * k + x.k = i) → fragCode y.words.toArray ty i = 0) ∧
           ((∀ x ∈ dropped, x.m * k + x.k ≠ i) → fragCode y.words.toArray ty i = fragCode words.toArray ty i)) ∧
  (∀ (s : State) (v : View) (d : Fin 4) (x a b : Fin 64) (la : Fin 16),
     let md := v.ctx.md
     let n := mxN md
     let nl := v.team.nl
     let range := (v.ctx.getS b).toNat
     let row0 := range % 256
     let nrow := range / 256 % 256
     let rows := range < 65536 ∧ nrow ≠ 0 ∧ row0 + nrow ≤ mxM md
     let words := (nrow * n * fragBits (mxTypeD md) + 31) / 32
     let regs := (words + nl - 1) / nl
     let opened := fun (c : Ctx) (names : List RegName) => c.advance (c.pc + 4) (some { op := 0, left := la, names := names })
     let element := fun i => drainElem (v.team.tile d) ((row0 + i / n) * 64 + i % n) (mxTypeD md) (drainRnd s v (row0 + i / n) (i % n))
     let drained := (List.range (nrow * n)).map element
     d.val < v.team.nacc → tileBusy s v d = false → 0 < nl →
     (MatrixReady s v (.acc d :: .s b :: fragNames x regs) → mxTypeD md ≤ 13 → rows → x.val + regs ≤ v.team.nv →
       (mxRnd md ≤ 5 → exec (.mdrain x d b la) s =
         .next (s.retire v (writeWords v.team x (packWords (fragBits (mxTypeD md)) (drained.map (·.1))))
           (opened (v.ctx.raise (flagsOr (drained.map (·.2)))) (fragNames x regs)))) ∧
       (5 < mxRnd md → exec (.mdrain x d b la) s = .next (park s v { code := .illegalMode } 0 []))) ∧
     (MatrixReady s v [.acc d, .s b] →
       (13 < mxTypeD md → exec (.mdrain x d b la) s = .next (park s v { code := .illegalMode } 0 [])) ∧
       (mxTypeD md ≤ 13 → mxRnd md ≤ 5 → ¬ rows → exec (.mdrain x d b la) s = .next (park s v { code := .matrixShape } 0 []))) ∧
     (MatrixReady s v [.acc d, .s a, .s b] → (¬ rows ∨ (v.team.tile d).tag ≠ 0) →
       ∀ i ∈ ([.mxport d a b la, .mxload d a b la] : List Instr), exec i s = .next (park s v { code := .matrixShape } 0 [])) ∧
     (MatrixReady s v [.acc d, .s a, .s b] → rows → ∀ es, v.team.tile d = .exact es → ∀ r off,
       (stashTest s v.team none false (v.ctx.getS a) (nrow * n * 96) 32 true = .ok (.stash r off) →
         RoomFor s v .store [(.stash r off, nrow * n * 96)] →
         let unit := fun c => ({ lane := c, place := .stash r (off + 8 * c), stage := .issued
                                 bytes := (((es.getD ((row0 + c / 12 / n) * 64 + c / 12 % n) Xa.zero).record).drop (8 * (c % 12))).take 8 } : StoreLane)
         Begins s v (.mxport d a b la) .store (.store (((List.range (nrow * n * 12)).map unit).flatMap (splitStore s)) false [])
           [(.stash r off, nrow * n * 96)] (fun _ => v.ctx.step4)) ∧
       (stashTest s v.team none false (v.ctx.getS a) (nrow * n * 96) 32 false = .ok (.stash r off) →
         RoomFor s v .load [(.stash r off, nrow * n * 96)] →
         Begins s v (.mxload d a b la) .load
           (.load (.tile d row0 nrow n) (((List.range (nrow * n * 12)).map (fun i =>
             ({ lane := i, place := .stash r (off + 8 * i), n := 8, val := none } : LoadLane))).flatMap (splitLoad s)) false)
           [(.stash r off, nrow * n * 96)] (fun _ => opened v.ctx [.acc d]))))

/-! ### Operand queues and gathers (R282 to R293) -/

/-- R38, R282 to R287: VPOP pops the oldest entry into the lanes of E, ends the region, pops nothing for an empty E, waits on an
empty queue that a stream or the access context may still fill, and else faults with QUEUE_MISUSE; QSTAT reads the state of a
queue; ASTR starts a stream of eight descriptor scalars, waiting for an active one; AQWAIT waits until no stream is active or
the queue is closed. -/
def Obligations.QueueInstructions : Prop :=
  ∀ (s : State) (v : View) (d : Fin 64) (q : Fin 4), q.val < v.team.nq →
    let oq := v.team.queue q
    let ended := v.team.access = none ∨ ∃ c, v.team.access = some c ∧ c.run = .ended
    (LaneReady s v [.v d] → v.team.vOk false d = true →
      (v.eff = 0 → exec (.vpop d q) s = .next (s.retireEnding v v.team v.ctx.step4)) ∧
      (v.eff ≠ 0 → oq.entries = [] → (oq.stream ≠ none ∨ ¬ ended) →
        exec (.vpop d q) s = .next (s.putTeam { v.team with slot := .waiting (.vpop q) })) ∧
      (v.eff ≠ 0 → oq.entries = [] → oq.stream = none → ended →
        exec (.vpop d q) s = .next (park s v { code := .queueMisuse } 0 [])) ∧
      (∀ e rest, v.eff ≠ 0 → oq.entries = e :: rest →
        exec (.vpop d q) s = .next (s.retireEnding v
          ((v.team.setElems false d v.eff (fun l => (e[l]?).map (·.toNat))).setQueue q { oq with entries := rest }) v.ctx.step4))) ∧
    (Ready s v [.s d] → v.kind = .team → ∀ e active : Nat, (e = if ended then 1 else 0) →
      (active = if oq.stream = none then 0 else 1) →
      exec (.qstat d q) s = .next (s.retire v v.team (v.ctx.setS d (BitVec.ofNat 64
        (e * 2 ^ 33 + active * 2 ^ 32 + v.team.qdepth * 2 ^ 16 + oq.entries.length))).step4)) ∧
    (Ready s v ((List.range 8).map (fun i => .s (d.val + i))) → v.kind = .access → d.val ≤ 56 →
      let desc := (List.range 8).map (fun i => v.ctx.getSN (d.val + i))
      streamFault v.team desc = none →
      (oq.stream ≠ none → exec (.astr q d) s = .next s) ∧
      (oq.stream = none →
        let cnt := (desc.getD 5 0).toNat % 2 ^ 32 * ((desc.getD 5 0).toNat / 2 ^ 32) * ((desc.getD 6 0).toNat % 2 ^ 32)
        exec (.astr q d) s = .next (s.retireEnding v
          (if cnt = 0 then v.team else v.team.setQueue q
            { oq with stream := some { desc := desc, i0 := 0, i1 := 0, i2 := 0, upto := s.serial, paused := false } })
          v.ctx.step4))) ∧
    (s.view = some v → v.kind = .access →
      exec (.aqwait q) s = .next (if oq.stream = none ∨ oq.closed = true then s.retire v v.team v.ctx.step4 else s))

/-- R38, R172, R289 to R293: HDEF defines a handle from four scalars, or faults with ENGINE_COMMAND; an undefined handle faults alike.
HDEF's effect stands at its issue (log 38, DEDUCED); which fields fault, and that an undefined handle faults at an empty E too, is log 51.
FETCH, EPOOL and ROUTE whose reads pass their tests put one LOAD operation in flight that remembers what to read, under MD and the
lane, and open a window over vD; EPOOL reads its bag's pairs (row index, then weight) at issue as the team's own stash loads (log 38): it
waits while an earlier access of its context covers them, and starts the fills of a window that does not hold them; one issue reads the
pairs up to the first that is not single-copy atomic (R109), and such a pair is read a byte at a time; ROUTE notes a token for
every lane with a valid expert and ends the region. -/
def Obligations.GatherInstructions : Prop :=
  ∀ (s : State) (v : View) (d a b : Fin 64) (h : Fin 16) (la : Fin 16) (el : Nat → FetchEl) (terms : Nat → List (Lane × FetchEl)),
    let md := v.ctx.md
    let w := v.wide
    let dst : List RegName := if w then [.v d, .v (d + 1)] else [.v d]
    let opened := fun (names : List RegName) (op : Nat) =>
      v.ctx.advance (v.ctx.pc + 4) (some { op := op, left := la, names := names })
    h.val < v.team.nh →
    (Ready s v ((List.range 4).map (fun i => .s (a.val + i))) → v.kind = .team → a.val ≤ 60 →
      let g := fun i => v.ctx.getSN (a.val + i)
      let fmt := (g 3).toNat % 16
      let size := if fmt = 14 then 1 else typeBits fmt / 8
      let cols := (g 2).toNat / 2 ^ 32
      let legal := (g 1).toNat < 2 ^ 40 ∧ (g 3).toNat < 32 ∧ fmt ≤ 14 ∧ (g 2).toNat % 2 ^ 32 ≠ 0 ∧ cols ≠ 0 ∧
        (g 0).toNat % size = 0 ∧ (g 1).toNat % size = 0 ∧ (fmt = 14 → cols % 32 = 0)
      (¬ legal → exec (.hdef h a la) s = .next (park s v { code := .engineCommand } 0 [])) ∧
      (legal → Room s v [.engine] → ∃ u v', exec (.hdef h a la) s = .next u ∧ u.view = some v' ∧ v'.ctx = v.ctx.step4 ∧
        v'.team.handle? h = some { base := g 0, rstride := (g 1).toNat, cols := cols, rows := (g 2).toNat % 2 ^ 32
                                   clampZero := decide (16 ≤ (g 3).toNat), fmt := fmt } ∧
        (∀ h', h' ≠ h.val → v'.team.handle? h' = v.team.handle? h') ∧ u.mem = s.mem ∧ u.sectors = s.sectors)) ∧
    (LaneReady s v (vNames w d ++ [.v b, .v (b.val + 1)]) → v.team.vOk w d = true → b.val + 2 ≤ v.team.nv →
      fetchModeOk v h = true →
      (v.team.handle? h = none → exec (.fetch d h b la) s = .next (park s v { code := .engineCommand } 0 [])) ∧
      (∀ x, v.team.handle? h = some x →
        (∀ i ∈ v.lanes, fetchTest s v.team x i (v.team.lane b i).toInt (v.team.lane (b.val + 1) i).toInt = .ok (el i)) →
        (v.lanes = [] → exec (.fetch d h b la) s = .next (s.retire v v.team (opened dst 0))) ∧
        (v.lanes ≠ [] → Room s v [.load] → Begins s v (.fetch d h b la) .load
          (.fetch d x.fmt md v.ctx.isc (v.lanes.map (fun i => (i, el i)))) [] (opened dst)))) ∧
    (LaneReady s v (vNames w d ++ [.s b, .s (b.val + 1)]) → v.team.vOk w d = true → b.val ≤ 62 → 8 ≤ v.ty → v.ty ≤ 11 →
      rndOk md = true → ∀ x, v.team.handle? h = some x →
      let cw := (v.ctx.getSN (b.val + 1)).toNat
      let c := cw % 2 ^ 16
      let col0 := (BitVec.ofNat 32 (cw / 2 ^ 32)).toInt
      (cw / 2 ^ 16 % 2 ^ 16 ≠ 0 → exec (.epool d h b la) s = .next (park s v { code := .engineCommand } 0 [])) ∧
      (cw / 2 ^ 16 % 2 ^ 16 = 0 → v.lanes = [] → exec (.epool d h b la) s = .next (s.retire v v.team (opened dst 0))) ∧
      (∀ r off, cw / 2 ^ 16 % 2 ^ 16 = 0 → v.lanes ≠ [] → c ≠ 0 →
        stashTest s v.team none false (v.ctx.getS b) (8 * c) 8 false = .ok (.stash r off) →
        let locs := s.locs (.stash r off) (8 * c)
        let sectors := s.touched r off (8 * c)
        let got := v.team.bag
        let k := got.length
        let whole := fun i => s.isWhole (.stash r (off + 8 * i)) 8 = true
        (s.held v.ref s.serial locs = true → exec (.epool d h b la) s = .next s) ∧
        (s.held v.ref s.serial locs = false → (∃ q ∈ sectors, q.1.sec? q.2 = none) → exec (.epool d h b la) s =
          .next (if s.roomTouch v.team.ref sectors false 0 then s.startTouch v.ref (.stash r off) (8 * c) false else s)) ∧
        (s.held v.ref s.serial locs = false → (∀ q ∈ sectors, q.1.sec? q.2 ≠ none) → ∀ n m, k < 8 * c →
          (k % 8 ≠ 0 ∧ n = 1 ∨ k % 8 = 0 ∧ (∀ j < m, whole (k / 8 + j)) ∧
            (k + 8 * m = 8 * c ∧ n = 8 * m ∨ k / 8 + m < c ∧ ¬ whole (k / 8 + m) ∧ n = 8 * m + 1)) →
          let s1 := s.observeAt (s.whoOf v.team) v.ref s.serial ((locs.drop k).take n)
          let bytes := got ++ (List.range n).map (fun j => stashSeen s1 (s.whoOf v.team) r (off + k + j))
          let word := fun i => BitVec.ofNat 32 (natOfBytes ((bytes.drop (4 * i)).take 4))
          (k + n < 8 * c → exec (.epool d h b la) s = .next (s1.putTeam { v.team with bag := bytes })) ∧
          (k + n = 8 * c → (∀ i ∈ v.lanes, (terms i).map (·.1) = (List.range c).map (fun j => word (2 * j + 1)) ∧
            ∀ p ∈ (terms i).zip (List.range c), fetchTest s1 v.team x i (word (2 * p.2)).toInt (col0 + i) = .ok p.1.2) →
          Room s v [.load] → exec (.epool d h b la) s =
            .next ((s1.began v [] .load (.epool d x.fmt md v.ctx.isc (v.lanes.map (fun i => (i, terms i))))).retire v
              { v.team with bag := [] } (opened dst s.serial))))) ∧
      (cw / 2 ^ 16 % 2 ^ 16 = 0 → v.lanes ≠ [] → c = 0 → (v.ctx.getS b).toNat % 8 = 0 → Room s v [.load] →
        Begins s v (.epool d h b la) .load (.epool d x.fmt md v.ctx.isc (v.lanes.map (fun i => (i, [])))) [] (opened dst))) ∧
    (VectorReady s v [(false, d), (false, a), (false, b)] [] → ∀ l, s.launch? v.team.launch = some l →
      let answer := fun i => routeWord s (some l) (v.team.lane a i).toNat (v.team.lane b i).toNat
      (v.lanes = [] → exec (.route d a b la) s = .next (s.retireEnding v v.team (opened [.v d] 0))) ∧
      (v.lanes ≠ [] → Room s v [.load] → ∃ u v', exec (.route d a b la) s = .next u ∧ u.view = some v' ∧
        v'.ctx = (opened [.v d] s.serial).endRegion ∧ v'.team.restartable = false ∧ v'.team.v = v.team.v ∧
        u.ops = s.ops ++ [{ id := s.serial, own := v.ref, lv := v.team.lv, path := some .load, done := false
                            kind := .value d (v.lanes.map (fun i => (i, BitVec.ofNat 32 (answer i).1))) }] ∧
        ∃ l', u.launch? v.team.launch = some l' ∧ { l' with tokens := l.tokens } = l ∧
          ∀ die e, assoc l'.tokens (die, e) 0 = assoc l.tokens (die, e) 0 +
            (if die = v.team.ref.die then
              (v.lanes.filter (fun i => (answer i).2 && decide ((v.team.lane a i).toNat = e))).length else 0)))

/-! ### Completion of accesses (R44, R93, R105, R106, R111, R117, R127 to R130, R172, R236, R244, R248, R259 to R262, R283) -/

/-- R44, R93, R105, R106, R109, R111, R117, R119, R172, R208, R233 to R236, R276, R290 to R293: what a completed load writes: a narrow
vector element zero- or sign-extended to its lane, an 8-byte one to a pair, a scalar zero-extended, a mask from the sixteen units of its
image, with bits at or above NL and, for k0, outside LIVE discarded, a tile's rows from their records of 96 bytes, twelve units each;
the pieces of an access that is not atomic as a whole give the value of their bytes together. The events that complete accesses. An
operation that has finished changes nothing more. A load whose bytes lie in plain stash delivers the bytes its core sees, but for those of a later store of its own context there and what follows it (R113), and its
context has then observed them; a load of global bytes delivers what it reads once its sector may be read; FETCH delivers each element
converted to TYPE, EPOOL the sum of weight times element rounded once, ROUTE its words; a store changes exactly its stash bytes, or the
tentative bytes of its home sector; a fill makes a window sector valid and clean with its homes' bytes, E when nothing else holds them,
else S; LDGS copies its bytes; a grant that no copy taken since has withdrawn makes its requester the owner, and a store is performed with it. That a window's first write
translates its sector anew at the grant is the model's reading (log 46, DEDUCED, unsafe). -/
def Obligations.LoadsAndStoresComplete : Prop :=
  (∀ (t : Team) (kind : CtxKind) (d : Fin 64) (k : Fin 16) (e : Bool) (z : Fin 3) (x : Nat) (i : Nat) (place : Place) (units : Nat → Nat),
     let n := 2 ^ z.val
     (d.val < t.v.length → i < (t.v.getD d []).length → i < 1024 → x < 2 ^ (8 * n) →
       let got : List LoadLane := [{ lane := i, place := place, n := n, val := some x }]
       (deliver t kind (.vec d false e) got).lane d i =
         (if e then ((BitVec.ofNat (8 * n) x).signExtend 32) else BitVec.ofNat 32 x) ∧
       (∀ j, j ≠ i → (deliver t kind (.vec d false e) got).lane d j = t.lane d j) ∧
       (∀ r j, r ≠ d.val → (deliver t kind (.vec d false e) got).lane r j = t.lane r j)) ∧
     (d.val + 1 < t.v.length → i < (t.v.getD d []).length → i < (t.v.getD (d + 1) []).length → i < 1024 → x < 2 ^ 64 →
       let got : List LoadLane := [{ lane := i, place := place, n := 8, val := some x }]
       (deliver t kind (.vec d true e) got).lane d i = BitVec.ofNat 32 (x % 2 ^ 32) ∧
       (deliver t kind (.vec d true e) got).lane (d + 1) i = BitVec.ofNat 32 (x / 2 ^ 32) ∧
       (∀ r j, r ≠ d.val ∧ r ≠ d + 1 ∨ j ≠ i → (deliver t kind (.vec d true e) got).lane r j = t.lane r j)) ∧
     (∀ (tile : Fin 4) (es : List Xa) (row0 nrow cols : Nat), t.tiles[tile.val]? = some (.exact es) → cols ≤ 64 →
       ∃ new : List Xa, new.length = es.length ∧
         deliver t kind (.tile tile row0 nrow cols) ((List.range (nrow * cols * 12)).map (fun c =>
             ({ lane := c, place := place, n := 8, val := some (units c) } : LoadLane))) =
           { t with tiles := t.tiles.set tile (.exact new) } ∧
         ∀ c < es.length, new.getD c Xa.zero =
           if row0 ≤ c / 64 ∧ c / 64 < row0 + nrow ∧ c % 64 < cols then
             Xa.ofRecord ((List.range 12).flatMap (fun j => bytesOfNat 8 (units (12 * ((c / 64 - row0) * cols + c % 64) + j))))
           else es.getD c Xa.zero) ∧
     (i < 65536 → ∀ m : Nat, 0 < m → (∀ j < m, units j < 256) →
       joinLoads ((List.range m).map (fun j =>
           ({ lane := i + 65536 * j, place := place.byte j, n := 1, val := some (units j) } : LoadLane))) =
         [{ lane := i, place := place, n := m, val := some (natOfBytes ((List.range m).map (fun j => BitVec.ofNat 8 (units j)))) }]) ∧
     (∀ c, t.ctx? kind = some c → ∃ c', (deliver t kind (.sca d) [{ lane := 0, place := place, n := n, val := some x }]).ctx? kind = some c' ∧
       c' = c.setS d (BitVec.ofNat 64 x)) ∧
     ((∀ j < 16, units j < 2 ^ 64) → ∀ l < 1024,
       inMask (deliver t kind (.mask k) ((List.range 16).map (fun j =>
           ({ lane := j, place := place, n := 8, val := some (units j) } : LoadLane)))).k[k] l =
         ((units (l / 64)).testBit (l % 64) && decide (l < t.nl) && (decide (k ≠ 0) || inMask t.live l)))) ∧
  (∀ (s : State) (op : Nat) (lanes : List Nat),
     (s.flying? op = none → ∀ b x, ∀ e ∈ ([.loadComplete op lanes, .storePerformed op lanes b, .windowFill op, .stashCopyComplete op lanes,
       .ownershipGrant op x, .atomPerformed op lanes, .redMerge op lanes, .regionValidation op lanes] : List Instr), exec e s = .next s) ∧
     ∀ (o : Op) (t : Team), s.flying? op = some o → o.id = op → s.team? o.own.ref = some t →
       let w := s.whoOp o
       let held := fun ls => o.path ≠ none ∧ s.held o.own o.id ls = true
       (∀ dst ls na before, o.kind = .load dst ls na →
         (∀ l ∈ ls, l.val = none ∧ ∃ r off, l.place = .stash r off ∧ s.inWindow r off l.n = false ∧
           s.held o.own o.id ((List.range l.n).map (fun i => .s r (off + i))) = false ∧
           s.laterStore o ((List.range l.n).map (fun i => .s r (off + i))) = before) →
         let w : Who := { w with before := before }
         let seen := ls.foldl (fun s l => s.observeAt w o.own o.id (s.locs l.place l.n)) s
         exec (.loadComplete op []) s = .next ((seen.putTeam (deliver t o.own.kind dst (joinLoads (ls.map (fun l =>
           { l with val := some (natOfBytes ((List.range l.n).map (fun i =>
             match l.place with | .stash r off => s.seenStash w r (off + i) | .glob .. => 0))) }))))).finishOp op)) ∧
       (∀ dst l na va pa u, o.kind = .load dst [l] na → l.val = none → l.place = .glob va pa →
         s.held o.own o.id ((List.range l.n).map (fun i => .g (pa + i))) = false →
         let w := s.whoRead o ((List.range l.n).map (fun i => .g (pa + i)))
         ∀ k, w.launch = some k → s.readSector w k (pa / 64) = .ok u → ∃ u', exec (.loadComplete op []) s = .next u' ∧
           (∀ t', u.team? o.own.ref = some t' → u'.team? o.own.ref = some
             (deliver t' o.own.kind dst [{ l with val := some (natOfBytes (u.seenBytes w pa l.n)) }])) ∧
           (na = true → u'.copies = u.copies) ∧
           (na = false → u'.l1State o.own.ref.die o.own.ref.core (pa / 64) ≠ .I) ∧ SameHomes u u') ∧
       (∀ d vs, o.kind = .value d vs → exec (.loadComplete op []) s =
         .next ((s.putTeam (t.setElems false d (BitVec.allOnes 1024)
           (fun l => (vs.find? (fun p => p.1 = l)).map (fun p => p.2.toNat)))).finishOp op)) ∧
       (∀ d fmt md isc k u t', w.launch = some k → u.team? o.own.ref = some t' →
         let get := fun (els : List FetchEl) => s.held o.own o.id (els.flatMap FetchEl.locs) = false ∧
           (let w := s.whoRead o (els.flatMap FetchEl.locs); eachSector s (fun s x => s.readSector w k x) ((els.flatMap (fun e => e.parts.map (fun p => p.2.1 / 64))).dedup)) = .ok u
         let done := fun (els : List FetchEl) (rs : List (Nat × Nat × Flags)) => ∃ u', exec (.loadComplete op []) s = .next u' ∧
           SameHomes u u' ∧ (∀ y ∈ u'.ops, y.id = op → y.done = true) ∧
           (∀ g, (els.flatMap (fun e => e.parts.map (fun p => p.2.1 / 64))).dedup = [g] →
             u'.l1State o.own.ref.die o.own.ref.core g ≠ .I) ∧
           let filled := t'.setElems (isWide (mdType md)) d (BitVec.allOnes 1024) (fun l => (rs.find? (fun r => r.1 = l)).map (fun r => r.2.1))
           u'.team? o.own.ref = some { filled with team := t'.team.raise (flagsOr (rs.map (fun r => r.2.2))) }
         (∀ ls, o.kind = .fetch d fmt md isc ls → get (ls.map (·.2)) →
           done (ls.map (·.2)) (ls.map (fun p =>
             (p.1, fetchLane u t (u.whoRead o ((ls.map (·.2)).flatMap FetchEl.locs)) fmt md isc p.1 p.2)))) ∧
         (∀ ls, o.kind = .epool d fmt md isc ls → get (ls.flatMap (fun p => p.2.map (·.2))) →
           done (ls.flatMap (fun p => p.2.map (·.2))) (ls.map (fun p =>
             (p.1, epoolLane u t (u.whoRead o ((ls.flatMap (fun p => p.2.map (·.2))).flatMap FetchEl.locs)) fmt md isc p.1 p.2))))) ∧
       (∀ l na got r off, o.kind = .store [l] na got → l.stage = .issued → l.place = .stash r off →
         s.inWindow r off l.bytes.length = false → ¬ held ((List.range l.bytes.length).map (fun i => .s r (off + i))) →
         mustFollow s o .issued ((List.range l.bytes.length).map (fun i => .s r (off + i))) = false →
         ∃ u, exec (.storePerformed op [] false) s = .next u ∧ u.sectors = s.sectors ∧ u.mem = s.mem ∧ u.maps = s.maps ∧
           (∀ t', s.team? r = some t' → u.team? r = some { t' with stash := t'.stash.setN off l.bytes }) ∧
           (∀ r', r' ≠ r → u.team? r' = s.team? r') ∧ (∀ o' ∈ u.ops, o'.id = op → o'.done = true)) ∧
       (∀ l na va pa u k, o.kind = .store [l] na [] → l.stage = .issued → l.place = .glob va pa →
         ¬ held ((List.range l.bytes.length).map (fun i => .g (pa + i))) →
         mustFollow s o .issued ((List.range l.bytes.length).map (fun i => .g (pa + i))) = false → w.launch = some k →
         let owned := o.path.isSome && s.holdsME o.own.ref.die o.own.ref.core (pa / 64)
         (na = true ∨ owned = true) →
         s.writeSector w k (pa / 64) (fun _ _ => false)
           (fun c => owned && (c.die == o.own.ref.die && (c.core == some o.own.ref.core || c.core.isNone))) = .ok u →
         ∃ u', exec (.storePerformed op [] false) s = .next u' ∧
           ((∀ e ∈ u.exact, e.sector ≠ pa / 64) →
             (u'.sectorRec (pa / 64)).tbytes = (u.sectorRec (pa / 64)).tbytes.setN pa l.bytes) ∧
           SameHomes (u.putHome pa l.bytes) u' ∧ u'.exact = (u.putHome pa l.bytes).exact ∧
           u'.tag (pa / 64 / 4) = u.tag (pa / 64 / 4) + (if owned then 0 else 1) ∧ (∀ o' ∈ u'.ops, o'.id = op → o'.done = true)) ∧
       (∀ die core n ix pas m m' k u, o.kind = .fill die core n ix pas → s.map? die core o.lv n = some m → m.sec? ix = none →
         s.holder o.lv = some k →
         let by_ : Who := { launch := some k, die := some die, core := some core }
         eachSector s (fun s x => s.readSector by_ k x) ((pas.map (· / 64)).dedup) = .ok u →
         u.map? die core o.lv n = some m' →
         let alone := ((pas.map (· / 64)).dedup).all (fun g =>
           (u.copiesOf g).isEmpty && !u.windowSharers g && !u.walkers g && u.readsNewest by_ g)
         ∃ u' y x, exec (.windowFill op) s = .next u' ∧ u'.map? die core o.lv n = some y ∧ y.sec? ix = some x ∧ x.pas = pas ∧
           x.bytes = pas.map (fun p => u.homeByte by_ p) ∧ x.dirty = 0 ∧ x.st = (if alone then .E else .S) ∧ SameHomes u u') ∧
       (∀ l k u, o.kind = .ldgs l → w.launch = some k →
         s.held o.own o.id ((List.range l.n).map (fun i => Loc.g (l.pa + i)) ++ s.locs (.stash o.own.ref l.off) l.n) = false →
         let w := s.whoRead o ((List.range l.n).map (fun i => Loc.g (l.pa + i)))
         mustFollow s o .issued (s.locs (.stash o.own.ref l.off) l.n) = false → s.readSector w k (l.pa / 64) = .ok u →
         exec (.stashCopyComplete op []) s = .next (((u.observeAt w o.own o.id ((List.range l.n).map (fun i => Loc.g (l.pa + i)))).setStash
           o.own.ref l.off (u.seenBytes w l.pa l.n)).finishOp op)) ∧
       (∀ l got va pa k u, o.kind = .store [l] false got → w.launch = some k → l.stage ≠ .performed → l.place = .glob va pa →
         s.storeWaits o l = false → s.holdsME o.own.ref.die o.own.ref.core (pa / 64) = false →
         s.writeSector w k (pa / 64) (fun _ _ => false)
           (fun c => c.die == o.own.ref.die && (c.core == some o.own.ref.core || c.core.isNone)) = .ok u →
         let proxy := s.proxyState o.own.ref.die (pa / 64)
         let nearer := dieOf (64 * (pa / 64)) ≠ o.own.ref.die ∧ (proxy = .M ∨ proxy = .E)
         ∃ u', exec (.ownershipGrant op (pa / 64)) s = exec (.storePerformed op [l.lane] false) u' ∧
           u'.l1State o.own.ref.die o.own.ref.core (pa / 64) = .M ∧ SameHomes u u' ∧
           (nearer → u'.tag (pa / 64 / 4) = u.tag (pa / 64 / 4)) ∧ (¬ nearer → u'.tag (pa / 64 / 4) = u.tag (pa / 64 / 4) + 1)) ∧
       (∀ die core n ix got sector m y x k s0 u m', o.kind = .own die core n ix got → s0 = s.noteWindow o die core n ix →
         s0.map? die core o.lv n = some m → m.sec? ix = some y → x = { y with pas := s0.ownPas m y } →
         s0.holder o.lv = some k → sector ∈ x.pas.map (· / 64) → sector ∉ got → (∀ g ∈ x.pas.map (· / 64), g = sector ∨ g ∈ got) →
         (if x = y then s0 else s0.putMap (m.setSec x)).writeSector { launch := some k, die := some die, core := some core } k sector
           (fun m' x' => m'.same m && x'.ix == ix) (fun _ => false) = .ok u →
         u.map? die core o.lv n = some m' → s0.op? op = some o → u.op? op = some o →
         ∃ u' y x', exec (.ownershipGrant op sector) s = .next u' ∧ u'.map? die core o.lv n = some y ∧ y.sec? ix = some x' ∧
           x' = { x with st := .M } ∧ u'.tag (sector / 4) = u.tag (sector / 4) + 1)) ∧
  (∀ (s : State) (t : Team) (w : Who) (fmt lane : Nat) (md : BitVec 26) (isc : Word) (e : FetchEl),
     let ty := mdType md
     let r := convRnd s t md isc lane
     let read := fun pa n => natOfBytes (s.seenBytes w pa n)
     (e.zero = true → fetchLane s t w fmt md isc lane e = (0, 0)) ∧
     (∀ va pa n, e = { zero := false, hi := e.hi, parts := [(va, pa, n)] } → fmt ≠ 14 → fetchLane s t w fmt md isc lane e =
       let c := convert fmt ty r (read pa n)
       (if ty < 8 then (wordOf ty c.1, c.2) else c)) ∧
     (∀ va pa va1 p1 va2 p2, e = { zero := false, hi := e.hi, parts := [(va, pa, 1), (va1, p1, 1), (va2, p2, 1)] } →
       fetchLane s t w 14 md isc lane e = toFloatQ ty r
         (blockValue (if e.hi then read pa 1 / 16 else read pa 1 % 16) (read p1 1) (read p2 1))) ∧
     ∀ (terms : List (Lane × FetchEl)) (weight element : Lane × FetchEl → ℝ), 8 ≤ ty → ty ≤ 11 → mdFtz md = false → mdRnd md ≤ 5 →
       (∀ p ∈ terms, (fdecode 10 p.1.toNat).isReal (weight p) ∧ (fetchValue s w false fmt p.2).isReal (element p)) →
       RoundsTo ty (laneRnd s t md isc lane 0) ((terms.map (fun p => weight p * element p)).sum) (epoolLane s t w fmt md isc lane terms))

/-- R78, R79, R93, R127 to R130, R172, R243 to R246, R248: at its home an ATOM reads and writes its element in one step, advances the
line's tag, and returns the old value (EXCHQ the tag as well, and its lanes on one line take consecutive tags). A RED's core is granted
U, when every window and every other copy of the sector but U copies has gone; where 64 sectors are buffered the oldest merge first, and
no more than 64 are. A merge of a core's copy advances the tag once and ends the U copy, or leaves a sector in M or E dirty; an engine's contribution is one write. What
merges: integers wrap at their width, FMIN and FMAX take the smaller and the larger number, and FADD adds exactly, in units of 2 to
the -149, to the cell that starts at the element's value, whose value rounded once is what the element shows. A region's writes are
performed together when every byte it read still holds the value it read (code 0), and none is otherwise (code 3). -/
def Obligations.AtomicsComplete : Prop :=
  (∀ (s : State) (op : Nat) (o : Op), s.flying? op = some o → o.id = op →
    let w := s.whoOp o
    (∀ sub wide d x k u u' t, o.kind = .atom sub wide d [x] → x.res = none → w.launch = some k →
      let n := if wide then 8 else 4
      let ls := (List.range n).map (fun i => Loc.g (x.pa + i))
      s.held o.own o.id ls = false → s.clear w o.own o.id ls = true → s.readSector w k (x.pa / 64) = .ok u →
      u.writeSector w k (x.pa / 64) (fun _ _ => false) (fun _ => false) = .ok u' → u'.team? o.own.ref = some t →
      let old := natOfBytes ((u'.sectorRec (x.pa / 64)).tbytes.getN x.pa n)
      let line := x.pa / 64 / 4
      let only := fun (r value : Nat) (t : Team) => t.setElems wide r (BitVec.allOnes 1024) (fun l => if l = x.lane then some value else none)
      ∃ u'', exec (.atomPerformed op []) s = .next u'' ∧
        ((∀ e ∈ u'.exact, e.sector ≠ x.pa / 64) → (u''.sectorRec (x.pa / 64)).tbytes =
          (u'.sectorRec (x.pa / 64)).tbytes.setN x.pa (bytesOfNat n (atomValue sub (8 * n) old x.a.toNat x.b.toNat))) ∧
        u''.sectors = (u'.putHome x.pa (bytesOfNat n (atomValue sub (8 * n) old x.a.toNat x.b.toNat))).sectors ∧
        u''.tag line = u'.tag line + 1 ∧
        u''.team? o.own.ref = some (if sub = 12 then only (if wide then d + 2 else d + 1) (u'.tag line + 1).toNat (only d old t)
          else only d old t) ∧
        (∀ y ∈ u''.ops, y.id = op → y.done = true)) ∧
    (∀ wide d x y u t, o.kind = .atom 12 wide d [x, y] → x.res = none → y.res = none → x.lane ≠ y.lane → x.pa / 256 = y.pa / 256 →
      eachSector s (fun s z => atomReady s o wide z) [x, y] = .ok u → u.team? o.own.ref = some t →
      let tag := u.tag (x.pa / 256)
      let all := BitVec.allOnes 1024
      ∃ u' old, exec (.atomPerformed op [x.lane]) s = .next u' ∧ u'.tag (x.pa / 256) = tag + 2 ∧
        u'.team? o.own.ref = some ((t.setElems wide d all old).setElems wide (if wide then d + 2 else d + 1) all
          (fun l => if l = x.lane then some (tag + 1).toNat else if l = y.lane then some (tag + 2).toNat else none))) ∧
    (∀ sub ty rnd seed x k u, o.kind = .red sub ty rnd seed [x] → w.launch = some k →
      let g := x.pa / 64
      let die := o.own.ref.die
      let core := o.own.ref.core
      (o.path ≠ none → s.grantU w k die core g = .ok u → exec (.redMerge op []) s = .next (u.mergeU die core g).1 ∧
        exec (.ownershipGrant op g) s = .next u) ∧
      (∀ u', o.path = none → s.writeSector w k g (fun _ _ => false) (fun _ => false) = .ok u → redReady u o ty x = true →
        u.mergeLane o sub ty rnd seed x = .ok u' → exec (.redMerge op []) s = .next ((u'.finishOp op).bumpTag (g / 4)))) ∧
    (∀ kd va x k u t, o.kind = .xend kd va [x] → x.res = none → w.launch = some k →
      let r := x.region
      let ls := (r.reads ++ r.writes).map (fun c => Loc.g c.1)
      let secs := fun cs : List Host.Cell => (cs.map (fun c => c.1 / 64)).dedup
      s.held o.own o.id ls = false → s.clear w o.own o.id ls = true →
      eachSector s (fun s g => s.readSector w k g) (secs r.reads) = .ok u →
      let done := fun (code : Nat) (t : Team) =>
        let t := t.xendResult kd va [(x.lane, code)]
        { t with team := { t.team with hold := none } }
      ((∃ c ∈ r.reads, u.homeByte w c.1 ≠ c.2) → u.team? o.own.ref = some t →
        exec (.regionValidation op []) s = .next ((u.putTeam (done 3 t)).finishOp op)) ∧
      (∀ u', (∀ c ∈ r.reads, u.homeByte w c.1 = c.2) →
        eachSector u (fun s g => s.writeSector w k g (fun _ _ => false) (fun _ => false)) (secs r.writes) = .ok u' →
        u'.team? o.own.ref = some t → ∃ u'', exec (.regionValidation op []) s = .next u'' ∧
          u''.team? o.own.ref = some (done 0 t) ∧ u''.tag (r.line.getD 0) = u'.tag (r.line.getD 0) + 1 ∧
          u''.sectors = (u'.putCells r.writes).sectors))) ∧
  (∀ (s u : State) (w : Who) (k : Launch) (die core g : Nat), s.grantU w k die core g = .ok u →
    let st := s.l1State die core g
    (st = .M ∨ st = .E ∨ st = .U → u = s) ∧
    (st = .I ∨ st = .S ∨ st = .O → u.l1State die core g = .U ∧ u.windowSharers g = false ∧ (u.bufferedSectors die core).length ≤ 64 ∧
      ∀ c ∈ u.copies, c.sector = g → c.st = .U)) ∧
  (∀ (s : State) (die core : Nat), let full := s.bufferedSectors die core
    (full.length < 64 → s.evictBuffer die core = s) ∧
    ∀ old rest, full = old ++ rest → rest.length = 63 →
      s.evictBuffer die core = old.foldl (fun u g => (u.mergeU die core g).1) s) ∧
  (∀ (s : State) (die core g : Nat), s.ops.any (isCoreRed die core g) = false → s.l1State die core g = .U →
    (s.mergeU die core g).1 = { s with copies := (s.mergeU die core g).1.copies } ∧ (s.mergeU die core g).1.l1State die core g ≠ .U) ∧
  (∀ (s u : State) (die core g : Nat) (o : Op) (sub ty rnd : Nat) (seed : Word) (x : RedLane),
    s.ops.filter (isCoreRed die core g) = [o] → o.kind = .red sub ty rnd seed [x] → x.pa / 64 = g → redReady s o ty x = true →
    s.mergeLane o sub ty rnd seed x = .ok u → ∃ u', (s.mergeU die core g).1 = u' ∧ SameHomes u u' ∧ u'.exact = u.exact ∧
      (∀ y ∈ u'.ops, y.id = o.id → y.done = true) ∧
      (s.l1State die core g = .M ∨ s.l1State die core g = .E → u'.l1State die core g = .M ∧ u'.tag (g / 4) = u.tag (g / 4)) ∧
      (s.l1State die core g ≠ .M → s.l1State die core g ≠ .E → u'.l1State die core g ≠ .U ∧ u'.tag (g / 4) = u.tag (g / 4) + 1)) ∧
  (∀ (s u : State) (o : Op) (sub ty rnd : Nat) (seed : Word) (x : RedLane), s.mergeLane o sub ty rnd seed x = .ok u →
    ∃ k u', s.holder o.lv = some k ∧ s.admitWrite k (x.pa / 64) = .ok u' ∧
      u = (u'.makeTentative o.lv (x.pa / 64)).applyRed o.lv sub ty rnd seed x.va x.pa x.bits) ∧
  (∀ (s : State) (lv : BitVec 16) (ty rnd va pa : Nat) (seed x : Word),
    let bits := typeBits ty
    let n := bits / 8
    let was := tentBits (s.sectorRec (pa / 64)) pa n
    let a := BitVec.ofNat bits was
    let b := BitVec.ofNat bits x.toNat
    let pick := fun (low : Bool) =>
      let p := fdecode ty (was % 2 ^ bits)
      let q := fdecode ty (x.toNat % 2 ^ bits)
      (roundVal ty { mode := 0 } (if low then fmin p q else fmax p q)).1
    let values : List Nat := [(a + b).toNat, (if a.sle b then a else b).toNat, (if a.sle b then b else a).toNat,
      (if a.ule b then a else b).toNat, (if a.ule b then b else a).toNat, (a &&& b).toNat, (a ||| b).toNat, (a ^^^ b).toNat]
    (∀ sub < 8, s.applyRed lv sub ty rnd seed va pa x = s.putHome pa (bytesOfNat n (values.getD sub 0))) ∧
    s.applyRed lv 9 ty rnd seed va pa x = s.putHome pa (bytesOfNat n (pick true)) ∧
    s.applyRed lv 10 ty rnd seed va pa x = s.putHome pa (bytesOfNat n (pick false)) ∧
    (8 ≤ ty → ty ≤ 10 → pa % n = 0 → ∃ e c, (s.applyRed lv 8 ty rnd seed va pa x).exact.find? (fun y => y.sector = pa / 64) = some e ∧
      c ∈ e.cells ∧ c.off = pa % 64 ∧ c.ty = ty ∧
      ((s.sectorRec (pa / 64)).tbytes.wf = true →
        ((s.applyRed lv 8 ty rnd seed va pa x).sectorRec (pa / 64)).tbytes.getN pa n = bytesOfNat n (c.observe e.rnd e.seed)) ∧
      (s.exact.find? (fun y => y.sector = pa / 64) = none → s.exact.length < 4096 →
        let start := fun off => ExCell.start off ty (BitVec.ofNat 64 (va - pa % 64 + off))
          (tentBits (s.sectorRec (pa / 64)) (pa / 64 * 64 + off) n)
        e.lv = lv ∧ e.rnd = rnd ∧ e.seed = seed ∧ c = (start (pa % 64)).contribute (x.toNat % 2 ^ bits) ∧
        ∀ i < 64 / n, i * n ≠ pa % 64 → start (i * n) ∈ e.cells) ∧
      ∀ e' c', s.exact.find? (fun y => y.sector = pa / 64) = some e' →
        e'.cells.find? (fun y => y.off = pa % 64 && y.ty = ty) = some c' →
        c = c'.contribute (x.toNat % 2 ^ bits) ∧ e.rnd = e'.rnd ∧ e.seed = e'.seed)) ∧
  ∀ (c : ExCell) (x rnd : Nat) (seed va : Word) (y : ℝ), 8 ≤ c.ty → c.ty ≤ 10 → x < 2 ^ typeBits c.ty →
    ((fdecode c.ty x).isReal y → ∃ k : Int, (k : ℝ) * 2 ^ (-149 : Int) = y ∧
      (c.contribute x).v = c.v + BitVec.ofInt 320 k ∧ (ExCell.start c.off c.ty va x).v = BitVec.ofInt 320 k) ∧
    (c.nan = false → c.pinf = false → c.ninf = false → rnd ≤ 5 →
      ∃ flags, RoundsTo c.ty { mode := rnd } ((c.v.toInt : ℝ) * 2 ^ (-149 : Int)) (c.observe rnd seed, flags))

/-- R126, R257 to R262, R283 to R285, R303: a command of an engine that may start and is not paused performs the parts that an
event names: COPY, FILL and CBCAST put the bytes they read or make in flight to the addresses of their strides, CRED one
contribution for an element (misaligned arrays end the launch), MERGE one element at its home, read with its partials and written in one
step: ORDERED rounds after each partial, EXACT rounds the exact sum once. A stash side of COPY is read and written in the team's own
stash. No party sees an engine's write before its release flag shows it or it is performed; what an engine reads without the acquire
flag is its core's and die's early writes or not (the model's free choice, log 16). A fault pauses the command, or the stream, behind a
record with CTX 3, and one that service cannot resolve ends the launch; FWARM reads the sectors of its rows in turn, skips one without a
translation, leaves a copy of each in the cache of its core's fetch unit, changes no value and completes in GO order. A stream loads
its next entry, one element a lane, zero above NA, appends it unless its queue is closed, and goes on to the next one; an element that
is not single-copy atomic is read a byte at a time (R109), and while the queue is full the stream holds the words it has loaded. That a
command of a matrix context reads MD by the team's layout is the model's reading (log 36, DEDUCED). -/
def Obligations.EnginesAndStreams : Prop :=
  (∀ (s : State) (id : Nat) (c : Cmd) (t : Team) (l : Launch), c.id = id → id < s.serial → s.team? c.own.ref = some t →
    s.holder c.lv = some l → c.paused = false → c.mayRead s = true →
    let arg := fun i : Fin 4 => c.args[i].toNat
    let low := fun i => arg i % 2 ^ 32
    let high := fun i => arg i / 2 ^ 32
    let stores := fun (e : Instr) (lane : StoreLane) => ∃ u st, exec e s = .next u ∧
      (st = .engine c.acq.isSome ∨ c.rel ≠ none ∧ st = .issued) ∧
      ∃ o ∈ u.ops, o.own = c.own ∧ o.path = none ∧ o.kind = .store [{ lane with stage := st }] true [] ∧ o.done = false
    let lane := fun (p : Nat) (place : Place) (b : Nat) =>
      ({ lane := p, place := place, bytes := [BitVec.ofNat 8 b], stage := .issued } : StoreLane)
    (∀ p b place u, s.cmd? id 0 [1] = some c → p ∉ c.parts → p < low 2 * high 2 →
      let src := c.args[0] + BitVec.ofNat 64 (p / low 2 * low 3 + p % low 2)
      let dst := c.args[1] + BitVec.ofNat 64 (p / low 2 * high 3 + p % low 2)
      (c.ssp = false → engineRead s c t (some t.ref.die) (some t.ref.core) src 1 = .ok (u, b)) →
      (c.ssp = true → windowFault s t.ref src.toNat 1 false = none ∧ (∀ q ∈ s.touched t.ref src.toNat 1, q.1.sec? q.2 ≠ none) ∧ u = s ∧
        b = (stashSeen s (engineWho s c (some t.ref.die) (some t.ref.core) src.toNat) t.ref src.toNat).toNat) →
      (c.dsp = false → ∃ pa, u.resolveFor t { w := true } dst = .ok pa ∧ place = .glob dst.toNat pa) →
      (c.dsp = true → windowFault u t.ref dst.toNat 1 true = none ∧ place = .stash t.ref dst.toNat) →
      stores (.copy id [p]) (lane p place b)) ∧
    (∀ p pa, s.cmd? id 0 [2] = some c → p ∉ c.parts → p < low 2 * high 2 →
      let dst := c.args[0] + BitVec.ofNat 64 (p / low 2 * high 3 + p % low 2)
      s.resolveFor t { w := true } dst = .ok pa →
      stores (.fill id [p]) (lane p (.glob dst.toNat pa) (arg 1 / 2 ^ (8 * (p % low 2 % 8))))) ∧
    (∀ p code, s.cmd? id 0 [2] = some c → p ∉ c.parts → p < low 2 * high 2 →
      let dst := c.args[0] + BitVec.ofNat 64 (p / low 2 * high 3 + p % low 2)
      s.resolveFor t { w := true } dst = .error code → exec (.fill id [p]) s =
        .next (sideFault ((s.putCmd c).putCmd { c with paused := serviced code dst }) t 0 id code dst true)) ∧
    (∀ p b pa u, s.cmd? id 2 [2] = some c → p ∉ c.parts → p < low 2 * high 3 →
      let src := c.args[0] + BitVec.ofNat 64 (p % low 2)
      let dst := c.args[1] + BitVec.ofNat 64 (p / low 2 * low 3 + p % low 2)
      engineRead s c t (some t.ref.die) none src 1 = .ok (u, b) → u.resolveFor t { w := true } dst = .ok pa →
      stores (.cbcast id [p]) (lane p (.glob dst.toNat pa) b)) ∧
    (∀ p x pa u, s.cmd? id 2 [1] = some c → p ∉ c.parts → p < arg 2 →
      let n := typeBits (mdType c.md) / 8
      let dst := c.args[1] + BitVec.ofNat 64 (p * n)
      (arg 0 % n ≠ 0 ∨ arg 1 % n ≠ 0 → exec (.cred id [p]) s = .next ((s.putCmd c).requestAbort l.sid 0x42)) ∧
      (arg 0 % n = 0 → arg 1 % n = 0 →
      engineRead s c t (some t.ref.die) none (c.args[0] + BitVec.ofNat 64 (p * n)) n = .ok (u, x) →
      u.resolveFor t { w := true } dst = .ok pa → ∃ u', exec (.cred id [p]) s = .next u' ∧ ∃ o ∈ u'.ops, o.own = c.own ∧
        o.kind = .red c.opf (mdType c.md) (mdRnd c.md) l.lrec.seed
          [{ lane := p, va := dst.toNat, pa := pa, bits := BitVec.ofNat 64 x }] ∧ o.done = false)) ∧
    (∀ p u, s.cmd? id 3 [2] = some c → p ∉ c.parts → p < arg 3 → mergePart c (mergeCount s (some l) (arg 1)) t s p = .ok u [] [] →
      ∃ u', exec (.merge id [p]) s = .next u' ∧ u'.sectors = u.sectors ∧ u'.tags = u.tags ∧ u'.mem = u.mem ∧
        ∀ y ∈ u'.cmds, y.id = id → p ∈ y.parts) ∧
    (∀ rows u, s.cmd? id 1 [1] = some c →
      rows = (match c.handle with | some h => if 0 ∈ c.parts then [] else h.sectorVas (arg 1) (arg 2) | none => []) →
      (∀ va code w, warmSectors t s rows = .error (.faults code va w) → exec (.fwarm id) s =
        .next (sideFault ((s.putCmd c).putCmd { c with paused := serviced code va }) t 1 id code va w)) ∧
      (warmSectors t s rows = .ok u → (∀ x ∈ u.cmds, x.own.ref = c.own.ref → x.engine = c.engine → id ≤ x.id) →
        (∀ sc, c.rel = some sc → writesPerformed u c sc = true) → stashWritten u c = true →
        ∃ u', exec (.fwarm id) s = .next u' ∧ u'.cmds = u.cmds.filter (fun x => x.id ≠ id) ∧ SameHomes u u' ∧ u'.exact = u.exact ∧
          u'.teams = u.teams ∧ ∀ o ∈ u'.ops, o.id = id → o.done = true))) ∧
  (∀ (s u : State) (t : Team) (va : Word) (pa : Nat) (k : Launch) (rest : List Word),
    let noted := s.noteTeam t [va.toNat]
    let who := noted.whoOf t
    warmSectors t s [] = .ok s ∧
    (noted.resolveFor t { r := true } va = .error .pageNotPresent → warmSectors t s (va :: rest) = warmSectors t noted rest) ∧
    (∀ code, noted.resolveFor t { r := true } va = .error code → code ≠ .pageNotPresent →
      warmSectors t s (va :: rest) = .error (.faults code va false)) ∧
    (noted.resolveFor t { r := true } va = .ok pa → who.launch = some k → noted.readSector who k (pa / 64) = .ok u →
      ∃ u', warmSectors t s (va :: rest) = warmSectors t u' rest ∧ SameHomes u u' ∧ u'.l1State t.ref.die t.ref.core (pa / 64) ≠ .I)) ∧
  (∀ (s noted u : State) (c : Cmd) (t : Team) (die core : Option Nat) (va : Word) (pa : Nat) (k : Launch),
    noted = s.engineWalk t core [va.toNat] → noted.resolveFor t { r := true } va = .ok pa → noted.holder c.lv = some k →
    let w := engineWho noted c die core pa
    (c.acq ≠ none → w = { launch := some k, die := die, core := core }) ∧
    (w = { launch := some k, die := die, core := core } ∨ w = { launch := some k, die := none, core := none }) ∧
    (noted.readSector w k (pa / 64) = .ok u → engineRead s c t die core va 1 = .ok (u, (u.seenByte w pa).toNat))) ∧
  (∀ (s : State) (t : Team) (lane cmd : Nat) (code : FaultCode) (addr : Word) (w : Bool), ∃ r : ParkRec,
    r.sid = t.launch ∧ r.tcode = 0 ∧ r.code = code.toNat ∧ r.ctx = 3 ∧ r.team = t.t ∧ r.lane = lane ∧ r.w = w ∧ r.addr = addr ∧ r.cmd = cmd ∧
    r.svc = serviced code addr ∧
    sideFault s t lane cmd code addr w = if r.svc then s.raiseRecord r else (s.raiseRecord r).deny code t.launch (s.lostWalk code t.launch addr)) ∧
  (∀ (s : State) (c : Cmd) (t : Team) (i count : Nat), (count = 0 → mergePart c count t s i = .ok s [] []) ∧
    ∀ (pa master : Nat) (part : Nat → Nat) (st : Nat → State) (l : Launch) (u : State),
      let ty := mdType c.md
      let n := typeBits ty / 8
      let size := if c.opf = 0 then 96 else n
      let va := c.args[0] + BitVec.ofNat 64 (i * n)
      0 < count → 0 < n → engineRead s c t none none va n = .ok (st 0, master) →
      (∀ j < count, engineRead (st j) c t none none (c.args[2] + BitVec.ofNat 64 ((j * c.args[3].toNat + i) * size)) size =
        .ok (st (j + 1), part j)) →
      (∀ k < n, (st count).resolveFor t { w := true } (va + BitVec.ofNat 64 k) = .ok (pa + k)) → pa / 64 = (pa + n - 1) / 64 →
      (st count).holder c.lv = some l →
      (st count).writeSector { launch := some l, die := none, core := none } l (pa / 64) (fun _ _ => false) (fun _ => false) = .ok u →
      let value := mergeValue c.opf ty (mdRnd c.md) l.lrec.seed va master ((List.range count).map part)
      mergePart c count t s i = .ok ((u.putCells ((List.range n).map (fun k => (pa + k, BitVec.ofNat 8 (value / 256 ^ k))))).bumpTag
        (pa / 64 / 4)) [] []) ∧
  (∀ (ty rnd master : Nat) (seed va : Word) (ps : List Nat) (p : Nat) (y : ℝ) (k : Nat → Int), 8 ≤ ty → ty ≤ 10 → rnd ≤ 5 →
    mergeValue 1 ty rnd seed va master [] = master ∧
    (let r : Rnd := { mode := rnd, u := if rnd = 5 then rsxDraw seed va 0 (BitVec.ofNat 64 ps.length) else 0 }
     mergeValue 1 ty rnd seed va master (ps ++ [p]) =
      (roundVal ty r (fadd rnd (fdecode ty (mergeValue 1 ty rnd seed va master ps)) (fdecode ty p)).1).1) ∧
    ((fdecode ty master).isReal y → (∀ i (h : i < ps.length), -(2 : Int) ^ 600 < k i ∧ k i < 2 ^ 600 ∧
        Xa.ofRecord (bytesOfNat 96 ps[i]) = { v := BitVec.ofInt 640 (k i), pinf := false, ninf := false, nan := false }) →
      ps.length ≤ 4096 → ∃ flags, RoundsTo ty { mode := rnd } (y + ((List.range ps.length).map (fun i => (k i : ℝ) * 2 ^ (-298 : Int))).sum)
        (mergeValue 0 ty rnd seed va master ps, flags))) ∧
  ∀ (s : State) (t : Team) (r : TeamRef), s.team? r = some t →
    (∀ (q : Fin 4) x, (t.queue q).stream = some x → x.paused = false →
      opsSettled s (fun y => y == { ref := t.ref, kind := .access }) true true .device x.upto = true →
      let ev : Instr := .streamEntryAppend t.ref.die t.ref.core t.ref.slot q
      let oq := t.queue q
      (∀ u y, streamWords t s x (t.nl - x.words.length) = (u, y, some .waits) →
        exec ev s = .next (u.putTeam (t.setQueue q { oq with stream := some y }))) ∧
      (∀ u y, streamWords t s x (t.nl - x.words.length) = (u, y, none) →
        (oq.closed = true → exec ev s = .next (u.putTeam { t.setQueue q { oq with stream := y.next } with progress := u.time })) ∧
        (oq.closed = false → oq.entries.length < t.qdepth → exec ev s = .next (u.putTeam { t.setQueue q
          { oq with entries := oq.entries ++ [y.words], stream := y.next } with progress := u.time })) ∧
        (oq.closed = false → t.qdepth ≤ oq.entries.length → exec ev s =
          .next (u.putTeam (t.setQueue q { oq with stream := some y })))) ∧
      ∀ u y code va, streamWords t s x (t.nl - x.words.length) = (u, y, some (.faults code va)) →
        let t' := t.setQueue q { oq with stream := some { y with paused := true } }
        exec ev s = .next (sideFault (u.putTeam t') t' (4 + q.val) 0 code va false)) ∧
    (∀ (x : Stream) (n : Nat), let read := streamWord s t x x.words.length
      streamWords t s x 0 = (s, x, none) ∧
      (∀ u y, read = .word u y → streamWords t s x (n + 1) = streamWords t u { x with words := x.words ++ [y], part := [] } n) ∧
      (∀ u b, read = .byte u b → streamWords t s x (n + 1) = (u, { x with part := x.part ++ [b] }, some .waits)) ∧
      (∀ u, read = .waits u → streamWords t s x (n + 1) = (u, x, some .waits)) ∧
      (∀ code va, read = .faults code va → streamWords t s x (n + 1) = (s, x, some (.faults code va)))) ∧
    ∀ (x : Stream) (l : Nat),
      let a := fun i => (x.desc.getD i 0).toNat
      let step := fun i => (x.desc.getD i 0).toInt
      let n := 2 ^ (a 6 / 2 ^ 34 % 4)
      let at_ := BitVec.ofInt 64 ((a 0 : Int) + x.i2 * step 4 + x.i1 * step 3 + x.i0 * step 2 + l * step 1)
      let lane := fun m => if (a 6).testBit 36 then (BitVec.ofNat (8 * n) m).signExtend 32 else BitVec.ofNat 32 m
      let acc : CtxRef := { ref := t.ref, kind := .access }
      (a 7 % 2 ^ 11 ≤ l → streamWord s t x l = .word s 0) ∧
      (l < a 7 % 2 ^ 11 → n ≤ 4 → (a 6).testBit 32 = false → ∀ pa k u, (s.noteTeam t [at_.toNat]).resolveFor t { r := true } at_ = .ok pa →
        (s.whoOf t).launch = some k → (s.noteTeam t [at_.toNat]).readSector (s.whoOf t) k (pa / 64) = .ok u →
        streamWord s t x l = .word (u.observeAt (s.whoOf t) acc (x.upto - 1) ((List.range n).map (fun i => Loc.g (pa + i))))
          (lane (natOfBytes (u.seenBytes (s.whoOf t) pa n)))) ∧
      (l < a 7 % 2 ^ 11 → n ≤ 4 → (a 6).testBit 32 = true →
        let off := at_.toNat
        let seen := fun (u : State) i => stashSeen u (s.whoOf t) t.ref (off + i)
        (∀ q ∈ s.touched t.ref off n, q.1.sec? q.2 ≠ none) →
        (s.isWhole (.stash t.ref off) n = true → streamWord s t x l =
          .word (s.observeAt (s.whoOf t) acc (x.upto - 1) (s.locs (.stash t.ref off) n)) (lane (natOfBytes ((List.range n).map (seen s))))) ∧
        (s.isWhole (.stash t.ref off) n = false → let i := x.part.length
          let u := s.observeAt (s.whoOf t) acc (x.upto - 1) (s.locs (.stash t.ref (off + i)) 1)
          (i + 1 < n → streamWord s t x l = .byte u (seen u i)) ∧
          (n ≤ i + 1 → streamWord s t x l = .word u (lane (natOfBytes (x.part ++ [seen u i]))))))

/-! ### Placing teams and the life of a slot (R15 to R17, R34, R43, R48 to R50, R137, R140) -/

/-- R15, R16, R17, R24, R34, R43, R48 to R50, R137, R140, R199, R305: a cluster that waits on a die in service, whose predecessors'
teams are done, goes to the rectangle of cores named, which have room for a team each, whatever they hold already: the team of each rank
to the core of that rank, into its lowest free slot (log 36).
Each team is READY, at the tail of the ready queue in rank order: its PC is the entry of its kernel, s1 on hold the arguments, s63
STASH, every other scalar, every vector register and k1 to k15 are zero, and k0 and LIVE hold the NL lanes; its bound contexts start
alike. Memory, sectors and the other teams stay, and a launch that DRAIN held back for this one is held no longer. A WAITING team whose
event has come (a counter at its threshold, an entry in its queue, room for a GO, a result written) becomes READY at the tail of the
ready queue; the head of a core's queue enters an active set of fewer than 8, and waits before one of 8; an ACTIVE team rotates to the
tail while others of its core are ready; a DRAINING team leaves once its six in-flight counters read zero, no arrival is left that it or
another has made there, and its bound contexts have ended, whatever other teams' accesses to its stash and engine writes that raise no
counter are still under way. Memory and the other teams stay as they are. -/
def Obligations.PlacementAndSlots : Prop :=
  (∀ (s : State) (launch cluster col row die : Nat) (cores : List Nat) (l : Launch), s.launch? launch = some l → l.st = .running →
     cluster ∈ l.unplaced → l.lrec.dieOf cluster = some die → mayStart s l = true → heldBack s l die = false →
     dieServes s die = true → rectangle (s.die die) (l.coreSet die) l.lrec.cw l.lrec.ch col row = some cores → cores.Nodup →
     let there := fun core => s.teams.filter (fun t => t.ref.die = die && t.ref.core = core)
     let total := fun (core : Nat) (f : Team → Nat) => ((there core).map f).sum
     let stray := fun core => ((s.maps.filter (fun m => m.die = die && m.core = core && strayWindow s m)).map MapEntry.len).sum
     (∀ core ∈ cores, (∃ i < 16, s.team? { die := die, core := core, slot := i } = none) ∧
       total core (fun t => t.nl * t.nv * 4) + l.lrec.nl * l.lrec.nv * 4 ≤ 1048576 ∧
       total core (fun t => t.stashLen + t.nq * t.qdepth * t.nl * 4) + stray core +
         (l.lrec.stash + l.lrec.nq * l.lrec.qdepth * l.lrec.nl * 4) ≤ 786432 ∧
       total core (fun t => t.nacc) + l.lrec.nacc ≤ 4 ∧ (l.lrec.mctx = true → (there core).countP (fun t => t.matrix.isSome) < 4) ∧
       (l.lrec.actx = true → (there core).countP (fun t => t.access.isSome) < 8)) →
     l.args.length ≤ 32 → ∀ slot : Nat → Nat,
     let ref := fun core => ({ die := die, core := core, slot := slot core } : TeamRef)
     (∀ core ∈ cores, slot core < 16 ∧ s.team? (ref core) = none ∧
       ∀ i < slot core, s.team? { die := die, core := core, slot := i } ≠ none) →
     let started := fun (c : Ctx) (off : Nat) =>
       c.pc = l.lrec.kdesc + BitVec.ofNat 64 off ∧ c.rgnpc = c.pc ∧ c.isc = 0 ∧ c.rgncnt = 0 ∧ c.run = .running ∧ c.windows = [] ∧
       ∀ n : Fin 64, c.getS n =
         if n = 63 then BitVec.ofNat 64 l.lrec.stash else if n = 0 then 0 else l.args.getD (n.val - 1) 0
     ∃ u ts k, exec (.teamPlacement launch cluster col row) s = .next u ∧ u.launch? launch = some k ∧
       ts.length = cores.length ∧ u.teams = s.teams ++ ts ∧ u.readyQ = s.readyQ ++ cores.map ref ∧
       (∀ rank (h : rank < cores.length), ∃ t, ts[rank]? = some t ∧ u.team? (ref cores[rank]) = some t ∧ t.slot = .ready ∧
         t.t = cluster * (l.lrec.cw * l.lrec.ch) + rank ∧ t.launch = launch ∧ t.lv = l.lv ∧ t.nl = l.lrec.nl ∧ t.nv = l.lrec.nv ∧
         t.live = lanesBelow t.nl ∧ t.k[0] = lanesBelow t.nl ∧ (∀ n : Fin 16, n ≠ 0 → t.k[n] = 0) ∧
         t.v = List.replicate t.nv (List.replicate t.nl 0) ∧ t.stash = [] ∧ started t.team l.teamoff ∧
         (l.lrec.mctx = true → ∃ c, t.matrix = some c ∧ started c l.matoff) ∧ (l.lrec.mctx = false → t.matrix = none) ∧
         (l.lrec.actx = true → ∃ c, t.access = some c ∧ started c l.accoff) ∧ (l.lrec.actx = false → t.access = none)) ∧
       k.unplaced = l.unplaced.filter (· ≠ cluster) ∧ (∀ x ∈ u.hub.launches, (die, launch) ∉ x.held) ∧ u.mem = s.mem ∧
       u.sectors = s.sectors ∧ (s.former = [] → u.ops = (cores.foldl (fun s core => s.forgetObserver (ref core)) s).ops)) ∧
  (∀ (s : State) (die core slot : Nat) (t : Team), s.team? { die := die, core := core, slot := slot } = some t →
     let r : TeamRef := { die := die, core := core, slot := slot }
     let readied : State := { s.putTeam { t with slot := .ready } with readyQ := s.readyQ ++ [r] }
     let active := s.teams.countP (fun x => x.ref.die == die && x.ref.core == core && x.slot == .active)
     let come := (∃ p n, t.slot = .waiting (.waitc p n) ∧ s.counter r p ≤ n) ∨
       (∃ op, t.slot = .waiting (.boundary op) ∧ s.written op = true) ∨
       (∃ q, t.slot = .waiting (.vpop q) ∧ (t.queue q).entries ≠ []) ∨
       (∃ e, t.slot = .waiting (.goFull e) ∧ s.cmdCount r e < 16) ∨
       (∃ b off p, t.slot = .waiting (.bwait b off p) ∧ phaseOver s b off p = true) ∨
       (t.slot = .waiting .cbarw ∧ clusterMet s t = true)
     (come → exec (.teamWake die core slot) s = .next readied) ∧
     (∀ p n, t.slot = .waiting (.waitc p n) → n < s.counter r p → exec (.teamWake die core slot) s = .next s) ∧
     (s.readyQ.find? (fun x => x.die = die && x.core = core) = some r →
       (active < 8 → exec (.activeEntry die core) s =
         .next { s.putTeam { t with slot := .active } with readyQ := s.readyQ.erase r }) ∧
       (8 ≤ active → exec (.activeEntry die core) s = .next s)) ∧
     (t.slot = .active → (∃ x ∈ s.readyQ, x.die = die ∧ x.core = core) → exec (.rotation die core slot) s = .next readied) ∧
     (t.slot = .active → (∀ x ∈ s.readyQ, x.die = die → x.core ≠ core) → exec (.rotation die core slot) s = .next s) ∧
     (t.slot = .draining → (∀ c, t.matrix = some c ∨ t.access = some c → c.run = .ended) → t.cbar.pending = none →
       (∀ a ∈ s.arrivals, a.owner ≠ r ∧ a.by_.ref ≠ r) →
       ((∀ o ∈ s.ops, o.own.ref = r → o.path = none) → ∃ u, exec (.drainingExit die core slot) s = .next u ∧ u.team? r = none ∧
         (∀ x, x ≠ r → u.team? x = s.team? x) ∧ u.mem = s.mem ∧ u.sectors = s.sectors ∧ u.maps = s.maps ∧ u.readyQ = s.readyQ) ∧
       ((∃ o ∈ s.ops, o.own.ref = r ∧ o.path ≠ none) → exec (.drainingExit die core slot) s = .next s)))

/-! ### Commit and abort (R142, R143, R149 to R155, R364, R383) -/

/-- R143, R149, R150, R324, R364, R383: DONE, PREPARE, the acknowledgement of back-invalidations, READY and COMMIT of one die move
a launch through its commit as the message sequence says: PREPARE frees its mapping entries on the die and marks its sectors
there PREPARED; READY takes the next CSN and passes the commit point; COMMIT makes exactly the launch's tentative bytes homed
on the die the committed ones, and every open launch still fetches the code that was committed at its own admission (R115); that it
waits while an access in flight has translated by a table entry that it changes is log 49 (DEDUCED). Tentative data of a fenced die ends the
launch at PREPARE or READY with ABORT_DIE_LOST (R386), and what a committed segment wrote to a die fenced past the commit point is lost
there and ends no later segment by itself. With every acknowledgement the Windlass works first
and may hold the commit; then the next segment proceeds, placed afresh from the clusters of its part of the grid (unless a cause came
after the commit point, which ends it there), and the last one ends the launch with COMMITTED. Its outcome is counted, and the 64
bytes of its completion record hold LID, pinned version, segment, retries, status, CSN, both times and LID again. -/
def Obligations.SegmentsCommit : Prop :=
  (∀ (s : State) (launch die : Nat) (l : Launch), s.launch? launch = some l →
     let ours := fun (r : SectorRec) => r.tent = true ∧ r.lv = l.lv ∧ dieOf (64 * r.sector) = die
     let lost := ∃ r ∈ s.sectors, r.tent = true ∧ r.lv = l.lv ∧ dieOf (64 * r.sector) < 8 ∧ (s.die (dieOf (64 * r.sector))).fenced = true
     (l.st = .running → die ∈ liveDies s → die ∉ l.doneDies → (∀ c ∈ l.unplaced, l.lrec.dieOf c ≠ some die) →
       (∀ t ∈ s.teams, t.launch = launch → t.ref.die ≠ die) → (∀ x ∈ s.hub.saved, x.launch = launch → x.die ≠ die) →
       exec (.doneReport launch die) s = .next (s.putLaunch { l with doneDies := l.doneDies ++ [die] })) ∧
     (l.st = .running ∨ l.st = .preparing → (∀ d ∈ liveDies s, d ∈ l.doneDies) → (∀ k ∈ s.hub.launches, precedes k l = false) →
       die ∈ liveDies s → die ∉ l.prepDies → (∀ o ∈ s.ops, o.lv = l.lv → o.own.ref.die = die → o.done = true) →
       (lost → exec (.prepare launch die) s = .next (s.requestAbort launch 0x45)) ∧
       (¬ lost → ∃ u, exec (.prepare launch die) s = .next u ∧ (∀ m ∈ u.maps, m.lv = l.lv → m.die ≠ die) ∧
         (∀ r ∈ u.sectors, ours r → r.prep = true) ∧
         ((∀ m ∈ s.maps, m.secs = []) → ∃ k, u.launch? launch = some k ∧ k.st = .preparing ∧
           k.prepDies = l.prepDies ++ [die]))) ∧
     (l.st = .preparing → die ∈ l.prepDies → die ∉ l.biDies →
       exec (.backInvalidationAck launch die) s = .next (s.putLaunch { l with biDies := l.biDies ++ [die] })) ∧
     (l.st = .preparing → (∀ d ∈ liveDies s, d ∈ l.prepDies ∧ d ∈ l.biDies) → lost →
       exec (.ready launch) s = .next (s.requestAbort launch 0x45)) ∧
     (l.st = .preparing → (∀ d ∈ liveDies s, d ∈ l.prepDies ∧ d ∈ l.biDies) → ¬ lost → ∃ u k, exec (.ready launch) s = .next u ∧
       u.launch? launch = some k ∧ k = { l with st := .committing, csn := s.hub.csn, ackDies := [] } ∧ u.hub.csn = s.hub.csn + 1 ∧
       u.hub.commitLog = s.hub.commitLog ++ [(l.lv, s.hub.csn)] ∧ (∀ x, x ≠ launch → u.launch? x = s.launch? x)) ∧
     (let mine := (s.sectors.filter (fun r => r.tent && r.lv = l.lv && dieOf (64 * r.sector) = die)).map (·.sector)
      l.st = .committing → die ∈ liveDies s → die ∉ l.ackDies →
       (s.tableUsers mine ≠ [] → (∀ o ∈ s.ops, s.awaits l.lv o = false) → exec (.commit launch die) s = .next s) ∧
       (s.tableUsers mine = [] → MemoryCanonical s → (s.sectors.map (·.sector)).Nodup →
       ∃ u, exec (.commit launch die) s = .next u ∧ (∀ r ∈ u.sectors, ¬ ours r) ∧ (∀ k ∈ u.walks, ∀ g ∈ mine, k.line ≠ g / 4) ∧
         (∀ adm pa, adm ≤ s.hub.adm → dieOf pa < 8 → u.codeByte adm pa = s.codeByte adm pa) ∧
         (∀ pa, let r := s.sectorRec (pa / 64)
           (ours r → committed u pa = r.tbytes.get pa) ∧ (¬ ours r → committed u pa = committed s pa)) ∧
         ∃ k, u.launch? launch = some k ∧ k.ackDies = l.ackDies ++ [die] ∧ k.st = .committing))) ∧
  ((∀ (s : State) (launch : Nat) (bad : List (Nat × Nat × Nat × Nat)) (l : Launch), s.launch? launch = some l → l.st = .committing →
     (∀ d ∈ liveDies s, d ∈ l.ackDies) →
     let fresh := l.tokens ≠ [] ∨ l.written ≠ []
     let w := windlassCommit s l l.csn l.written bad
     (fresh → windlassWaits s l = true → exec (.commitAck launch bad) s = .next s) ∧
     ((fresh → windlassWaits s l = false) → ∀ k0, w.launch? launch = some k0 →
       let k := { k0 with tokens := [], written := [] }
       let counted : State := countOutcome ((w.putLaunch k).dropLost k.lv) 0
       (windlassWaits (w.putLaunch k) k = true → exec (.commitAck launch bad) s = .next (w.putLaunch k)) ∧
       (windlassWaits (w.putLaunch k) k = false →
         (k.seg + 1 < k.lrec.nseg →
           let started := counted.putLaunch { k with
             st := .running, seg := k.seg + 1, unplaced := segmentClusters k.lrec (k.seg + 1), doneDies := [], prepDies := []
             biDies := [], ackDies := [], later := none, lastProgress := counted.time }
           (k.later = none → exec (.commitAck launch bad) s = .next (retireAll started)) ∧
           (∀ status, k.later = some status → exec (.commitAck launch bad) s =
             .next (retireAll (started.requestAbort launch status)))) ∧
         (k.lrec.nseg ≤ k.seg + 1 → ∃ u, exec (.commitAck launch bad) s = .next u ∧ u.launch? launch = none ∧
           (w.hub.outcomes[0] ≠ BitVec.allOnes 64 → u.hub.outcomes[0] = w.hub.outcomes[0] + 1) ∧
           (k.hostmem = true → ∀ x, x ≠ launch → u.launch? x = w.launch? x))))) ∧
   (∀ (s : State) (launch : Nat) (bad : List (Nat × Nat × Nat × Nat)) (l : Launch), s.launch? launch = some l → l.st = .committing →
     (∃ d ∈ liveDies s, d ∉ l.ackDies) → exec (.commitAck launch bad) s = .next s) ∧
   ∀ (l : Launch) (status : Nat) (now : Word), status < 256 → l.seg < 256 → l.rused < 256 →
     let word := fun i : Nat => natOfBytes (((completionBytes l status now).drop (8 * i)).take 8)
     (completionBytes l status now).length = 64 ∧ word 0 = l.lrec.lid.toNat ∧ word 7 = l.lrec.lid.toNat ∧
     bits (word 1) 7 0 = status ∧ bitAt (word 1) 8 = l.exactLost ∧ bits (word 1) 23 16 = l.rused ∧ bits (word 1) 31 24 = l.seg ∧
     bits (word 1) 63 32 = (match l.pin with | some (_, v) => v % 2 ^ 32 | none => 0xFFFFFFFF) ∧ word 2 = l.csn.toNat ∧
     word 3 = l.tadm.toNat ∧ word 4 = now.toNat ∧ word 5 = 0 ∧ word 6 = 0)

/-- R139, R143, R147, R148, R150, R151 to R154, R155: ABORT at a die frees the slots of the launch there, drops its operations, commands and
windows, and returns its sectors to their committed state, which no byte leaves; their Cistern space awaits reclaim. With every
acknowledgement of the dies in service, and nothing of it left on the others, the hub re-queues a launch whose cause and retries allow it
(a lost die only one that has no range there), with one retry fewer but for ABORT_DEPENDENCY, and ends it otherwise, which fails its stream and ends unrun a launch that waits on it; one with a KILL pending ends with ABORT_KILLED, one
whose predecessor has failed with ABORT_DEPENDENCY. An eviction puts a tentative sector that is not prepared into the Cistern of its
home, or aborts with ABORT_OVERFLOW the launch above its quota, or the youngest one there when the Cistern is full, space that awaits
reclaim included; a copyback takes a committed value out of it, and no committed byte changes; the lazy reclaim frees the space and
the tag; an overflowed read mark goes once no launch of its bound is open. An
abort marks its launch, if it runs or prepares, and with it every admitted same-stream successor, which waits for the final outcomes of
the admitted ones before it; past the commit point a conflict, an overflow or a host write is void, and no later cause replaces the
first. -/
def Obligations.AbortsAndCistern : Prop :=
  (∀ (s : State) (launch die status : Nat) (l : Launch), s.launch? launch = some l → l.st = .aborting status →
     (die ∈ liveDies s → die ∉ l.ackDies → (s.sectors.map (·.sector)).Nodup →
       ∃ u k, exec (.abort launch die) s = .next u ∧ u.launch? launch = some k ∧ k = { l with ackDies := l.ackDies ++ [die] } ∧
         (∀ t ∈ u.teams, t.launch = launch → t.ref.die ≠ die) ∧
         (∀ t ∈ s.teams, t.launch ≠ launch ∨ t.ref.die ≠ die → t ∈ u.teams) ∧
         (∀ o ∈ u.ops, o.lv = l.lv → o.own.ref.die ≠ die) ∧ (∀ c ∈ u.cmds, c.lv = l.lv → c.own.ref.die ≠ die) ∧
         (∀ m ∈ u.maps, m.lv = l.lv → m.die ≠ die) ∧
         (∀ r ∈ u.sectors, r.tent = true → r.lv = l.lv → dieOf (64 * r.sector) ≠ die) ∧
         (∀ r ∈ s.sectors, r.tent = true → r.lv = l.lv → r.cis = true → dieOf (64 * r.sector) = die → (l.lv, r.sector) ∈ u.dead) ∧
         (∀ pa, committed u pa = committed s pa) ∧ u.mem = s.mem) ∧
     ((∀ d ∈ liveDies s, d ∈ l.ackDies) →
       let causes := ([0x40, 0x43, 0x44, 0x48] : List Nat)
       let again := status = 0x47 ∨ (l.retriesLeft ≠ 0 ∧ (status ∈ causes ∨ status = 0x45 ∧ lostRange s l = false))
       let final := status ∈ [0x41, 0x42, 0x46] ∨ (l.retriesLeft = 0 ∧ (status ∈ causes ∨ status = 0x45)) ∨
         (status = 0x45 ∧ lostRange s l = true)
       let left := dropFenced s l
       (liveDies s = List.range 8 → left = s) ∧
       (∀ t ∈ left.teams, t.launch = launch → t.ref.die < 8 → t.ref.die ∈ liveDies s) ∧
       (again → l.killPending = false → l.doomed = false →
         let c := countOutcome left (outcomeIx status)
         exec (.abortAck launch) s = .next (retireAll (((State.putLaunch
           { c with hub := { c.hub with busyTags := l.lv :: c.hub.busyTags } }
           { l with
             st := .waiting, lv := 0, unplaced := [], doneDies := [], prepDies := [], biDies := [], ackDies := [], tokens := []
             written := [], readFrames := [], later := none
             retriesLeft := if status = 0x47 then l.retriesLeft else l.retriesLeft - 1
             rused := if status = 0x47 then l.rused else l.rused + 1 }).forgetTag l.lv).pruneCode))) ∧
       (status ≠ 0 → final ∨ l.killPending = true ∨ l.doomed = true → ∃ u, exec (.abortAck launch) s = .next u ∧ u.launch? launch = none ∧
         (u.stream l.func l.lrec.stream).failed = true ∧
         ∀ x, s.hub.launches = [l, x] → x.sid ≠ launch → x.st = .waiting → dependsOn x l = true → u.hub.launches = []))) ∧
  (∀ (s : State) (sector : Nat),
     let r := s.sectorRec sector
     let die := dieOf (64 * sector)
     let inside := (s.sectors.filter (fun x => x.cis && dieOf (64 * x.sector) = die)).length +
       (s.dead.filter (fun p => dieOf (64 * p.2) = die)).length
     (r.tent = false ∨ r.cis = true ∨ r.prep = true → exec (.cisternEvict sector) s = .next s) ∧
     (∀ l, r.tent = true → r.cis = false → r.prep = false → s.holder r.lv = some l →
       let used := (s.sectors.filter (fun x => x.tent && x.cis && x.lv = l.lv)).length
       (l.lrec.quota ≠ 0 → l.lrec.quota ≤ used → exec (.cisternEvict sector) s = .next (s.requestAbort l.sid 0x41)) ∧
       (l.lrec.quota = 0 ∨ used < l.lrec.quota →
         (inside < s.hub.cisSize[Fin.ofNat 8 die] / 64 → exec (.cisternEvict sector) s = .next (s.setRec { r with cis := true })) ∧
         (∀ k, s.hub.cisSize[Fin.ofNat 8 die] / 64 ≤ inside → youngestIn s die = some k →
           exec (.cisternEvict sector) s = .next (s.requestAbort k.sid 0x41)))) ∧
     (r.tent = false → MemoryCanonical s → ∃ u, exec (.cisternCopyback sector) s = .next u ∧
       (u.sectorRec sector).comC = false ∧ ∀ pa, committed u pa = committed s pa) ∧
     (∀ lv, lv ∈ s.hub.busyTags → exec (.cisternLazyReclaim lv) s = .next { s with
       dead := s.dead.filter (fun p => p.1 ≠ lv), hub := { s.hub with busyTags := s.hub.busyTags.filter (· ≠ lv) } }) ∧
     (r.rovf = true → (∀ l ∈ s.hub.launches, l.isOpen = true → l.lv ∉ r.bound) →
       exec (.readMarkClear sector) s = .next (s.setRec { r with rmk := false, rovf := false, rlv := 0, bound := [] })) ∧
     (∀ l ∈ s.hub.launches, r.rovf = true → l.isOpen = true → l.lv ∈ r.bound → exec (.readMarkClear sector) s = .next s)) ∧
  ∀ (s : State) (sid status y : Nat) (l x : Launch), s.launch? sid = some l → s.launch? y = some x →
    let after := (s.requestAbort sid status).launch? y
    (l.st = .running ∨ l.st = .preparing →
      (y = sid → after = some { x with st := .aborting status }) ∧
      (y ≠ sid → precedes l x = false → after = some x) ∧
      (y ≠ sid → precedes l x = true → x.st = .running ∨ x.st = .preparing →
        ∃ last, after = some { x with st := .aborting 0x47, after := some last } ∧ sid ≤ last ∧
          ∀ k ∈ s.hub.launches, k.isOpen = true → precedes l k = true → precedes k x = true → k.sid ≤ last)) ∧
    (l.st = .committing → status = 0x40 ∨ status = 0x41 ∨ status = 0x48 → after = some x) ∧
    (∀ first, l.st = .aborting first → s.requestAbort sid status = s)

/-! ### The command processor (R136 to R139, R152, R324, R359 to R362) -/

/-- R136, R152, R359 to R362: the queue served next is one of the highest QPRIO among those that may be served, the next number after
the one served last at that QPRIO, or the lowest. Its entry: a NOP passes; a KILL ends a waiting launch unrun, aborts a running one with
ABORT_KILLED and no retry, past a commit point only before the launch's next segment, and has no effect without a launch; RELEASE_STREAM
clears the stream's failure and its version hold; a LAUNCH joins the waiting launches, is refused when its record breaks R136,
and stops the queue when its record cannot be read, as a reserved OP does. CI moves past an entry that is taken and stays at
one that stops the queue. That a misaligned ARG of LAUNCH stops the queue, that ARG[63:32] of RELEASE_STREAM is ignored, and that QERR
leaves PI as it was, is log 26 (DEDUCED). A doorbell store sets PI within the ring and stops the queue when it runs ahead of it or backwards;
writing EN = 1 enables a queue with PI, CI and QERR clear, and is ignored with CFGERR when its (FUNC, LIDX) belongs to another
enabled queue, or LOG2N or FUNC lie outside their limits. -/
def Obligations.WorkQueues : Prop :=
  (∀ (s : State) (queue : Nat) (x : Queue) (w : Nat) (arg : Word), nextQueue s = some queue → s.queue queue = x →
     nextEntry s x = some (w, arg) →
     let here : State := { s with hub := { s.hub with served := s.hub.served.set (Fin.ofNat 4 x.qprio) queue } }
     let passed : State := here.setQueue queue { x with ci := x.ci + 1 }
     (w = 4 → exec (.queueNop queue) s = .next passed) ∧
     (w = 3 → (∀ l ∈ s.hub.launches, l.func = x.func → l.lrec.lid ≠ arg) → exec (.kill queue) s = .next passed) ∧
     (∀ l, w = 3 → s.hub.launches.find? (fun k => k.func = x.func && k.lrec.lid = arg) = some l → s.launch? l.sid = some l →
       ∃ u, exec (.kill queue) s = .next u ∧ (u.queue queue).ci = x.ci + 1 ∧
         (l.st = .waiting → u.launch? l.sid = none) ∧
         (l.st = .running ∨ l.st = .preparing → u.launch? l.sid = some { l with killPending := true, st := .aborting 0x44 }) ∧
         (l.st = .committing → u.launch? l.sid = some { l with
           killPending := true, later := if l.seg + 1 < l.lrec.nseg ∧ l.later = none then some 0x44 else l.later })) ∧
     (w = 2 → ∃ u, exec (.releaseStream queue) s = .next u ∧ (u.queue queue).ci = x.ci + 1 ∧
       u.stream x.func (arg.toNat % 2 ^ 32) =
         { func := x.func, stream := arg.toNat % 2 ^ 32, failed := false, base := s.hub.sid, holds := none } ∧
       u.hub.launches = s.hub.launches) ∧
     (∀ b d, w = 1 ∨ w = 257 → arg.toNat % 256 = 0 → cpBytes here x.hostmem x.asid x.func arg 256 = some b →
       cpBytes here false x.asid x.func (BitVec.ofNat 64 (fld b 0 8)) 256 = some d →
       let r := recordOfBytes b
       (recordOk here x.func b d = true → (s.stream x.func r.stream).failed = false → ∃ u l, exec (.launch queue) s = .next u ∧
         u.hub.launches = s.hub.launches ++ [l] ∧ l.sid = s.hub.sid ∧ u.hub.sid = s.hub.sid + 1 ∧ l.st = .waiting ∧ l.lrec = r ∧
         l.func = x.func ∧ l.asid = x.asid ∧ l.prio = min r.prio x.qprio ∧ l.retriesLeft = r.retry ∧ l.irq = decide (w = 257) ∧
         l.seg = 0 ∧ u.queue queue = { x with ci := x.ci + 1 }) ∧
       (r.lid = 0 ∨ r.nl < 32 ∨ 1024 < r.nl ∨ r.nl % 32 ≠ 0 ∨ 1048576 < r.nl * r.nv * 4 ∨ 786432 < r.footprint ∨
           (r.gx * r.gy * r.gz) % r.c ≠ 0 ∨ (∃ l ∈ s.hub.launches, l.func = x.func ∧ l.lrec.lid = r.lid) →
         ∃ u, exec (.launch queue) s = .next u ∧ u.launch? s.hub.sid = none ∧ (u.queue queue).ci = x.ci + 1 ∧
           (s.hub.outcomes[7] ≠ BitVec.allOnes 64 → u.hub.outcomes[7] = s.hub.outcomes[7] + 1))) ∧
     (w = 1 ∨ w = 257 → arg.toNat % 256 ≠ 0 ∨ cpBytes here x.hostmem x.asid x.func arg 256 = none →
       ∃ u, exec (.launch queue) s = .next u ∧ u.queue queue = { x with qerr := true } ∧ u.hub.sid = s.hub.sid) ∧
     (w % 256 = 0 ∨ 4 < w % 256 ∨ 512 ≤ w →
       ∀ i ∈ ([.launch queue, .releaseStream queue, .kill queue, .queueNop queue] : List Instr),
         exec i s = .next (here.setQueue queue { x with qerr := true })) ∧
     ∀ q, q ≠ queue → ∀ i ∈ ([.launch q, .releaseStream q, .kill q, .queueNop q] : List Instr), exec i s = .next s) ∧
  (∀ (s : State) (q : Nat), nextQueue s = some q → ∃ x, (q, x) ∈ s.hub.queues ∧ servable s x = true ∧
     let last := s.hub.served[Fin.ofNat 4 x.qprio]
     ∀ y ∈ s.hub.queues, servable s y.2 = true → y.2.qprio ≤ x.qprio ∧ (y.2.qprio = x.qprio →
       (last < y.1 → last < q ∧ q ≤ y.1) ∧ (y.1 ≤ last → q ≤ last → q ≤ y.1))) ∧
  ((∀ (s : State) (func lidx q : Nat) (p : BitVec 32) (x : Queue), s.sec.boot.ready = true → x.qerr = false →
     s.hub.queues.find? (fun y => y.2.en && y.2.func == func && y.2.lidx == lidx) = some (q, x) →
     ((p - x.ci).toNat ≤ 2 ^ x.log2n → (x.pi - x.ci).toNat ≤ (p - x.ci).toNat →
       exec (.doorbell func lidx p) s = .next (s.setQueue q { x with pi := p })) ∧
     (2 ^ x.log2n < (p - x.ci).toNat ∨ (p - x.ci).toNat < (x.pi - x.ci).toNat →
       exec (.doorbell func lidx p) s = .next (s.setQueue q { s.queue q with qerr := true }))) ∧
   ∀ (s : State) (q : Nat) (v : BitVec 64), s.sec.boot.ready = true → q < 8192 → bitAt v.toNat 63 = true →
     let x := s.queue q
     let n := v.toNat
     let func := bits n 22 16
     let log2n := bits n 4 0
     let ignored : State := { s with hub := { s.hub with cfgerr := true } }
     let free := ∀ p ∈ s.hub.queues, p.1 ≠ q → p.2.en = true → p.2.func = func → p.2.lidx ≠ bits n 60 48
     (x.en = false → func ≤ 64 → 4 ≤ log2n → log2n ≤ 16 → free → (assoc s.hub.asids (bits n 33 24) Asid.reset).func = func →
       exec (.queueEnable q v) s = .next (s.setQueue q
         { x with
           en := true, pi := 0, ci := 0, qerr := false, lidx := bits n 60 48, asid := bits n 33 24, hostmem := bitAt n 23
           func := func, qprio := bits n 9 8, log2n := log2n })) ∧
     (64 < func ∨ log2n < 4 ∨ 16 < log2n ∨ ¬ free → exec (.queueEnable q v) s = .next ignored))

/-- R137 to R139, R324, R362: the first eligible launch is admitted under a free tag while fewer than 512 are open: it runs from
its first uncommitted segment, with that tag, the next admission number and its pinned version: the newest of its domain, or the
one its stream holds under PIN = 1; a retry keeps what its first admission pinned, be it nothing. A launch ends unrun, its lowest
status counted (R153; log 25): with ABORT_FAULT when its argument block or core sets cannot be read, with ABORT_MEMERR or ABORT_DIE_LOST when
they, or a table that translates them, lie in a retired frame or on a fenced die (R379, R386), with ABORT_PLACEMENT when a core
set has a reserved bit (log 26, DEDUCED) or no place on a die of its ranges could ever take one of its clusters, with ABORT_DIE_LOST when such a die is
not in service. -/
def Obligations.LaunchesAdmitted : Prop :=
  (∀ (s : State) (launch : Nat) (lv : BitVec 16) (l : Launch), s.launch? launch = some l → s.sec.boot.ready = true →
    s.alarm.cpStopped = false → eligible s l = true → admittedFirst s l = true →
    s.hub.launches.countP (·.isOpen) < 512 → lv ≠ 0 → lv ∉ s.hub.busyTags →
    (∀ k ∈ s.hub.launches, k.isOpen = true → k.lv ≠ lv) → (∀ r ∈ s.sectors, r.tent = true → r.lv ≠ lv) →
    let tests := admissionTests s l
    (tests.2 = [] → ∃ u k, exec (.launchAdmission launch lv) s = .next u ∧ u.launch? launch = some k ∧ k.st = .running ∧ k.lv = lv ∧
      k.adm = s.hub.adm + 1 ∧ u.hub.adm = s.hub.adm + 1 ∧ k.seg = l.seg ∧ k.unplaced = segmentClusters l.lrec l.seg ∧
      k.pin = (pinFor s tests.1).map (fun p => (p.1, p.2.vnum)) ∧ k.args = tests.1.args ∧ k.retriesLeft = l.retriesLeft ∧
      (∀ x, x ≠ launch → u.launch? x = s.launch? x) ∧ u.teams = s.teams) ∧
    (∀ status ∈ tests.2, (∀ y ∈ tests.2, status ≤ y) → ∃ u, exec (.launchAdmission launch lv) s = .next u ∧
      u.launch? launch = none ∧ u.hub.adm = s.hub.adm ∧ (status = 0x42 ∨ status = 0x43 ∨ status = 0x45 ∨ status = 0x46) ∧
      let ix := Fin.ofNat 10 (status - 0x3F)
      (s.hub.outcomes[ix] ≠ BitVec.allOnes 64 → u.hub.outcomes[ix] = s.hub.outcomes[ix] + 1))) ∧
  (∀ (s : State) (l : Launch),
    let tests := admissionTests s l
    let first := l.adm = 0
    let walks := fun (a : Word) => ∀ g ∈ tableSectors s l.asid a.toNat, s.lostHome g = none
    let translated := fun (a : Word) (n : Nat) => l.hostmem = true ∨ ∀ i < n, walks (a + BitVec.ofNat 64 i) → ∃ pa,
      resolve s l.asid l.func { r := true } (a + BitVec.ofNat 64 i) = .ok pa
    let readable := fun (a : Word) (n : Nat) => l.hostmem = true ∨ ∀ i < n, walks (a + BitVec.ofNat 64 i) ∧ ∃ pa,
      resolve s l.asid l.func { r := true } (a + BitVec.ofNat 64 i) = .ok pa ∧ s.lostHome (pa / 64) = none
    let used := fun d => ∃ lo hi, l.lrec.ranges[d]? = some (lo, hi) ∧ lo ≠ hi
    let live := ∀ d < 8, used d → d ∈ liveDies s
    let fits := (∀ d < 8, used d → d ∈ liveDies s → placeable (s.die d) l.lrec (tests.1.coreSet d) = true) ∧
      ∀ m ∈ tests.1.coreSets, m.toNat < 2 ^ 48
    (tests.2 = [] ↔ (first → l.lrec.argn ≠ 0 → readable l.lrec.argp (8 * l.lrec.argn)) ∧
      (first → l.lrec.csetp ≠ 0 → readable l.lrec.csetp 64) ∧ live ∧ fits) ∧
    (¬ fits → 0x46 ∈ tests.2) ∧ (¬ live → 0x45 ∈ tests.2) ∧
    (first → l.lrec.argn ≠ 0 → ¬ translated l.lrec.argp (8 * l.lrec.argn) → 0x42 ∈ tests.2) ∧
    (first → l.lrec.csetp ≠ 0 → ¬ translated l.lrec.csetp 64 → 0x42 ∈ tests.2) ∧
    (first → l.lrec.argn ≠ 0 → translated l.lrec.argp (8 * l.lrec.argn) → ¬ readable l.lrec.argp (8 * l.lrec.argn) →
      0x43 ∈ tests.2 ∨ 0x45 ∈ tests.2) ∧
    ∀ (d : Die) (set : Option (BitVec 64)), placeable d l.lrec set = true ↔
      l.lrec.nl * l.lrec.nv * 4 ≤ 1048576 ∧ l.lrec.footprint ≤ 786432 ∧ l.lrec.nacc ≤ 4 ∧
      ∃ col < 8, ∃ row < 6, rectangle d set l.lrec.cw l.lrec.ch col row ≠ none) ∧
  ∀ (s : State) (l : Launch) (m vnum : Nat) (v : Version),
    (l.adm = 0 → domainOf s l = none → pinFor s l = none) ∧
    (l.adm = 0 → domainOf s l = some m → l.lrec.pin = 0 → pinFor s l = newestPin s m) ∧
    (l.adm = 0 → domainOf s l = some m → l.lrec.pin = 1 → (s.stream l.func l.lrec.stream).holds = some (m, vnum) →
      (s.domain m).version? vnum = some v → pinFor s l = some (m, v)) ∧
    (l.adm ≠ 0 → l.pin = none → pinFor s l = none) ∧
    (l.adm ≠ 0 → l.pin = some (m, vnum) → (s.domain m).version? vnum = some v →
      pinFor s l = if v.withdrawn then newestPin s m else some (m, v))

/-! ### The driver's registers and accesses from outside (R101, R110, R133, R146, R355, R356, R365, R366, R369, R377, R390) -/

/-- R355, R356, R365, R366, R370, R377, R390: what register writes do. CFGERR and SRC are cleared by ones; a Cistern range changes only
while no launch is open; no alarm level falls below its minimum; a selector write restarts its counters, a reserved event
changes nothing; rings are enabled within their limits, the first record held comes out when the driver makes room, and a
reply doorbell may not run ahead. An ignored write sets CFGERR, one of a value that is there already included; a write to a read-only
register does nothing. R6: a read returns each field at its bits, zero for the reserved ones and for the write-only SVNUP and RRPI;
before boot is complete only BOOTST answers (R370; log 27, DEDUCED). -/
def Obligations.RegisterWrites : Prop :=
  (∀ (s : State) (v : BitVec 64), s.sec.boot.ready = true →
    let n := v.toNat
    let ignored : State := { s with hub := { s.hub with cfgerr := true } }
    let opened := s.hub.launches.countP (·.isOpen)
    (bitAt n 0 = true → exec (.configWrite 0 0 0x310 v) s = .next { s with hub := { s.hub with cfgerr := false } }) ∧
    exec (.configWrite 0 0 0x300 v) s = .next { s with hub := { s.hub with klim := BitVec.ofNat 32 n } } ∧
    exec (.configWrite 0 0 0x500 v) s =
      .next { s with alarm := { s.alarm with src := s.alarm.src &&& ~~~ BitVec.ofNat 8 (n / 256) } } ∧
    ((∃ i < 8, bits n (2 * i + 1) (2 * i) < [3, 3, 2, 3, 1, 1, 0, 0].getD i 0) →
      exec (.configWrite 0 0 0x508 v) s = .next ignored) ∧
    (∀ d : Fin 8, let base := bits n 36 21 * 2097152
      (opened = 0 → exec (.configWrite 0 0 (0x100 + 16 * d.val) v) s =
        .next { s with hub := { s.hub with cisBase := s.hub.cisBase.set d base } }) ∧
      (opened ≠ 0 → exec (.configWrite 0 0 (0x100 + 16 * d.val) v) s = .next ignored)) ∧
    (∀ i : Fin 8, (n % 256 ≤ 9 → opened = 0 → exec (.perfSelect i v) s = .next { s with
        hub := { s.hub with perfSel := s.hub.perfSel.set i (BitVec.ofNat 8 n) }
        perf := s.perf.filter (fun p => p.1.2.2 ≠ i.val) }) ∧
      (9 < n % 256 → exec (.perfSelect i v) s = .next ignored)) ∧
    ∀ f ≤ 64, let g := s.func f
      let size := bits n 4 0
      (bitAt n 63 = true → 4 ≤ size → size ≤ 12 → g.fren = false → g.held = [] →
        exec (.faultRingEnable f v) s = .next (s.setFunc f { g with fren := true, frlog2n := size })) ∧
      (bitAt n 63 = true → size < 4 ∨ 12 < size → exec (.faultRingEnable f v) s = .next ignored ∧
        exec (.replyRingEnable f v) s = .next ignored) ∧
      (bitAt n 63 = true → 4 ≤ size → size ≤ 12 → g.rren = false →
        exec (.replyRingEnable f v) s = .next (s.setFunc f { g with rren := true, rrlog2n := size, rrci := 0, rrpi := 0 })) ∧
      (∀ c, g.held = [] → exec (.faultRingConsume f c) s = .next (s.setFunc f { g with frci := c })) ∧
      (∀ c r, g.held = [r] → r.func = f → g.fren = true → (g.frpi - c).toNat < 2 ^ g.frlog2n →
        exec (.faultRingConsume f c) s = .next
          { (s.hostPut (g.frbase.toNat + 128 * (g.frpi.toNat % 2 ^ g.frlog2n)) r.bytes).setFunc f
              { g with frci := c, held := [], frpi := g.frpi + 1 } with
            out := s.out ++ [.irq f g.fvec] }) ∧
      (∀ p, (p - g.rrci).toNat ≤ 2 ^ g.rrlog2n → (g.rrpi - g.rrci).toNat ≤ (p - g.rrci).toNat →
        exec (.replyDoorbell f p) s = .next (s.setFunc f { g with rrpi := p })) ∧
      (∀ p, 2 ^ g.rrlog2n < (p - g.rrci).toNat ∨ (p - g.rrci).toNat < (g.rrpi - g.rrci).toNat →
        exec (.replyDoorbell f p) s = .next ignored) ∧
      (∀ off ∈ [0x10018, 0x10038, 0x10048], exec (.configWrite f 2 off v) s = .next s) ∧
      ∀ off ∈ [0x308, 0x400, 0x800, 0xA00], exec (.configWrite 0 0 off v) s = .next s) ∧
  (∀ (s : State) (func bar off : Nat), s.sec.boot.ready = false → (bar ≠ 0 ∨ off ≠ 0x400) → readRegister s func bar off = none) ∧
  (∀ s : State, ∃ x, readRegister s 0 0 0x400 = some x ∧ bits x.toNat 47 32 = s.sec.boot.degr.toNat ∧
    bits x.toNat 31 24 = s.sec.boot.dieok.toNat ∧ bits x.toNat 15 12 = s.sec.boot.fstep % 16 ∧ bits x.toNat 11 8 = s.sec.boot.fcause % 16 ∧
    bitAt x.toNat 0 = s.sec.boot.ready ∧ bits x.toNat 63 48 = 0 ∧ bits x.toNat 23 16 = 0 ∧ bits x.toNat 7 1 = 0) ∧
  ∀ s : State, s.sec.boot.ready = true →
    readRegister s 0 0 0x408 = some 0 ∧ (∀ f ≤ 64, readRegister s f 2 0x10030 = some 0) ∧
    readRegister s 0 0 0x310 = some (if s.hub.cfgerr then 1 else 0) ∧ readRegister s 0 0 0x300 = some (s.hub.klim.zeroExtend 64) ∧
    readRegister s 0 0 0x500 = some (s.alarm.src.zeroExtend 64 <<< 8 ||| (if s.alarm.keylock then 4 else 0) |||
      BitVec.ofNat 64 (s.alarm.level % 4)) ∧
    (∀ i : Fin 10, readRegister s 0 0 (0xA00 + 8 * i.val) = some s.hub.outcomes[i]) ∧
    (∀ i : Fin 8, readRegister s 0 0 (0xC00 + 8 * i.val) = some (s.hub.perfSel[i].zeroExtend 64)) ∧
    (∀ f ≤ 64, readRegister s f 2 0x10010 = some ((s.func f).frci.zeroExtend 64 <<< 32 ||| (s.func f).frpi.zeroExtend 64)) ∧
    ∀ q < 8192, ∃ x, readRegister s 0 0 (0x20000 + 32 * q + 8) = some x ∧
      let n := x.toNat
      let y := s.queue q
      bitAt n 63 = y.en ∧ bitAt n 62 = y.qerr ∧ bitAt n 61 = false ∧ bits n 60 48 = y.lidx % 2 ^ 13 ∧ bits n 47 34 = 0 ∧
      bits n 33 24 = y.asid % 2 ^ 10 ∧ bitAt n 23 = y.hostmem ∧ bits n 22 16 = y.func % 2 ^ 7 ∧ bits n 15 10 = 0 ∧
      bits n 9 8 = y.qprio % 4 ∧ bits n 7 5 = 0 ∧ bits n 4 0 = y.log2n % 32

/-- R93, R101, R110, R129, R133, R146, R369: the host, and a Brory peer alike (the model's choice, log 17), have the U copies of the
sectors gathered; they read committed data, once no sector of it is PREPARED, and write it where no open launch is in the way; bytes of the sectors written lose their copies, and
nothing else changes. A launch with tentative data there aborts, and the write waits (that it is made in one turn, the model's reading,
log 29); that a store to a table entry waits for the accesses in flight that translated by it is log 49 (DEDUCED). A byte that the access tables deny
reads as all ones, is not written, and fires alarm source 6. The host's own memory is die 8 (log 18). -/
def Obligations.AccessesFromOutside : Prop :=
  ∀ (s : State) (die off : Nat), s.sec.boot.ready = true → die < 8 → s.cxlFenced = false → s.sec.boot.brory ≠ 0 →
    let addr := fun i : Nat => flat die (off + i)
    let granted_ := fun (n : Nat) (w : Bool) => ∀ i < n, off + i < 96000000000 ∧ granted s die (off + i) 0 w = true ∧
      s.lostHome (addr i / 64) = none
    (∀ len, granted_ len false →
      ((∀ i < len, (s.sectorRec (addr i / 64)).prep = false) →
        let g := s.gathered (outsideSectors s die off len false)
        let bytes := (List.range len).map (fun i => committed g (addr i))
        ((∀ i < len, ∀ c ∈ s.copies, c.sector = addr i / 64 → c.st ≠ .U) → g = s) ∧
        exec (.hostRead die off len) s = .next { g with out := g.out ++ [.hostData die off bytes] } ∧
        exec (.broryPeerAccess false die off len []) s = .next { g with out := g.out ++ [.peerData die off bytes] }) ∧
      ((∃ i < len, (s.sectorRec (addr i / 64)).prep = true) →
        exec (.hostRead die off len) s = .next s ∧ exec (.broryPeerAccess false die off len []) s = .next s)) ∧
    (∀ bytes : List Byte, granted_ bytes.length true →
      ∀ i ∈ ([.hostWrite die off bytes, .broryPeerAccess true die off bytes.length bytes] : List Instr),
        let users := s.tableUsers (outsideSectors s die off bytes.length true)
        let g := s.gathered (outsideSectors s die off bytes.length true)
        (users ≠ [] → exec i s = .next s) ∧
        (users = [] → MemoryCanonical s → (∀ m ∈ s.maps, m.secs = []) →
          (∀ j < bytes.length, let r := s.sectorRec (addr j / 64)
            r.tent = false ∧ r.rmk = false ∧ r.rovf = false ∧ ∀ c ∈ s.copies, c.sector = addr j / 64 → c.st ≠ .U) →
          ∃ u, exec i s = .next u ∧ (∀ j < bytes.length, committed u (addr j) = bytes.getD j 0) ∧
            (∀ pa, (∀ j < bytes.length, pa ≠ addr j) → committed u pa = committed s pa) ∧
            (∀ c ∈ u.copies, ∀ j < bytes.length, c.sector ≠ addr j / 64) ∧ u.teams = s.teams ∧ u.hub = s.hub ∧ u.ops = s.ops) ∧
        (∀ l j, users = [] → j < bytes.length → (g.sectorRec (addr j / 64)).tent = true → g.launch? l.sid = some l →
          l.lv = (g.sectorRec (addr j / 64)).lv → l.st = .running ∨ l.st = .preparing →
          ∃ u k status, exec i s = .next u ∧ u.mem = g.mem ∧ u.sectors = g.sectors ∧ u.launch? l.sid = some k ∧
            k.st = .aborting status ∧ (status = 0x48 ∨ status = 0x47))) ∧
    (∀ b, off < 96000000000 →
      (granted s die off 0 false = false → let a := s.raiseAlarm 6
        exec (.hostRead die off 1) s = .next { a with out := a.out ++ [.hostData die off [0xFF]] } ∧
        exec (.broryPeerAccess false die off 1 []) s = .next { a with out := a.out ++ [.peerData die off [0xFF]] }) ∧
      (granted s die off 0 true = false → exec (.hostWrite die off [b]) s = .next (s.raiseAlarm 6) ∧
        exec (.broryPeerAccess true die off 1 [b]) s = .next (s.raiseAlarm 6))) ∧
    (∀ bytes : List Byte, exec (.hostWrite 8 off bytes) s = .next { s with mem := s.mem.setN (Config.hostBase + off) bytes })

/-! ### The Windlass (R321, R327, R328, R330, R367) -/

/-- R322, R326 to R331, R333, R367, R368: at the end of a window the policy decides from the counts, which are then clear. It walks the
entries in ascending order and makes, while fewer than MAXCH are made, the change that the rules name: a grow of a hot entry below CMAX,
onto the first die in order that has no replica of it and a free slot, the lowest; else a shrink of a cold one, of the removable replica
whose die has the fewest tokens, ties to the higher die. The dies are tried by tokens, or under POLICY 1 by the occupancy that the event
states (log 37). While a decision still waits, it is skipped and counted. A copy moves its master page by page, the far copy where the host
serves it (log 37); one that fails (for a translation, or with the error that the event gives, log 37) drops its change, counted and logged
with its cause. A decision whose copies have settled is published as the next version, in a free slot, with the withdrawn replicas left
out, unless all its changes were dropped; where no slot is free the commit goes on (log 37). A published version is its header, its
directory word and 4,096 entries, and leaves every live version as it is. A refresh writes the master's bytes over a replica sector by
sector, and fails without a translation or when the event says so; a replica that fails is withdrawn with every version that names it:
holds on it go, and launches that pin it abort with ABORT_MEMERR, or with ABORT_DEPENDENCY where a predecessor in the stream, aborted in
the same way, has taken them with it. EN = 1 is
refused with WERR when the parameters break R321 or the version area is malformed, and otherwise version 0 is the one live
version; EN = 0 is refused with WERR while a launch of the domain is open, a stream holds a version of it, or a field beside EN would
change, and otherwise leaves no version. -/
def Obligations.Windlass : Prop :=
  (∀ (s : State) (m : Fin 16) (d : Domain), s.windlass[m] = d →
     (∀ occupied, d.windowDue = true → d.publishCsn = none →
       (d.pending ≠ [] → exec (.windowEnd m.val occupied) s =
         .next { s with windlass := s.windlass.set m { d with windowDue := false, counts := [], skip := d.skip + 1 } }) ∧
       (∀ v, d.pending = [] → d.newest? = some v → ∃ cs : List Change,
         exec (.windowEnd m.val occupied) s = .next { s with windlass := s.windlass.set m { d with
           windowDue := false, counts := [], pending := if cs = [] then [] else [{ made := d.counted, changes := cs }] } } ∧
         let entry := fun c : Change => match c with | .grow x _ _ _ => x | .shrink x _ => x
         let table := entryOf s d v.slot
         let before := fun x => cs.filter (fun c => entry c < x)
         let free := fun x die slot => slot < d.nslot[Fin.ofNat 8 die] ∧ slot ∉ usedSlots s d die ∧
           ∀ y copied, Change.grow y die slot copied ∉ before x
         let growable := fun x => (table x).kind ≠ 0 ∧ d.hot ≤ d.total x ∧ (table x).reps.length < d.cmax
         let admits := fun x die => die < 8 ∧ (∀ r ∈ (table x).reps, r.1 ≠ die) ∧ ∃ slot, free x die slot
         let shrinkable := fun x => ¬ growable x ∧ (table x).kind ≠ 0 ∧ d.total x ≤ d.cold ∧ (table x).removable ≠ []
         cs.length ≤ d.maxch ∧ cs.Pairwise (fun a b => entry a < entry b) ∧
         (∀ c ∈ cs, match c with
           | .grow x die slot copied => copied = none ∧ x < 4096 ∧ growable x ∧ admits x die ∧ free x die slot ∧
             (∀ i, free x die i → slot ≤ i) ∧ ∃ first later, dieOrder d occupied x = first ++ die :: later ∧ ∀ k ∈ first, ¬ admits x k
           | .shrink x die => x < 4096 ∧ shrinkable x ∧ (∃ r ∈ (table x).removable, r.1 = die) ∧ ∀ r ∈ (table x).removable,
             d.count die x < d.count r.1 x ∨ d.count die x = d.count r.1 x ∧ r.1 ≤ die) ∧
         ∀ x < 4096, (∀ c ∈ cs, entry c ≠ x) →
           d.maxch ≤ (before x).length ∨ ¬ ((growable x ∧ ∃ die, admits x die) ∨ shrinkable x))) ∧
     (∀ p rest v ix x die slot, d.pending = p :: rest → d.newest? = some v → p.changes[ix]? = some (.grow x die slot none) →
       let done := fun (good : Bool) => { p with changes := p.changes.set ix (.grow x die slot (some good)) } :: rest
       let dropped := fun cause => (.next { s with windlass := s.windlass.set m { d with
         pending := done false, drop := d.drop + 1, dropLog := d.dropLog ++ [{ e := x, die := die, slot := slot, cause := cause }] } } :
           Host.Outcome State Fault Refusal)
       let master := masterAt d x (entryOf s d v.slot x)
       let copied := copyPages d master (slotVa d die slot) s (List.range (d.slotsz / 4096))
       (copied = none → ∀ err, exec (.replicaCopyDone m.val ix err) s = dropped .noTranslation) ∧
       ∀ u, copied = some u → (∀ err, exec (.replicaCopyDone m.val ix (some err)) s = dropped (.copyError err)) ∧
         exec (.replicaCopyDone m.val ix none) s = .next { u with windlass := s.windlass.set m { d with pending := done true } }) ∧
     (∀ csn p rest, d.publishCsn = some csn → d.pending = p :: rest →
       ((∃ x die slot, .grow x die slot none ∈ p.changes) → exec (.versionPublish m.val) s = .next s) ∧
       ((∀ c ∈ p.changes, ∃ x die slot, c = .grow x die slot (some false)) → exec (.versionPublish m.val) s =
         .next { s with windlass := s.windlass.set m { d with pending := rest, publishCsn := none } }) ∧
       (p.settled = true → p.empty = false → d.freeVersion = none → exec (.versionPublish m.val) s =
         .next { s with windlass := s.windlass.set m { d with publishCsn := none } }) ∧
       (∀ v slot, p.settled = true → p.empty = false → d.newest? = some v → d.freeVersion = some slot →
         let w := publish s m.val csn (fun e x => (x.withdrawAll e d.withdrawals).change e p.changes)
         ∃ u, exec (.versionPublish m.val) s = .next u ∧
           u = retireVersions (w.setDomain m.val { w.domain m.val with pending := rest, publishCsn := none, withdrawals := [] }) m.val ∧
           u.windlass[m].newest = d.newest + 1 ∧ u.windlass[m].newestSlot = slot ∧
           u.windlass[m].publishCsn = none ∧ u.windlass[m].pending = rest ∧ u.hub = s.hub ∧ u.teams = s.teams ∧
           { vnum := d.newest + 1, slot := slot, withdrawn := false } ∈ u.windlass[m].versions))) ∧
  (∀ (s : State) (d : Domain) (master : Word ⊕ Nat) (va : Word) (p : Nat) (rest : List Nat),
     let src := masterPa s d master (4096 * p)
     let dst := hubResolve s d.wasid (va + BitVec.ofNat 64 (4096 * p)) true true
     copyPages d master va s [] = some s ∧
     (∀ a b, src = some a → dst = some b →
       copyPages d master va s (p :: rest) = copyPages d master va (s.hubWrite b (committedN s a 4096)) rest) ∧
     (src = none ∨ dst = none → copyPages d master va s (p :: rest) = none)) ∧
  (∀ (s : State) (d : Domain) (x i far : Nat) (e : Entry) (va : Word),
     (e.fh = true → masterAt d x e = .inr (Config.hostBase + d.farbase + x * d.slotsz)) ∧
     (∀ slot, e.fh = false → e.reps.find? (fun r => r.1 = e.homed) = some (e.homed, slot) → masterAt d x e = .inl (slotVa d e.homed slot)) ∧
     slotVa d e.homed i = d.store[Fin.ofNat 8 e.homed] + BitVec.ofNat 64 (i * d.slotsz) ∧
     masterPa s d (.inl va) i = hubResolve s d.wasid (va + BitVec.ofNat 64 i) true false ∧
     (masterPa s d (.inr far) i = some (far + i) ∨ masterPa s d (.inr far) i = none)) ∧
  (∀ (s : State) (pa : Nat) (bytes : List Byte), MemoryCanonical s →
     (∀ i < bytes.length, committed (s.hubWrite pa bytes) (pa + i) = bytes.getD i 0) ∧
     ∀ a, a < pa ∨ pa + bytes.length ≤ a → committed (s.hubWrite pa bytes) a = committed s a) ∧
  (∀ (s : State) (m : Fin 16) (csn : Word) (f : Nat → Entry → Entry) (d : Domain) (v : Version) (slot : Nat),
     s.windlass[m] = d → d.newest? = some v → d.freeVersion = some slot → MemoryCanonical s →
     let u := publish s m.val csn f
     let head := flat d.vdie (d.varea + 4096 + slot * 0x41000)
     u.windlass = s.windlass.set m { d with
       versions := d.versions ++ [{ vnum := d.newest + 1, slot := slot, withdrawn := false }], newest := d.newest + 1, newestSlot := slot } ∧
     hubNat u head 4 = (d.newest + 1) % 2 ^ 32 ∧ committedN u (head + 4) 4 = List.replicate 4 0 ∧ hubNat u (head + 8) 8 = csn.toNat ∧
     committedN u (head + 16) 48 = List.replicate 48 0 ∧
     hubNat u (flat d.vdie (d.varea + 8 * slot)) 8 = 2 ^ 32 + (d.newest + 1) % 2 ^ 32 ∧
     (∀ y ∈ d.versions, y.slot < 16 → ∀ e < 4096, entryOf u d y.slot e = entryOf s d y.slot e) ∧
     ∀ e < 4096, let x := f e (entryOf s d v.slot e)
       let a := head + 64 + 64 * e
       let w := hubNat u a 8
       x.kind < 4 → x.homed < 8 → x.rows < 2 ^ 64 → x.reps.length ≤ 8 → (∀ r ∈ x.reps, r.1 < 8 ∧ r.2 < 2 ^ 29) →
       bits w 63 62 = x.kind ∧ bitAt w 61 = x.far ∧ bits w 60 57 = x.reps.length ∧ bits w 56 52 = 0 ∧ bitAt w 51 = x.fh ∧
       bits w 50 48 = (if x.fh then 0 else x.homed) ∧ bits w 47 0 = 0 ∧ hubNat u (a + 8) 8 = x.rows ∧
       (∀ j < 8, hubNat u (a + 16 + 4 * j) 4 = match x.reps[j]? with | some r => r.1 * 2 ^ 29 + r.2 | none => 0xFFFFFFFF) ∧
       committedN u (a + 48) 16 = List.replicate 16 0) ∧
  (∀ (x : Entry) (e e' die slot : Nat) (cs : List Change) (ws : List (Nat × Nat × Nat)), (x.reps.map (·.1)).Nodup →
     (x.withdrawAll e ws).reps = x.reps.filter (fun r => decide ((e, r.1, r.2) ∉ ws)) ∧
     x.change e [] = x ∧
     x.change e (.grow e' die slot (some true) :: cs) = (if e' = e then x.grow die slot else x).change e cs ∧
     x.change e (.grow e' die slot (some false) :: cs) = x.change e cs ∧
     x.change e (.shrink e' die :: cs) = (if e' = e then x.shrink die else x).change e cs ∧
     x.shrink die = { x with reps := (x.shrink die).reps, far := x.far || (x.fh && (x.shrink die).reps.isEmpty) } ∧
     (x.shrink die).reps = x.reps.filter (fun r => decide (r.1 ≠ die)) ∧
     x.grow die slot = { x with reps := (x.grow die slot).reps, far := false } ∧ (x.grow die slot).reps.Perm ((die, slot) :: x.reps) ∧
     (x.reps.Pairwise (fun a b => a.1 < b.1) → (∀ r ∈ x.reps, r.1 ≠ die) → (x.grow die slot).reps.Pairwise (fun a b => a.1 < b.1))) ∧
  (∀ (s : State) (m : Fin 16) (v : BitVec 64) (d : Domain), s.windlass[m] = d → s.sec.boot.ready = true → bitAt v.toNat 62 = false →
     let set := fun (e : Domain) => (.next { s with windlass := s.windlass.set m e } : Host.Outcome State Fault Refusal)
     (bitAt v.toNat 63 = true → d.en = false →
       let e := { d with maxch := bits v.toNat 28 16, cmax := bits v.toNat 11 8, policy := bits v.toNat 0 0 }
       (e.paramsOk s = true → areaOk s e = true → exec (.windlassDomainEnable m v) s = set { e with
         en := true, newest := 0, newestSlot := 0, counted := 0, counts := [], windowDue := false
         versions := [{ vnum := 0, slot := 0, withdrawn := false }], pending := [], publishCsn := none, withdrawals := [] }) ∧
       (e.paramsOk s = false ∨ areaOk s e = false → exec (.windlassDomainEnable m v) s = set { d with werr := true })) ∧
     (let same := d.maxch = bits v.toNat 28 16 ∧ d.cmax = bits v.toNat 11 8 ∧ d.policy = bits v.toNat 0 0
      bitAt v.toNat 63 = true → d.en = true → (same → exec (.windlassDomainEnable m v) s = .next s) ∧
        (¬ same → exec (.windlassDomainEnable m v) s = set { d with werr := true })) ∧
     (bitAt v.toNat 63 = false → d.en = true →
       let idle := (∀ l ∈ s.hub.launches, l.isOpen = true →
           ¬ ((assoc s.hub.asids l.asid Asid.reset).domv = true ∧ (assoc s.hub.asids l.asid Asid.reset).domain = m.val)) ∧
         ∀ x ∈ s.hub.streams, ∀ n, x.holds ≠ some (m.val, n)
       (idle → d.maxch = bits v.toNat 28 16 → d.cmax = bits v.toNat 11 8 → d.policy = bits v.toNat 0 0 →
         exec (.windlassDomainDisable m v) s = set { d with
           en := false, versions := [], pending := [], publishCsn := none, counts := [], windowDue := false, withdrawals := [] }) ∧
       (¬ idle ∨ d.maxch ≠ bits v.toNat 28 16 ∨ d.cmax ≠ bits v.toNat 11 8 ∨ d.policy ≠ bits v.toNat 0 0 →
         exec (.windlassDomainDisable m v) s = set { d with werr := true }))) ∧
  (∀ (d : Domain) (occupied : List Nat) (e : Nat), (∀ die, d.count die e < 2 ^ 32) →
     let tokens := fun a b => d.count b e < d.count a e ∨ d.count a e = d.count b e ∧ a < b
     let busy := fun die => occupied.getD die 0
     (dieOrder d occupied e).Perm (List.range 8) ∧ (dieOrder d occupied e).Pairwise (fun a b =>
       if d.policy = 1 then busy a < busy b ∨ busy a = busy b ∧ tokens a b else tokens a b)) ∧
  (∀ (s : State) (d : Domain) (master : Word ⊕ Nat) (r : Nat × Nat) (bad : List (Nat × Nat)) (st : Nat → State),
     d.slotsz ≠ 0 → d.slotsz % 4096 = 0 → st 0 = s →
     let n := d.slotsz / 64
     let src := fun u => masterPa (st u) d master (64 * u)
     let dst := fun u => hubResolve (st u) d.wasid (slotVa d r.1 r.2 + BitVec.ofNat 64 (64 * u)) true true
     (∀ u < n, (∃ a b, src u = some a ∧ dst u = some b ∧ st (u + 1) = (st u).hubWrite b (committedN (st u) a 64)) ∨
       ((src u = none ∨ dst u = none) ∧ st (u + 1) = st u)) →
     (refreshReplica d master bad r s).1 = st n ∧
     ((refreshReplica d master bad r s).2 = true ↔ r ∈ bad ∨ ∃ u < n, src u = none ∨ dst u = none)) ∧
  (∀ (s : State) (m : Fin 16) (bad : List (Nat × Nat × Nat)) (v : Version) (l : Launch), bad ≠ [] → v ∈ s.windlass[m].versions →
     (∃ b ∈ bad, (b.2.1, b.2.2) ∈ (entryOf s s.windlass[m] v.slot b.1).reps) →
     let u := withdraw s m.val bad
     { v with withdrawn := true } ∈ u.windlass[m].versions ∧ u.windlass[m].wdraw = s.windlass[m].wdraw + BitVec.ofNat 16 bad.length ∧
     (∀ b ∈ bad, b ∈ u.windlass[m].withdrawals) ∧ (∀ x ∈ u.hub.streams, x.holds ≠ some (m.val, v.vnum)) ∧
     (s.launch? l.sid = some l → (s.hub.launches.map (·.sid)).Nodup → l.pin = some (m.val, v.vnum) → l.st = .running ∨ l.st = .preparing →
       ∃ k, u.launch? l.sid = some k ∧ (k.st = .aborting 0x43 ∨ k.st = .aborting 0x47 ∧ ∃ y ∈ s.hub.launches, precedes y l = true ∧
         (y.st = .running ∨ y.st = .preparing) ∧ ∃ n, y.pin = some (m.val, n))))

/-! ### Pre-emption, saves, kills, lost cores (R304 to R307, R312 to R314) -/

/-- R29, R249, R302, R305 to R307, R312: a stopped team that stands still goes to the save pool, with its registers and mapping parameters;
its open atomic regions are closed with code 4 (log 30), the dirty bytes of its windows are at their homes,
and a SAVE reply's buffer receives its image; or it is flushed, with its cluster waiting for placement again; its slot is free. A
cluster that may no longer be restarted is pre-empted anew (log 44 of what runs on: R263). A saved cluster, restored to a rectangle of
empty cores of its die, holds what it held: registers, masks, lanes, queues, tiles, LIVE and contexts, and its mapping entries,
invalid; whether its region entries are explicit, and whether the codes of its closed regions outlast the save, is free (log 30). A member is READY, PARKED where its team context was parked, or, the
model's choice (log 30), DRAINING where that has ended; a held RESUME then acts on it. -/
def Obligations.TeamsSavedAndRestored : Prop :=
  (∀ (s : State) (die core slot : Nat) (t : Team), s.team? { die := die, core := core, slot := slot } = some t →
    (∀ byReply buffer, t.stop = some (.save byReply buffer) → stoppedStill s t = true → fencedOut s t = true →
      ∃ u x, exec (.contextSave die core slot) s = .next u ∧ u.team? t.ref = none ∧ u.hub.saved = s.hub.saved ++ [x] ∧
        x.launch = t.launch ∧ x.cluster = t.cluster ∧ x.die = die ∧ x.byReply = byReply ∧ x.team.t = t.t ∧
        x.team.v = t.vEnd.getD t.v ∧ x.team.k = t.k ∧ x.team.live = t.live ∧ x.team.tiles = t.tiles ∧ x.team.tbs = t.tbs ∧
        x.team.queues.map (fun q => (q.entries, q.closed)) = t.queues.map (fun q => (q.entries, q.closed)) ∧
        x.team.regions = t.regions.map (fun q => if q.code = 0 then { q with code := 4, reads := [], writes := [] } else q) ∧
        x.team.team.s = t.team.s ∧ x.team.team.md = t.team.md ∧ x.team.team.run = t.team.run ∧
        (if (∃ r ∈ t.regions, r.code = 0) ∧ t.team.run = .running then x.team.team.pc = t.team.rgnpc ∧ x.team.team.isc = t.team.rgncnt
         else x.team.team.pc = t.team.pc ∧ x.team.team.isc = t.team.isc) ∧
        x.entries = (s.attached t.ref).map (fun m => (m.n, [m.m0, m.m1, m.m2, m.m3])) ∧ (∀ m ∈ u.maps, m.owner ≠ some t.ref) ∧
        (∀ m y k i pa, s.attached t.ref = [m] → m.secs = [y] → s.holder m.lv = some k → y.dirty.getLsbD i = true → y.pas[i]? = some pa →
          y.pas.Nodup →
          let n := s.noteWalk k m.die (some m.core) (m.dirtyVas y)
          backFault n m y = none → (∀ p ∈ y.pas, n.lostHome (p / 64) = none) → n.exact = [] → (∀ r ∈ n.sectors, r.tbytes.wf = true) →
          (u.sectorRec (pa / 64)).tent = true ∧ (u.sectorRec (pa / 64)).tbytes.get pa = y.bytes.getD i 0) ∧
        ((∀ m ∈ s.maps, m.owner ≠ some t.ref) → ∀ a, buffer = some a →
          u.mem = s.mem.setN (Config.hostBase + a.toNat) (imageBytes (s.removeTeam t) x))) ∧
    (∀ l waiter, t.stop = some (.flush waiter) → runsOn s t = false → s.launch? t.launch = some l →
      (∀ x ∈ s.teams, x.launch = t.launch → x.cluster = t.cluster → x = t) →
      (t.mayRestart = true → stoppedStill s t = true →
        ∃ u k, exec (.flushAndRestart die core slot) s = .next u ∧ u.team? t.ref = none ∧ u.launch? t.launch = some k ∧
          k.unplaced = l.unplaced ++ [t.cluster] ∧ u.mem = s.mem ∧ u.sectors = s.sectors ∧ u.hub.saved = s.hub.saved ∧
          ∀ m ∈ u.maps, m.owner ≠ some t.ref) ∧
      (t.mayRestart = false →
        exec (.flushAndRestart die core slot) s = .next (preemptCluster s l die t.cluster waiter)))) ∧
  ∀ (s : State) (launch cluster col row : Nat) (l : Launch) (x0 : SavedTeam) (xs : List SavedTeam) (cores : List Nat),
    s.launch? launch = some l → l.st = .running → s.hub.saved.filter (fun y => y.launch = launch && y.cluster = cluster) = x0 :: xs →
    (∀ x ∈ x0 :: xs, x.byReply = false ∧ x.entries.length ≤ 64 ∧ (x.entries.map (·.1)).Nodup ∧
      clrank l.lrec x.team.t < cores.length) →
    ((x0 :: xs).map (fun x => clrank l.lrec x.team.t)).Nodup → cores.Nodup →
    (∀ t ∈ s.teams, t.launch ≠ launch) → dieServes s x0.die = true →
    rectangle (s.die x0.die) (l.coreSet x0.die) l.lrec.cw l.lrec.ch col row = some cores →
    (∀ t ∈ s.teams, t.ref.die = x0.die → t.ref.core ∉ cores) → (∀ m ∈ s.maps, m.die = x0.die → m.core ∉ cores) →
    l.lrec.nl * l.lrec.nv * 4 ≤ 1048576 → l.lrec.footprint ≤ 786432 → l.lrec.nacc ≤ 4 →
    let refOf := fun (x : SavedTeam) => ({ die := x0.die, core := cores.getD (clrank l.lrec x.team.t) 0, slot := 0 } : TeamRef)
    let restored := fun (x : SavedTeam) (n : Nat) => { x.team with
      ref := refOf x, slot := restoredSlot x.team, regions := x.team.restoredRegions n
      vEnd := if x.team.team.run = RunState.ended then some x.team.v else none
      team := x.team.team.reentered n, matrix := x.team.matrix.map (·.reentered n), access := x.team.access.map (·.reentered n) }
    ((∀ h ∈ s.hub.heldReplies, h.sid ≠ launch) →
      ∃ u, exec (.teamRestore launch cluster col row) s = .next u ∧ u.mem = s.mem ∧
        u.hub.saved = s.hub.saved.filter (fun y => !(y.launch == launch && y.cluster == cluster)) ∧
        ∀ x ∈ x0 :: xs, (∃ n, u.team? (refOf x) = some (restored x n)) ∧
          (refOf x ∈ u.readyQ ↔ refOf x ∈ s.readyQ ∨ x.team.team.run = .running) ∧
          ∀ e ∈ x.entries, ∃ m ∈ u.maps, m.owner = some (refOf x) ∧ m.home = some (refOf x) ∧ m.n = e.1 ∧ m.lv = x.team.lv ∧ m.secs = [] ∧
            m.m0 = e.2.getD 0 0 ∧ m.m1 = e.2.getD 1 0 ∧ m.m2 = e.2.getD 2 0 ∧ m.m3 = e.2.getD 3 0) ∧
    (∀ h, xs = [] → s.hub.heldReplies = [h] → h.sid = launch → h.team = x0.team.t → h.ctx = 0 → h.abort = false →
      ∃ u n t, exec (.teamRestore launch cluster col row) s = .next u ∧ u.hub.heldReplies = [] ∧ u.team? (refOf x0) = some t ∧
        t.slot = .ready ∧ refOf x0 ∈ u.readyQ ∧ t.team = (x0.team.team.reentered n).resume h.rv1 h.rv2 ∧ t.v = x0.team.v ∧ t.k = x0.team.k) ∧
    (∀ slot, restoredSlot x0.team = slot → (x0.team.team.run = .running → slot = .ready) ∧ (x0.team.team.run = .ended → slot = .draining) ∧
      (x0.team.team.run = .parkedFault ∨ x0.team.team.run = .parkedTrap ∨ x0.team.team.run = .parkedBrk → slot = .parked))

/-- R304, R305, R313, R314, R362: a running launch whose first cluster cannot be placed pre-empts one cluster of the launch of the lowest
priority below its own, the youngest of those, unless another that waits so has a higher priority or was taken earlier; every member awaits one action, the first row of R304 that applies: DRAIN when PPOL is 2,
or three quarters of the expected instructions are done and no member waits or is parked; FLUSH under PPOL = 0 and IDEMP, with every
member restartable, while no instructions are expected or less than a quarter of them is done; SAVE when the pool has room; else DRAIN,
which holds the launch's new teams back. A running launch with a resident team, no record outstanding and no progress for KLIM µs ends
with ABORT_KILLED, and goes on before that. A lost core of a full mesh costs its die the core's column; the die's DEGR bit is set and
every running launch on the core aborts with ABORT_MEMERR, or with ABORT_DEPENDENCY when it follows another that does. That FLUSH needs
every member resident is log 30 (DESIGN CHOICE), which cluster of the launch goes is log 53 (DESIGN CHOICE), and that CORE_LOSS names a core by its place is log 31 (DEDUCED). -/
def Obligations.PreemptionAndKills : Prop :=
  (∀ (s : State) (launch die : Nat) (l k : Launch) (v : Team), s.launch? launch = some l → l.st = .running →
     (firstWaiting l die).isSome = true → mayStart s l = true → dieServes s die = true →
     fitsSomewhere (withoutStopped s) l die = false →
     let shut := fun (x : Launch) => x.st = .running ∧ (firstWaiting x die).isSome = true ∧ mayStart s x = true ∧
       fitsSomewhere (withoutStopped s) x die = false
     ((∃ x ∈ s.hub.launches, x.sid ≠ launch ∧ (l.prio < x.prio ∨ (x.prio = l.prio ∧ x.sid < launch)) ∧ shut x) →
       exec (.preemption launch die) s = .next s) ∧
     ((∀ x ∈ s.hub.launches, x.sid ≠ launch → l.prio < x.prio ∨ (x.prio = l.prio ∧ x.sid < launch) → ¬ shut x) →
     victimLaunch s die l.prio = some k →
     s.teams.find? (fun t => t.launch = k.sid && t.ref.die = die && t.stop.isNone) = some v →
     let ms := s.teams.filter (fun t => t.launch = k.sid && t.cluster = v.cluster)
     let e := k.lrec.expic
     let late := e ≠ 0 ∧ (∃ t ∈ ms, 3 * e ≤ 4 * t.team.isc.toNat) ∧ ∀ t ∈ ms, t.slot ≠ .parked ∧ ∀ w, t.slot ≠ .waiting w
     let restart := k.lrec.ppol = 0 ∧ k.lrec.idemp = true ∧ ms.length = k.lrec.c ∧
       (∀ t ∈ ms, t.restartable = true ∧ ∀ n c, t.ctx? n = some c → c.run = .running ∨ c.run = .ended) ∧
       (e = 0 ∨ ∀ t ∈ ms, 4 * t.team.isc.toNat < e)
     k.prio < l.prio ∧
     (∀ x ∈ s.hub.launches, x.isOpen = true → x.prio < l.prio →
       (∃ t ∈ s.teams, t.launch = x.sid ∧ t.ref.die = die ∧ t.stop = none) → k.prio < x.prio ∨ (k.prio = x.prio ∧ x.adm ≤ k.adm)) ∧
     ∃ u act, exec (.preemption launch die) s = .next u ∧
       u.teams = s.teams.map (fun t => if t ∈ ms then { t with stop := some act } else t) ∧ u.mem = s.mem ∧ u.ops = s.ops ∧
       (k.lrec.ppol = 2 ∨ late → act = .drain) ∧ (k.lrec.ppol ≠ 2 → ¬ late → restart → act = .flush launch) ∧
       (k.lrec.ppol ≠ 2 → ¬ late → ¬ restart → act = if poolFits s die ms then .save false none else .drain) ∧
       (∀ a ∈ u.hub.launches, a.sid = k.sid → act = .drain → (die, launch) ∈ a.held))) ∧
  ((∀ (s : State) (launch : Nat) (l : Launch), s.launch? launch = some l → l.st = .running → s.hub.klim ≠ 0 →
     (∃ t ∈ s.teams, t.launch = launch) →
     ((∀ r ∈ s.hub.parks, r.sid ≠ launch) → l.lastProgress.toNat + 1000 * s.hub.klim.toNat ≤ s.time.toNat →
       (∀ t ∈ s.teams, t.launch = launch → t.progress.toNat + 1000 * s.hub.klim.toNat ≤ s.time.toNat) →
       exec (.killByPolicy launch) s = .next (s.requestAbort launch 0x44)) ∧
     ((∃ r ∈ s.hub.parks, r.sid = launch) ∨ s.time.toNat < l.lastProgress.toNat + 1000 * s.hub.klim.toNat ∨
         (∃ t ∈ s.teams, t.launch = launch ∧ s.time.toNat < t.progress.toNat + 1000 * s.hub.klim.toNat) →
       exec (.killByPolicy launch) s = .next s)) ∧
   ∀ (s : State) (die : Fin 8) (core : Nat), core < 48 → s.sec.boot.ready = true → s.dies[die].fenced = false →
     core ∉ s.dies[die].lost → s.dies[die].cols = List.range 8 → s.dies[die].rows = List.range 6 →
     ∃ u, exec (.coreLoss die core) s = .next u ∧ u.dies[die].cols = (List.range 8).filter (· ≠ core % 8) ∧
       u.dies[die].rows = List.range 6 ∧ u.dies[die].lost = s.dies[die].lost ++ [core] ∧
       u.sec.boot.degr.getLsbD die.val = true ∧ u.mem = s.mem ∧
       ∀ l, s.launch? l.sid = some l → l.st = .running →
         (∃ t ∈ s.teams, t.launch = l.sid ∧ t.ref.die = die.val ∧ t.ref.core = core) →
         ∃ k status, u.launch? l.sid = some k ∧ k.st = .aborting status ∧ (status = 0x43 ∨ status = 0x47) ∧
           ((∀ x ∈ s.hub.launches, precedes x l = false) → status = 0x43))

/-! ### Replies (R297, R300 to R303, R366) -/

/-- R297, R300 to R303, R306, R366: the hub takes the next published reply. One that names no outstanding record, or whose action the
record does not take, counts in RRUNM and has no effect. RESUME lets the context go on at its point of resumption, with the team's open
atomic regions discarded where that is its region entry (R249), or lets the record's own engine command or stream go on, and a cluster saved by SAVE be restored (R302); ABORT ends the
launch with ABORT_FAULT; either is held for a team that is saved or being saved. SAVE stops the team's cluster for saving, with the
buffer for its image, or writes out the image of one that is saved; a RESTORE, or a held reply, lets the whole cluster be restored, its
members still on their way to the pool included; RESTORE puts an edited image in the place of the saved one, or ends
the launch with ABORT_MEMERR and fires alarm source 7 when its check fails. RRCI moves past the entry. -/
def Obligations.RepliesAct : Prop :=
  ∀ (s : State) (f : Nat) (x : Reply), nextReply s f = some x →
    let g := s.func f
    let passed : State := s.setFunc f { g with rrci := g.rrci + 1 }
    let lost : State := s.setFunc f { g with rrci := g.rrci + 1, rrunm := g.rrunm + 1 }
    let onward := fun (st : Option Stream) => st.map (fun (a : Stream) => { a with paused := false })
    (∀ p ∈ ([(1, .replyResume f), (2, .replyAbort f), (3, .replySave f), (4, .replyRestore f)] : List (Nat × Instr)),
      (x.action = 0 ∨ 4 < x.action ∨ (x.action = p.1 ∧ namedRecord s f x = none) → exec p.2 s = .next lost) ∧
      (1 ≤ x.action → x.action ≤ 4 → x.action ≠ p.1 → exec p.2 s = .next s)) ∧
    ∀ r, namedRecord s f x = some r →
      let freed := fun (m : Team) => if m.launch = r.sid ∧ clusterOf s r = some m.cluster then
        { m with stop := match m.stop with | some (.save _ b) => some (.save false b) | y => y } else m
      (r.ctx = 3 → (x.action = 3 → exec (.replySave f) s = .next lost) ∧ (x.action = 4 → exec (.replyRestore f) s = .next lost)) ∧
      (∀ t c, x.action = 1 → r.ctx < 3 → (∀ y ∈ s.hub.saved, y.isOf r = false) →
        s.teams.find? (fun y => y.launch = r.sid && y.t = r.team) = some t → s.team? t.ref = some t →
        (∀ y ∈ s.teams, y.launch = r.sid → y.t = r.team → y.stop = none) →
        t.ctx? r.kind = some c → (∀ w ∈ c.windows, s.written w.op = true) →
        ∃ u t', exec (.replyResume f) s = .next u ∧ u.team? t.ref = some t' ∧ t'.ctx? r.kind = some (c.resume x.rv1 x.rv2) ∧
          (r.ctx = 0 → t'.slot = .ready ∧ u.readyQ = s.readyQ ++ [t.ref]) ∧ u.hub.parks = s.hub.parks.erase r ∧
          (c.run = .parkedFault → ∀ q ∈ t'.regions, q.code ≠ 0 ∧ (q.code = 4 ∨ q ∈ t.regions)) ∧
          (c.run ≠ .parkedFault → c.run ≠ .parkedTrap → t'.regions = t.regions) ∧
          (u.func f).rrci = g.rrci + 1 ∧ t'.v = t.v ∧ t'.k = t.k ∧ u.mem = s.mem) ∧
      (x.action = 1 → r.ctx = 3 → ∃ u, exec (.replyResume f) s = .next u ∧ u.hub.parks = s.hub.parks.erase r ∧
        (∀ y ∈ u.hub.saved, y.launch = r.sid → clusterOf s r = some y.cluster → y.byReply = false) ∧
        (r.lane < 4 → u.teams = s.teams.map freed ∧
          u.cmds = s.cmds.map (fun c => if c.id = r.cmd then { c with paused := false } else c)) ∧
        (4 ≤ r.lane → u.cmds = s.cmds ∧ u.teams.length = s.teams.length ∧ ∀ i (h : i < s.teams.length) (h' : i < u.teams.length),
          let t := freed s.teams[i]
          (t.launch = r.sid → t.t = r.team → ∀ q, t.queues[r.lane - 4]? = some q →
            u.teams[i].queues[r.lane - 4]? = some { q with stream := onward q.stream }) ∧
          (t.launch ≠ r.sid ∨ t.t ≠ r.team → u.teams[i] = t))) ∧
      (∀ l, x.action = 2 → r.ctx = 3 ∨ ((∀ y ∈ s.hub.saved, y.isOf r = false) ∧
          (∀ y ∈ s.teams, y.launch = r.sid → y.t = r.team → y.stop = none)) → s.launch? r.sid = some l → l.st = .running →
        ∃ u, exec (.replyAbort f) s = .next u ∧ u.hub.parks = s.hub.parks.erase r ∧ (u.func f).rrci = g.rrci + 1 ∧
          u.launch? r.sid = some { l with st := .aborting 0x42, lastProgress := s.time }) ∧
      (∀ i, (x.action, i) ∈ ([(1, .replyResume f), (2, .replyAbort f)] : List (Nat × Instr)) → r.ctx < 3 → outOfSlot s r = true →
        let values := if x.action = 2 then ((0 : Word), (0 : Word)) else (x.rv1, x.rv2)
        ∃ u, exec i s = .next u ∧ u.hub.parks = s.hub.parks.erase r ∧ (u.func f).rrci = g.rrci + 1 ∧ u.mem = s.mem ∧
          u.hub.heldReplies = s.hub.heldReplies ++ [{
            sid := r.sid, team := r.team, ctx := r.ctx, abort := decide (x.action = 2), rv1 := values.1, rv2 := values.2, record := r }] ∧
          (∀ y ∈ u.hub.saved, y.launch = r.sid → clusterOf s r = some y.cluster → y.byReply = false) ∧
          ∀ m ∈ u.teams, m.launch = r.sid → clusterOf s r = some m.cluster → ∀ b, m.stop ≠ some (.save true b)) ∧
      (∀ t, x.action = 3 → r.ctx < 3 → (∀ y ∈ s.hub.saved, y.isOf r = false) → (∀ y ∈ s.teams, y.stop = none) →
        s.teams.find? (fun y => y.launch = r.sid && y.t = r.team) = some t →
        let ms := s.teams.filter (fun m => m.launch = t.launch && m.cluster = t.cluster)
        (x.rv1.toNat % 256 = 0 → t.imageLen ≤ x.rv2.toNat → poolFits s t.ref.die ms = true →
          ∃ u, exec (.replySave f) s = .next u ∧ u.hub.parks = s.hub.parks ∧ u.teams = s.teams.map (fun m =>
            if m.launch = t.launch && m.cluster = t.cluster then
              { m with stop := some (.save true (if m.t = t.t then some x.rv1 else none)) } else m)) ∧
        (x.rv1.toNat % 256 ≠ 0 ∨ x.rv2.toNat < t.imageLen ∨ poolFits s t.ref.die ms = false → exec (.replySave f) s = .next lost)) ∧
      (∀ y, x.action = 3 → r.ctx < 3 → savingByReply s r = false → s.hub.saved.find? (fun y => y.isOf r) = some y → y.byReply = false →
        x.rv1.toNat % 256 = 0 →
        (y.team.imageLen ≤ x.rv2.toNat → ∃ u, exec (.replySave f) s = .next u ∧
          u.mem = s.mem.setN (Config.hostBase + x.rv1.toNat) (imageBytes passed y) ∧ u.hub.parks = s.hub.parks ∧
          u.hub.saved = s.hub.saved.map (fun z =>
            if z.launch = y.launch && z.cluster = y.cluster then { z with byReply := true } else z)) ∧
        (x.rv2.toNat < y.team.imageLen → exec (.replySave f) s = .next lost)) ∧
      (x.action = 4 → r.ctx < 3 → s.hub.saved.find? (fun y => y.isOf r && y.byReply) = none → exec (.replyRestore f) s = .next lost) ∧
      (∀ y, x.action = 4 → r.ctx < 3 → s.hub.saved.find? (fun y => y.isOf r && y.byReply) = some y →
        let b := s.mem.getN (Config.hostBase + x.rv1.toNat) y.team.imageLen
        (imageOk passed y b = true → ∃ u, exec (.replyRestore f) s = .next u ∧
          u.hub.saved = (s.hub.saved.map (fun z => if z.isOf r then readImage z b else z)).map (fun z =>
            if z.launch = y.launch && z.cluster = y.cluster then { z with byReply := false } else z) ∧
          (∀ m ∈ u.teams, m.launch = y.launch → m.cluster = y.cluster → ∀ b, m.stop ≠ some (.save true b)) ∧
          u.hub.parks = s.hub.parks ∧ (u.func f).rrci = g.rrci + 1) ∧
        (∀ l, imageOk passed y b = false → s.launch? r.sid = some l → l.st = .running →
          ∃ u k, exec (.replyRestore f) s = .next u ∧ u.launch? r.sid = some k ∧ k.st = .aborting 0x43 ∧
            u.hub.saved = s.hub.saved ∧ (s.alarm.levelOf 7 ≠ 0 → u.alarm.src.getLsbD 7 = true)))

/-! ### Boot, attestation and the security alarm (R370 to R378) -/

/-- R370 to R375, R378: a cold boot keeps the fuses and the host's memory, takes the images that the driver has written to flash (R373;
what the event gives, log 3), clears everything else, and is ready when the hub's self-test, both images, the register reset and at
least one die pass; DIEOK names the dies that passed every step, the others are fenced, and the measurement registers of the hub's and
the dies' images are extended. Host memory that nothing has written reads as log 18 says. A failure at step 1 or 2 stops boot there
with its cause, and one that fences the last die at the step and with the cause where that die failed. The mesh fits the good cores. A warm reset does the same, but a level-3 alarm and KEYLOCK outlast it. An image is
accepted when the five checks of R372 hold, and else its cause is that of the first that fails. -/
def Obligations.BootSequence : Prop :=
  (∀ (s : State) (x : BootInput),
    let f := s.sec.fuses.found x true
    let hubCause := verifyImage f.flashHub 0 f.keyHash0 (fuseFloor f.svn0)
    let dieCause := verifyImage f.flashDie 1 f.keyHash1 (fuseFloor f.svn1)
    let hubOk := x.hubSelfTest && hubCause == 0
    let fits := fun d : Nat => 12 ≤ goodCores x f d
    let up := fun d : Nat => hubOk && dieCause == 0 && passed x.linkUp d && passed x.sramOk d && decide (fits d) && passed x.hbmOk d
    ∃ u, exec (.coldBoot x) s = .next u ∧ u.sec.fuses = f ∧ u.sec.boot.ready = ((List.range 8).any up && x.regReset) ∧
      (∀ d : Fin 8, u.sec.boot.dieok.getLsbD d.val = up d.val ∧ u.dies[d].fenced = (hubOk && !up d.val)) ∧
      (x.hubSelfTest = false → u.sec.boot.fstep = 1 ∧ u.sec.boot.fcause = 1) ∧
      (x.hubSelfTest = true → hubCause ≠ 0 → u.sec.boot.fstep = 2 ∧ u.sec.boot.fcause = hubCause) ∧
      (let link := fun d => passed x.linkUp d = true
       let good := fun d => link d ∧ passed x.sramOk d = true ∧ fits d
       let stops := fun step cause => u.sec.boot.fstep = step ∧ u.sec.boot.fcause = cause
       hubOk = true →
         ((∀ d < 8, ¬ link d) → stops 3 7) ∧ ((∃ d < 8, link d) → dieCause ≠ 0 → stops 4 dieCause) ∧
         ((∃ d < 8, link d) → dieCause = 0 → (∀ d < 8, ¬ good d) → stops 5 1) ∧
         ((∃ d < 8, good d) → dieCause = 0 → (∀ d < 8, good d → passed x.hbmOk d = false) → stops 6 8)) ∧
      (u.sec.boot.fstep = 0 ↔ u.sec.boot.ready = true) ∧
      u.sec.boot.meas[1] = (if hubOk then extend 0 (imageDigest f.flashHub) else 0) ∧
      (∀ d : Fin 8, u.sec.boot.meas[Fin.ofNat 10 (2 + d.val)] =
        if hubOk && dieCause == 0 && passed x.linkUp d then extend 0 (imageDigest f.flashDie) else 0) ∧
      (u.sec.boot.ready = true → ∀ p < 18, u.sec.boot.brory.getLsbD p = x.brory.contains p) ∧
      (∀ hub die, x.flash = some (hub, die) → f.flashHub = hub ∧ f.flashDie = die) ∧
      (x.flash = none → f.flashHub = s.sec.fuses.flashHub ∧ f.flashDie = s.sec.fuses.flashDie) ∧
      (x.made = none ∨ s.sec.fuses.keyHash0 ≠ [] → f.keyHash0 = s.sec.fuses.keyHash0 ∧ f.keyHash1 = s.sec.fuses.keyHash1) ∧
      f.svn0 = s.sec.fuses.svn0 ∧ f.svn1 = s.sec.fuses.svn1 ∧
      (∀ pa < Config.hostBase, committed u pa = 0) ∧
      (MemoryCanonical s → ∀ pa, Config.hostBase ≤ pa → u.mem.get pa = s.mem.get pa) ∧
      u.teams = [] ∧ u.ops = [] ∧ u.cmds = [] ∧ u.hub = Hub.reset ∧ u.alarm = Alarm.reset ∧ u.hubLost = false ∧
      (s.alarm.keylock = false → s.sec.fuses.found x false = f → exec (.warmReset x) s = .next u) ∧
      (s.alarm.keylock = true → s.sec.fuses.found x false = f → ∃ w, exec (.warmReset x) s = .next w ∧ w.alarm.level = 3 ∧ w.alarm.keylock = true ∧
        w.sec.boot.aliasKey = false ∧ w.sec.boot.ready = u.sec.boot.ready)) ∧
  (∀ good, 12 ≤ good → let m := fitMesh good 16 (8, 6)
    m.1 * m.2 ≤ good ∧ 1 ≤ m.1 ∧ m.1 ≤ 8 ∧ 1 ≤ m.2 ∧ m.2 ≤ 6 ∧ (48 ≤ good → m = (8, 6)) ∧ (good = 45 → m = (7, 6))) ∧
  ∀ (img keyHash : List Byte) (kind floor : Nat),
    let header := fld img 0 4 = 0x4C384657 ∧ fld img 4 4 = kind ∧ zeroPart img 0x0C 4 = true ∧ zeroPart img 0xDC 36 = true ∧
      zeroPart img 0x184 124 = true ∧ fld img 0x10 8 % 64 = 0 ∧ fld img 0x10 8 ≠ 0 ∧ 512 + fld img 0x10 8 ≤ img.length
    let key := sha512 ((img.drop 0x100).take 132) = keyHash
    let signed := ecdsaValid (beField img 0x100 66) (beField img 0x142 66) (beField img 0x58 66) (beField img 0x9A 66)
      (sha512 (img.take 0x58)) = true
    let digest := sha512 ((img.drop 512).take (fld img 0x10 8)) = (img.drop 0x18).take 64
    let cause := verifyImage img kind keyHash floor
    (¬ header → cause = 2) ∧ (header → ¬ key → cause = 3) ∧ (header → key → ¬ signed → cause = 4) ∧
    (header → key → signed → ¬ digest → cause = 5) ∧ (header → key → signed → digest → fld img 8 4 < floor → cause = 6) ∧
    (header → key → signed → digest → floor ≤ fld img 8 4 → cause = 0)

/-- R373, R375, R376, R377, R378, R380: the responder answers each request it supports and ERROR to any other request, algorithm or slot,
before READY as after it (R376 sets no condition: log 33); without the alias key or under KEYLOCK, CHALLENGE, GET_MEASUREMENTS and
KEY_EXCHANGE return ERROR. The measurement blocks are the ten registers with indices 1 to 10; that index 0 asks for none of them and 255
for all is log 33 (PRESUMED). Signatures, key shares and the certificate
chain are free values (log 12); the digest is the chain's SHA-512. FINISH establishes a session and END_SESSION ends it; one that is not
intact fires source 4, and its answer is ERROR (log 28, DEDUCED). A source fires at its configured level: its SRC bit is set and LEVEL
rises to it; level 1 writes the alarm record, one for each firing, with the LEVEL then reached (log 28); level 2 stops the command
processor and the cores, ends every open launch short of its commit point with ABORT_KILLED and no retry, and the record follows when no
launch is open (log 28, DEDUCED from the order of R378). CXL and the Brory ports are fenced then: host reads of device memory return all
ones, host writes are dropped, and an access through a port has no effect. Level 3 also sets KEYLOCK, zeroises the wrapping key and ends every session. SVNUP raises
a floor to the SVN that booted, blows no fuse below it, and is ignored with CFGERR at level 2 or 3, or when that SVN exceeds 64. -/
def Obligations.SecurityResponses : Prop :=
  (∀ (s : State),
     let answer := fun (r : SpdmResp) (pending sessions : List Nat) => (.next { s with
       out := s.out ++ [.spdm r]
       sec := { s.sec with spdm := { pendingSessions := pending, sessions := sessions, count := s.sec.spdm.count + 1 } } } :
         Host.Outcome State Fault Refusal)
     let p := s.sec.spdm
     let plain := fun r => answer r p.pendingSessions p.sessions
     let free := Config.spdmBytes p.count
     let chain := Config.certChain s.sec.boot.meas[0] s.sec.boot.meas[1]
     let signs := s.sec.boot.aliasKey = true ∧ s.alarm.keylock = false
     let blocks := (List.range 10).map (fun i => (i + 1, s.sec.boot.meas[Fin.ofNat 10 i]))
     exec .getVersion s = plain .version ∧ exec .getCapabilities s = plain .capabilities ∧
     exec .getDigests s = plain (.digests (sha512 chain)) ∧
     (∀ a b, exec (.negotiateAlgorithms a b) s = plain (if a && b then .algorithms else .error)) ∧
     (∀ n, exec (.getCertificate n) s = plain (if n = 0 then .certificate chain else .error)) ∧
     (∀ n, (n = 0 ∧ signs → exec (.challenge n) s = plain (.challengeAuth free)) ∧
       (¬ (n = 0 ∧ signs) → exec (.challenge n) s = plain .error)) ∧
     (∀ slot n, (slot = 0 ∧ (n ≤ 10 ∨ n = 255) ∧ signs → exec (.getMeasurements ⟨slot, n⟩) s =
         plain (.measurements (if n = 255 then blocks else blocks.filter (fun b => b.1 = n)) free)) ∧
       (¬ (slot = 0 ∧ (n ≤ 10 ∨ n = 255) ∧ signs) → exec (.getMeasurements ⟨slot, n⟩) s = plain .error)) ∧
     (∀ n, (n = 0 ∧ signs → exec (.keyExchange n) s =
         answer (.keyExchangeRsp p.count free) (p.pendingSessions ++ [p.count]) p.sessions) ∧
       (¬ (n = 0 ∧ signs) → exec (.keyExchange n) s = plain .error)) ∧
     (∀ n b, (n ∉ p.pendingSessions → exec (.finish ⟨n, b⟩) s = plain .error) ∧ (n ∉ p.sessions → exec (.endSession ⟨n, b⟩) s = plain .error)) ∧
     (∀ n ∈ p.pendingSessions, exec (.finish ⟨n, true⟩) s = answer .finishRsp (p.pendingSessions.erase n) (p.sessions ++ [n])) ∧
     (∀ n ∈ p.sessions, exec (.endSession ⟨n, true⟩) s = answer .endSessionAck p.pendingSessions (p.sessions.erase n)) ∧
     (∃ e, plain .error = .next e ∧ (∀ n ∈ p.pendingSessions, exec (.finish ⟨n, false⟩) s = .next (e.raiseAlarm 4)) ∧
       ∀ n ∈ p.sessions, exec (.endSession ⟨n, false⟩) s = .next (e.raiseAlarm 4)) ∧
     ∀ c, exec (.spdmUnsupported c) s = plain .error) ∧
  ((∀ (s : State) (src d : Nat) (ev : Instr), d < 8 →
     (src, ev) ∈ ([(0, .supplyVoltageEvent), (1, .clockFrequencyEvent), (2, .temperatureShutdownEvent d),
       (3, .securityControllerFault)] : List (Nat × Instr)) →
     let level := bits s.alarm.cfg.toNat (2 * src + 1) (2 * src)
     let top := max s.alarm.level level
     let marked : State := { s with alarm := { s.alarm with src := s.alarm.src ||| BitVec.ofNat 8 (2 ^ src), level := top } }
     let r := alarmRecord src top s.time
     (level = 0 → exec ev s = .next s) ∧ (level = 1 → exec ev s = .next (marked.raiseRecord r)) ∧
     (1 ≤ level → ∃ u, exec ev s = .next u ∧ u.alarm.src = marked.alarm.src ∧ u.alarm.level = top ∧ u.sec.fuses = s.sec.fuses ∧
       u.teams = s.teams ∧ u.sectors = s.sectors ∧
       (level = 1 → u.alarm.keylock = s.alarm.keylock ∧ u.alarm.coresStopped = s.alarm.coresStopped ∧ u.sec = s.sec ∧
         u.hub.launches = s.hub.launches) ∧
       (2 ≤ level → u.alarm.cpStopped = true ∧ u.alarm.coresStopped = true ∧
         ((∃ l ∈ s.hub.launches, l.isOpen = true) → u.alarm.due = s.alarm.due ++ [r] ∧ u.hub.funcs = s.hub.funcs ∧ u.mem = s.mem) ∧
         ((∀ l ∈ s.hub.launches, l.isOpen = false) → u.alarm.due = [] ∧ (s.alarm.due = [] → u.mem = (marked.raiseRecord r).mem)) ∧
         ∀ l, s.launch? l.sid = some l →
           (l.st = .running ∨ l.st = .preparing → u.launch? l.sid = some { l with st := .aborting 0x44, killPending := true }) ∧
           (∀ a, l.st = .aborting a → u.launch? l.sid = some { l with killPending := true }) ∧
           (l.st = .committing → u.launch? l.sid = some { l with
             killPending := true, later := if l.seg + 1 < l.lrec.nseg ∧ l.later = none then some 0x44 else l.later }) ∧
           (l.st = .waiting → u.launch? l.sid = some l)) ∧
       (level = 3 → u.alarm.keylock = true ∧ u.sec.boot.wrapKey = false ∧ u.sec.spdm.sessions = [] ∧
         u.sec.spdm.pendingSessions = []))) ∧
   (∀ (s : State) (die off len : Nat) (bytes : List Byte) (w : Bool), die < 8 → s.sec.boot.ready = true → s.alarm.cpStopped = true →
     (∀ l ∈ s.hub.launches, l.isOpen = false) →
     exec (.hostRead die off len) s = .next { s with out := s.out ++ [.hostData die off (List.replicate len 0xFF)] } ∧
     exec (.hostWrite die off bytes) s = .next s ∧ exec (.broryPeerAccess w die off len bytes) s = .next s) ∧
   (∀ (src level : Nat) (now : Word), src < 8 → let b := (alarmRecord src level now).bytes
     b.length = 128 ∧ fld b 0 8 = 0 ∧ fld b 8 8 = 2 ^ 48 + 0xFFFFFFFF ∧ fld b 16 8 = src * 2 ^ 32 ∧ fld b 24 8 = 0 ∧ fld b 32 8 = 0 ∧
       fld b 40 8 = 0 ∧ fld b 48 8 = level % 2 ^ 64 ∧ fld b 56 8 = now.toNat) ∧
   ∀ (s : State) (v : BitVec 64), s.sec.boot.ready = true → v.toNat % 4 ≠ 0 →
     let b := s.sec.boot
     let f := s.sec.fuses
     let bad := 2 ≤ s.alarm.level ∨ (v.getLsbD 0 = true ∧ 64 < b.bootSvn0) ∨ (v.getLsbD 1 = true ∧ 64 < b.bootSvn1)
     (bad → ∃ u, exec (.svnup v) s = .next u ∧ u.hub.cfgerr = true ∧ u.sec.fuses = f) ∧
     (¬ bad → ∃ u, exec (.svnup v) s = .next u ∧ u = { s with sec := { s.sec with fuses := u.sec.fuses } } ∧
       fuseFloor u.sec.fuses.svn0 = (if v.getLsbD 0 then max (fuseFloor f.svn0) b.bootSvn0 else fuseFloor f.svn0) ∧
       fuseFloor u.sec.fuses.svn1 = (if v.getLsbD 1 then max (fuseFloor f.svn1) b.bootSvn1 else fuseFloor f.svn1) ∧
       ∀ i, (f.svn0.getLsbD i = true → u.sec.fuses.svn0.getLsbD i = true) ∧
         (f.svn1.getLsbD i = true → u.sec.fuses.svn1.getLsbD i = true)))

/-! ### Errors, links and power (R379 to R387) -/

/-- R379 to R382, R384 to R387: an uncorrectable error in a core array, a tentative sector, a frame of committed data or an image aborts
with ABORT_MEMERR the running launches that hold state there, or have read the frame, or hold tentative data in it, and those that depend
on one with ABORT_DEPENDENCY; a frame is retired with a record to the PF that names the launch which met the error, also for the data of a
launch past its commit point; a full table fences the die; a corrected error is counted, to a limit. A report shows the values of its last
refresh. A die whose hub link fails detours through its lower neighbour (that the lower way is taken where both are open is log 32,
DEDUCED); without a way it is fenced: its DIEOK bit clears, launches with a range on it abort with ABORT_DIE_LOST, and its loans end, what
it had lent and what it had borrowed each back with its lender; a link that recovers unfences none. The loss of the hub stops the package.
With the last Brory port the launches that it cuts off end, without retry, with a status that the spec leaves open (log 17). A die lends from its headroom, BUDGET
less PWR and a reserve of 8 W, and no more; the units go to the borrower until they are repaid, renewed while the lender keeps its
headroom, or fall due after one millisecond, before anything else comes about. No step of a loan changes the sum of the budgets. -/
def Obligations.FleetEvents : Prop :=
  ((∀ (s : State) (l : Launch), s.launch? l.sid = some l → l.st = .running →
     let ends := fun (u : State) => ∃ k status, u.launch? l.sid = some k ∧ k.st = .aborting status ∧ (status = 0x43 ∨ status = 0x47) ∧
       ((∀ x ∈ s.hub.launches, precedes x l = false) → status = 0x43)
     let aborts := fun e => ∃ u, exec (.uncorrectableError e) s = .next u ∧ ends u
     (∀ t ∈ s.teams, t.launch = l.sid → aborts (.coreArray .vrf t.ref.die t.ref.core) ∧
       (0 < t.stashLen → aborts (.coreArray .stash t.ref.die t.ref.core)) ∧
       (0 < t.nacc → aborts (.coreArray .accStore t.ref.die t.ref.core)) ∧
       (t.matrix.isSome = true → aborts (.coreArray .termBuf t.ref.die t.ref.core))) ∧
     (∀ sector, (s.sectorRec sector).tent = true →
       s.hub.launches.find? (fun k => k.isOpen && k.lv == (s.sectorRec sector).lv) = some l →
       ∃ u k, exec (.uncorrectableError (.tentative sector)) s = .next u ∧ u.launch? l.sid = some k ∧ k.st = .aborting 0x43) ∧
     (∀ t, (∃ x ∈ s.hub.saved, x.launch = l.sid ∧ x.team.t = t) →
       ∃ u k, exec (.uncorrectableError (.image l.sid t)) s = .next u ∧ u.launch? l.sid = some k ∧ k.st = .aborting 0x43) ∧
     ∀ (die : Fin 8) off met, s.sec.boot.ready = true → off < 96000000000 → s.dies[die].fenced = false →
       off / 4096 * 4096 ∉ s.dies[die].retired →
       ∃ u, exec (.uncorrectableError (.frame die.val off met)) s = .next u ∧
         u.dies[die].retired = s.dies[die].retired ++ [off / 4096 * 4096] ∧
         u.dies[die].fenced = decide (4096 ≤ s.dies[die].retired.length + 1) ∧
         (flat die.val off / 4096 ∈ l.readFrames → ends u) ∧ u.sectors = s.sectors ∧
         (∀ r ∈ s.sectors, r.tent = true → r.lv = l.lv → r.sector / 64 = flat die.val (off / 4096 * 4096) / 4096 → ends u) ∧
         (let lid := ((met.bind s.launch?).map (·.lrec.lid)).getD 0
          let told := s.raiseRecord (retirementRecord lid die.val (off / 4096 * 4096) s.time)
          u.mem = told.mem ∧ u.hub.funcs = told.hub.funcs ∧ u.out = told.out)) ∧
   (∀ (s : State) (sector : Nat) (l : Launch), (s.sectorRec sector).tent = true → l.st = .committing → s.launch? l.sid = some l →
     s.hub.launches.find? (fun k => k.isOpen && k.lv == (s.sectorRec sector).lv) = some l →
     let die := dieOf (64 * sector)
     exec (.uncorrectableError (.tentative sector)) s = .next (s.retireFrame die (64 * sector - flat die 0) (some l.sid))) ∧
   (∀ (lid : Word) (die off : Nat) (now : Word), die < 8 → off < 2 ^ 64 → let b := (retirementRecord lid die off now).bytes
     b.length = 128 ∧ fld b 0 8 = lid.toNat ∧ fld b 8 8 = 2 * 2 ^ 48 + 0xFFFFFFFF ∧ fld b 16 8 = 0xFFFF * 2 ^ 32 + die ∧
       fld b 48 8 = off ∧ fld b 56 8 = now.toNat) ∧
   (∀ (s : State) (die : Fin 8), let d := s.dies[die]
     exec (.correctedError die.val) s = .next { s with
       dies := s.dies.set die { d with cecc := if d.cecc.toNat = 2 ^ 32 - 1 then d.cecc else d.cecc + 1 } } ∧
     (d.fenced = false → ∀ pwr temp n, exec (.telemetryRefresh die pwr temp n) s = .next { s with
       dies := s.dies.set die { d with
         pwr := pwr, temp := temp, throt := d.throt + BitVec.ofNat 64 n, reportAt := s.time
         report := { link := d.link, temp := temp, budget := BitVec.ofNat 16 d.budget, pwr := pwr
                     retired := BitVec.ofNat 12 d.retired.length, cecc := d.cecc, throt := d.throt + BitVec.ofNat 64 n } } })) ∧
   (∀ (s : State) (die : Fin 8), (∀ d : Fin 8, s.dies[d].fenced = false ∧ s.dies[d].ringLink = true) →
     (∀ d : Fin 8, d ≠ die → s.dies[d].hubLink = true) →
     (∃ u, exec (.hubLinkFailure die.val) s = .next u ∧ u.dies[die].link = 1 ∧ u.hub = s.hub ∧ u.sec = s.sec ∧
       ∀ d : Fin 8, u.dies[d].fenced = false ∧ (d ≠ die → u.dies[d].link = 0)) ∧
     (∃ u, exec (.linkRecovery true die.val) s = .next u ∧ u.dies[die].link = 0 ∧ u.hub = s.hub ∧ u.sec = s.sec) ∧
     (∃ u, exec (.ringLinkFailure die.val) s = .next u ∧ (∀ d : Fin 8, u.dies[d].fenced = false) ∧ u.hub = s.hub)) ∧
   (∀ (s : State) (die : Fin 8), s.dies[die].hubLink = false → s.dies[die].ringLink = false → s.dies[die].fenced = false →
     (s.loans.map (·.id)).Nodup → (∀ d : Fin 8, d ≠ die → s.dies[d].fenced = false ∧ s.dies[d].hubLink = true) →
     ∃ u, exec (.ringLinkFailure ((die.val + 7) % 8)) s = .next u ∧ u.dies[die].fenced = true ∧ u.dies[die].link = 3 ∧
       u.sec.boot.dieok.getLsbD die.val = false ∧ (∀ d : Fin 8, d ≠ die → u.dies[d].fenced = false) ∧
       (∀ x ∈ u.loans, x.lender ≠ die.val ∧ x.borrower ≠ die.val) ∧
       (∀ (x : Loan) (a b : Fin 8), s.loans = [x] → x.lender = a.val → x.borrower = b.val → a ≠ b → x.units ≤ s.dies[b].budget →
         (a = die ∨ b = die → u.dies[a].budget = s.dies[a].budget + x.units ∧ u.dies[b].budget = s.dies[b].budget - x.units) ∧
         (a ≠ die → b ≠ die → u.loans = [x] ∧ ∀ d : Fin 8, u.dies[d].budget = s.dies[d].budget)) ∧
       ∀ l, s.launch? l.sid = some l → l.st = .running → l.lrec.uses die.val = true →
         ∃ k status, u.launch? l.sid = some k ∧ k.st = .aborting status ∧ (status = 0x45 ∨ status = 0x47) ∧
           ((∀ x ∈ s.hub.launches, precedes x l = false) → status = 0x45)) ∧
   (∀ (s : State) (hubLink : Bool) (die : Nat) (d : Fin 8), s.dies[d].fenced = true →
     ∃ u, exec (.linkRecovery hubLink die) s = .next u ∧ u.dies[d].fenced = true) ∧
   (∀ (s : State), exec .hubLoss s = .next { s with hubLost := true } ∧
     (∀ c rest, s.hubLost = true → s.agenda = .issue c :: rest → step s = .fault .hubLost)) ∧
   ∀ (s : State) (port : Nat) (cut : List Nat), port < 18 →
     let left := s.sec.boot.brory &&& ~~~ BitVec.ofNat 18 (2 ^ port)
     let down : State := { s with sec := { s.sec with boot := { s.sec.boot with brory := left } } }
     (s.sec.boot.brory.getLsbD port = false → exec (.broryPortLoss ⟨port, cut⟩) s = .next s) ∧
     (s.sec.boot.brory.getLsbD port = true → left ≠ 0 → exec (.broryPortLoss ⟨port, cut⟩) s = .next down) ∧
     (s.sec.boot.brory.getLsbD port = true → left = 0 → ∃ u, exec (.broryPortLoss ⟨port, cut⟩) s = .next u ∧ u.sec = down.sec ∧
       ∀ l, s.launch? l.sid = some l → l.sid ∈ cut →
         let status := 0x40 + Config.routeLost s.tick % 9
         (l.st = .running → ∃ k, u.launch? l.sid = some k ∧ k.retriesLeft = 0 ∧ k.doomed = true ∧
           (k.st = .aborting status ∨ k.st = .aborting 0x47) ∧
           ((∀ x ∈ s.hub.launches, precedes x l = false) → k.st = .aborting status)) ∧
         (l.st = .committing → ∃ k, u.launch? l.sid = some k ∧ k.st = .committing ∧ k.retriesLeft = 0 ∧ k.doomed = true ∧
           k.later = if l.seg + 1 < l.lrec.nseg then l.later.or (some status) else l.later))) ∧
  ((∀ (s : State) (a b : Fin 8) (n : Nat), a ≠ b → s.dies[a].fenced = false → s.dies[b].fenced = false → 0 < n →
     (s.dies[a].pwr.toNat + 8 + n ≤ s.dies[a].budget → ∃ u, exec (.powerLoan a.val b.val n) s = .next u ∧
       u.dies[a].budget = s.dies[a].budget - n ∧ u.dies[b].budget = s.dies[b].budget + n ∧
       u.loans = s.loans ++ [{ id := s.serial, lender := a.val, borrower := b.val, units := n, deadline := s.time + 1000000 }] ∧
       (∀ d : Fin 8, d ≠ a → d ≠ b → u.dies[d] = s.dies[d]) ∧ u.hub = s.hub) ∧
     (s.dies[a].budget < s.dies[a].pwr.toNat + 8 + n → exec (.powerLoan a.val b.val n) s = .next s)) ∧
   (∀ (s : State) (x : Loan) (a b : Fin 8), s.loan? x.id = some x → x.lender = a.val → x.borrower = b.val → a ≠ b →
     x.units ≤ s.dies[b].budget → (∀ y ∈ s.loans, y.id = x.id → y = x) →
     let returned := fun (u : State) (n : Nat) => u.dies[a].budget = s.dies[a].budget + n ∧ u.dies[b].budget = s.dies[b].budget - n ∧
       u.hub = s.hub
     (∀ n ≤ x.units, ∃ u, exec (.loanRepay x.id n) s = .next u ∧ returned u n ∧
       ∀ y ∈ u.loans, y.id = x.id → y.units = x.units - n ∧ 0 < y.units) ∧
     (s.time.toNat < x.deadline.toNat → s.dies[a].pwr.toNat + 8 ≤ s.dies[a].budget → exec (.loanRenew x.id) s =
       .next { s with loans := s.loans.map (fun y => if y.id = x.id then { y with deadline := s.time + 1000000 } else y) }) ∧
     (s.dies[a].budget < s.dies[a].pwr.toNat + 8 ∨ x.deadline.toNat ≤ s.time.toNat → exec (.loanRenew x.id) s = .next s) ∧
     (x.deadline.toNat ≤ s.time.toNat → ∃ u, exec (.loanExpiry x.id) s = .next u ∧ returned u x.units ∧ ∀ y ∈ u.loans, y.id ≠ x.id) ∧
     (s.time.toNat < x.deadline.toNat → exec (.loanExpiry x.id) s = .next s)) ∧
   (∀ (s : State) (x : Loan), s.hubLost = false → s.clock.overdue = some x →
     step s = .next (s.clock.returnLoan x x.units) ∧ x.deadline.toNat ≤ s.clock.time.toNat) ∧
   ∀ (s : State) (a b n : Nat),
     let total := fun (u : State) => (u.dies.toList.map (·.budget)).foldl (· + ·) 0
     ∀ i ∈ ([.powerLoan a b n, .loanRepay a n, .loanRenew a, .loanExpiry a] : List Instr),
       ∃ u, exec i s = .next u ∧ total u = total s ∧ u.mem = s.mem ∧ u.teams = s.teams ∧ u.hub = s.hub)

/-! ### Reset (R1, R10, R150, R356, R377, R382, R384) -/

/-- R11, R150, R356, R357, R359, R365, R369, R371, R375, R377, R382, R384: what the manual says reset leaves: no queue, address
space, ring, access entry or domain in force, the first CSN, KLIM of a second, the Cistern on the top eighth of each die, an
undivided mesh, home budgets, minimum alarm levels, clear measurement registers and BOOTST, and no team. Memory lists nothing,
which is canonical. -/
def Obligations.ResetLeavesSpecValues : Prop :=
  let s := State.reset
  MemoryCanonical s ∧ s.mem = [] ∧ s.time = 0 ∧ s.teams = [] ∧ s.hub.launches = [] ∧ s.hub.csn = 1 ∧ s.hub.klim = 1000000 ∧
  s.hub.cfgerr = false ∧ (∀ q < 8192, (s.queue q).en = false ∧ (s.queue q).qerr = false ∧ (s.queue q).ci = 0 ∧ (s.queue q).pi = 0) ∧
  (∀ f ≤ 64, (s.func f).fren = false ∧ (s.func f).rren = false ∧ (s.func f).frlost = 0 ∧ (s.func f).rrunm = 0) ∧
  s.hub.access = [] ∧ s.hub.asids = [] ∧ s.hub.engMask = [] ∧ (∀ i : Fin 8, s.hub.perfSel[i] = 0) ∧
  (∀ d : Fin 8, s.hub.cisSize[d] = 96000000000 / 8 / 2097152 * 2097152 ∧ s.hub.spSize[d] = 0 ∧ s.dies[d].budget = 265 ∧
    s.dies[d].report.link = 0 ∧ s.dies[d].pwr = 0 ∧ s.dies[d].cecc = 0 ∧ s.dies[d].retired = [] ∧ s.dies[d].cols.length = 8 ∧ s.dies[d].rows.length = 6) ∧
  (∀ m : Fin 16, s.windlass[m].en = false ∧ s.windlass[m].werr = false ∧ s.windlass[m].versions = []) ∧
  (∀ i : Fin 8, s.alarm.levelOf i.val = [3, 3, 2, 3, 1, 1, 0, 0].getD i.val 0) ∧ s.alarm.level = 0 ∧ s.alarm.keylock = false ∧
  s.sec.boot.ready = false ∧ s.sec.boot.dieok = 0 ∧ s.sec.boot.degr = 0 ∧ (∀ i : Fin 10, s.sec.boot.meas[i] = 0)

/-! ### Words and steps (R5, R157 to R171) -/

/-- R158, R161, R164 to R171: words written out from the tables of the manual, and the instructions they stand for; an SMOVL takes
the word that follows. Reserved majors and codes, and reserved bits, are rejected by name. -/
def Obligations.WordsDecode : Prop :=
  (∀ p ∈ ([(0x00000000, .nop), (0x30304200, .sadd 3 1 2), (0x30208818, .sshli 2 2 8), (0x98410722, .ldg 4 4 7 false false 2 2),
      (0x64200028, .vaddi 2 0 40), (0xCC100001, .aqwait 1), (0xCC140000, .astr 1 16), (0xBC000008, .cbara), (0xBC000009, .cbarw),
      (0xAC020500, .stmap 8 5), (0xC0000000, .mzero 0 0), (0xC0020020, .msplit 0 8 0), (0xC0001030, .mmas 0 0 16 0),
      (0xC0900070, .mstat 9 0 0), (0xC2000540, .mdrain 32 0 5 0), (0xC8404000, .vpop 4 1), (0xC8604001, .qstat 6 1),
      (0xD0250000, .hdef 2 20 0), (0xD0608411, .fetch 6 2 4 1), (0xD0608A20, .epool 6 2 10 0), (0xD4A08300, .route 10 2 3 0)] :
        List (Nat × Instr)), decodeWord p.1 0 = .ok p.2) ∧
  (∀ rest : List Byte, ∀ w ∈ ([0x2C000000, 0x48000000, 0xFC000000, 0x0000000A, 0x3000001C, 0xBC00000A] : List Nat),
    decode (leBytes 4 w ++ rest) = .error .illegalOpcode) ∧
  (∀ rest : List Byte, decode (leBytes 4 0x00000100 ++ rest) = .error .illegalEncoding ∧
    decode (leBytes 4 0x30300017 ++ [0x78, 0x56, 0x34, 0x12] ++ rest) = .ok (.smovl 3 0x12345678, rest) ∧
    decode (leBytes 4 0xBC000603 ++ rest) = .error .illegalEncoding)

/-- R5, R157, R161: decoding the bytes of a well-formed instruction word, whatever bytes follow, gives that instruction and leaves
the bytes that follow. No field of an encoding is dropped. -/
def Obligations.DecodeEncode : Prop :=
  ∀ (i : Instr) (rest : List Byte), i.isEvent = false → i.wf = true → decode (encodeBytes i ++ rest) = .ok (i, rest)

/-- R45, R101, R115, R157, R161, R162: a step whose turn is a context's that may issue fetches the bytes at its PC through pages that
grant X, those committed before its launch's admission, of sectors that are not PREPARED, and runs the instruction they decode to, or
the event of a word that decodes to none. Around exec the step only takes the turn from the agenda, advances the clock (with the reports
and counters that go with TIME), notes the frames of the bytes fetched for the launch and the walks of the translation caches, and counts
(R379, R382, R390). A turn that is an event runs that event. A loan that is overdue comes first (R384). -/
def Obligations.StepRunsTheDecodedInstruction : Prop :=
  (∀ (s : State) (r : CtxRef) (turns : List Turn) (v : View) (l : Launch), s.agenda = .issue r :: turns → s.hubLost = false →
    s.clock.overdue = none →
    let s1 : State := { s.clock with agenda := turns, cur := r }
    s1.view = some v → mayIssue s1 v = true → boundaryOf s1 v.ctx = none → s1.launch? v.team.launch = some l →
    (∀ a ∈ [v.ctx.pc, v.ctx.pc + 4], ∀ x ∈ s1.tablesFor l [a.toNat], s1.lostHome x = none) →
    ∀ bytes : List Byte,
      (∀ j < bytes.length, ∃ pa, s1.resolveFor v.team { x := true } (v.ctx.pc + BitVec.ofNat 64 j) = .ok pa ∧
        s1.lostHome (pa / 64) = none ∧ (s1.sectorRec (pa / 64)).prep = false ∧ s1.codeByte l.adm pa = bytes.getD j 0) →
      ∀ i, decode bytes = .ok (i, []) ∨ (bytes.length = (if hasLiteral (natOfBytes (bytes.take 4)) then 8 else 4) ∧
          ∃ e, e ≠ .truncated ∧ decode bytes = .error e ∧ i = .illegalInstruction (decide (e = .illegalOpcode))) →
        let frames := (List.range bytes.length).filterMap (fun j =>
          (s1.resolveFor v.team { x := true } (v.ctx.pc + BitVec.ofNat 64 j)).toOption.map (· / 4096))
        let words := v.ctx.pc.toNat :: if bytes.length = 8 then [(v.ctx.pc + 4).toNat] else []
        let s2 := (s1.noteFrames v.team.launch frames).noteTeam v.team words
        (∀ u, exec i s2 = .next u → step s = .next (counted i s2 (s2.walked i u))) ∧
        (∀ f, exec i s2 = .fault f → step s = .fault f) ∧ (∀ f, exec i s2 = .refused f → step s = .refused f)) ∧
  (∀ (s : State) (i : Instr) (turns : List Turn), s.agenda = .event i :: turns → s.hubLost = false → s.clock.overdue = none →
    i.isEvent = true → (∀ b, i ≠ .illegalInstruction b) →
    let s1 : State := { s.clock with agenda := turns }
    (∀ u, exec i s1 = .next u → step s = .next (counted i s1 (s1.walked i u))) ∧
    (∀ f, exec i s1 = .fault f → step s = .fault f) ∧ (∀ f, exec i s1 = .refused f → step s = .refused f)) ∧
  (∀ (s : State) (l : Launch) (pa : Nat), (∀ x ∈ s.codeLog, x.sector = pa / 64 → x.adm < l.adm) → s.codeByte l.adm pa = committed s pa) ∧
  ∀ (i : Instr) (s u : State), (∀ k : Fin 8, u.hub.perfSel[k] = 0) → counted i s u = u

/-- R5, R142, R143: every step keeps memory in its canonical form. -/
def Obligations.StepKeepsMemoryCanonical : Prop :=
  ∀ s u : State, MemoryCanonical s → step s = .next u → MemoryCanonical u

end
end

