-- ==== Sys2Proof/Laws/Exec.lean ====
section
/-! SUPPORT. Laws/Exec.lean: the meaning that `exec` calls for each constructor, so that no proof unfolds the whole dispatch. -/

namespace Sys2Proof.Machine

variable (st : State)

@[simp] theorem exec_nop : exec .nop st = execNop st := rfl
@[simp] theorem exec_brk : exec .brk st = execBrk st := rfl
@[simp] theorem exec_endCtx : exec .endCtx st = execEndCtx st := rfl
@[simp] theorem exec_exitLanes : exec .exitLanes st = execExitLanes st := rfl
@[simp] theorem exec_ret (a : Fin 64) : exec (.ret a) st = execRet a st := rfl
@[simp] theorem exec_srd (d : Fin 64) (b : Fin 64) : exec (.srd d b) st = execSrd d b st := rfl
@[simp] theorem exec_swr (a : Fin 64) (b : Fin 64) : exec (.swr a b) st = execSwr a b st := rfl
@[simp] theorem exec_sliceof (d : Fin 64) (a : Fin 64) : exec (.sliceof d a) st = execSliceof d a st := rfl
@[simp] theorem exec_mdrd (d : Fin 64) : exec (.mdrd d) st = execMdrd d st := rfl
@[simp] theorem exec_modev (a : Fin 64) : exec (.modev a) st = execModev a st := rfl
@[simp] theorem exec_mode (i : BitVec 26) : exec (.mode i) st = execMode i st := rfl
@[simp] theorem exec_trap (c : BitVec 16) : exec (.trap c) st = execTrap c st := rfl
@[simp] theorem exec_rgn (t : BitVec 16) : exec (.rgn t) st = execRgn t st := rfl
@[simp] theorem exec_bra (o : BitVec 26) : exec (.bra o) st = execBra o st := rfl
@[simp] theorem exec_call (o : BitVec 26) : exec (.call o) st = execCall o st := rfl
@[simp] theorem exec_bsz (c : Fin 64) (o : BitVec 20) : exec (.bsz c o) st = execBsz c o st := rfl
@[simp] theorem exec_bsnz (c : Fin 64) (o : BitVec 20) : exec (.bsnz c o) st = execBsnz c o st := rfl
@[simp] theorem exec_bkz (c : Fin 16) (o : BitVec 20) : exec (.bkz c o) st = execBkz c o st := rfl
@[simp] theorem exec_bknz (c : Fin 16) (o : BitVec 20) : exec (.bknz c o) st = execBknz c o st := rfl
@[simp] theorem exec_bkall (c : Fin 16) (o : BitVec 20) : exec (.bkall c o) st = execBkall c o st := rfl
@[simp] theorem exec_sadd (d : Fin 64) (a : Fin 64) (b : Fin 64) : exec (.sadd d a b) st = execSadd d a b st := rfl
@[simp] theorem exec_ssub (d : Fin 64) (a : Fin 64) (b : Fin 64) : exec (.ssub d a b) st = execSsub d a b st := rfl
@[simp] theorem exec_smul (d : Fin 64) (a : Fin 64) (b : Fin 64) : exec (.smul d a b) st = execSmul d a b st := rfl
@[simp] theorem exec_smulhi (d : Fin 64) (a : Fin 64) (b : Fin 64) : exec (.smulhi d a b) st = execSmulhi d a b st := rfl
@[simp] theorem exec_smulhn (d : Fin 64) (a : Fin 64) (b : Fin 64) : exec (.smulhn d a b) st = execSmulhn d a b st := rfl
@[simp] theorem exec_sand (d : Fin 64) (a : Fin 64) (b : Fin 64) : exec (.sand d a b) st = execSand d a b st := rfl
@[simp] theorem exec_sor (d : Fin 64) (a : Fin 64) (b : Fin 64) : exec (.sor d a b) st = execSor d a b st := rfl
@[simp] theorem exec_sxor (d : Fin 64) (a : Fin 64) (b : Fin 64) : exec (.sxor d a b) st = execSxor d a b st := rfl
@[simp] theorem exec_sandn (d : Fin 64) (a : Fin 64) (b : Fin 64) : exec (.sandn d a b) st = execSandn d a b st := rfl
@[simp] theorem exec_sshl (d : Fin 64) (a : Fin 64) (b : Fin 64) : exec (.sshl d a b) st = execSshl d a b st := rfl
@[simp] theorem exec_sshr (d : Fin 64) (a : Fin 64) (b : Fin 64) : exec (.sshr d a b) st = execSshr d a b st := rfl
@[simp] theorem exec_ssra (d : Fin 64) (a : Fin 64) (b : Fin 64) : exec (.ssra d a b) st = execSsra d a b st := rfl
@[simp] theorem exec_smin (d : Fin 64) (a : Fin 64) (b : Fin 64) : exec (.smin d a b) st = execSmin d a b st := rfl
@[simp] theorem exec_smax (d : Fin 64) (a : Fin 64) (b : Fin 64) : exec (.smax d a b) st = execSmax d a b st := rfl
@[simp] theorem exec_sminn (d : Fin 64) (a : Fin 64) (b : Fin 64) : exec (.sminn d a b) st = execSminn d a b st := rfl
@[simp] theorem exec_smaxn (d : Fin 64) (a : Fin 64) (b : Fin 64) : exec (.smaxn d a b) st = execSmaxn d a b st := rfl
@[simp] theorem exec_sseq (d : Fin 64) (a : Fin 64) (b : Fin 64) : exec (.sseq d a b) st = execSseq d a b st := rfl
@[simp] theorem exec_sslt (d : Fin 64) (a : Fin 64) (b : Fin 64) : exec (.sslt d a b) st = execSslt d a b st := rfl
@[simp] theorem exec_ssltn (d : Fin 64) (a : Fin 64) (b : Fin 64) : exec (.ssltn d a b) st = execSsltn d a b st := rfl
@[simp] theorem exec_spop (d : Fin 64) (a : Fin 64) : exec (.spop d a) st = execSpop d a st := rfl
@[simp] theorem exec_sclz (d : Fin 64) (a : Fin 64) : exec (.sclz d a) st = execSclz d a st := rfl
@[simp] theorem exec_sctz (d : Fin 64) (a : Fin 64) : exec (.sctz d a) st = execSctz d a st := rfl
@[simp] theorem exec_smov (d : Fin 64) (a : Fin 64) : exec (.smov d a) st = execSmov d a st := rfl
@[simp] theorem exec_smovl (d : Fin 64) (lit : BitVec 32) : exec (.smovl d lit) st = execSmovl d lit st := rfl
@[simp] theorem exec_smovlSigned (d : Fin 64) (lit : BitVec 32) : exec (.smovlSigned d lit) st = execSmovlSigned d lit st := rfl
@[simp] theorem exec_smovlHigh (d : Fin 64) (a : Fin 64) (lit : BitVec 32) : exec (.smovlHigh d a lit) st = execSmovlHigh d a lit st := rfl
@[simp] theorem exec_sshli (d : Fin 64) (a : Fin 64) (n : Fin 64) : exec (.sshli d a n) st = execSshli d a n st := rfl
@[simp] theorem exec_sshri (d : Fin 64) (a : Fin 64) (n : Fin 64) : exec (.sshri d a n) st = execSshri d a n st := rfl
@[simp] theorem exec_ssrai (d : Fin 64) (a : Fin 64) (n : Fin 64) : exec (.ssrai d a n) st = execSsrai d a n st := rfl
@[simp] theorem exec_sbfx (d : Fin 64) (w : Fin 64) (p : Fin 64) : exec (.sbfx d w p) st = execSbfx d w p st := rfl
@[simp] theorem exec_saddi (d : Fin 64) (a : Fin 64) (i : BitVec 14) : exec (.saddi d a i) st = execSaddi d a i st := rfl
@[simp] theorem exec_sandi (d : Fin 64) (a : Fin 64) (i : BitVec 14) : exec (.sandi d a i) st = execSandi d a i st := rfl
@[simp] theorem exec_sori (d : Fin 64) (a : Fin 64) (i : BitVec 14) : exec (.sori d a i) st = execSori d a i st := rfl
@[simp] theorem exec_sxori (d : Fin 64) (a : Fin 64) (i : BitVec 14) : exec (.sxori d a i) st = execSxori d a i st := rfl
@[simp] theorem exec_sslti (d : Fin 64) (a : Fin 64) (i : BitVec 14) : exec (.sslti d a i) st = execSslti d a i st := rfl
@[simp] theorem exec_kand (d : Fin 16) (a : Fin 16) (b : Fin 16) : exec (.kand d a b) st = execKand d a b st := rfl
@[simp] theorem exec_kor (d : Fin 16) (a : Fin 16) (b : Fin 16) : exec (.kor d a b) st = execKor d a b st := rfl
@[simp] theorem exec_kxor (d : Fin 16) (a : Fin 16) (b : Fin 16) : exec (.kxor d a b) st = execKxor d a b st := rfl
@[simp] theorem exec_kandn (d : Fin 16) (a : Fin 16) (b : Fin 16) : exec (.kandn d a b) st = execKandn d a b st := rfl
@[simp] theorem exec_knot (d : Fin 16) (a : Fin 16) : exec (.knot d a) st = execKnot d a st := rfl
@[simp] theorem exec_kmov (d : Fin 16) (a : Fin 16) : exec (.kmov d a) st = execKmov d a st := rfl
@[simp] theorem exec_kpop (d : Fin 64) (a : Fin 16) : exec (.kpop d a) st = execKpop d a st := rfl
@[simp] theorem exec_kfirst (d : Fin 64) (a : Fin 16) : exec (.kfirst d a) st = execKfirst d a st := rfl
@[simp] theorem exec_ktos (d : Fin 64) (a : Fin 16) (b : Fin 64) : exec (.ktos d a b) st = execKtos d a b st := rfl
@[simp] theorem exec_kfroms (d : Fin 16) (a : Fin 64) (b : Fin 64) : exec (.kfroms d a b) st = execKfroms d a b st := rfl
@[simp] theorem exec_kclr (d : Fin 16) : exec (.kclr d) st = execKclr d st := rfl
@[simp] theorem exec_klive (d : Fin 16) : exec (.klive d) st = execKlive d st := rfl
@[simp] theorem exec_kld (d : Fin 16) (a : Fin 64) (b : Fin 64) (l : Fin 16) : exec (.kld d a b l) st = execKld d a b l st := rfl
@[simp] theorem exec_kst (d : Fin 16) (a : Fin 64) (b : Fin 64) (l : Fin 16) : exec (.kst d a b l) st = execKst d a b l st := rfl
@[simp] theorem exec_vadd (d : Fin 64) (a : Fin 64) (b : Fin 64) : exec (.vadd d a b) st = execVadd d a b st := rfl
@[simp] theorem exec_vsub (d : Fin 64) (a : Fin 64) (b : Fin 64) : exec (.vsub d a b) st = execVsub d a b st := rfl
@[simp] theorem exec_vmul (d : Fin 64) (a : Fin 64) (b : Fin 64) : exec (.vmul d a b) st = execVmul d a b st := rfl
@[simp] theorem exec_vmulh (d : Fin 64) (a : Fin 64) (b : Fin 64) : exec (.vmulh d a b) st = execVmulh d a b st := rfl
@[simp] theorem exec_vand (d : Fin 64) (a : Fin 64) (b : Fin 64) : exec (.vand d a b) st = execVand d a b st := rfl
@[simp] theorem exec_vor (d : Fin 64) (a : Fin 64) (b : Fin 64) : exec (.vor d a b) st = execVor d a b st := rfl
@[simp] theorem exec_vxor (d : Fin 64) (a : Fin 64) (b : Fin 64) : exec (.vxor d a b) st = execVxor d a b st := rfl
@[simp] theorem exec_vandn (d : Fin 64) (a : Fin 64) (b : Fin 64) : exec (.vandn d a b) st = execVandn d a b st := rfl
@[simp] theorem exec_vshl (d : Fin 64) (a : Fin 64) (b : Fin 64) : exec (.vshl d a b) st = execVshl d a b st := rfl
@[simp] theorem exec_vshr (d : Fin 64) (a : Fin 64) (b : Fin 64) : exec (.vshr d a b) st = execVshr d a b st := rfl
@[simp] theorem exec_vsra (d : Fin 64) (a : Fin 64) (b : Fin 64) : exec (.vsra d a b) st = execVsra d a b st := rfl
@[simp] theorem exec_vmin (d : Fin 64) (a : Fin 64) (b : Fin 64) : exec (.vmin d a b) st = execVmin d a b st := rfl
@[simp] theorem exec_vmax (d : Fin 64) (a : Fin 64) (b : Fin 64) : exec (.vmax d a b) st = execVmax d a b st := rfl
@[simp] theorem exec_vabs (d : Fin 64) (a : Fin 64) : exec (.vabs d a) st = execVabs d a st := rfl
@[simp] theorem exec_vneg (d : Fin 64) (a : Fin 64) : exec (.vneg d a) st = execVneg d a st := rfl
@[simp] theorem exec_vpopc (d : Fin 64) (a : Fin 64) : exec (.vpopc d a) st = execVpopc d a st := rfl
@[simp] theorem exec_vclz (d : Fin 64) (a : Fin 64) : exec (.vclz d a) st = execVclz d a st := rfl
@[simp] theorem exec_vmov (d : Fin 64) (a : Fin 64) : exec (.vmov d a) st = execVmov d a st := rfl
@[simp] theorem exec_vmovs (d : Fin 64) (a : Fin 64) : exec (.vmovs d a) st = execVmovs d a st := rfl
@[simp] theorem exec_viota (d : Fin 64) : exec (.viota d) st = execViota d st := rfl
@[simp] theorem exec_vsel (d : Fin 64) (a : Fin 64) (b : Fin 16) : exec (.vsel d a b) st = execVsel d a b st := rfl
@[simp] theorem exec_vceq (d : Fin 16) (a : Fin 64) (b : Fin 64) : exec (.vceq d a b) st = execVceq d a b st := rfl
@[simp] theorem exec_vcne (d : Fin 16) (a : Fin 64) (b : Fin 64) : exec (.vcne d a b) st = execVcne d a b st := rfl
@[simp] theorem exec_vclt (d : Fin 16) (a : Fin 64) (b : Fin 64) : exec (.vclt d a b) st = execVclt d a b st := rfl
@[simp] theorem exec_vcle (d : Fin 16) (a : Fin 64) (b : Fin 64) : exec (.vcle d a b) st = execVcle d a b st := rfl
@[simp] theorem exec_vadds (d : Fin 64) (a : Fin 64) (b : Fin 64) : exec (.vadds d a b) st = execVadds d a b st := rfl
@[simp] theorem exec_vmuls (d : Fin 64) (a : Fin 64) (b : Fin 64) : exec (.vmuls d a b) st = execVmuls d a b st := rfl
@[simp] theorem exec_vaddi (d : Fin 64) (a : Fin 64) (i : BitVec 14) : exec (.vaddi d a i) st = execVaddi d a i st := rfl
@[simp] theorem exec_vmad (d : Fin 64) (a : Fin 64) (b : Fin 64) (c : Fin 64) : exec (.vmad d a b c) st = execVmad d a b c st := rfl
@[simp] theorem exec_vmsb (d : Fin 64) (a : Fin 64) (b : Fin 64) (c : Fin 64) : exec (.vmsb d a b c) st = execVmsb d a b c st := rfl
@[simp] theorem exec_vbfx (d : Fin 64) (a : Fin 64) (b : Fin 64) (c : Fin 64) : exec (.vbfx d a b c) st = execVbfx d a b c st := rfl
@[simp] theorem exec_vbfi (d : Fin 64) (a : Fin 64) (b : Fin 64) (c : Fin 64) : exec (.vbfi d a b c) st = execVbfi d a b c st := rfl
@[simp] theorem exec_vfadd (d : Fin 64) (a : Fin 64) (b : Fin 64) : exec (.vfadd d a b) st = execVfadd d a b st := rfl
@[simp] theorem exec_vfsub (d : Fin 64) (a : Fin 64) (b : Fin 64) : exec (.vfsub d a b) st = execVfsub d a b st := rfl
@[simp] theorem exec_vfmul (d : Fin 64) (a : Fin 64) (b : Fin 64) : exec (.vfmul d a b) st = execVfmul d a b st := rfl
@[simp] theorem exec_vfmin (d : Fin 64) (a : Fin 64) (b : Fin 64) : exec (.vfmin d a b) st = execVfmin d a b st := rfl
@[simp] theorem exec_vfmax (d : Fin 64) (a : Fin 64) (b : Fin 64) : exec (.vfmax d a b) st = execVfmax d a b st := rfl
@[simp] theorem exec_vfabs (d : Fin 64) (a : Fin 64) : exec (.vfabs d a) st = execVfabs d a st := rfl
@[simp] theorem exec_vfneg (d : Fin 64) (a : Fin 64) : exec (.vfneg d a) st = execVfneg d a st := rfl
@[simp] theorem exec_vfceq (d : Fin 16) (a : Fin 64) (b : Fin 64) : exec (.vfceq d a b) st = execVfceq d a b st := rfl
@[simp] theorem exec_vfclt (d : Fin 16) (a : Fin 64) (b : Fin 64) : exec (.vfclt d a b) st = execVfclt d a b st := rfl
@[simp] theorem exec_vfcle (d : Fin 16) (a : Fin 64) (b : Fin 64) : exec (.vfcle d a b) st = execVfcle d a b st := rfl
@[simp] theorem exec_vfcun (d : Fin 16) (a : Fin 64) (b : Fin 64) : exec (.vfcun d a b) st = execVfcun d a b st := rfl
@[simp] theorem exec_vfclass (d : Fin 64) (a : Fin 64) : exec (.vfclass d a) st = execVfclass d a st := rfl
@[simp] theorem exec_vcvt (d : Fin 64) (a : Fin 64) : exec (.vcvt d a) st = execVcvt d a st := rfl
@[simp] theorem exec_vpack (d : Fin 64) (a : Fin 64) : exec (.vpack d a) st = execVpack d a st := rfl
@[simp] theorem exec_vunpk (d : Fin 64) (a : Fin 64) : exec (.vunpk d a) st = execVunpk d a st := rfl
@[simp] theorem exec_vfadds (d : Fin 64) (a : Fin 64) (b : Fin 64) : exec (.vfadds d a b) st = execVfadds d a b st := rfl
@[simp] theorem exec_vfmuls (d : Fin 64) (a : Fin 64) (b : Fin 64) : exec (.vfmuls d a b) st = execVfmuls d a b st := rfl
@[simp] theorem exec_vfma (d : Fin 64) (a : Fin 64) (b : Fin 64) (c : Fin 64) : exec (.vfma d a b c) st = execVfma d a b c st := rfl
@[simp] theorem exec_vfms (d : Fin 64) (a : Fin 64) (b : Fin 64) (c : Fin 64) : exec (.vfms d a b c) st = execVfms d a b c st := rfl
@[simp] theorem exec_vfnma (d : Fin 64) (a : Fin 64) (b : Fin 64) (c : Fin 64) : exec (.vfnma d a b c) st = execVfnma d a b c st := rfl
@[simp] theorem exec_vfnms (d : Fin 64) (a : Fin 64) (b : Fin 64) (c : Fin 64) : exec (.vfnms d a b c) st = execVfnms d a b c st := rfl
@[simp] theorem exec_vfdiv (d : Fin 64) (a : Fin 64) (b : Fin 64) (l : Fin 16) : exec (.vfdiv d a b l) st = execVfdiv d a b l st := rfl
@[simp] theorem exec_vfsqrt (d : Fin 64) (a : Fin 64) (l : Fin 16) : exec (.vfsqrt d a l) st = execVfsqrt d a l st := rfl
@[simp] theorem exec_vfrcp (d : Fin 64) (a : Fin 64) (l : Fin 16) : exec (.vfrcp d a l) st = execVfrcp d a l st := rfl
@[simp] theorem exec_vfrsq (d : Fin 64) (a : Fin 64) (l : Fin 16) : exec (.vfrsq d a l) st = execVfrsq d a l st := rfl
@[simp] theorem exec_vfexp2 (d : Fin 64) (a : Fin 64) (l : Fin 16) : exec (.vfexp2 d a l) st = execVfexp2 d a l st := rfl
@[simp] theorem exec_vflog2 (d : Fin 64) (a : Fin 64) (l : Fin 16) : exec (.vflog2 d a l) st = execVflog2 d a l st := rfl
@[simp] theorem exec_vfsinpi (d : Fin 64) (a : Fin 64) (l : Fin 16) : exec (.vfsinpi d a l) st = execVfsinpi d a l st := rfl
@[simp] theorem exec_vfcospi (d : Fin 64) (a : Fin 64) (l : Fin 16) : exec (.vfcospi d a l) st = execVfcospi d a l st := rfl
@[simp] theorem exec_vftanh (d : Fin 64) (a : Fin 64) (l : Fin 16) : exec (.vftanh d a l) st = execVftanh d a l st := rfl
@[simp] theorem exec_vperm (d : Fin 64) (a : Fin 64) (b : Fin 64) (l : Fin 16) : exec (.vperm d a b l) st = execVperm d a b l st := rfl
@[simp] theorem exec_vshup (d : Fin 64) (a : Fin 64) (b : Fin 64) (l : Fin 16) : exec (.vshup d a b l) st = execVshup d a b l st := rfl
@[simp] theorem exec_vshdn (d : Fin 64) (a : Fin 64) (b : Fin 64) (l : Fin 16) : exec (.vshdn d a b l) st = execVshdn d a b l st := rfl
@[simp] theorem exec_vshx (d : Fin 64) (a : Fin 64) (b : Fin 64) (l : Fin 16) : exec (.vshx d a b l) st = execVshx d a b l st := rfl
@[simp] theorem exec_vbcast (d : Fin 64) (a : Fin 64) (l : Fin 16) : exec (.vbcast d a l) st = execVbcast d a l st := rfl
@[simp] theorem exec_vscan (d : Fin 64) (a : Fin 64) (o : Fin 6) (l : Fin 16) : exec (.vscan d a o l) st = execVscan d a o l st := rfl
@[simp] theorem exec_vscanx (d : Fin 64) (a : Fin 64) (o : Fin 6) (l : Fin 16) : exec (.vscanx d a o l) st = execVscanx d a o l st := rfl
@[simp] theorem exec_vred (d : Fin 64) (a : Fin 64) (o : Fin 6) (l : Fin 16) : exec (.vred d a o l) st = execVred d a o l st := rfl
@[simp] theorem exec_vcmpr (d : Fin 64) (a : Fin 64) (l : Fin 16) : exec (.vcmpr d a l) st = execVcmpr d a l st := rfl
@[simp] theorem exec_lbal (d : Fin 64) (a : Fin 64) (b : Fin 64) (l : Fin 16) : exec (.lbal d a b l) st = execLbal d a b l st := rfl
@[simp] theorem exec_lds (d : Fin 64) (a : Fin 64) (b : Fin 64) (c : Bool) (e : Bool) (z : Fin 4) (l : Fin 16) : exec (.lds d a b c e z l) st = execLds d a b c e z l st := rfl
@[simp] theorem exec_sts (d : Fin 64) (a : Fin 64) (b : Fin 64) (c : Bool) (z : Fin 4) (l : Fin 16) : exec (.sts d a b c z l) st = execSts d a b c z l st := rfl
@[simp] theorem exec_ldg (d : Fin 64) (a : Fin 64) (b : Fin 64) (n : Bool) (e : Bool) (z : Fin 4) (l : Fin 16) : exec (.ldg d a b n e z l) st = execLdg d a b n e z l st := rfl
@[simp] theorem exec_stg (d : Fin 64) (a : Fin 64) (b : Fin 64) (n : Bool) (z : Fin 4) (l : Fin 16) : exec (.stg d a b n z l) st = execStg d a b n z l st := rfl
@[simp] theorem exec_ldsc (d : Fin 64) (a : Fin 64) (b : Fin 64) (s : Fin 4) (z : Fin 4) (l : Fin 16) : exec (.ldsc d a b s z l) st = execLdsc d a b s z l st := rfl
@[simp] theorem exec_stsc (d : Fin 64) (a : Fin 64) (b : Fin 64) (s : Fin 4) (z : Fin 4) (l : Fin 16) : exec (.stsc d a b s z l) st = execStsc d a b s z l st := rfl
@[simp] theorem exec_ldgs (d : Fin 64) (a : Fin 64) (b : Fin 64) (z : Fin 4) (l : Fin 16) : exec (.ldgs d a b z l) st = execLdgs d a b z l st := rfl
@[simp] theorem exec_stmap (a : Fin 64) (n : Fin 64) : exec (.stmap a n) st = execStmap a n st := rfl
@[simp] theorem exec_stunmap (n : Fin 64) : exec (.stunmap n) st = execStunmap n st := rfl
@[simp] theorem exec_stflush (n : Fin 64) : exec (.stflush n) st = execStflush n st := rfl
@[simp] theorem exec_stinv (n : Fin 64) : exec (.stinv n) st = execStinv n st := rfl
@[simp] theorem exec_pref (a : Fin 64) (b : Fin 64) : exec (.pref a b) st = execPref a b st := rfl
@[simp] theorem exec_stqry (d : Fin 64) (n : Fin 64) : exec (.stqry d n) st = execStqry d n st := rfl
@[simp] theorem exec_atomAdd (d : Fin 64) (a : Fin 64) (b : Fin 64) (l : Fin 16) : exec (.atomAdd d a b l) st = execAtomAdd d a b l st := rfl
@[simp] theorem exec_atomMin (d : Fin 64) (a : Fin 64) (b : Fin 64) (l : Fin 16) : exec (.atomMin d a b l) st = execAtomMin d a b l st := rfl
@[simp] theorem exec_atomMax (d : Fin 64) (a : Fin 64) (b : Fin 64) (l : Fin 16) : exec (.atomMax d a b l) st = execAtomMax d a b l st := rfl
@[simp] theorem exec_atomMinn (d : Fin 64) (a : Fin 64) (b : Fin 64) (l : Fin 16) : exec (.atomMinn d a b l) st = execAtomMinn d a b l st := rfl
@[simp] theorem exec_atomMaxn (d : Fin 64) (a : Fin 64) (b : Fin 64) (l : Fin 16) : exec (.atomMaxn d a b l) st = execAtomMaxn d a b l st := rfl
@[simp] theorem exec_atomAnd (d : Fin 64) (a : Fin 64) (b : Fin 64) (l : Fin 16) : exec (.atomAnd d a b l) st = execAtomAnd d a b l st := rfl
@[simp] theorem exec_atomOr (d : Fin 64) (a : Fin 64) (b : Fin 64) (l : Fin 16) : exec (.atomOr d a b l) st = execAtomOr d a b l st := rfl
@[simp] theorem exec_atomXor (d : Fin 64) (a : Fin 64) (b : Fin 64) (l : Fin 16) : exec (.atomXor d a b l) st = execAtomXor d a b l st := rfl
@[simp] theorem exec_atomExch (d : Fin 64) (a : Fin 64) (b : Fin 64) (l : Fin 16) : exec (.atomExch d a b l) st = execAtomExch d a b l st := rfl
@[simp] theorem exec_atomCas (d : Fin 64) (a : Fin 64) (b : Fin 64) (l : Fin 16) : exec (.atomCas d a b l) st = execAtomCas d a b l st := rfl
@[simp] theorem exec_atomIncw (d : Fin 64) (a : Fin 64) (b : Fin 64) (l : Fin 16) : exec (.atomIncw d a b l) st = execAtomIncw d a b l st := rfl
@[simp] theorem exec_atomAddb (d : Fin 64) (a : Fin 64) (b : Fin 64) (l : Fin 16) : exec (.atomAddb d a b l) st = execAtomAddb d a b l st := rfl
@[simp] theorem exec_atomExchq (d : Fin 64) (a : Fin 64) (b : Fin 64) (l : Fin 16) : exec (.atomExchq d a b l) st = execAtomExchq d a b l st := rfl
@[simp] theorem exec_redAdd (d : Fin 64) (a : Fin 64) (b : Fin 64) (l : Fin 16) : exec (.redAdd d a b l) st = execRedAdd d a b l st := rfl
@[simp] theorem exec_redMin (d : Fin 64) (a : Fin 64) (b : Fin 64) (l : Fin 16) : exec (.redMin d a b l) st = execRedMin d a b l st := rfl
@[simp] theorem exec_redMax (d : Fin 64) (a : Fin 64) (b : Fin 64) (l : Fin 16) : exec (.redMax d a b l) st = execRedMax d a b l st := rfl
@[simp] theorem exec_redMinn (d : Fin 64) (a : Fin 64) (b : Fin 64) (l : Fin 16) : exec (.redMinn d a b l) st = execRedMinn d a b l st := rfl
@[simp] theorem exec_redMaxn (d : Fin 64) (a : Fin 64) (b : Fin 64) (l : Fin 16) : exec (.redMaxn d a b l) st = execRedMaxn d a b l st := rfl
@[simp] theorem exec_redAnd (d : Fin 64) (a : Fin 64) (b : Fin 64) (l : Fin 16) : exec (.redAnd d a b l) st = execRedAnd d a b l st := rfl
@[simp] theorem exec_redOr (d : Fin 64) (a : Fin 64) (b : Fin 64) (l : Fin 16) : exec (.redOr d a b l) st = execRedOr d a b l st := rfl
@[simp] theorem exec_redXor (d : Fin 64) (a : Fin 64) (b : Fin 64) (l : Fin 16) : exec (.redXor d a b l) st = execRedXor d a b l st := rfl
@[simp] theorem exec_redFadd (d : Fin 64) (a : Fin 64) (b : Fin 64) (l : Fin 16) : exec (.redFadd d a b l) st = execRedFadd d a b l st := rfl
@[simp] theorem exec_redFmin (d : Fin 64) (a : Fin 64) (b : Fin 64) (l : Fin 16) : exec (.redFmin d a b l) st = execRedFmin d a b l st := rfl
@[simp] theorem exec_redFmax (d : Fin 64) (a : Fin 64) (b : Fin 64) (l : Fin 16) : exec (.redFmax d a b l) st = execRedFmax d a b l st := rfl
@[simp] theorem exec_xbegin : exec .xbegin st = execXbegin st := rfl
@[simp] theorem exec_xend (d : Fin 16) (a : Fin 64) : exec (.xend d a) st = execXend d a st := rfl
@[simp] theorem exec_xabort : exec .xabort st = execXabort st := rfl
@[simp] theorem exec_fenceAcq (s : Fin 6) : exec (.fenceAcq s) st = execFenceAcq s st := rfl
@[simp] theorem exec_fenceRel (s : Fin 6) : exec (.fenceRel s) st = execFenceRel s st := rfl
@[simp] theorem exec_fenceFull (s : Fin 6) : exec (.fenceFull s) st = execFenceFull s st := rfl
@[simp] theorem exec_waitc (a : Fin 64) (p : Fin 6) : exec (.waitc a p) st = execWaitc a p st := rfl
@[simp] theorem exec_binit (a : Fin 64) (b : Fin 64) : exec (.binit a b) st = execBinit a b st := rfl
@[simp] theorem exec_barv (a : Fin 64) : exec (.barv a) st = execBarv a st := rfl
@[simp] theorem exec_barc (a : Fin 64) (p : Fin 6) : exec (.barc a p) st = execBarc a p st := rfl
@[simp] theorem exec_bwait (a : Fin 64) (b : Fin 64) : exec (.bwait a b) st = execBwait a b st := rfl
@[simp] theorem exec_cbara : exec .cbara st = execCbara st := rfl
@[simp] theorem exec_cbarw : exec .cbarw st = execCbarw st := rfl
@[simp] theorem exec_mzero (d : Fin 4) (l : Fin 16) : exec (.mzero d l) st = execMzero d l st := rfl
@[simp] theorem exec_mma (d : Fin 4) (a : Fin 64) (b : Fin 64) (l : Fin 16) : exec (.mma d a b l) st = execMma d a b l st := rfl
@[simp] theorem exec_msplit (d : Fin 4) (a : Fin 64) (l : Fin 16) : exec (.msplit d a l) st = execMsplit d a l st := rfl
@[simp] theorem exec_mmas (d : Fin 4) (a : Fin 4) (b : Fin 64) (l : Fin 16) : exec (.mmas d a b l) st = execMmas d a b l st := rfl
@[simp] theorem exec_mdrain (d : Fin 64) (a : Fin 4) (b : Fin 64) (l : Fin 16) : exec (.mdrain d a b l) st = execMdrain d a b l st := rfl
@[simp] theorem exec_mxport (d : Fin 4) (a : Fin 64) (b : Fin 64) (l : Fin 16) : exec (.mxport d a b l) st = execMxport d a b l st := rfl
@[simp] theorem exec_mxload (d : Fin 4) (a : Fin 64) (b : Fin 64) (l : Fin 16) : exec (.mxload d a b l) st = execMxload d a b l st := rfl
@[simp] theorem exec_mstat (d : Fin 64) (a : Fin 4) (l : Fin 16) : exec (.mstat d a l) st = execMstat d a l st := rfl
@[simp] theorem exec_vpop (d : Fin 64) (a : Fin 4) : exec (.vpop d a) st = execVpop d a st := rfl
@[simp] theorem exec_qstat (d : Fin 64) (a : Fin 4) : exec (.qstat d a) st = execQstat d a st := rfl
@[simp] theorem exec_astr (d : Fin 4) (a : Fin 64) : exec (.astr d a) st = execAstr d a st := rfl
@[simp] theorem exec_aqwait (d : Fin 4) : exec (.aqwait d) st = execAqwait d st := rfl
@[simp] theorem exec_hdef (h : Fin 16) (a : Fin 64) (l : Fin 16) : exec (.hdef h a l) st = execHdef h a l st := rfl
@[simp] theorem exec_fetch (d : Fin 64) (h : Fin 16) (b : Fin 64) (l : Fin 16) : exec (.fetch d h b l) st = execFetch d h b l st := rfl
@[simp] theorem exec_epool (d : Fin 64) (h : Fin 16) (b : Fin 64) (l : Fin 16) : exec (.epool d h b l) st = execEpool d h b l st := rfl
@[simp] theorem exec_route (d : Fin 64) (a : Fin 64) (b : Fin 64) (l : Fin 16) : exec (.route d a b l) st = execRoute d a b l st := rfl
@[simp] theorem exec_illegalInstruction (opcode : Bool) : exec (.illegalInstruction opcode) st = execIllegalInstruction opcode st := rfl
@[simp] theorem exec_copy (cmd : Nat) (parts : List Nat) : exec (.copy cmd parts) st = execCopy cmd parts st := rfl
@[simp] theorem exec_fill (cmd : Nat) (parts : List Nat) : exec (.fill cmd parts) st = execFill cmd parts st := rfl
@[simp] theorem exec_fwarm (cmd : Nat) : exec (.fwarm cmd) st = execFwarm cmd st := rfl
@[simp] theorem exec_cred (cmd : Nat) (parts : List Nat) : exec (.cred cmd parts) st = execCred cmd parts st := rfl
@[simp] theorem exec_cbcast (cmd : Nat) (parts : List Nat) : exec (.cbcast cmd parts) st = execCbcast cmd parts st := rfl
@[simp] theorem exec_merge (cmd : Nat) (parts : List Nat) : exec (.merge cmd parts) st = execMerge cmd parts st := rfl
@[simp] theorem exec_streamEntryAppend (die core slot : Nat) (q : Fin 4) : exec (.streamEntryAppend die core slot q) st = execStreamEntryAppend die core slot q st := rfl
@[simp] theorem exec_loadComplete (op : Nat) (lanes : List Nat) : exec (.loadComplete op lanes) st = execLoadComplete op lanes st := rfl
@[simp] theorem exec_storePerformed (op : Nat) (lanes : List Nat) (dieOnly : Bool) : exec (.storePerformed op lanes dieOnly) st = execStorePerformed op lanes dieOnly st := rfl
@[simp] theorem exec_windowFill (op : Nat) : exec (.windowFill op) st = execWindowFill op st := rfl
@[simp] theorem exec_stashCopyComplete (op : Nat) (lanes : List Nat) : exec (.stashCopyComplete op lanes) st = execStashCopyComplete op lanes st := rfl
@[simp] theorem exec_ownershipGrant (op sector : Nat) : exec (.ownershipGrant op sector) st = execOwnershipGrant op sector st := rfl
@[simp] theorem exec_atomPerformed (op : Nat) (lanes : List Nat) : exec (.atomPerformed op lanes) st = execAtomPerformed op lanes st := rfl
@[simp] theorem exec_redMerge (op : Nat) (lanes : List Nat) : exec (.redMerge op lanes) st = execRedMerge op lanes st := rfl
@[simp] theorem exec_regionValidation (op : Nat) (lanes : List Nat) : exec (.regionValidation op lanes) st = execRegionValidation op lanes st := rfl
@[simp] theorem exec_barrierArrival (arrival : Nat) : exec (.barrierArrival arrival) st = execBarrierArrival arrival st := rfl
@[simp] theorem exec_clusterArrival (die core slot : Nat) : exec (.clusterArrival die core slot) st = execClusterArrival die core slot st := rfl
@[simp] theorem exec_fenceComplete (die core slot : Nat) (kind : Fin 3) : exec (.fenceComplete die core slot kind) st = execFenceComplete die core slot kind st := rfl
@[simp] theorem exec_teamWake (die core slot : Nat) : exec (.teamWake die core slot) st = execTeamWake die core slot st := rfl
@[simp] theorem exec_activeEntry (die core : Nat) : exec (.activeEntry die core) st = execActiveEntry die core st := rfl
@[simp] theorem exec_rotation (die core slot : Nat) : exec (.rotation die core slot) st = execRotation die core slot st := rfl
@[simp] theorem exec_cisternEvict (sector : Nat) : exec (.cisternEvict sector) st = execCisternEvict sector st := rfl
@[simp] theorem exec_cisternCopyback (sector : Nat) : exec (.cisternCopyback sector) st = execCisternCopyback sector st := rfl
@[simp] theorem exec_teamPlacement (launch cluster col row : Nat) : exec (.teamPlacement launch cluster col row) st = execTeamPlacement launch cluster col row st := rfl
@[simp] theorem exec_drainingExit (die core slot : Nat) : exec (.drainingExit die core slot) st = execDrainingExit die core slot st := rfl
@[simp] theorem exec_doneReport (launch die : Nat) : exec (.doneReport launch die) st = execDoneReport launch die st := rfl
@[simp] theorem exec_prepare (launch die : Nat) : exec (.prepare launch die) st = execPrepare launch die st := rfl
@[simp] theorem exec_ready (launch : Nat) : exec (.ready launch) st = execReady launch st := rfl
@[simp] theorem exec_commit (launch die : Nat) : exec (.commit launch die) st = execCommit launch die st := rfl
@[simp] theorem exec_commitAck (launch : Nat) (bad : List (Nat × Nat × Nat × Nat)) :
    exec (.commitAck launch bad) st = execCommitAck launch bad st := rfl
@[simp] theorem exec_windowEnd (domain : Nat) (occupied : List Nat) : exec (.windowEnd domain occupied) st = execWindowEnd domain occupied st := rfl
@[simp] theorem exec_replicaCopyDone (domain copyIx : Nat) (err : Option CopyError) : exec (.replicaCopyDone domain copyIx err) st = execReplicaCopyDone domain copyIx err st := rfl
@[simp] theorem exec_versionPublish (domain : Nat) : exec (.versionPublish domain) st = execVersionPublish domain st := rfl
@[simp] theorem exec_abort (launch die : Nat) : exec (.abort launch die) st = execAbort launch die st := rfl
@[simp] theorem exec_abortAck (launch : Nat) : exec (.abortAck launch) st = execAbortAck launch st := rfl
@[simp] theorem exec_doorbell (func lidx : Nat) (value : BitVec 32) : exec (.doorbell func lidx value) st = execDoorbell func lidx value st := rfl
@[simp] theorem exec_launch (queue : Nat) : exec (.launch queue) st = execLaunch queue st := rfl
@[simp] theorem exec_releaseStream (queue : Nat) : exec (.releaseStream queue) st = execReleaseStream queue st := rfl
@[simp] theorem exec_kill (queue : Nat) : exec (.kill queue) st = execKill queue st := rfl
@[simp] theorem exec_queueNop (queue : Nat) : exec (.queueNop queue) st = execQueueNop queue st := rfl
@[simp] theorem exec_launchAdmission (launch : Nat) (lv : BitVec 16) : exec (.launchAdmission launch lv) st = execLaunchAdmission launch lv st := rfl
@[simp] theorem exec_preemption (launch die : Nat) : exec (.preemption launch die) st = execPreemption launch die st := rfl
@[simp] theorem exec_contextSave (die core slot : Nat) : exec (.contextSave die core slot) st = execContextSave die core slot st := rfl
@[simp] theorem exec_flushAndRestart (die core slot : Nat) : exec (.flushAndRestart die core slot) st = execFlushAndRestart die core slot st := rfl
@[simp] theorem exec_teamRestore (launch cluster col row : Nat) : exec (.teamRestore launch cluster col row) st = execTeamRestore launch cluster col row st := rfl
@[simp] theorem exec_killByPolicy (launch : Nat) : exec (.killByPolicy launch) st = execKillByPolicy launch st := rfl
@[simp] theorem exec_coreLoss (die core : Nat) : exec (.coreLoss die core) st = execCoreLoss die core st := rfl
@[simp] theorem exec_replyDoorbell (func : Nat) (value : BitVec 32) : exec (.replyDoorbell func value) st = execReplyDoorbell func value st := rfl
@[simp] theorem exec_replyResume (func : Nat) : exec (.replyResume func) st = execReplyResume func st := rfl
@[simp] theorem exec_replyAbort (func : Nat) : exec (.replyAbort func) st = execReplyAbort func st := rfl
@[simp] theorem exec_replySave (func : Nat) : exec (.replySave func) st = execReplySave func st := rfl
@[simp] theorem exec_replyRestore (func : Nat) : exec (.replyRestore func) st = execReplyRestore func st := rfl
@[simp] theorem exec_hostRead (die off len : Nat) : exec (.hostRead die off len) st = execHostRead die off len st := rfl
@[simp] theorem exec_hostWrite (die off : Nat) (bytes : List (BitVec 8)) : exec (.hostWrite die off bytes) st = execHostWrite die off bytes st := rfl
@[simp] theorem exec_configWrite (func bar off : Nat) (value : BitVec 64) : exec (.configWrite func bar off value) st = execConfigWrite func bar off value st := rfl
@[simp] theorem exec_perfSelect (counter : Fin 8) (value : BitVec 64) : exec (.perfSelect counter value) st = execPerfSelect counter value st := rfl
@[simp] theorem exec_queueEnable (queue : Nat) (value : BitVec 64) : exec (.queueEnable queue value) st = execQueueEnable queue value st := rfl
@[simp] theorem exec_faultRingEnable (func : Nat) (value : BitVec 64) : exec (.faultRingEnable func value) st = execFaultRingEnable func value st := rfl
@[simp] theorem exec_faultRingConsume (func : Nat) (value : BitVec 32) : exec (.faultRingConsume func value) st = execFaultRingConsume func value st := rfl
@[simp] theorem exec_replyRingEnable (func : Nat) (value : BitVec 64) : exec (.replyRingEnable func value) st = execReplyRingEnable func value st := rfl
@[simp] theorem exec_windlassDomainEnable (domain : Fin 16) (value : BitVec 64) : exec (.windlassDomainEnable domain value) st = execWindlassDomainEnable domain value st := rfl
@[simp] theorem exec_windlassDomainDisable (domain : Fin 16) (value : BitVec 64) : exec (.windlassDomainDisable domain value) st = execWindlassDomainDisable domain value st := rfl
@[simp] theorem exec_svnup (value : BitVec 64) : exec (.svnup value) st = execSvnup value st := rfl
@[simp] theorem exec_coldBoot (input : BootInput) : exec (.coldBoot input) st = execColdBoot input st := rfl
@[simp] theorem exec_warmReset (input : BootInput) : exec (.warmReset input) st = execWarmReset input st := rfl
@[simp] theorem exec_getVersion : exec .getVersion st = execGetVersion st := rfl
@[simp] theorem exec_getCapabilities : exec .getCapabilities st = execGetCapabilities st := rfl
@[simp] theorem exec_negotiateAlgorithms (p521 sha512 : Bool) : exec (.negotiateAlgorithms p521 sha512) st = execNegotiateAlgorithms p521 sha512 st := rfl
@[simp] theorem exec_getDigests : exec .getDigests st = execGetDigests st := rfl
@[simp] theorem exec_getCertificate (certSlot : Nat) : exec (.getCertificate certSlot) st = execGetCertificate certSlot st := rfl
@[simp] theorem exec_challenge (certSlot : Nat) : exec (.challenge certSlot) st = execChallenge certSlot st := rfl
@[simp] theorem exec_getMeasurements (req : MeasRequest) : exec (.getMeasurements req) st = execGetMeasurements req st := rfl
@[simp] theorem exec_keyExchange (certSlot : Nat) : exec (.keyExchange certSlot) st = execKeyExchange certSlot st := rfl
@[simp] theorem exec_finish (msg : SecuredMsg) : exec (.finish msg) st = execFinish msg st := rfl
@[simp] theorem exec_endSession (msg : SecuredMsg) : exec (.endSession msg) st = execEndSession msg st := rfl
@[simp] theorem exec_spdmUnsupported (code : BitVec 8) : exec (.spdmUnsupported code) st = execSpdmUnsupported code st := rfl
@[simp] theorem exec_supplyVoltageEvent : exec .supplyVoltageEvent st = execSupplyVoltageEvent st := rfl
@[simp] theorem exec_clockFrequencyEvent : exec .clockFrequencyEvent st = execClockFrequencyEvent st := rfl
@[simp] theorem exec_temperatureShutdownEvent (die : Nat) : exec (.temperatureShutdownEvent die) st = execTemperatureShutdownEvent die st := rfl
@[simp] theorem exec_securityControllerFault : exec .securityControllerFault st = execSecurityControllerFault st := rfl
@[simp] theorem exec_uncorrectableError (site : ErrorSite) : exec (.uncorrectableError site) st = execUncorrectableError site st := rfl
@[simp] theorem exec_correctedError (die : Nat) : exec (.correctedError die) st = execCorrectedError die st := rfl
@[simp] theorem exec_hubLinkFailure (die : Nat) : exec (.hubLinkFailure die) st = execHubLinkFailure die st := rfl
@[simp] theorem exec_ringLinkFailure (die : Nat) : exec (.ringLinkFailure die) st = execRingLinkFailure die st := rfl
@[simp] theorem exec_telemetryRefresh (die : Fin 8) (pwr temp : BitVec 16) (throttled : Nat) : exec (.telemetryRefresh die pwr temp throttled) st = execTelemetryRefresh die pwr temp throttled st := rfl
@[simp] theorem exec_powerLoan (lender borrower units : Nat) : exec (.powerLoan lender borrower units) st = execPowerLoan lender borrower units st := rfl
@[simp] theorem exec_loanRepay (loan units : Nat) : exec (.loanRepay loan units) st = execLoanRepay loan units st := rfl
@[simp] theorem exec_loanRenew (loan : Nat) : exec (.loanRenew loan) st = execLoanRenew loan st := rfl
@[simp] theorem exec_loanExpiry (loan : Nat) : exec (.loanExpiry loan) st = execLoanExpiry loan st := rfl
@[simp] theorem exec_backInvalidationAck (launch die : Nat) : exec (.backInvalidationAck launch die) st = execBackInvalidationAck launch die st := rfl
@[simp] theorem exec_cisternLazyReclaim (lv : BitVec 16) : exec (.cisternLazyReclaim lv) st = execCisternLazyReclaim lv st := rfl
@[simp] theorem exec_readMarkClear (sector : Nat) : exec (.readMarkClear sector) st = execReadMarkClear sector st := rfl
@[simp] theorem exec_linkRecovery (hubLink : Bool) (die : Nat) : exec (.linkRecovery hubLink die) st = execLinkRecovery hubLink die st := rfl
@[simp] theorem exec_hubLoss : exec .hubLoss st = execHubLoss st := rfl
@[simp] theorem exec_broryPortLoss (loss : PortLoss) : exec (.broryPortLoss loss) st = execBroryPortLoss loss st := rfl
@[simp] theorem exec_broryPeerAccess (write : Bool) (die off len : Nat) (bytes : List (BitVec 8)) : exec (.broryPeerAccess write die off len bytes) st = execBroryPeerAccess write die off len bytes st := rfl

end Sys2Proof.Machine
end

