-- ==== Sys2Proof/Laws/State.lean ====
section
/-! SUPPORT. Laws/State.lean: what each update of the state leaves as it was, field by field, so that no proof unfolds a record update. -/

namespace Sys2Proof.Machine

variable (s : State)

@[simp] theorem State.putTeam_agenda (t : Team) : (s.putTeam t).agenda = s.agenda := rfl
@[simp] theorem State.putTeam_cur (t : Team) : (s.putTeam t).cur = s.cur := rfl
@[simp] theorem State.putTeam_walks (t : Team) : (s.putTeam t).walks = s.walks := rfl
@[simp] theorem State.putTeam_codeLog (t : Team) : (s.putTeam t).codeLog = s.codeLog := rfl
@[simp] theorem State.putTeam_dead (t : Team) : (s.putTeam t).dead = s.dead := rfl
@[simp] theorem State.putTeam_turn (t : Team) : (s.putTeam t).turn = s.turn := rfl
@[simp] theorem State.putTeam_tick (t : Team) : (s.putTeam t).tick = s.tick := rfl
@[simp] theorem State.putTeam_time (t : Team) : (s.putTeam t).time = s.time := rfl
@[simp] theorem State.putTeam_mem (t : Team) : (s.putTeam t).mem = s.mem := rfl
@[simp] theorem State.putTeam_sectors (t : Team) : (s.putTeam t).sectors = s.sectors := rfl
@[simp] theorem State.putTeam_tags (t : Team) : (s.putTeam t).tags = s.tags := rfl
@[simp] theorem State.putTeam_exact (t : Team) : (s.putTeam t).exact = s.exact := rfl
@[simp] theorem State.putTeam_copies (t : Team) : (s.putTeam t).copies = s.copies := rfl
@[simp] theorem State.putTeam_maps (t : Team) : (s.putTeam t).maps = s.maps := rfl
@[simp] theorem State.putTeam_former (t : Team) : (s.putTeam t).former = s.former := rfl
@[simp] theorem State.putTeam_readyQ (t : Team) : (s.putTeam t).readyQ = s.readyQ := rfl
@[simp] theorem State.putTeam_ops (t : Team) : (s.putTeam t).ops = s.ops := rfl
@[simp] theorem State.putTeam_serial (t : Team) : (s.putTeam t).serial = s.serial := rfl
@[simp] theorem State.putTeam_cmds (t : Team) : (s.putTeam t).cmds = s.cmds := rfl
@[simp] theorem State.putTeam_arrivals (t : Team) : (s.putTeam t).arrivals = s.arrivals := rfl
@[simp] theorem State.putTeam_hub (t : Team) : (s.putTeam t).hub = s.hub := rfl
@[simp] theorem State.putTeam_windlass (t : Team) : (s.putTeam t).windlass = s.windlass := rfl
@[simp] theorem State.putTeam_dies (t : Team) : (s.putTeam t).dies = s.dies := rfl
@[simp] theorem State.putTeam_loans (t : Team) : (s.putTeam t).loans = s.loans := rfl
@[simp] theorem State.putTeam_alarm (t : Team) : (s.putTeam t).alarm = s.alarm := rfl
@[simp] theorem State.putTeam_perf (t : Team) : (s.putTeam t).perf = s.perf := rfl
@[simp] theorem State.putTeam_hubLost (t : Team) : (s.putTeam t).hubLost = s.hubLost := rfl
@[simp] theorem State.putTeam_sec (t : Team) : (s.putTeam t).sec = s.sec := rfl
@[simp] theorem State.putTeam_out (t : Team) : (s.putTeam t).out = s.out := rfl

@[simp] theorem State.put_agenda (v : View) (t : Team) (c : Ctx) : (s.put v t c).agenda = s.agenda := rfl
@[simp] theorem State.put_cur (v : View) (t : Team) (c : Ctx) : (s.put v t c).cur = s.cur := rfl
@[simp] theorem State.put_walks (v : View) (t : Team) (c : Ctx) : (s.put v t c).walks = s.walks := rfl
@[simp] theorem State.put_codeLog (v : View) (t : Team) (c : Ctx) : (s.put v t c).codeLog = s.codeLog := rfl
@[simp] theorem State.put_dead (v : View) (t : Team) (c : Ctx) : (s.put v t c).dead = s.dead := rfl
@[simp] theorem State.put_turn (v : View) (t : Team) (c : Ctx) : (s.put v t c).turn = s.turn := rfl
@[simp] theorem State.put_tick (v : View) (t : Team) (c : Ctx) : (s.put v t c).tick = s.tick := rfl
@[simp] theorem State.put_time (v : View) (t : Team) (c : Ctx) : (s.put v t c).time = s.time := rfl
@[simp] theorem State.put_mem (v : View) (t : Team) (c : Ctx) : (s.put v t c).mem = s.mem := rfl
@[simp] theorem State.put_sectors (v : View) (t : Team) (c : Ctx) : (s.put v t c).sectors = s.sectors := rfl
@[simp] theorem State.put_tags (v : View) (t : Team) (c : Ctx) : (s.put v t c).tags = s.tags := rfl
@[simp] theorem State.put_exact (v : View) (t : Team) (c : Ctx) : (s.put v t c).exact = s.exact := rfl
@[simp] theorem State.put_copies (v : View) (t : Team) (c : Ctx) : (s.put v t c).copies = s.copies := rfl
@[simp] theorem State.put_maps (v : View) (t : Team) (c : Ctx) : (s.put v t c).maps = s.maps := rfl
@[simp] theorem State.put_former (v : View) (t : Team) (c : Ctx) : (s.put v t c).former = s.former := rfl
@[simp] theorem State.put_readyQ (v : View) (t : Team) (c : Ctx) : (s.put v t c).readyQ = s.readyQ := rfl
@[simp] theorem State.put_ops (v : View) (t : Team) (c : Ctx) : (s.put v t c).ops = s.ops := rfl
@[simp] theorem State.put_serial (v : View) (t : Team) (c : Ctx) : (s.put v t c).serial = s.serial := rfl
@[simp] theorem State.put_cmds (v : View) (t : Team) (c : Ctx) : (s.put v t c).cmds = s.cmds := rfl
@[simp] theorem State.put_arrivals (v : View) (t : Team) (c : Ctx) : (s.put v t c).arrivals = s.arrivals := rfl
@[simp] theorem State.put_hub (v : View) (t : Team) (c : Ctx) : (s.put v t c).hub = s.hub := rfl
@[simp] theorem State.put_windlass (v : View) (t : Team) (c : Ctx) : (s.put v t c).windlass = s.windlass := rfl
@[simp] theorem State.put_dies (v : View) (t : Team) (c : Ctx) : (s.put v t c).dies = s.dies := rfl
@[simp] theorem State.put_loans (v : View) (t : Team) (c : Ctx) : (s.put v t c).loans = s.loans := rfl
@[simp] theorem State.put_alarm (v : View) (t : Team) (c : Ctx) : (s.put v t c).alarm = s.alarm := rfl
@[simp] theorem State.put_perf (v : View) (t : Team) (c : Ctx) : (s.put v t c).perf = s.perf := rfl
@[simp] theorem State.put_hubLost (v : View) (t : Team) (c : Ctx) : (s.put v t c).hubLost = s.hubLost := rfl
@[simp] theorem State.put_sec (v : View) (t : Team) (c : Ctx) : (s.put v t c).sec = s.sec := rfl
@[simp] theorem State.put_out (v : View) (t : Team) (c : Ctx) : (s.put v t c).out = s.out := rfl

@[simp] theorem State.retire_agenda (v : View) (t : Team) (c : Ctx) : (s.retire v t c).agenda = s.agenda := rfl
@[simp] theorem State.retire_cur (v : View) (t : Team) (c : Ctx) : (s.retire v t c).cur = s.cur := rfl
@[simp] theorem State.retire_walks (v : View) (t : Team) (c : Ctx) : (s.retire v t c).walks = s.walks := rfl
@[simp] theorem State.retire_codeLog (v : View) (t : Team) (c : Ctx) : (s.retire v t c).codeLog = s.codeLog := rfl
@[simp] theorem State.retire_dead (v : View) (t : Team) (c : Ctx) : (s.retire v t c).dead = s.dead := rfl
@[simp] theorem State.retire_turn (v : View) (t : Team) (c : Ctx) : (s.retire v t c).turn = s.turn := rfl
@[simp] theorem State.retire_tick (v : View) (t : Team) (c : Ctx) : (s.retire v t c).tick = s.tick := rfl
@[simp] theorem State.retire_time (v : View) (t : Team) (c : Ctx) : (s.retire v t c).time = s.time := rfl
@[simp] theorem State.retire_mem (v : View) (t : Team) (c : Ctx) : (s.retire v t c).mem = s.mem := rfl
@[simp] theorem State.retire_sectors (v : View) (t : Team) (c : Ctx) : (s.retire v t c).sectors = s.sectors := rfl
@[simp] theorem State.retire_tags (v : View) (t : Team) (c : Ctx) : (s.retire v t c).tags = s.tags := rfl
@[simp] theorem State.retire_exact (v : View) (t : Team) (c : Ctx) : (s.retire v t c).exact = s.exact := rfl
@[simp] theorem State.retire_copies (v : View) (t : Team) (c : Ctx) : (s.retire v t c).copies = s.copies := rfl
@[simp] theorem State.retire_maps (v : View) (t : Team) (c : Ctx) : (s.retire v t c).maps = s.maps := rfl
@[simp] theorem State.retire_former (v : View) (t : Team) (c : Ctx) : (s.retire v t c).former = s.former := rfl
@[simp] theorem State.retire_readyQ (v : View) (t : Team) (c : Ctx) : (s.retire v t c).readyQ = s.readyQ := rfl
@[simp] theorem State.retire_ops (v : View) (t : Team) (c : Ctx) : (s.retire v t c).ops = s.ops := rfl
@[simp] theorem State.retire_serial (v : View) (t : Team) (c : Ctx) : (s.retire v t c).serial = s.serial := rfl
@[simp] theorem State.retire_cmds (v : View) (t : Team) (c : Ctx) : (s.retire v t c).cmds = s.cmds := rfl
@[simp] theorem State.retire_arrivals (v : View) (t : Team) (c : Ctx) : (s.retire v t c).arrivals = s.arrivals := rfl
@[simp] theorem State.retire_hub (v : View) (t : Team) (c : Ctx) : (s.retire v t c).hub = s.hub := rfl
@[simp] theorem State.retire_windlass (v : View) (t : Team) (c : Ctx) : (s.retire v t c).windlass = s.windlass := rfl
@[simp] theorem State.retire_dies (v : View) (t : Team) (c : Ctx) : (s.retire v t c).dies = s.dies := rfl
@[simp] theorem State.retire_loans (v : View) (t : Team) (c : Ctx) : (s.retire v t c).loans = s.loans := rfl
@[simp] theorem State.retire_alarm (v : View) (t : Team) (c : Ctx) : (s.retire v t c).alarm = s.alarm := rfl
@[simp] theorem State.retire_perf (v : View) (t : Team) (c : Ctx) : (s.retire v t c).perf = s.perf := rfl
@[simp] theorem State.retire_hubLost (v : View) (t : Team) (c : Ctx) : (s.retire v t c).hubLost = s.hubLost := rfl
@[simp] theorem State.retire_sec (v : View) (t : Team) (c : Ctx) : (s.retire v t c).sec = s.sec := rfl
@[simp] theorem State.retire_out (v : View) (t : Team) (c : Ctx) : (s.retire v t c).out = s.out := rfl

@[simp] theorem State.retireEnding_agenda (v : View) (t : Team) (c : Ctx) : (s.retireEnding v t c).agenda = s.agenda := rfl
@[simp] theorem State.retireEnding_cur (v : View) (t : Team) (c : Ctx) : (s.retireEnding v t c).cur = s.cur := rfl
@[simp] theorem State.retireEnding_walks (v : View) (t : Team) (c : Ctx) : (s.retireEnding v t c).walks = s.walks := rfl
@[simp] theorem State.retireEnding_codeLog (v : View) (t : Team) (c : Ctx) : (s.retireEnding v t c).codeLog = s.codeLog := rfl
@[simp] theorem State.retireEnding_dead (v : View) (t : Team) (c : Ctx) : (s.retireEnding v t c).dead = s.dead := rfl
@[simp] theorem State.retireEnding_turn (v : View) (t : Team) (c : Ctx) : (s.retireEnding v t c).turn = s.turn := rfl
@[simp] theorem State.retireEnding_tick (v : View) (t : Team) (c : Ctx) : (s.retireEnding v t c).tick = s.tick := rfl
@[simp] theorem State.retireEnding_time (v : View) (t : Team) (c : Ctx) : (s.retireEnding v t c).time = s.time := rfl
@[simp] theorem State.retireEnding_mem (v : View) (t : Team) (c : Ctx) : (s.retireEnding v t c).mem = s.mem := rfl
@[simp] theorem State.retireEnding_sectors (v : View) (t : Team) (c : Ctx) : (s.retireEnding v t c).sectors = s.sectors := rfl
@[simp] theorem State.retireEnding_tags (v : View) (t : Team) (c : Ctx) : (s.retireEnding v t c).tags = s.tags := rfl
@[simp] theorem State.retireEnding_exact (v : View) (t : Team) (c : Ctx) : (s.retireEnding v t c).exact = s.exact := rfl
@[simp] theorem State.retireEnding_copies (v : View) (t : Team) (c : Ctx) : (s.retireEnding v t c).copies = s.copies := rfl
@[simp] theorem State.retireEnding_maps (v : View) (t : Team) (c : Ctx) : (s.retireEnding v t c).maps = s.maps := rfl
@[simp] theorem State.retireEnding_former (v : View) (t : Team) (c : Ctx) : (s.retireEnding v t c).former = s.former := rfl
@[simp] theorem State.retireEnding_readyQ (v : View) (t : Team) (c : Ctx) : (s.retireEnding v t c).readyQ = s.readyQ := rfl
@[simp] theorem State.retireEnding_ops (v : View) (t : Team) (c : Ctx) : (s.retireEnding v t c).ops = s.ops := rfl
@[simp] theorem State.retireEnding_serial (v : View) (t : Team) (c : Ctx) : (s.retireEnding v t c).serial = s.serial := rfl
@[simp] theorem State.retireEnding_cmds (v : View) (t : Team) (c : Ctx) : (s.retireEnding v t c).cmds = s.cmds := rfl
@[simp] theorem State.retireEnding_arrivals (v : View) (t : Team) (c : Ctx) : (s.retireEnding v t c).arrivals = s.arrivals := rfl
@[simp] theorem State.retireEnding_hub (v : View) (t : Team) (c : Ctx) : (s.retireEnding v t c).hub = s.hub := rfl
@[simp] theorem State.retireEnding_windlass (v : View) (t : Team) (c : Ctx) : (s.retireEnding v t c).windlass = s.windlass := rfl
@[simp] theorem State.retireEnding_dies (v : View) (t : Team) (c : Ctx) : (s.retireEnding v t c).dies = s.dies := rfl
@[simp] theorem State.retireEnding_loans (v : View) (t : Team) (c : Ctx) : (s.retireEnding v t c).loans = s.loans := rfl
@[simp] theorem State.retireEnding_alarm (v : View) (t : Team) (c : Ctx) : (s.retireEnding v t c).alarm = s.alarm := rfl
@[simp] theorem State.retireEnding_perf (v : View) (t : Team) (c : Ctx) : (s.retireEnding v t c).perf = s.perf := rfl
@[simp] theorem State.retireEnding_hubLost (v : View) (t : Team) (c : Ctx) : (s.retireEnding v t c).hubLost = s.hubLost := rfl
@[simp] theorem State.retireEnding_sec (v : View) (t : Team) (c : Ctx) : (s.retireEnding v t c).sec = s.sec := rfl
@[simp] theorem State.retireEnding_out (v : View) (t : Team) (c : Ctx) : (s.retireEnding v t c).out = s.out := rfl

@[simp] theorem State.putLaunch_agenda (l : Launch) : (s.putLaunch l).agenda = s.agenda := rfl
@[simp] theorem State.putLaunch_cur (l : Launch) : (s.putLaunch l).cur = s.cur := rfl
@[simp] theorem State.putLaunch_walks (l : Launch) : (s.putLaunch l).walks = s.walks := rfl
@[simp] theorem State.putLaunch_codeLog (l : Launch) : (s.putLaunch l).codeLog = s.codeLog := rfl
@[simp] theorem State.putLaunch_dead (l : Launch) : (s.putLaunch l).dead = s.dead := rfl
@[simp] theorem State.putLaunch_turn (l : Launch) : (s.putLaunch l).turn = s.turn := rfl
@[simp] theorem State.putLaunch_tick (l : Launch) : (s.putLaunch l).tick = s.tick := rfl
@[simp] theorem State.putLaunch_time (l : Launch) : (s.putLaunch l).time = s.time := rfl
@[simp] theorem State.putLaunch_mem (l : Launch) : (s.putLaunch l).mem = s.mem := rfl
@[simp] theorem State.putLaunch_sectors (l : Launch) : (s.putLaunch l).sectors = s.sectors := rfl
@[simp] theorem State.putLaunch_tags (l : Launch) : (s.putLaunch l).tags = s.tags := rfl
@[simp] theorem State.putLaunch_exact (l : Launch) : (s.putLaunch l).exact = s.exact := rfl
@[simp] theorem State.putLaunch_copies (l : Launch) : (s.putLaunch l).copies = s.copies := rfl
@[simp] theorem State.putLaunch_maps (l : Launch) : (s.putLaunch l).maps = s.maps := rfl
@[simp] theorem State.putLaunch_teams (l : Launch) : (s.putLaunch l).teams = s.teams := rfl
@[simp] theorem State.putLaunch_former (l : Launch) : (s.putLaunch l).former = s.former := rfl
@[simp] theorem State.putLaunch_readyQ (l : Launch) : (s.putLaunch l).readyQ = s.readyQ := rfl
@[simp] theorem State.putLaunch_ops (l : Launch) : (s.putLaunch l).ops = s.ops := rfl
@[simp] theorem State.putLaunch_serial (l : Launch) : (s.putLaunch l).serial = s.serial := rfl
@[simp] theorem State.putLaunch_cmds (l : Launch) : (s.putLaunch l).cmds = s.cmds := rfl
@[simp] theorem State.putLaunch_arrivals (l : Launch) : (s.putLaunch l).arrivals = s.arrivals := rfl
@[simp] theorem State.putLaunch_windlass (l : Launch) : (s.putLaunch l).windlass = s.windlass := rfl
@[simp] theorem State.putLaunch_dies (l : Launch) : (s.putLaunch l).dies = s.dies := rfl
@[simp] theorem State.putLaunch_loans (l : Launch) : (s.putLaunch l).loans = s.loans := rfl
@[simp] theorem State.putLaunch_alarm (l : Launch) : (s.putLaunch l).alarm = s.alarm := rfl
@[simp] theorem State.putLaunch_perf (l : Launch) : (s.putLaunch l).perf = s.perf := rfl
@[simp] theorem State.putLaunch_hubLost (l : Launch) : (s.putLaunch l).hubLost = s.hubLost := rfl
@[simp] theorem State.putLaunch_sec (l : Launch) : (s.putLaunch l).sec = s.sec := rfl
@[simp] theorem State.putLaunch_out (l : Launch) : (s.putLaunch l).out = s.out := rfl

@[simp] theorem State.setDie_cur (d : Nat) (x : Die) : (s.setDie d x).cur = s.cur := rfl
@[simp] theorem State.setDie_walks (d : Nat) (x : Die) : (s.setDie d x).walks = s.walks := rfl
@[simp] theorem State.setDie_codeLog (d : Nat) (x : Die) : (s.setDie d x).codeLog = s.codeLog := rfl
@[simp] theorem State.setDie_dead (d : Nat) (x : Die) : (s.setDie d x).dead = s.dead := rfl
@[simp] theorem State.setDie_time (d : Nat) (x : Die) : (s.setDie d x).time = s.time := rfl
@[simp] theorem State.setDie_mem (d : Nat) (x : Die) : (s.setDie d x).mem = s.mem := rfl
@[simp] theorem State.setDie_sectors (d : Nat) (x : Die) : (s.setDie d x).sectors = s.sectors := rfl
@[simp] theorem State.setDie_copies (d : Nat) (x : Die) : (s.setDie d x).copies = s.copies := rfl
@[simp] theorem State.setDie_maps (d : Nat) (x : Die) : (s.setDie d x).maps = s.maps := rfl
@[simp] theorem State.setDie_teams (d : Nat) (x : Die) : (s.setDie d x).teams = s.teams := rfl
@[simp] theorem State.setDie_former (d : Nat) (x : Die) : (s.setDie d x).former = s.former := rfl
@[simp] theorem State.setDie_ops (d : Nat) (x : Die) : (s.setDie d x).ops = s.ops := rfl
@[simp] theorem State.setDie_hub (d : Nat) (x : Die) : (s.setDie d x).hub = s.hub := rfl
@[simp] theorem State.setDie_windlass (d : Nat) (x : Die) : (s.setDie d x).windlass = s.windlass := rfl
@[simp] theorem State.setDie_alarm (d : Nat) (x : Die) : (s.setDie d x).alarm = s.alarm := rfl
@[simp] theorem State.setDie_sec (d : Nat) (x : Die) : (s.setDie d x).sec = s.sec := rfl

@[simp] theorem State.putOp_cur (o : Op) : (s.putOp o).cur = s.cur := rfl
@[simp] theorem State.putOp_walks (o : Op) : (s.putOp o).walks = s.walks := rfl
@[simp] theorem State.putOp_codeLog (o : Op) : (s.putOp o).codeLog = s.codeLog := rfl
@[simp] theorem State.putOp_dead (o : Op) : (s.putOp o).dead = s.dead := rfl
@[simp] theorem State.putOp_time (o : Op) : (s.putOp o).time = s.time := rfl
@[simp] theorem State.putOp_mem (o : Op) : (s.putOp o).mem = s.mem := rfl
@[simp] theorem State.putOp_sectors (o : Op) : (s.putOp o).sectors = s.sectors := rfl
@[simp] theorem State.putOp_copies (o : Op) : (s.putOp o).copies = s.copies := rfl
@[simp] theorem State.putOp_maps (o : Op) : (s.putOp o).maps = s.maps := rfl
@[simp] theorem State.putOp_teams (o : Op) : (s.putOp o).teams = s.teams := rfl
@[simp] theorem State.putOp_former (o : Op) : (s.putOp o).former = s.former := rfl
@[simp] theorem State.putOp_hub (o : Op) : (s.putOp o).hub = s.hub := rfl
@[simp] theorem State.putOp_windlass (o : Op) : (s.putOp o).windlass = s.windlass := rfl
@[simp] theorem State.putOp_dies (o : Op) : (s.putOp o).dies = s.dies := rfl
@[simp] theorem State.putOp_alarm (o : Op) : (s.putOp o).alarm = s.alarm := rfl
@[simp] theorem State.putOp_sec (o : Op) : (s.putOp o).sec = s.sec := rfl

@[simp] theorem State.addOp_agenda (own : CtxRef) (lv : BitVec 16) (path : Option Path) (kind : OpKind) : (s.addOp own lv path kind).agenda = s.agenda := rfl
@[simp] theorem State.addOp_cur (own : CtxRef) (lv : BitVec 16) (path : Option Path) (kind : OpKind) : (s.addOp own lv path kind).cur = s.cur := rfl
@[simp] theorem State.addOp_walks (own : CtxRef) (lv : BitVec 16) (path : Option Path) (kind : OpKind) : (s.addOp own lv path kind).walks = s.walks := rfl
@[simp] theorem State.addOp_codeLog (own : CtxRef) (lv : BitVec 16) (path : Option Path) (kind : OpKind) : (s.addOp own lv path kind).codeLog = s.codeLog := rfl
@[simp] theorem State.addOp_dead (own : CtxRef) (lv : BitVec 16) (path : Option Path) (kind : OpKind) : (s.addOp own lv path kind).dead = s.dead := rfl
@[simp] theorem State.addOp_turn (own : CtxRef) (lv : BitVec 16) (path : Option Path) (kind : OpKind) : (s.addOp own lv path kind).turn = s.turn := rfl
@[simp] theorem State.addOp_tick (own : CtxRef) (lv : BitVec 16) (path : Option Path) (kind : OpKind) : (s.addOp own lv path kind).tick = s.tick := rfl
@[simp] theorem State.addOp_time (own : CtxRef) (lv : BitVec 16) (path : Option Path) (kind : OpKind) : (s.addOp own lv path kind).time = s.time := rfl
@[simp] theorem State.addOp_mem (own : CtxRef) (lv : BitVec 16) (path : Option Path) (kind : OpKind) : (s.addOp own lv path kind).mem = s.mem := rfl
@[simp] theorem State.addOp_sectors (own : CtxRef) (lv : BitVec 16) (path : Option Path) (kind : OpKind) : (s.addOp own lv path kind).sectors = s.sectors := rfl
@[simp] theorem State.addOp_tags (own : CtxRef) (lv : BitVec 16) (path : Option Path) (kind : OpKind) : (s.addOp own lv path kind).tags = s.tags := rfl
@[simp] theorem State.addOp_exact (own : CtxRef) (lv : BitVec 16) (path : Option Path) (kind : OpKind) : (s.addOp own lv path kind).exact = s.exact := rfl
@[simp] theorem State.addOp_copies (own : CtxRef) (lv : BitVec 16) (path : Option Path) (kind : OpKind) : (s.addOp own lv path kind).copies = s.copies := rfl
@[simp] theorem State.addOp_maps (own : CtxRef) (lv : BitVec 16) (path : Option Path) (kind : OpKind) : (s.addOp own lv path kind).maps = s.maps := rfl
@[simp] theorem State.addOp_teams (own : CtxRef) (lv : BitVec 16) (path : Option Path) (kind : OpKind) : (s.addOp own lv path kind).teams = s.teams := rfl
@[simp] theorem State.addOp_former (own : CtxRef) (lv : BitVec 16) (path : Option Path) (kind : OpKind) : (s.addOp own lv path kind).former = s.former := rfl
@[simp] theorem State.addOp_readyQ (own : CtxRef) (lv : BitVec 16) (path : Option Path) (kind : OpKind) : (s.addOp own lv path kind).readyQ = s.readyQ := rfl
@[simp] theorem State.addOp_cmds (own : CtxRef) (lv : BitVec 16) (path : Option Path) (kind : OpKind) : (s.addOp own lv path kind).cmds = s.cmds := rfl
@[simp] theorem State.addOp_arrivals (own : CtxRef) (lv : BitVec 16) (path : Option Path) (kind : OpKind) : (s.addOp own lv path kind).arrivals = s.arrivals := rfl
@[simp] theorem State.addOp_hub (own : CtxRef) (lv : BitVec 16) (path : Option Path) (kind : OpKind) : (s.addOp own lv path kind).hub = s.hub := rfl
@[simp] theorem State.addOp_windlass (own : CtxRef) (lv : BitVec 16) (path : Option Path) (kind : OpKind) : (s.addOp own lv path kind).windlass = s.windlass := rfl
@[simp] theorem State.addOp_dies (own : CtxRef) (lv : BitVec 16) (path : Option Path) (kind : OpKind) : (s.addOp own lv path kind).dies = s.dies := rfl
@[simp] theorem State.addOp_loans (own : CtxRef) (lv : BitVec 16) (path : Option Path) (kind : OpKind) : (s.addOp own lv path kind).loans = s.loans := rfl
@[simp] theorem State.addOp_alarm (own : CtxRef) (lv : BitVec 16) (path : Option Path) (kind : OpKind) : (s.addOp own lv path kind).alarm = s.alarm := rfl
@[simp] theorem State.addOp_perf (own : CtxRef) (lv : BitVec 16) (path : Option Path) (kind : OpKind) : (s.addOp own lv path kind).perf = s.perf := rfl
@[simp] theorem State.addOp_hubLost (own : CtxRef) (lv : BitVec 16) (path : Option Path) (kind : OpKind) : (s.addOp own lv path kind).hubLost = s.hubLost := rfl
@[simp] theorem State.addOp_sec (own : CtxRef) (lv : BitVec 16) (path : Option Path) (kind : OpKind) : (s.addOp own lv path kind).sec = s.sec := rfl
@[simp] theorem State.addOp_out (own : CtxRef) (lv : BitVec 16) (path : Option Path) (kind : OpKind) : (s.addOp own lv path kind).out = s.out := rfl

@[simp] theorem State.finishOp_agenda (id : Nat) : (s.finishOp id).agenda = s.agenda := rfl
@[simp] theorem State.finishOp_cur (id : Nat) : (s.finishOp id).cur = s.cur := rfl
@[simp] theorem State.finishOp_walks (id : Nat) : (s.finishOp id).walks = s.walks := rfl
@[simp] theorem State.finishOp_codeLog (id : Nat) : (s.finishOp id).codeLog = s.codeLog := rfl
@[simp] theorem State.finishOp_dead (id : Nat) : (s.finishOp id).dead = s.dead := rfl
@[simp] theorem State.finishOp_turn (id : Nat) : (s.finishOp id).turn = s.turn := rfl
@[simp] theorem State.finishOp_tick (id : Nat) : (s.finishOp id).tick = s.tick := rfl
@[simp] theorem State.finishOp_time (id : Nat) : (s.finishOp id).time = s.time := rfl
@[simp] theorem State.finishOp_mem (id : Nat) : (s.finishOp id).mem = s.mem := rfl
@[simp] theorem State.finishOp_sectors (id : Nat) : (s.finishOp id).sectors = s.sectors := rfl
@[simp] theorem State.finishOp_tags (id : Nat) : (s.finishOp id).tags = s.tags := rfl
@[simp] theorem State.finishOp_exact (id : Nat) : (s.finishOp id).exact = s.exact := rfl
@[simp] theorem State.finishOp_copies (id : Nat) : (s.finishOp id).copies = s.copies := rfl
@[simp] theorem State.finishOp_maps (id : Nat) : (s.finishOp id).maps = s.maps := rfl
@[simp] theorem State.finishOp_teams (id : Nat) : (s.finishOp id).teams = s.teams := rfl
@[simp] theorem State.finishOp_former (id : Nat) : (s.finishOp id).former = s.former := rfl
@[simp] theorem State.finishOp_readyQ (id : Nat) : (s.finishOp id).readyQ = s.readyQ := rfl
@[simp] theorem State.finishOp_serial (id : Nat) : (s.finishOp id).serial = s.serial := rfl
@[simp] theorem State.finishOp_cmds (id : Nat) : (s.finishOp id).cmds = s.cmds := rfl
@[simp] theorem State.finishOp_arrivals (id : Nat) : (s.finishOp id).arrivals = s.arrivals := rfl
@[simp] theorem State.finishOp_hub (id : Nat) : (s.finishOp id).hub = s.hub := rfl
@[simp] theorem State.finishOp_windlass (id : Nat) : (s.finishOp id).windlass = s.windlass := rfl
@[simp] theorem State.finishOp_dies (id : Nat) : (s.finishOp id).dies = s.dies := rfl
@[simp] theorem State.finishOp_loans (id : Nat) : (s.finishOp id).loans = s.loans := rfl
@[simp] theorem State.finishOp_alarm (id : Nat) : (s.finishOp id).alarm = s.alarm := rfl
@[simp] theorem State.finishOp_perf (id : Nat) : (s.finishOp id).perf = s.perf := rfl
@[simp] theorem State.finishOp_hubLost (id : Nat) : (s.finishOp id).hubLost = s.hubLost := rfl
@[simp] theorem State.finishOp_sec (id : Nat) : (s.finishOp id).sec = s.sec := rfl
@[simp] theorem State.finishOp_out (id : Nat) : (s.finishOp id).out = s.out := rfl

@[simp] theorem State.setRec_cur (r : SectorRec) : (s.setRec r).cur = s.cur := rfl
@[simp] theorem State.setRec_walks (r : SectorRec) : (s.setRec r).walks = s.walks := rfl
@[simp] theorem State.setRec_codeLog (r : SectorRec) : (s.setRec r).codeLog = s.codeLog := rfl
@[simp] theorem State.setRec_dead (r : SectorRec) : (s.setRec r).dead = s.dead := rfl
@[simp] theorem State.setRec_time (r : SectorRec) : (s.setRec r).time = s.time := rfl
@[simp] theorem State.setRec_mem (r : SectorRec) : (s.setRec r).mem = s.mem := rfl
@[simp] theorem State.setRec_copies (r : SectorRec) : (s.setRec r).copies = s.copies := rfl
@[simp] theorem State.setRec_maps (r : SectorRec) : (s.setRec r).maps = s.maps := rfl
@[simp] theorem State.setRec_teams (r : SectorRec) : (s.setRec r).teams = s.teams := rfl
@[simp] theorem State.setRec_former (r : SectorRec) : (s.setRec r).former = s.former := rfl
@[simp] theorem State.setRec_ops (r : SectorRec) : (s.setRec r).ops = s.ops := rfl
@[simp] theorem State.setRec_hub (r : SectorRec) : (s.setRec r).hub = s.hub := rfl
@[simp] theorem State.setRec_windlass (r : SectorRec) : (s.setRec r).windlass = s.windlass := rfl
@[simp] theorem State.setRec_dies (r : SectorRec) : (s.setRec r).dies = s.dies := rfl
@[simp] theorem State.setRec_alarm (r : SectorRec) : (s.setRec r).alarm = s.alarm := rfl
@[simp] theorem State.setRec_sec (r : SectorRec) : (s.setRec r).sec = s.sec := rfl

@[simp] theorem State.putMap_cur (m : MapEntry) : (s.putMap m).cur = s.cur := rfl
@[simp] theorem State.putMap_walks (m : MapEntry) : (s.putMap m).walks = s.walks := rfl
@[simp] theorem State.putMap_codeLog (m : MapEntry) : (s.putMap m).codeLog = s.codeLog := rfl
@[simp] theorem State.putMap_dead (m : MapEntry) : (s.putMap m).dead = s.dead := rfl
@[simp] theorem State.putMap_time (m : MapEntry) : (s.putMap m).time = s.time := rfl
@[simp] theorem State.putMap_mem (m : MapEntry) : (s.putMap m).mem = s.mem := rfl
@[simp] theorem State.putMap_sectors (m : MapEntry) : (s.putMap m).sectors = s.sectors := rfl
@[simp] theorem State.putMap_copies (m : MapEntry) : (s.putMap m).copies = s.copies := rfl
@[simp] theorem State.putMap_teams (m : MapEntry) : (s.putMap m).teams = s.teams := rfl
@[simp] theorem State.putMap_former (m : MapEntry) : (s.putMap m).former = s.former := rfl
@[simp] theorem State.putMap_ops (m : MapEntry) : (s.putMap m).ops = s.ops := rfl
@[simp] theorem State.putMap_hub (m : MapEntry) : (s.putMap m).hub = s.hub := rfl
@[simp] theorem State.putMap_windlass (m : MapEntry) : (s.putMap m).windlass = s.windlass := rfl
@[simp] theorem State.putMap_dies (m : MapEntry) : (s.putMap m).dies = s.dies := rfl
@[simp] theorem State.putMap_alarm (m : MapEntry) : (s.putMap m).alarm = s.alarm := rfl
@[simp] theorem State.putMap_sec (m : MapEntry) : (s.putMap m).sec = s.sec := rfl

@[simp] theorem State.dropCopies_cur (x : Nat) (p : Copy → Bool) : (s.dropCopies x p).cur = s.cur := rfl
@[simp] theorem State.dropCopies_walks (x : Nat) (p : Copy → Bool) : (s.dropCopies x p).walks = s.walks := rfl
@[simp] theorem State.dropCopies_codeLog (x : Nat) (p : Copy → Bool) : (s.dropCopies x p).codeLog = s.codeLog := rfl
@[simp] theorem State.dropCopies_dead (x : Nat) (p : Copy → Bool) : (s.dropCopies x p).dead = s.dead := rfl
@[simp] theorem State.dropCopies_time (x : Nat) (p : Copy → Bool) : (s.dropCopies x p).time = s.time := rfl
@[simp] theorem State.dropCopies_mem (x : Nat) (p : Copy → Bool) : (s.dropCopies x p).mem = s.mem := rfl
@[simp] theorem State.dropCopies_sectors (x : Nat) (p : Copy → Bool) : (s.dropCopies x p).sectors = s.sectors := rfl
@[simp] theorem State.dropCopies_maps (x : Nat) (p : Copy → Bool) : (s.dropCopies x p).maps = s.maps := rfl
@[simp] theorem State.dropCopies_teams (x : Nat) (p : Copy → Bool) : (s.dropCopies x p).teams = s.teams := rfl
@[simp] theorem State.dropCopies_former (x : Nat) (p : Copy → Bool) : (s.dropCopies x p).former = s.former := rfl
@[simp] theorem State.dropCopies_ops (x : Nat) (p : Copy → Bool) : (s.dropCopies x p).ops = s.ops := rfl
@[simp] theorem State.dropCopies_hub (x : Nat) (p : Copy → Bool) : (s.dropCopies x p).hub = s.hub := rfl
@[simp] theorem State.dropCopies_windlass (x : Nat) (p : Copy → Bool) : (s.dropCopies x p).windlass = s.windlass := rfl
@[simp] theorem State.dropCopies_dies (x : Nat) (p : Copy → Bool) : (s.dropCopies x p).dies = s.dies := rfl
@[simp] theorem State.dropCopies_alarm (x : Nat) (p : Copy → Bool) : (s.dropCopies x p).alarm = s.alarm := rfl
@[simp] theorem State.dropCopies_sec (x : Nat) (p : Copy → Bool) : (s.dropCopies x p).sec = s.sec := rfl

@[simp] theorem State.bumpTag_cur (x : Nat) : (s.bumpTag x).cur = s.cur := rfl
@[simp] theorem State.bumpTag_walks (x : Nat) : (s.bumpTag x).walks = s.walks := rfl
@[simp] theorem State.bumpTag_codeLog (x : Nat) : (s.bumpTag x).codeLog = s.codeLog := rfl
@[simp] theorem State.bumpTag_dead (x : Nat) : (s.bumpTag x).dead = s.dead := rfl
@[simp] theorem State.bumpTag_time (x : Nat) : (s.bumpTag x).time = s.time := rfl
@[simp] theorem State.bumpTag_mem (x : Nat) : (s.bumpTag x).mem = s.mem := rfl
@[simp] theorem State.bumpTag_sectors (x : Nat) : (s.bumpTag x).sectors = s.sectors := rfl
@[simp] theorem State.bumpTag_copies (x : Nat) : (s.bumpTag x).copies = s.copies := rfl
@[simp] theorem State.bumpTag_maps (x : Nat) : (s.bumpTag x).maps = s.maps := rfl
@[simp] theorem State.bumpTag_teams (x : Nat) : (s.bumpTag x).teams = s.teams := rfl
@[simp] theorem State.bumpTag_former (x : Nat) : (s.bumpTag x).former = s.former := rfl
@[simp] theorem State.bumpTag_ops (x : Nat) : (s.bumpTag x).ops = s.ops := rfl
@[simp] theorem State.bumpTag_hub (x : Nat) : (s.bumpTag x).hub = s.hub := rfl
@[simp] theorem State.bumpTag_windlass (x : Nat) : (s.bumpTag x).windlass = s.windlass := rfl
@[simp] theorem State.bumpTag_dies (x : Nat) : (s.bumpTag x).dies = s.dies := rfl
@[simp] theorem State.bumpTag_alarm (x : Nat) : (s.bumpTag x).alarm = s.alarm := rfl
@[simp] theorem State.bumpTag_sec (x : Nat) : (s.bumpTag x).sec = s.sec := rfl

@[simp] theorem State.setStash_cur (r : TeamRef) (off : Nat) (bs : List Byte) : (s.setStash r off bs).cur = s.cur := rfl
@[simp] theorem State.setStash_walks (r : TeamRef) (off : Nat) (bs : List Byte) : (s.setStash r off bs).walks = s.walks := rfl
@[simp] theorem State.setStash_codeLog (r : TeamRef) (off : Nat) (bs : List Byte) : (s.setStash r off bs).codeLog = s.codeLog := rfl
@[simp] theorem State.setStash_dead (r : TeamRef) (off : Nat) (bs : List Byte) : (s.setStash r off bs).dead = s.dead := rfl
@[simp] theorem State.setStash_time (r : TeamRef) (off : Nat) (bs : List Byte) : (s.setStash r off bs).time = s.time := rfl
@[simp] theorem State.setStash_mem (r : TeamRef) (off : Nat) (bs : List Byte) : (s.setStash r off bs).mem = s.mem := rfl
@[simp] theorem State.setStash_sectors (r : TeamRef) (off : Nat) (bs : List Byte) : (s.setStash r off bs).sectors = s.sectors := rfl
@[simp] theorem State.setStash_copies (r : TeamRef) (off : Nat) (bs : List Byte) : (s.setStash r off bs).copies = s.copies := rfl
@[simp] theorem State.setStash_maps (r : TeamRef) (off : Nat) (bs : List Byte) : (s.setStash r off bs).maps = s.maps := rfl
@[simp] theorem State.setStash_ops (r : TeamRef) (off : Nat) (bs : List Byte) : (s.setStash r off bs).ops = s.ops := rfl
@[simp] theorem State.setStash_hub (r : TeamRef) (off : Nat) (bs : List Byte) : (s.setStash r off bs).hub = s.hub := rfl
@[simp] theorem State.setStash_windlass (r : TeamRef) (off : Nat) (bs : List Byte) : (s.setStash r off bs).windlass = s.windlass := rfl
@[simp] theorem State.setStash_dies (r : TeamRef) (off : Nat) (bs : List Byte) : (s.setStash r off bs).dies = s.dies := rfl
@[simp] theorem State.setStash_alarm (r : TeamRef) (off : Nat) (bs : List Byte) : (s.setStash r off bs).alarm = s.alarm := rfl
@[simp] theorem State.setStash_sec (r : TeamRef) (off : Nat) (bs : List Byte) : (s.setStash r off bs).sec = s.sec := rfl

@[simp] theorem State.shareWindows_cur (w : Who) (x : Nat) : (s.shareWindows w x).cur = s.cur := rfl
@[simp] theorem State.shareWindows_walks (w : Who) (x : Nat) : (s.shareWindows w x).walks = s.walks := rfl
@[simp] theorem State.shareWindows_codeLog (w : Who) (x : Nat) : (s.shareWindows w x).codeLog = s.codeLog := rfl
@[simp] theorem State.shareWindows_dead (w : Who) (x : Nat) : (s.shareWindows w x).dead = s.dead := rfl
@[simp] theorem State.shareWindows_time (w : Who) (x : Nat) : (s.shareWindows w x).time = s.time := rfl
@[simp] theorem State.shareWindows_mem (w : Who) (x : Nat) : (s.shareWindows w x).mem = s.mem := rfl
@[simp] theorem State.shareWindows_sectors (w : Who) (x : Nat) : (s.shareWindows w x).sectors = s.sectors := rfl
@[simp] theorem State.shareWindows_copies (w : Who) (x : Nat) : (s.shareWindows w x).copies = s.copies := rfl
@[simp] theorem State.shareWindows_teams (w : Who) (x : Nat) : (s.shareWindows w x).teams = s.teams := rfl
@[simp] theorem State.shareWindows_former (w : Who) (x : Nat) : (s.shareWindows w x).former = s.former := rfl
@[simp] theorem State.shareWindows_ops (w : Who) (x : Nat) : (s.shareWindows w x).ops = s.ops := rfl
@[simp] theorem State.shareWindows_hub (w : Who) (x : Nat) : (s.shareWindows w x).hub = s.hub := rfl
@[simp] theorem State.shareWindows_windlass (w : Who) (x : Nat) : (s.shareWindows w x).windlass = s.windlass := rfl
@[simp] theorem State.shareWindows_dies (w : Who) (x : Nat) : (s.shareWindows w x).dies = s.dies := rfl
@[simp] theorem State.shareWindows_alarm (w : Who) (x : Nat) : (s.shareWindows w x).alarm = s.alarm := rfl
@[simp] theorem State.shareWindows_sec (w : Who) (x : Nat) : (s.shareWindows w x).sec = s.sec := rfl

@[simp] theorem State.hostPut_agenda (a : Nat) (bs : List Byte) : (s.hostPut a bs).agenda = s.agenda := rfl
@[simp] theorem State.hostPut_cur (a : Nat) (bs : List Byte) : (s.hostPut a bs).cur = s.cur := rfl
@[simp] theorem State.hostPut_walks (a : Nat) (bs : List Byte) : (s.hostPut a bs).walks = s.walks := rfl
@[simp] theorem State.hostPut_codeLog (a : Nat) (bs : List Byte) : (s.hostPut a bs).codeLog = s.codeLog := rfl
@[simp] theorem State.hostPut_dead (a : Nat) (bs : List Byte) : (s.hostPut a bs).dead = s.dead := rfl
@[simp] theorem State.hostPut_turn (a : Nat) (bs : List Byte) : (s.hostPut a bs).turn = s.turn := rfl
@[simp] theorem State.hostPut_tick (a : Nat) (bs : List Byte) : (s.hostPut a bs).tick = s.tick := rfl
@[simp] theorem State.hostPut_time (a : Nat) (bs : List Byte) : (s.hostPut a bs).time = s.time := rfl
@[simp] theorem State.hostPut_sectors (a : Nat) (bs : List Byte) : (s.hostPut a bs).sectors = s.sectors := rfl
@[simp] theorem State.hostPut_tags (a : Nat) (bs : List Byte) : (s.hostPut a bs).tags = s.tags := rfl
@[simp] theorem State.hostPut_exact (a : Nat) (bs : List Byte) : (s.hostPut a bs).exact = s.exact := rfl
@[simp] theorem State.hostPut_copies (a : Nat) (bs : List Byte) : (s.hostPut a bs).copies = s.copies := rfl
@[simp] theorem State.hostPut_maps (a : Nat) (bs : List Byte) : (s.hostPut a bs).maps = s.maps := rfl
@[simp] theorem State.hostPut_teams (a : Nat) (bs : List Byte) : (s.hostPut a bs).teams = s.teams := rfl
@[simp] theorem State.hostPut_former (a : Nat) (bs : List Byte) : (s.hostPut a bs).former = s.former := rfl
@[simp] theorem State.hostPut_readyQ (a : Nat) (bs : List Byte) : (s.hostPut a bs).readyQ = s.readyQ := rfl
@[simp] theorem State.hostPut_ops (a : Nat) (bs : List Byte) : (s.hostPut a bs).ops = s.ops := rfl
@[simp] theorem State.hostPut_serial (a : Nat) (bs : List Byte) : (s.hostPut a bs).serial = s.serial := rfl
@[simp] theorem State.hostPut_cmds (a : Nat) (bs : List Byte) : (s.hostPut a bs).cmds = s.cmds := rfl
@[simp] theorem State.hostPut_arrivals (a : Nat) (bs : List Byte) : (s.hostPut a bs).arrivals = s.arrivals := rfl
@[simp] theorem State.hostPut_hub (a : Nat) (bs : List Byte) : (s.hostPut a bs).hub = s.hub := rfl
@[simp] theorem State.hostPut_windlass (a : Nat) (bs : List Byte) : (s.hostPut a bs).windlass = s.windlass := rfl
@[simp] theorem State.hostPut_dies (a : Nat) (bs : List Byte) : (s.hostPut a bs).dies = s.dies := rfl
@[simp] theorem State.hostPut_loans (a : Nat) (bs : List Byte) : (s.hostPut a bs).loans = s.loans := rfl
@[simp] theorem State.hostPut_alarm (a : Nat) (bs : List Byte) : (s.hostPut a bs).alarm = s.alarm := rfl
@[simp] theorem State.hostPut_perf (a : Nat) (bs : List Byte) : (s.hostPut a bs).perf = s.perf := rfl
@[simp] theorem State.hostPut_hubLost (a : Nat) (bs : List Byte) : (s.hostPut a bs).hubLost = s.hubLost := rfl
@[simp] theorem State.hostPut_sec (a : Nat) (bs : List Byte) : (s.hostPut a bs).sec = s.sec := rfl
@[simp] theorem State.hostPut_out (a : Nat) (bs : List Byte) : (s.hostPut a bs).out = s.out := rfl

@[simp] theorem State.setFunc_cur (f : Nat) (r : FuncRegs) : (s.setFunc f r).cur = s.cur := rfl
@[simp] theorem State.setFunc_walks (f : Nat) (r : FuncRegs) : (s.setFunc f r).walks = s.walks := rfl
@[simp] theorem State.setFunc_codeLog (f : Nat) (r : FuncRegs) : (s.setFunc f r).codeLog = s.codeLog := rfl
@[simp] theorem State.setFunc_dead (f : Nat) (r : FuncRegs) : (s.setFunc f r).dead = s.dead := rfl
@[simp] theorem State.setFunc_time (f : Nat) (r : FuncRegs) : (s.setFunc f r).time = s.time := rfl
@[simp] theorem State.setFunc_mem (f : Nat) (r : FuncRegs) : (s.setFunc f r).mem = s.mem := rfl
@[simp] theorem State.setFunc_sectors (f : Nat) (r : FuncRegs) : (s.setFunc f r).sectors = s.sectors := rfl
@[simp] theorem State.setFunc_copies (f : Nat) (r : FuncRegs) : (s.setFunc f r).copies = s.copies := rfl
@[simp] theorem State.setFunc_maps (f : Nat) (r : FuncRegs) : (s.setFunc f r).maps = s.maps := rfl
@[simp] theorem State.setFunc_teams (f : Nat) (r : FuncRegs) : (s.setFunc f r).teams = s.teams := rfl
@[simp] theorem State.setFunc_former (f : Nat) (r : FuncRegs) : (s.setFunc f r).former = s.former := rfl
@[simp] theorem State.setFunc_ops (f : Nat) (r : FuncRegs) : (s.setFunc f r).ops = s.ops := rfl
@[simp] theorem State.setFunc_windlass (f : Nat) (r : FuncRegs) : (s.setFunc f r).windlass = s.windlass := rfl
@[simp] theorem State.setFunc_dies (f : Nat) (r : FuncRegs) : (s.setFunc f r).dies = s.dies := rfl
@[simp] theorem State.setFunc_alarm (f : Nat) (r : FuncRegs) : (s.setFunc f r).alarm = s.alarm := rfl
@[simp] theorem State.setFunc_sec (f : Nat) (r : FuncRegs) : (s.setFunc f r).sec = s.sec := rfl

@[simp] theorem State.setQueue_cur (q : Nat) (x : Queue) : (s.setQueue q x).cur = s.cur := rfl
@[simp] theorem State.setQueue_walks (q : Nat) (x : Queue) : (s.setQueue q x).walks = s.walks := rfl
@[simp] theorem State.setQueue_codeLog (q : Nat) (x : Queue) : (s.setQueue q x).codeLog = s.codeLog := rfl
@[simp] theorem State.setQueue_dead (q : Nat) (x : Queue) : (s.setQueue q x).dead = s.dead := rfl
@[simp] theorem State.setQueue_time (q : Nat) (x : Queue) : (s.setQueue q x).time = s.time := rfl
@[simp] theorem State.setQueue_mem (q : Nat) (x : Queue) : (s.setQueue q x).mem = s.mem := rfl
@[simp] theorem State.setQueue_sectors (q : Nat) (x : Queue) : (s.setQueue q x).sectors = s.sectors := rfl
@[simp] theorem State.setQueue_copies (q : Nat) (x : Queue) : (s.setQueue q x).copies = s.copies := rfl
@[simp] theorem State.setQueue_maps (q : Nat) (x : Queue) : (s.setQueue q x).maps = s.maps := rfl
@[simp] theorem State.setQueue_teams (q : Nat) (x : Queue) : (s.setQueue q x).teams = s.teams := rfl
@[simp] theorem State.setQueue_former (q : Nat) (x : Queue) : (s.setQueue q x).former = s.former := rfl
@[simp] theorem State.setQueue_ops (q : Nat) (x : Queue) : (s.setQueue q x).ops = s.ops := rfl
@[simp] theorem State.setQueue_windlass (q : Nat) (x : Queue) : (s.setQueue q x).windlass = s.windlass := rfl
@[simp] theorem State.setQueue_dies (q : Nat) (x : Queue) : (s.setQueue q x).dies = s.dies := rfl
@[simp] theorem State.setQueue_alarm (q : Nat) (x : Queue) : (s.setQueue q x).alarm = s.alarm := rfl
@[simp] theorem State.setQueue_sec (q : Nat) (x : Queue) : (s.setQueue q x).sec = s.sec := rfl

@[simp] theorem State.setStream_cur (x : StreamRec) : (s.setStream x).cur = s.cur := rfl
@[simp] theorem State.setStream_walks (x : StreamRec) : (s.setStream x).walks = s.walks := rfl
@[simp] theorem State.setStream_codeLog (x : StreamRec) : (s.setStream x).codeLog = s.codeLog := rfl
@[simp] theorem State.setStream_dead (x : StreamRec) : (s.setStream x).dead = s.dead := rfl
@[simp] theorem State.setStream_time (x : StreamRec) : (s.setStream x).time = s.time := rfl
@[simp] theorem State.setStream_mem (x : StreamRec) : (s.setStream x).mem = s.mem := rfl
@[simp] theorem State.setStream_sectors (x : StreamRec) : (s.setStream x).sectors = s.sectors := rfl
@[simp] theorem State.setStream_copies (x : StreamRec) : (s.setStream x).copies = s.copies := rfl
@[simp] theorem State.setStream_maps (x : StreamRec) : (s.setStream x).maps = s.maps := rfl
@[simp] theorem State.setStream_teams (x : StreamRec) : (s.setStream x).teams = s.teams := rfl
@[simp] theorem State.setStream_former (x : StreamRec) : (s.setStream x).former = s.former := rfl
@[simp] theorem State.setStream_ops (x : StreamRec) : (s.setStream x).ops = s.ops := rfl
@[simp] theorem State.setStream_windlass (x : StreamRec) : (s.setStream x).windlass = s.windlass := rfl
@[simp] theorem State.setStream_dies (x : StreamRec) : (s.setStream x).dies = s.dies := rfl
@[simp] theorem State.setStream_alarm (x : StreamRec) : (s.setStream x).alarm = s.alarm := rfl
@[simp] theorem State.setStream_sec (x : StreamRec) : (s.setStream x).sec = s.sec := rfl

@[simp] theorem State.setBoot_cur (f : Boot → Boot) : (s.setBoot f).cur = s.cur := rfl
@[simp] theorem State.setBoot_walks (f : Boot → Boot) : (s.setBoot f).walks = s.walks := rfl
@[simp] theorem State.setBoot_codeLog (f : Boot → Boot) : (s.setBoot f).codeLog = s.codeLog := rfl
@[simp] theorem State.setBoot_dead (f : Boot → Boot) : (s.setBoot f).dead = s.dead := rfl
@[simp] theorem State.setBoot_time (f : Boot → Boot) : (s.setBoot f).time = s.time := rfl
@[simp] theorem State.setBoot_mem (f : Boot → Boot) : (s.setBoot f).mem = s.mem := rfl
@[simp] theorem State.setBoot_sectors (f : Boot → Boot) : (s.setBoot f).sectors = s.sectors := rfl
@[simp] theorem State.setBoot_copies (f : Boot → Boot) : (s.setBoot f).copies = s.copies := rfl
@[simp] theorem State.setBoot_maps (f : Boot → Boot) : (s.setBoot f).maps = s.maps := rfl
@[simp] theorem State.setBoot_teams (f : Boot → Boot) : (s.setBoot f).teams = s.teams := rfl
@[simp] theorem State.setBoot_former (f : Boot → Boot) : (s.setBoot f).former = s.former := rfl
@[simp] theorem State.setBoot_ops (f : Boot → Boot) : (s.setBoot f).ops = s.ops := rfl
@[simp] theorem State.setBoot_hub (f : Boot → Boot) : (s.setBoot f).hub = s.hub := rfl
@[simp] theorem State.setBoot_windlass (f : Boot → Boot) : (s.setBoot f).windlass = s.windlass := rfl
@[simp] theorem State.setBoot_dies (f : Boot → Boot) : (s.setBoot f).dies = s.dies := rfl
@[simp] theorem State.setBoot_alarm (f : Boot → Boot) : (s.setBoot f).alarm = s.alarm := rfl

@[simp] theorem State.setDomain_cur (m : Nat) (d : Domain) : (s.setDomain m d).cur = s.cur := rfl
@[simp] theorem State.setDomain_walks (m : Nat) (d : Domain) : (s.setDomain m d).walks = s.walks := rfl
@[simp] theorem State.setDomain_codeLog (m : Nat) (d : Domain) : (s.setDomain m d).codeLog = s.codeLog := rfl
@[simp] theorem State.setDomain_dead (m : Nat) (d : Domain) : (s.setDomain m d).dead = s.dead := rfl
@[simp] theorem State.setDomain_time (m : Nat) (d : Domain) : (s.setDomain m d).time = s.time := rfl
@[simp] theorem State.setDomain_mem (m : Nat) (d : Domain) : (s.setDomain m d).mem = s.mem := rfl
@[simp] theorem State.setDomain_sectors (m : Nat) (d : Domain) : (s.setDomain m d).sectors = s.sectors := rfl
@[simp] theorem State.setDomain_copies (m : Nat) (d : Domain) : (s.setDomain m d).copies = s.copies := rfl
@[simp] theorem State.setDomain_maps (m : Nat) (d : Domain) : (s.setDomain m d).maps = s.maps := rfl
@[simp] theorem State.setDomain_teams (m : Nat) (d : Domain) : (s.setDomain m d).teams = s.teams := rfl
@[simp] theorem State.setDomain_former (m : Nat) (d : Domain) : (s.setDomain m d).former = s.former := rfl
@[simp] theorem State.setDomain_ops (m : Nat) (d : Domain) : (s.setDomain m d).ops = s.ops := rfl
@[simp] theorem State.setDomain_hub (m : Nat) (d : Domain) : (s.setDomain m d).hub = s.hub := rfl
@[simp] theorem State.setDomain_dies (m : Nat) (d : Domain) : (s.setDomain m d).dies = s.dies := rfl
@[simp] theorem State.setDomain_alarm (m : Nat) (d : Domain) : (s.setDomain m d).alarm = s.alarm := rfl
@[simp] theorem State.setDomain_sec (m : Nat) (d : Domain) : (s.setDomain m d).sec = s.sec := rfl

@[simp] theorem State.putCmd_cur (c : Cmd) : (s.putCmd c).cur = s.cur := rfl
@[simp] theorem State.putCmd_walks (c : Cmd) : (s.putCmd c).walks = s.walks := rfl
@[simp] theorem State.putCmd_codeLog (c : Cmd) : (s.putCmd c).codeLog = s.codeLog := rfl
@[simp] theorem State.putCmd_dead (c : Cmd) : (s.putCmd c).dead = s.dead := rfl
@[simp] theorem State.putCmd_time (c : Cmd) : (s.putCmd c).time = s.time := rfl
@[simp] theorem State.putCmd_mem (c : Cmd) : (s.putCmd c).mem = s.mem := rfl
@[simp] theorem State.putCmd_sectors (c : Cmd) : (s.putCmd c).sectors = s.sectors := rfl
@[simp] theorem State.putCmd_copies (c : Cmd) : (s.putCmd c).copies = s.copies := rfl
@[simp] theorem State.putCmd_maps (c : Cmd) : (s.putCmd c).maps = s.maps := rfl
@[simp] theorem State.putCmd_teams (c : Cmd) : (s.putCmd c).teams = s.teams := rfl
@[simp] theorem State.putCmd_former (c : Cmd) : (s.putCmd c).former = s.former := rfl
@[simp] theorem State.putCmd_ops (c : Cmd) : (s.putCmd c).ops = s.ops := rfl
@[simp] theorem State.putCmd_hub (c : Cmd) : (s.putCmd c).hub = s.hub := rfl
@[simp] theorem State.putCmd_windlass (c : Cmd) : (s.putCmd c).windlass = s.windlass := rfl
@[simp] theorem State.putCmd_dies (c : Cmd) : (s.putCmd c).dies = s.dies := rfl
@[simp] theorem State.putCmd_alarm (c : Cmd) : (s.putCmd c).alarm = s.alarm := rfl
@[simp] theorem State.putCmd_sec (c : Cmd) : (s.putCmd c).sec = s.sec := rfl

@[simp] theorem State.cfgErr_cur : (s.cfgErr).cur = s.cur := rfl
@[simp] theorem State.cfgErr_walks : (s.cfgErr).walks = s.walks := rfl
@[simp] theorem State.cfgErr_codeLog : (s.cfgErr).codeLog = s.codeLog := rfl
@[simp] theorem State.cfgErr_dead : (s.cfgErr).dead = s.dead := rfl
@[simp] theorem State.cfgErr_time : (s.cfgErr).time = s.time := rfl
@[simp] theorem State.cfgErr_mem : (s.cfgErr).mem = s.mem := rfl
@[simp] theorem State.cfgErr_sectors : (s.cfgErr).sectors = s.sectors := rfl
@[simp] theorem State.cfgErr_copies : (s.cfgErr).copies = s.copies := rfl
@[simp] theorem State.cfgErr_maps : (s.cfgErr).maps = s.maps := rfl
@[simp] theorem State.cfgErr_teams : (s.cfgErr).teams = s.teams := rfl
@[simp] theorem State.cfgErr_former : (s.cfgErr).former = s.former := rfl
@[simp] theorem State.cfgErr_ops : (s.cfgErr).ops = s.ops := rfl
@[simp] theorem State.cfgErr_windlass : (s.cfgErr).windlass = s.windlass := rfl
@[simp] theorem State.cfgErr_dies : (s.cfgErr).dies = s.dies := rfl
@[simp] theorem State.cfgErr_alarm : (s.cfgErr).alarm = s.alarm := rfl
@[simp] theorem State.cfgErr_sec : (s.cfgErr).sec = s.sec := rfl

@[simp] theorem State.clock_agenda : (s.clock).agenda = s.agenda := rfl
@[simp] theorem State.clock_cur : (s.clock).cur = s.cur := rfl
@[simp] theorem State.clock_walks : (s.clock).walks = s.walks := rfl
@[simp] theorem State.clock_codeLog : (s.clock).codeLog = s.codeLog := rfl
@[simp] theorem State.clock_dead : (s.clock).dead = s.dead := rfl
@[simp] theorem State.clock_turn : (s.clock).turn = s.turn := rfl
@[simp] theorem State.clock_mem : (s.clock).mem = s.mem := rfl
@[simp] theorem State.clock_sectors : (s.clock).sectors = s.sectors := rfl
@[simp] theorem State.clock_tags : (s.clock).tags = s.tags := rfl
@[simp] theorem State.clock_exact : (s.clock).exact = s.exact := rfl
@[simp] theorem State.clock_copies : (s.clock).copies = s.copies := rfl
@[simp] theorem State.clock_maps : (s.clock).maps = s.maps := rfl
@[simp] theorem State.clock_teams : (s.clock).teams = s.teams := rfl
@[simp] theorem State.clock_former : (s.clock).former = s.former := rfl
@[simp] theorem State.clock_readyQ : (s.clock).readyQ = s.readyQ := rfl
@[simp] theorem State.clock_ops : (s.clock).ops = s.ops := rfl
@[simp] theorem State.clock_serial : (s.clock).serial = s.serial := rfl
@[simp] theorem State.clock_cmds : (s.clock).cmds = s.cmds := rfl
@[simp] theorem State.clock_arrivals : (s.clock).arrivals = s.arrivals := rfl
@[simp] theorem State.clock_hub : (s.clock).hub = s.hub := rfl
@[simp] theorem State.clock_windlass : (s.clock).windlass = s.windlass := rfl
@[simp] theorem State.clock_loans : (s.clock).loans = s.loans := rfl
@[simp] theorem State.clock_alarm : (s.clock).alarm = s.alarm := rfl
@[simp] theorem State.clock_hubLost : (s.clock).hubLost = s.hubLost := rfl
@[simp] theorem State.clock_sec : (s.clock).sec = s.sec := rfl
@[simp] theorem State.clock_out : (s.clock).out = s.out := rfl

/-- The clock changes of a die its report alone. -/
theorem State.clock_die (i : Nat) : ∃ r a, (s.clock).die i = { s.die i with report := r, reportAt := a } := by
  simp only [State.die]
  exact ⟨_, _, by simp only [State.clock, State.refreshDue, State.clockPerf, Fin.getElem_fin, Vector.getElem_ofFn]; rfl⟩

end Sys2Proof.Machine
end

