-- ==== Sys2Proof/Laws/Instr.lean ====
section
/-! SUPPORT. Laws/Instr.lean: what an instruction of a context comes to: the tests of R163, the effect, completion, and what the
executing context is afterwards. -/

namespace Sys2Proof.Machine

/-! ### The tests of R163 -/

theorem Req.fault_none {r : Req} {v : View} (he : r.enc = true) (hc : r.ctxs v.kind = true) (hr : r.regs = true)
    (hm : r.mode = true) (hn : lookaheadHit v.ctx.windows r.names = false) : r.fault v = none := by
  simp [Req.fault, he, hc, hr, hm, hn]

theorem Req.fault_eq_none_iff (r : Req) (v : View) :
    r.fault v = none ↔ r.enc = true ∧ r.ctxs v.kind = true ∧ r.regs = true ∧ r.mode = true ∧
      lookaheadHit v.ctx.windows r.names = false := by
  unfold Req.fault
  cases r.enc <;> cases r.ctxs v.kind <;> cases r.regs <;> cases r.mode <;>
    cases lookaheadHit v.ctx.windows r.names <;> simp

/-- A name list within another is free when the larger is. -/
theorem lookaheadHit_mono {ws : List Window} {a b : List RegName} (hab : ∀ n ∈ a, n ∈ b) (h : lookaheadHit ws b = false) :
    lookaheadHit ws a = false := by
  rw [lookaheadHit, List.any_eq_false] at h ⊢
  refine fun w hw hc => h w hw ?_
  simp only [Bool.and_eq_true, List.any_eq_true, List.contains_iff_mem] at hc ⊢
  exact ⟨hc.1, hc.2.imp fun n hn => ⟨hn.1, hab n hn.2⟩⟩

theorem instr_ok {s u : State} {v : View} {req : View → Req} {body : View → Except Flt State} (hv : s.view = some v)
    (hr : (req v).fault v = none) (hb : body v = .ok u) : instr s req body = .next u := by
  simp [instr, hv, hr, hb]

theorem instr_error {s : State} {v : View} {req : View → Req} {body : View → Except Flt State} {f : Flt}
    (hv : s.view = some v) (hr : (req v).fault v = none) (hb : body v = .error f) :
    instr s req body = .next (park s v f 0 []) := by
  simp [instr, hv, hr, hb]

theorem instr_fault {s : State} {v : View} {req : View → Req} {body : View → Except Flt State} {c : FaultCode}
    (hv : s.view = some v) (hr : (req v).fault v = some c) : instr s req body = .next (park s v { code := c } 0 []) := by
  simp [instr, hv, hr]

/-- An instruction takes a fault with nothing else done, or has its effect. -/
theorem instr_cases {s u : State} {v : View} {req : View → Req} {body : View → Except Flt State} (hv : s.view = some v)
    (h : instr s req body = .next u) : (∃ f, u = park s v f 0 []) ∨ ((req v).fault v = none ∧ body v = .ok u) := by
  simp only [instr, hv] at h
  split at h
  · exact .inl ⟨_, by simpa using h.symm⟩
  · rename_i hr
    split at h
    · rename_i hb
      exact .inr ⟨hr, by simpa using (by simpa using h) ▸ hb⟩
    · exact .inl ⟨_, by simpa using h.symm⟩

/-! ### Teams and contexts -/

@[simp] theorem Team.setCtx_ref (t : Team) (k : CtxKind) (c : Ctx) : (t.setCtx k c).ref = t.ref := by cases k <;> rfl
@[simp] theorem Team.setCtx_v (t : Team) (k : CtxKind) (c : Ctx) : (t.setCtx k c).v = t.v := by cases k <;> rfl
@[simp] theorem Team.setCtx_k (t : Team) (k : CtxKind) (c : Ctx) : (t.setCtx k c).k = t.k := by cases k <;> rfl
@[simp] theorem Team.setCtx_live (t : Team) (k : CtxKind) (c : Ctx) : (t.setCtx k c).live = t.live := by cases k <;> rfl
@[simp] theorem Team.setCtx_slot (t : Team) (k : CtxKind) (c : Ctx) : (t.setCtx k c).slot = t.slot := by cases k <;> rfl
@[simp] theorem Team.setCtx_stash (t : Team) (k : CtxKind) (c : Ctx) : (t.setCtx k c).stash = t.stash := by cases k <;> rfl
@[simp] theorem Team.setCtx_queues (t : Team) (k : CtxKind) (c : Ctx) : (t.setCtx k c).queues = t.queues := by
  cases k <;> rfl
@[simp] theorem Team.setCtx_tiles (t : Team) (k : CtxKind) (c : Ctx) : (t.setCtx k c).tiles = t.tiles := by cases k <;> rfl
@[simp] theorem Team.setCtx_regions (t : Team) (k : CtxKind) (c : Ctx) : (t.setCtx k c).regions = t.regions := by
  cases k <;> rfl
@[simp] theorem Team.ctx?_setCtx (t : Team) (k : CtxKind) (c : Ctx) : (t.setCtx k c).ctx? k = some c := by cases k <;> rfl
@[simp] theorem Team.setCtx_setCtx (t : Team) (k : CtxKind) (c d : Ctx) : (t.setCtx k c).setCtx k d = t.setCtx k d := by
  cases k <;> rfl

/-- Putting a context back where it was changes nothing. -/
theorem Team.setCtx_self {t : Team} {k : CtxKind} {c : Ctx} (h : t.ctx? k = some c) : t.setCtx k c = t := by
  cases k <;> simp_all [Team.ctx?, Team.setCtx] <;> cases t <;> simp_all

/-- What a view shows: the team of the current slot, and its context. -/
theorem State.view_spec {s : State} {v : View} (h : s.view = some v) :
    s.team? s.cur.ref = some v.team ∧ v.team.ctx? v.kind = some v.ctx ∧ v.kind = s.cur.kind ∧ v.team.ref = s.cur.ref := by
  unfold State.view at h
  split at h
  · simp at h
  · rename_i t ht
    obtain ⟨c, hc, rfl⟩ := Option.map_eq_some_iff.1 h
    exact ⟨ht, hc, rfl, by simpa using List.find?_some ht⟩

/-- A team of another slot is as it was after a team was replaced. -/
theorem State.team?_putTeam_ne {s : State} {t : Team} {r : TeamRef} (h : r ≠ t.ref) : (s.putTeam t).team? r = s.team? r := by
  simp only [State.team?, State.putTeam]
  generalize s.teams = l
  induction l with
  | nil => rfl
  | cons x xs ih =>
    by_cases hx : x.ref = t.ref
    · have h' : ¬ t.ref = r := fun e => h e.symm
      simp [hx, h', ih]
    · simp only [List.map_cons, hx, if_false, List.find?_cons, ih]

/-- The replaced team stands in its slot. -/
theorem State.team?_putTeam_self {s : State} {t t' : Team} (h : s.team? t.ref = some t') : (s.putTeam t).team? t.ref = some t := by
  simp only [State.team?, State.putTeam] at h ⊢
  generalize s.teams = l at h ⊢
  induction l with
  | nil => simp at h
  | cons x xs ih =>
    by_cases hx : x.ref = t.ref
    · simp [hx]
    · simp only [List.find?_cons, hx, decide_false] at h
      simp [hx, ih h]

/-! ### Completion -/

/-- The executing context after it has retired. -/
theorem State.view_retire {s : State} {v : View} {t : Team} {c : Ctx} (h : s.view = some v) (ht : t.ref = v.team.ref) :
    (s.retire v t c).view = some { team := ({ t with progress := s.time }).setCtx v.kind c, ctx := c, kind := v.kind } := by
  obtain ⟨h1, -, h3, h4⟩ := State.view_spec h
  have hr : (({ t with progress := s.time } : Team).setCtx v.kind c).ref = s.cur.ref := by simp [ht, h4]
  have : (s.retire v t c).team? s.cur.ref = some (({ t with progress := s.time } : Team).setCtx v.kind c) := by
    rw [← hr]
    exact State.team?_putTeam_self (t' := v.team) (by rw [hr]; exact h1)
  simp [State.view, this, ← h3]

/-- Completion changes one team only. -/
theorem State.retire_onlyTeam {s : State} {v : View} {t : Team} {c : Ctx} (ht : t.ref = v.team.ref) :
    OnlyTeam s (s.retire v t c) v.team.ref where
  rest := rfl
  others x hx := State.team?_putTeam_ne (by simpa [ht] using hx)

/-! ### Scalar registers -/

theorem Ctx.getS_zero (c : Ctx) : c.getS 0 = 0 := by simp [Ctx.getS]

theorem Ctx.setS_of_ne (c : Ctx) (d : Fin 64) (x : Word) (h : d ≠ 0) : c.setS d x = { c with s := c.s.set d x } := by
  simp [Ctx.setS, h]

@[simp] theorem Ctx.setS_zero (c : Ctx) (x : Word) : c.setS 0 x = c := by simp [Ctx.setS]

theorem Ctx.getS_setS_self (c : Ctx) (d : Fin 64) (x : Word) (h : d ≠ 0) : (c.setS d x).getS d = x := by
  simp [Ctx.getS, Ctx.setS_of_ne, h]

theorem Ctx.getS_setS_ne (c : Ctx) (d n : Fin 64) (x : Word) (h : n ≠ d) : (c.setS d x).getS n = c.getS n := by
  have hv : d.val ≠ n.val := fun e => h (Fin.ext e.symm)
  by_cases hd : d = 0
  · simp [hd]
  · by_cases hn : n = 0
    · simp [Ctx.getS, hn]
    · rw [Ctx.setS_of_ne _ _ _ hd]
      simp only [Ctx.getS, hn, if_false]
      exact Vector.getElem_set_ne _ _ hv

@[simp] theorem Ctx.advance_pc (c : Ctx) (p : Word) (o : Option Window) : (c.advance p o).pc = p := rfl
@[simp] theorem Ctx.advance_isc (c : Ctx) (p : Word) (o : Option Window) : (c.advance p o).isc = c.isc + 1 := rfl
@[simp] theorem Ctx.advance_s (c : Ctx) (p : Word) (o : Option Window) : (c.advance p o).s = c.s := rfl
@[simp] theorem Ctx.advance_md (c : Ctx) (p : Word) (o : Option Window) : (c.advance p o).md = c.md := rfl
@[simp] theorem Ctx.advance_fpfl (c : Ctx) (p : Word) (o : Option Window) : (c.advance p o).fpfl = c.fpfl := rfl
@[simp] theorem Ctx.advance_run (c : Ctx) (p : Word) (o : Option Window) : (c.advance p o).run = c.run := rfl
@[simp] theorem Ctx.getS_advance (c : Ctx) (p : Word) (o : Option Window) (n : Fin 64) : (c.advance p o).getS n = c.getS n := rfl
@[simp] theorem Ctx.step4_pc (c : Ctx) : c.step4.pc = c.pc + 4 := rfl
@[simp] theorem Ctx.step4_isc (c : Ctx) : c.step4.isc = c.isc + 1 := rfl
@[simp] theorem Ctx.setS_pc (c : Ctx) (d : Fin 64) (x : Word) : (c.setS d x).pc = c.pc := by unfold Ctx.setS; split <;> rfl
@[simp] theorem Ctx.setS_isc (c : Ctx) (d : Fin 64) (x : Word) : (c.setS d x).isc = c.isc := by unfold Ctx.setS; split <;> rfl
@[simp] theorem Ctx.setS_windows (c : Ctx) (d : Fin 64) (x : Word) : (c.setS d x).windows = c.windows := by
  unfold Ctx.setS; split <;> rfl

end Sys2Proof.Machine
end

