-- ==== Sys2Proof/Laws/Memory.lean ====
section
/-! SUPPORT. Laws/Memory.lean: a read after a write, and that every operation on memory keeps its canonical form. -/

namespace Sys2Proof.Machine

/-- Nothing is listed below the start of a canonical list. -/
theorem Memory.get_below {m : Memory} {lo a : Nat} (h : Memory.wfFrom lo m = true) (ha : a < lo) : m.get a = 0 := by
  cases m with
  | nil => rfl
  | cons c r =>
    obtain ⟨b, w⟩ := c
    simp only [Memory.wfFrom, Bool.and_eq_true, decide_eq_true_eq] at h
    have : a ≠ b := by omega
    have : a < b := by omega
    simp [Memory.get, *]

/-- A canonical list from some place on is canonical from every earlier place on. -/
theorem Memory.wfFrom_mono {m : Memory} {lo lo' : Nat} (h : Memory.wfFrom lo m = true) (hl : lo' ≤ lo) :
    Memory.wfFrom lo' m = true := by
  cases m with
  | nil => rfl
  | cons c r =>
    obtain ⟨b, w⟩ := c
    simp only [Memory.wfFrom, Bool.and_eq_true, decide_eq_true_eq] at h ⊢
    exact ⟨⟨by omega, h.1.2⟩, h.2⟩

/-- The head of a canonical list bounds what follows. -/
theorem Memory.wfFrom_cons {b lo : Nat} {w : Byte} {r : Memory} :
    Memory.wfFrom lo ((b, w) :: r) = true ↔ lo ≤ b ∧ w ≠ 0 ∧ Memory.wfFrom (b + 1) r = true := by
  simp [Memory.wfFrom, and_assoc]

/-- Writing a byte keeps the canonical form. -/
theorem Memory.set_wfFrom {m : Memory} {lo a : Nat} {v : Byte} (h : Memory.wfFrom lo m = true) (ha : lo ≤ a) :
    Memory.wfFrom lo (m.set a v) = true := by
  induction m generalizing lo with
  | nil =>
    simp only [Memory.set]
    split
    · rfl
    · simpa [Memory.wfFrom_cons, Memory.wfFrom] using ⟨ha, ‹_›⟩
  | cons c r ih =>
    obtain ⟨b, w⟩ := c
    obtain ⟨hb, hw, hr⟩ := Memory.wfFrom_cons.1 h
    simp only [Memory.set]
    split
    · split
      · exact h
      · exact Memory.wfFrom_cons.2 ⟨ha, ‹_›, Memory.wfFrom_cons.2 ⟨by omega, hw, hr⟩⟩
    · split
      · subst_vars
        split
        · exact Memory.wfFrom_mono hr (by omega)
        · exact Memory.wfFrom_cons.2 ⟨ha, ‹_›, hr⟩
      · exact Memory.wfFrom_cons.2 ⟨hb, hw, ih hr (by omega)⟩

/-- Writing a byte keeps the canonical form. -/
theorem Memory.set_wf {m : Memory} (a : Nat) (v : Byte) (h : m.wf = true) : (m.set a v).wf = true :=
  Memory.set_wfFrom h (Nat.zero_le a)

/-- What a byte reads after a byte was written. -/
theorem Memory.get_set_from {m : Memory} {lo a : Nat} (v : Byte) (b : Nat) (h : Memory.wfFrom lo m = true) :
    (m.set a v).get b = if b = a then v else m.get b := by
  induction m generalizing lo with
  | nil => simp only [Memory.set]; split_ifs <;> simp_all [Memory.get]
  | cons c r ih =>
    obtain ⟨x, w⟩ := c
    obtain ⟨hx, hw, hr⟩ := Memory.wfFrom_cons.1 h
    have low : ∀ y, y ≤ x → Memory.get r y = 0 := fun y hy => Memory.get_below hr (by omega)
    simp only [Memory.set]
    split_ifs <;> (try simp only [Memory.get]) <;> (try split_ifs) <;>
      first
      | rfl
      | omega
      | (subst_vars; first | rfl | omega | exact low _ (by omega))
      | (rw [ih hr]; split_ifs; rfl)

/-- What a byte reads after a byte was written. -/
theorem Memory.get_set {m : Memory} (a : Nat) (v : Byte) (b : Nat) (h : m.wf = true) :
    (m.set a v).get b = if b = a then v else m.get b := Memory.get_set_from v b h

/-- Writing bytes keeps the canonical form. -/
theorem Memory.setN_wf {m : Memory} (a : Nat) (bs : List Byte) (h : m.wf = true) : (m.setN a bs).wf = true := by
  induction bs generalizing m a with
  | nil => exact h
  | cons b r ih => exact ih (a + 1) (Memory.set_wf a b h)

/-- Writing cells keeps the canonical form. -/
theorem Memory.setCells_wf {m : Memory} (cs : List Host.Cell) (h : m.wf = true) : (m.setCells cs).wf = true := by
  induction cs generalizing m with
  | nil => exact h
  | cons c r ih => obtain ⟨a, b⟩ := c; exact ih (Memory.set_wf a b h)

/-- Dropping cells keeps the canonical form. -/
theorem Memory.filter_wfFrom {m : Memory} {lo : Nat} (p : Host.Cell → Bool) (h : Memory.wfFrom lo m = true) :
    Memory.wfFrom lo (m.filter p) = true := by
  induction m generalizing lo with
  | nil => rfl
  | cons c r ih =>
    obtain ⟨b, w⟩ := c
    obtain ⟨hb, hw, hr⟩ := Memory.wfFrom_cons.1 h
    rw [List.filter_cons]
    split
    · exact Memory.wfFrom_cons.2 ⟨hb, hw, ih hr⟩
    · exact ih (Memory.wfFrom_mono hr (by omega))

/-- Dropping cells keeps the canonical form. -/
theorem Memory.filter_wf {m : Memory} (p : Host.Cell → Bool) (h : m.wf = true) : Memory.wf (m.filter p) = true :=
  Memory.filter_wfFrom p h

/-- Clearing a range keeps the canonical form. -/
theorem Memory.clear_wf {m : Memory} (lo hi : Nat) (h : m.wf = true) : (m.clear lo hi).wf = true := Memory.filter_wf _ h

/-- What a byte reads after bytes were written. -/
theorem Memory.get_setN {m : Memory} (a : Nat) (bs : List Byte) (b : Nat) (h : m.wf = true) :
    (m.setN a bs).get b = if a ≤ b ∧ b < a + bs.length then bs.getD (b - a) 0 else m.get b := by
  induction bs generalizing m a with
  | nil => simp only [Memory.setN, List.length_nil]; rw [if_neg (by omega)]
  | cons x r ih =>
    rw [Memory.setN, ih (a + 1) (Memory.set_wf a x h), Memory.get_set a x b h]
    by_cases h1 : b = a
    · subst h1; simp
    · by_cases h2 : a + 1 ≤ b ∧ b < a + 1 + r.length
      · have h3 : a ≤ b ∧ b < a + (x :: r).length := by simp; omega
        rw [if_pos h2, if_pos h3]
        obtain ⟨k, rfl⟩ := Nat.exists_eq_add_of_le h2.1
        have : a + 1 + k - a = k + 1 := by omega
        simp [this]
      · have h3 : ¬ (a ≤ b ∧ b < a + (x :: r).length) := by simp; omega
        rw [if_neg h2, if_neg h1, if_neg h3]

end Sys2Proof.Machine
end

