-- ==== Sys2Proof/Laws/Reads.lean ====
section
/-! SUPPORT. Laws/Reads.lean: what the reads of bytes, translations and windows depend on: states that agree on memory, sector
records, windows, the hub and the step number translate alike, and read alike when they agree on the pending writes too. -/

namespace Sys2Proof.Machine

/-- Two states agree on what a read looks up, the pending writes apart. -/
structure SameBase (s u : State) : Prop where
  mem : u.mem = s.mem
  sectors : u.sectors = s.sectors
  hub : u.hub = s.hub
  maps : u.maps = s.maps
  tick : u.tick = s.tick
  teams : ∀ r, (u.team? r).isSome = (s.team? r).isSome

variable {s u : State}

theorem SameBase.sectorRec (h : SameBase s u) (x : Nat) : u.sectorRec x = s.sectorRec x := by
  unfold State.sectorRec
  rw [h.sectors]

theorem SameBase.committed (h : SameBase s u) (pa : Nat) : committed u pa = committed s pa := by
  simp only [Machine.committed, h.sectorRec, h.mem]

theorem SameBase.committedN (h : SameBase s u) (pa n : Nat) : committedN u pa n = committedN s pa n := by
  induction n generalizing pa with
  | zero => rfl
  | succ n ih => simp only [Machine.committedN, h.committed, ih]

theorem SameBase.pte (h : SameBase s u) (die off : Nat) : pte u die off = pte s die off := by
  simp only [Machine.pte, h.committedN]

theorem SameBase.walkFrom (h : SameBase s u) (va level die table : Nat) :
    walkFrom u va level die table = walkFrom s va level die table := by
  induction level generalizing die table with
  | zero => unfold Machine.walkFrom; simp only [h.pte, h.tick]
  | succ n ih => unfold Machine.walkFrom; simp only [h.pte, h.tick, ih]

theorem SameBase.translate (h : SameBase s u) (asid va : Nat) : translate u asid va = translate s asid va := by
  simp only [Machine.translate, h.hub, h.walkFrom]

theorem SameBase.granted (h : SameBase s u) (die off func : Nat) (write : Bool) :
    granted u die off func write = granted s die off func write := by
  simp only [Machine.granted, reservedRange, h.hub]

theorem SameBase.resolve (h : SameBase s u) (asid func : Nat) (n : Need) (va : Word) :
    resolve u asid func n va = resolve s asid func n va := by
  simp only [Machine.resolve, h.translate, h.granted]

theorem SameBase.launch? (h : SameBase s u) (sid : Nat) : u.launch? sid = s.launch? sid := by
  simp only [State.launch?, h.hub]

theorem SameBase.holder (h : SameBase s u) (lv : BitVec 16) : u.holder lv = s.holder lv := by
  simp only [State.holder, h.hub]

theorem SameBase.sees (h : SameBase s u) (w : Who) (lv : BitVec 16) : u.sees w lv = s.sees w lv := by
  simp only [State.sees, h.holder]

theorem SameBase.windowOf (h : SameBase s u) (r : TeamRef) (off : Nat) : u.windowOf r off = s.windowOf r off := by
  simp only [State.windowOf, h.maps, h.teams]

theorem SameBase.stashLoc (h : SameBase s u) (r : TeamRef) (off : Nat) : u.stashLoc r off = s.stashLoc r off := by
  simp only [State.stashLoc, h.windowOf, h.holder, h.resolve]

theorem SameBase.locs (h : SameBase s u) (p : Place) (n : Nat) : u.locs p n = s.locs p n := by
  cases p <;> simp only [State.locs, h.stashLoc]

theorem SameBase.laneBytes (h : SameBase s u) (l : StoreLane) : u.laneBytes l = s.laneBytes l := by
  simp only [State.laneBytes, h.locs]

theorem SameBase.homeByte (h : SameBase s u) (w : Who) (pa : Nat) : u.homeByte w pa = s.homeByte w pa := by
  simp only [State.homeByte, h.sectorRec, h.maps, h.sees, h.committed]

/-- The pending writes a party sees depend on the operations in flight besides. -/
theorem SameBase.pendingSeen (h : SameBase s u) (ho : u.ops = s.ops) (w : Who) : u.pendingSeen w = s.pendingSeen w := by
  simp only [State.pendingSeen, h.sees, ho]

theorem SameBase.pendingByte (h : SameBase s u) {w : Who} (hp : u.pendingSeen w = s.pendingSeen w) (x : Loc) :
    u.pendingByte w x = s.pendingByte w x := by
  have : u.laneBytes = s.laneBytes := funext h.laneBytes
  simp only [State.pendingByte, hp, this]

theorem SameBase.seenByte (h : SameBase s u) {w : Who} (hp : u.pendingSeen w = s.pendingSeen w) (pa : Nat) :
    u.seenByte w pa = s.seenByte w pa := by
  simp only [State.seenByte, h.pendingByte hp, h.homeByte]

theorem SameBase.windowByte (h : SameBase s u) {w : Who} (hp : u.pendingSeen w = s.pendingSeen w) (m : MapEntry) (j : Nat) :
    windowByte u w m j = windowByte s w m j := by
  simp only [Machine.windowByte, h.pendingByte hp]

theorem SameBase.seenStash (h : SameBase s u) {w : Who} (hp : u.pendingSeen w = s.pendingSeen w)
    (hb : ∀ r off, u.stashByte r off = s.stashByte r off) (r : TeamRef) (off : Nat) : u.seenStash w r off = s.seenStash w r off := by
  simp only [State.seenStash, h.pendingByte hp, hb]

theorem SameBase.stashSeen (h : SameBase s u) {w : Who} (hp : u.pendingSeen w = s.pendingSeen w)
    (hb : ∀ r off, u.stashByte r off = s.stashByte r off) (r : TeamRef) (off : Nat) :
    stashSeen u w r off = stashSeen s w r off := by
  simp only [Machine.stashSeen, h.windowOf, h.seenStash hp hb, h.windowByte hp]

/-- States that agree on all that reads look up hold the same bytes for every party. -/
theorem SameBase.sameBytes (h : SameBase s u) (hp : ∀ w, u.pendingSeen w = s.pendingSeen w)
    (hb : ∀ r off, u.stashByte r off = s.stashByte r off) : SameBytes s u :=
  ⟨fun w pa => h.seenByte (hp w) pa, fun w r off => h.stashSeen (hp w) hb r off⟩

/-- A change of one team keeps what reads look up. -/
theorem OnlyTeam.sameBase {r : TeamRef} {t t' : Team} (h : OnlyTeam s u r) (ht : s.team? r = some t) (ht' : u.team? r = some t') :
    SameBase s u := by
  refine ⟨by rw [h.rest], by rw [h.rest], by rw [h.rest], by rw [h.rest], by rw [h.rest], fun x => ?_⟩
  by_cases hx : x = r
  · subst hx; rw [ht, ht']; rfl
  · rw [h.others x hx]

/-- A change of one team that keeps its stash keeps every byte. -/
theorem OnlyTeam.sameBytes {r : TeamRef} {t t' : Team} (h : OnlyTeam s u r) (ht : s.team? r = some t) (ht' : u.team? r = some t')
    (hst : t'.stash = t.stash) : SameBytes s u := by
  have hb := h.sameBase ht ht'
  refine hb.sameBytes (fun w => hb.pendingSeen (by rw [h.rest]) w) (fun x off => ?_)
  have hf : u.former = s.former := by rw [h.rest]
  by_cases hx : x = r
  · subst hx; simp only [State.stashByte, ht, ht', hst]
  · simp only [State.stashByte, h.others x hx, hf]

/-- An instruction that retires with its stash as it was leaves every byte as it was. -/
theorem State.retire_sameBytes {v : View} {t : Team} {c : Ctx} (hv : s.view = some v) (ht : t.ref = v.team.ref)
    (hst : t.stash = v.team.stash) : SameBytes s (s.retire v t c) := by
  obtain ⟨h1, -, -, h4⟩ := State.view_spec hv
  have h2 := State.view_spec (State.view_retire (s := s) (c := c) hv ht)
  refine (State.retire_onlyTeam (s := s) (c := c) ht).sameBytes (t := v.team) (h4 ▸ h1) (h4 ▸ h2.1) ?_
  simp [hst]

end Sys2Proof.Machine
end

