-- ==== Sys2Proof/Tests/Slice0.lean ====
section
/-! SUPPORT. Tests/Slice0.lean: the encoding's conditions on ill-formed instructions, words written out from the manual's tables, a
state that meets the hypotheses of each statement, and single steps whose results the manual gives. -/

namespace Sys2Proof.Tests

-- The theorems of this file are elaborated one after another: many at once need more memory than the check has.
set_option Elab.async false

open Sys2Proof Sys2Proof.Machine

/-! ### Ill-formed instructions (R162, R168, R171, R204, R237, R283, R289, R291) -/

theorem test_illformed_srd : (Instr.srd 1 0x13).wf = false ∧ (Instr.srd 1 0x20).wf = false ∧ (Instr.srd 1 0x12).wf = true := by decide
theorem test_illformed_swr : (Instr.swr 1 0x17).wf = false ∧ (Instr.swr 1 0x0F).wf = true := by decide
theorem test_illformed_sbfx : (Instr.sbfx 1 63 1).wf = false ∧ (Instr.sbfx 1 63 0).wf = true := by decide
theorem test_illformed_lds : (Instr.lds 1 2 3 false true 3 0).wf = false ∧ (Instr.lds 1 2 3 false false 3 0).wf = true := by decide
theorem test_illformed_ldg : (Instr.ldg 1 2 3 false true 3 0).wf = false ∧ (Instr.ldg 1 2 3 false true 2 0).wf = true := by decide
theorem test_illformed_ldsc : (Instr.ldsc 1 2 3 3 2 0).wf = false ∧ (Instr.ldsc 1 2 3 3 3 0).wf = true := by decide
theorem test_illformed_stsc : (Instr.stsc 1 2 3 3 0 0).wf = false ∧ (Instr.stsc 1 2 3 2 0 0).wf = true := by decide
theorem test_illformed_stmap : (Instr.stmap 61 0).wf = false ∧ (Instr.stmap 60 0).wf = true := by decide
theorem test_illformed_hdef : (Instr.hdef 0 61 0).wf = false ∧ (Instr.hdef 0 60 0).wf = true := by decide
theorem test_illformed_astr : (Instr.astr 0 57).wf = false ∧ (Instr.astr 0 56).wf = true := by decide
theorem test_illformed_epool : (Instr.epool 1 2 63 0).wf = false ∧ (Instr.epool 1 2 62 0).wf = true := by decide

/-! ### A small machine -/

/-- The context that executes in the tests. -/
def ctx0 : Ctx := { Ctx.fresh with pc := 0x10000, rgnpc := 0x10000 }

/-- Its team: 32 lanes, 64 vector registers, 4 queues of 4 entries, 4 tiles, a matrix and an access context. -/
def team0 : Team := { placedTeam 0 with team := ctx0, matrix := some ctx0, access := some ctx0 }

/-- The package with one team, whose context of this kind executes. -/
def st (k : CtxKind) (t : Team) : State :=
  { State.reset.placeWord 32 0 with cur := { ref := { die := 0, core := 0, slot := 0 }, kind := k }, teams := [t] }

/-- The team with its team context changed. -/
def tc (f : Ctx → Ctx) : Team := { team0 with team := f ctx0 }

/-- The view of its team context. -/
def vt (t : Team) : View := { team := t, ctx := t.team, kind := .team }

theorem view_any (s : State) (k : CtxKind) (t : Team) (c : Ctx) (hc : s.cur = { ref := { die := 0, core := 0, slot := 0 }, kind := k })
    (ht : s.teams = [t]) (hr : t.ref = { die := 0, core := 0, slot := 0 }) (hx : t.ctx? k = some c) :
    s.view = some { team := t, ctx := c, kind := k } := by
  simp [State.view, State.team?, hc, ht, hr, hx]

theorem st_view (t : Team) (h : t.ref = { die := 0, core := 0, slot := 0 }) : (st .team t).view = some (vt t) :=
  view_any _ _ _ _ rfl rfl h rfl

theorem st_view_matrix (t : Team) (c : Ctx) (h : t.ref = { die := 0, core := 0, slot := 0 }) (hc : t.matrix = some c) :
    (st .matrix t).view = some { team := t, ctx := c, kind := .matrix } := view_any _ _ _ _ rfl rfl h hc

theorem st_view_access (t : Team) (c : Ctx) (h : t.ref = { die := 0, core := 0, slot := 0 }) (hc : t.access = some c) :
    (st .access t).view = some { team := t, ctx := c, kind := .access } := view_any _ _ _ _ rfl rfl h hc

/-- A window with some registers pending. -/
def pending (ns : List RegName) (c : Ctx) : Ctx := { c with windows := [{ op := 7, left := 2, names := ns }] }

/-! ### States that meet the hypotheses -/

theorem witness_NopOnlyAdvances : (st .team team0).view = some (vt team0) := st_view _ rfl

theorem witness_BraAndCallJump : Ready (st .team team0) (vt team0) [.s 62] := ⟨st_view _ rfl, by decide⟩

theorem witness_BranchesAndReturnsDecide :
    (Ready (st .team (tc (fun c => c.setS 5 0x20002))) (vt (tc (fun c => c.setS 5 0x20002))) [.s 5] ∧
      ((tc (fun c => c.setS 5 0x20002)).team.getS 5) &&& 3 ≠ 0) ∧
    (Ready (st .team (tc (fun c => c.setS 5 0x20004))) (vt (tc (fun c => c.setS 5 0x20004))) [.s 5] ∧
      ((tc (fun c => c.setS 5 0x20004)).team.getS 5) &&& 3 = 0) ∧
    LaneReady (st .team team0) (vt team0) [.k 3] ∧ inMask (vt team0).eff 0 = true ∧ inMask team0.k[3] 0 = false :=
  ⟨⟨⟨st_view _ rfl, by decide⟩, by decide⟩, ⟨⟨st_view _ rfl, by decide⟩, by decide⟩, ⟨⟨st_view _ rfl, by decide⟩, rfl⟩, by decide +kernel⟩

theorem witness_ModevJudgesItsValue :
    lookaheadHit (pending [.s 5] ctx0).windows [.s 5] = true ∧ lookaheadHit ctx0.windows [.s 5] = false ∧
    (ctx0.setS 5 0x4000000).getS 5 >>> 26 ≠ 0 ∧ ((ctx0.setS 5 0x20000).getS 5) >>> 17 ≠ 0 ∧
    ((ctx0.setS 5 0x1FFFF).getS 5) >>> 26 = 0 ∧ ((ctx0.setS 5 0x1FFFF).getS 5) >>> 17 = 0 ∧
    (st .team (tc (fun c => c.setS 5 0x1FFFF))).view = some (vt (tc (fun c => c.setS 5 0x1FFFF))) :=
  ⟨by decide, by decide, by decide, by decide, by decide, by decide, st_view _ rfl⟩

theorem witness_ModeAndRegionMarks : Ready (st .team team0) (vt team0) [.s 3] ∧
    (st .matrix team0).view = some { team := team0, ctx := ctx0, kind := .matrix } :=
  ⟨⟨st_view _ rfl, by decide⟩, st_view_matrix _ _ rfl rfl⟩

/-- A load of another register, in flight. -/
def loadOp (id : Nat) (k : CtxKind) : Op :=
  { id := id, own := { ref := { die := 0, core := 0, slot := 0 }, kind := k }, lv := 1, path := some .load, kind := .value 9 [], done := false }

theorem test_step_runs_a_row : ((State.reset.withFetchWord 32 0x18000000).agenda = [.issue { ref := { die := 0, core := 0, slot := 0 }, kind := .team }]) :=
  rfl

theorem witness_SpecialRegistersReadAndWritten :
    (Ready (st .team team0) (vt team0) [.s 3, .s 5] ∧ (st .team team0).launch? team0.launch = some placedLaunch ∧
      flagsSettled (st .team team0) (vt team0) = true ∧ LaneReady (st .team team0) (vt team0) [.v 2] ∧
      team0.vOk false 2 = true) ∧
    (let t := tc (fun c => c.setS 5 0x3F)
     let s := { st .team t with ops := [{ loadOp 3 .team with kind := .fetch 0 0 0 0 [] }] }
     Ready s (vt t) [.s 5] ∧ t.team.getS 5 >>> 6 = 0 ∧ flagsSettled s (vt t) = false) ∧
    ((ctx0.setS 5 0x40).getS 5 >>> 6 ≠ 0) ∧
    (let x := (st .team team0).die 0
     1 ≤ x.cols.length ∧ x.cols.length ≤ 8 ∧ 1 ≤ x.rows.length ∧ coreNow x 0 = some 0 ∧ coreNow { x with cols := [1] } 0 = none) ∧
    ((st .team team0).hub.perfSel[(7 : Fin 8)].toNat = 0) :=
  ⟨⟨⟨st_view _ rfl, by decide⟩, rfl, by decide, ⟨⟨st_view _ rfl, by decide⟩, rfl⟩, by decide⟩, ⟨⟨view_any _ _ _ _ rfl rfl rfl rfl, by decide⟩, by decide, by decide⟩,
    by decide, by decide, by decide⟩

/-- The team with one lane left. -/
def team1 : Team := { team0 with live := 1 }

theorem witness_ExitAndEnd :
    (LaneReady (st .team team0) (vt team0) [.k 0] ∧ team0.live &&& ~~~ (vt team0).eff = 0) ∧
    (let t := { team0 with k := team0.k.set 0 1 }
     LaneReady (st .team t) (vt t) [.k 0] ∧ t.live &&& ~~~ (vt t).eff ≠ 0) ∧
    (st .access team0).view = some { team := team0, ctx := ctx0, kind := .access } :=
  ⟨⟨⟨⟨st_view _ rfl, by decide⟩, rfl⟩, by decide +kernel⟩, ⟨⟨⟨st_view _ rfl, by decide⟩, rfl⟩, by decide +kernel⟩,
    st_view_access _ _ rfl rfl⟩

theorem witness_FaultKeepsTheState : (st .team team0).view = some (vt team0) ∧
    (st .access team0).view = some { team := team0, ctx := ctx0, kind := .access } := ⟨st_view _ rfl, st_view_access _ _ rfl rfl⟩

theorem witness_ParkRecords :
    ((st .team team0).view = some (vt team0) ∧ (st .team team0).launch? team0.launch = some placedLaunch ∧
      placedLaunch.st = .running ∧ canonical 0x10000 = true ∧ canonical 0x0100000000000000 = false) ∧
    ((st .team team0).alarm.levelOf 6 = 0 ∧ ({ Alarm.reset with cfg := 0x3000 } : Alarm).levelOf 6 = 3) ∧
    (∃ r : ParkRec, r.code < 256 ∧ r.ctx < 4 ∧ r.core < 64 ∧ r.team < 2 ^ 32 ∧ r.lane < 65536 ∧ r.die < 8 ∧ r.ss.length ≤ 8) :=
  ⟨⟨st_view _ rfl, rfl, rfl, by decide, by decide⟩, by decide,
    { func := 0, sid := 0, lid := 0, tcode := 0, code := 255, ctx := 3, core := 63, team := 2 ^ 32 - 1, lane := 65535, tag := 0
      impl := true, x := false, w := false, svc := true, die := 7, pc := 0, rgnpc := 0, rgncnt := 0, addr := 0, isc := 0
      ss := List.replicate 8 1 }, by decide⟩

theorem witness_IllegalInstructionsFault :
    (st .team team0).view = some (vt team0) ∧
    (st .access team0).view = some { team := team0, ctx := ctx0, kind := .access } ∧
    ((Instr.kclr 1).isEvent = false ∧ (Instr.kclr 1).wf = true ∧ (Instr.kclr 1).runsIn .access = false) ∧
    ((∀ r ∈ [63, 0, 1], r < team0.nv) ∧ (vt (tc (fun c => { c with md := 8 }))).ty = 8 ∧
      lookaheadHit (pending [.v 63] ctx0).windows [.v 63, .v 0, .v 1] = true) ∧ ¬ (64 < team0.nv) :=
  ⟨st_view _ rfl, st_view_access _ _ rfl rfl, by decide, by decide, by decide⟩

theorem witness_ParkingAndResumption :
    Ready (st .team team0) (vt team0) [.s 1, .s 2, .s 3, .s 4, .s 5, .s 6, .s 7, .s 8] ∧
    ({ ctx0 with run := .parkedFault }.run = .parkedFault) ∧ ({ ctx0 with run := .parkedTrap }.run = .parkedTrap) ∧
    ({ ctx0 with run := .parkedBrk }.run = .parkedBrk) := ⟨⟨st_view _ rfl, by decide⟩, rfl, rfl, rfl⟩

theorem witness_ScalarResults : Ready (st .team team0) (vt team0) [.s 0, .s 63, .s 1] ∧
    Ready (st .access team0) { team := team0, ctx := ctx0, kind := .access } [.s 3, .s 1, .s 2] :=
  ⟨⟨st_view _ rfl, by decide⟩, ⟨st_view_access _ _ rfl rfl, by decide⟩⟩

theorem witness_ImmediatesLiteralsFields : Ready (st .team team0) (vt team0) [.s 3, .s 1] ∧ 64 < (1 : Fin 64).val + (63 + 1) ∧
    (0 : Fin 64).val + (63 + 1) ≤ 64 := ⟨⟨st_view _ rfl, by decide⟩, by decide, by decide⟩

theorem witness_ScalarInstructionsFrame : (st .team team0).view = some (vt team0) ∧ (Instr.sadd 3 1 2).scalarDest = some 3 ∧
    (∃ u, exec (.sadd 3 1 2) (st .team team0) = .next u) ∧ (Instr.bra 1).onlyFlow = true ∧
    ∃ u, exec (.bra 1) (st .team team0) = .next u := ⟨st_view _ rfl, rfl, ⟨_, rfl⟩, rfl, ⟨_, rfl⟩⟩

theorem witness_MaskWritesAndReads : Ready (st .team team0) (vt team0) [.k 0, .k 15, .k 1, .s 63, .s 1] ∧
    Ready (st .team team0) (vt team0) [.s 3, .k 0, .s 4] ∧ (vt team0).kind = .team := ⟨⟨st_view _ rfl, by decide⟩, ⟨st_view _ rfl, by decide⟩, rfl⟩

theorem witness_MaskInstructionsFrame : (st .team team0).view = some (vt team0) ∧ (Instr.kand 3 1 2).maskDest = some 3 ∧
    ∃ u, exec (.kand 3 1 2) (st .team team0) = .next u := ⟨st_view _ rfl, rfl, ⟨_, rfl⟩⟩

/-- The team with this MD. -/
def md (x : BitVec 26) : Team := tc (fun c => { c with md := x })

theorem ready (t : Team) (h : t.ref = { die := 0, core := 0, slot := 0 }) (names : List RegName)
    (hw : lookaheadHit t.team.windows names = false) : Ready (st .team t) (vt t) names := ⟨st_view t h, hw⟩

theorem laneReady (t : Team) (h : t.ref = { die := 0, core := 0, slot := 0 }) (names : List RegName) (hw : t.team.windows = []) :
    LaneReady (st .team t) (vt t) names := ⟨⟨st_view t h, by simp [vt, lookaheadHit, hw]⟩, rfl⟩

theorem vready (t : Team) (h : t.ref = { die := 0, core := 0, slot := 0 }) (regs : List (Bool × Nat)) (extra : List RegName)
    (hw : t.team.windows = []) (hv : ∀ p ∈ regs, t.vOk p.1 p.2 = true) : VectorReady (st .team t) (vt t) regs extra :=
  ⟨laneReady t h _ hw, hv⟩

theorem witness_IntegerArithmeticWrapsOrClamps :
    (VectorReady (st .team (md 4)) (vt (md 4)) [((vt (md 4)).wide, 63), ((vt (md 4)).wide, 0), ((vt (md 4)).wide, 1), ((vt (md 4)).wide, 2)] [.s 1] ∧
      (vt (md 4)).ty ≤ 7) ∧
    VectorReady (st .team (md 7)) (vt (md 7)) [((vt (md 7)).wide, 62), ((vt (md 7)).wide, 0), ((vt (md 7)).wide, 2), ((vt (md 7)).wide, 4)] [.s 2] ∧
      (vt (md 7)).ty ≤ 7 ∧ (vt (md 7)).wide = true :=
  ⟨⟨vready _ rfl _ _ rfl (by decide), by decide⟩, vready _ rfl _ _ rfl (by decide), by decide, by decide⟩

theorem witness_BitwiseAndRawResults :
    (VectorReady (st .team (md 4)) (vt (md 4)) [((vt (md 4)).wide, 63), ((vt (md 4)).wide, 0), ((vt (md 4)).wide, 1), ((vt (md 4)).wide, 2)] [] ∧
      (vt (md 4)).ty ≤ 7) ∧
    (VectorReady (st .team (md 13)) (vt (md 13)) [((vt (md 13)).wide, 3), ((vt (md 13)).wide, 0), ((vt (md 13)).wide, 1)] [.k 15] ∧
      (vt (md 13)).ty ≤ 14 ∧ (md 13).vOk false 3 = true) ∧
    VectorReady (st .team (md 6)) (vt (md 6)) [((vt (md 6)).wide, 2), ((vt (md 6)).wide, 4)] [] ∧ (vt (md 6)).ty ≤ 7 :=
  ⟨⟨vready _ rfl _ _ rfl (by decide), by decide⟩, ⟨vready _ rfl _ _ rfl (by decide), by decide, by decide⟩, vready _ rfl _ _ rfl (by decide), by decide⟩

theorem witness_ComparesSetMaskBits :
    (VectorReady (st .team (md 4)) (vt (md 4)) [((vt (md 4)).wide, 63), ((vt (md 4)).wide, 0)] [.k 0] ∧ (vt (md 4)).ty ≤ 7 ∧
      floatLayout (md 4).team.md [.plain] = none) ∧
    VectorReady (st .team (md 0xAA)) (vt (md 0xAA)) [((vt (md 0xAA)).wide, 63), ((vt (md 0xAA)).wide, 0)] [.k 0] ∧
      floatLayout (md 0xAA).team.md [.plain] = some .plain :=
  ⟨⟨vready _ rfl _ _ rfl (by decide), by decide, by decide⟩, vready _ rfl _ _ rfl (by decide), by decide⟩

theorem witness_RoundingKeepsRepresentableValues :
    fdecode 8 0x7C00 ≠ .nan ∧ fdecode 12 0x7E ≠ .nan ∧ fdecode 13 0xFC ≠ .nan ∧ 0xFC < 2 ^ typeBits 13 := by decide

theorem witness_VectorInstructionsFrame : (st .team (md 4)).view = some (vt (md 4)) ∧ (Instr.vadd 3 1 2).laneDest 4 = some (false, 3) ∧
    ∃ u, exec (.vadd 3 1 2) (st .team (md 4)) = .next u := ⟨st_view _ rfl, rfl, ⟨_, rfl⟩⟩

theorem witness_FloatArithmetic :
    (VectorReady (st .team (md 0x0A)) (vt (md 0x0A)) (((vt (md 0x0A)).wide, 63) :: srcRegs 0x0A (some .plain) [.vec 0, .vec 1, .acc 2]) [.s 1] ∧
      floatLayout 0x0A [.plain, .packed, .widen] = some .plain ∧ rndOk 0x0A = true) ∧
    (VectorReady (st .team (md 0x88)) (vt (md 0x88)) (((vt (md 0x88)).wide, 63) :: srcRegs 0x88 (some .packed) [.vec 0, .vec 1, .acc 2]) [.s 1] ∧
      floatLayout 0x88 [.plain, .packed, .widen] = some .packed ∧ rndOk 0x88 = true) ∧
    (VectorReady (st .team (md 0x58A)) (vt (md 0x58A)) (((vt (md 0x58A)).wide, 63) :: srcRegs 0x58A (some .widen) [.vec 0, .vec 1, .acc 2]) [.s 1] ∧
      floatLayout 0x58A [.plain, .packed, .widen] = some .widen ∧ rndOk 0x58A = true) ∧
    VectorReady (st .team (md 0x0B)) (vt (md 0x0B)) [((vt (md 0x0B)).wide, 62), ((vt (md 0x0B)).wide, 0), ((vt (md 0x0B)).wide, 2)] [] ∧
      floatLayout 0x0B [.plain, .packed] = some .plain ∧
    ((FVal.fin false 1 0).isReal 1 ∧ (FVal.fin true 1 0).isReal (-1) ∧ (FVal.fin false 0 0).isReal 0) :=
  ⟨⟨vready _ rfl _ _ rfl (by decide), by decide⟩, ⟨vready _ rfl _ _ rfl (by decide), by decide⟩, ⟨vready _ rfl _ _ rfl (by decide), by decide⟩,
    vready _ rfl _ _ rfl (by decide), by decide, by norm_num [FVal.isReal]⟩

theorem witness_Conversions :
    (VectorReady (st .team (md 0x0A)) (vt (md 0x0A)) [(false, 3), ((vt (md 0x0A)).wide, 0)] [] ∧ floatLayout 0x0A [.plain] = some .plain) ∧
    (VectorReady (st .team (md 0xA4)) (vt (md 0xA4)) [((vt (md 0xA4)).wide, 3), (isWide (mdSrct 0xA4), 0)] [] ∧ cvtModeOk 0xA4 = true) ∧
    (VectorReady (st .team (md 0xEA)) (vt (md 0xEA)) [((vt (md 0xEA)).wide, 3), (true, 0)] [] ∧ mdSrct 0xEA = 14 ∧ rndOk 0xEA = true ∧
      isFloatType (vt (md 0xEA)).ty = true) ∧
    VectorReady (st .team (md 0xAE)) (vt (md 0xAE)) [(true, 2), (isWide (mdSrct 0xAE), 0)] [] ∧ (vt (md 0xAE)).ty = 14 ∧
      isFloatType (mdSrct 0xAE) = true ∧ rndOk 0xAE = true ∧ (md 0xAE).v.length = (md 0xAE).nv ∧
      (∀ row ∈ (md 0xAE).v, row.length = (md 0xAE).nl) ∧
    (fdecodeFtz false 8 0x7E00 = .nan ∧ fdecodeFtz false 8 0xFC00 = .inf true ∧ ∃ x : ℝ, (fdecodeFtz false 8 0x3C00).isReal x) ∧
    (let a := List.replicate 32 (FVal.fin false 3 0)
     a.length = 32 ∧ (∀ x ∈ a, ∃ y : ℝ, x.isReal y) ∧ ∃ x ∈ a, ¬ x.isReal 0) ∧
    (let a := List.replicate 32 FVal.nan
     a.length = 32 ∧ ∃ x ∈ a, ∀ y : ℝ, ¬ x.isReal y) ∧
    (let a := List.replicate 32 (FVal.fin false 0 0)
     a.length = 32 ∧ ∀ x ∈ a, x.isReal 0) :=
  ⟨⟨vready _ rfl _ _ rfl (by decide), by decide⟩, ⟨vready _ rfl _ _ rfl (by decide), by decide⟩, ⟨vready _ rfl _ _ rfl (by decide), by decide⟩,
    vready _ rfl _ _ rfl (by decide), by decide, by decide, by decide, by decide, fun _ h => List.eq_of_mem_replicate h ▸ rfl, ⟨rfl, rfl, ⟨_, rfl⟩⟩,
    ⟨rfl, fun _ h => by rw [List.eq_of_mem_replicate h]; exact ⟨_, rfl⟩, _, List.mem_replicate.2 ⟨by decide, rfl⟩, by norm_num [FVal.isReal]⟩,
    ⟨rfl, _, List.mem_replicate.2 ⟨by decide, rfl⟩, fun _ h => h⟩,
    rfl, fun _ h => by rw [List.eq_of_mem_replicate h]; norm_num [FVal.isReal]⟩

theorem witness_SpecialFunctionResults :
    VectorReady (st .team (md 0xAA)) (vt (md 0xAA)) [((vt (md 0xAA)).wide, 63), ((vt (md 0xAA)).wide, 0), ((vt (md 0xAA)).wide, 1)] [] ∧
    (8 ≤ (vt (md 0xAA)).ty ∧ (vt (md 0xAA)).ty ≤ 11 ∧ floatLayout 0xAA [.plain] = some .plain ∧ rndOk 0xAA = true) ∧
    ((FVal.fin false 1 0).isReal 1 ∧ (FVal.fin true 1 0).isReal ((-1 : Int) : ℝ) ∧ (-1 : Int).natAbs < 8192 ∧
      (FVal.fin false 1 (-3)).isReal (2 ^ (-3 : Int)) ∧ (FVal.fin true 1 (-1)).isReal (((-1 : Int) : ℝ) + 1 / 2)) :=
  ⟨vready _ rfl _ _ rfl (by decide), by decide, by norm_num [FVal.isReal]⟩

theorem witness_CrossLaneMoves :
    VectorReady (st .team (md 6)) (vt (md 6)) [((vt (md 6)).wide, 62), ((vt (md 6)).wide, 0), (false, 63)] [.s 63] ∧ (vt (md 6)).ty ≤ 14 :=
  ⟨vready _ rfl _ _ rfl (by decide), by decide⟩

theorem witness_ScansAndLoadBalance :
    (VectorReady (st .team (md 0xA)) (vt (md 0xA)) [((vt (md 0xA)).wide, 63), ((vt (md 0xA)).wide, 0)] [] ∧ scanModeOk 0xA 0 = true) ∧
    (VectorReady (st .team (md 4)) (vt (md 4)) [((vt (md 4)).wide, 63), ((vt (md 4)).wide, 0)] [] ∧ scanModeOk 4 5 = true) ∧
    VectorReady (st .team team0) (vt team0) [(true, 62), (false, 0), (false, 1)] [] ∧
    (∃ r ∈ (vt team0).lanes, 0 + (team0.lane 0 r).toNat ≤ 0) :=
  ⟨⟨vready _ rfl _ _ rfl (by decide), by decide⟩, ⟨vready _ rfl _ _ rfl (by decide), by decide⟩, vready _ rfl _ _ rfl (by decide),
    ⟨0, by decide +kernel, by decide⟩⟩

/-- One lane, with an address in s5. -/
def at5 (x : Word) (f : Team → Team := id) : Team := { f team1 with team := (f team1).team.setS 5 x }

/-- In reset memory no entry is valid. -/
theorem runsAgree_reset : RunsAgree State.reset := by
  intro die table level ix e n h
  have z : e = 0 := by
    have f : ∀ a, committed State.reset a = 0 := fun _ => rfl
    simp only [e, pte, committedN, f]
    rfl
  rw [z] at h
  cases h

theorem witness_AddressTests :
    RunsAgree State.reset ∧
    (let s : State := { st .team team0 with mem := State.reset.mem.setN 0x2038 (bytesOfNat 8 (0x3D + 2 ^ 58)) }
     let e := pte s 0 (0x2000 + 8 * (0x7FFF / 2 ^ (12 + 9 * 0) % 512))
     bitAt e 0 = true ∧ pteLeaf e = true ∧ pteCont e = 1) ∧
    (∃ p, translate (st .team team0) 0 0x20000 = some p) ∧ (∃ i < 7, (0x0100000000000000 : Word).getLsbD (57 + i) ≠ (0x0100000000000000 : Word).getLsbD 56) ∧
    ((st .team team0).launch? team0.launch = some placedLaunch ∧ 4095 + 1 ≤ team0.stashLen ∧ team0.stashLen < 4096 + 1 ∧
      (st .team team0).inWindow team0.ref 4095 1 = false ∧ (st .team team0).maps = [] ∧ 0 < placedLaunch.lrec.cw * placedLaunch.lrec.ch ∧
      (st .team team0).teams.find? (fun m => m.launch == team0.launch && m.cluster == team0.cluster && clrank placedLaunch.lrec m.t == 0) = some team0) ∧
    (VectorReady (st .team (at5 1)) (vt (at5 1)) [(decide (2 ^ 2 = 8), 3), (false, 0)] [.s 5] ∧ 0 ∈ (vt (at5 1)).lanes ∧
      ((at5 1).team.getS 5 + ((at5 1).lane 0 0).zeroExtend 64).toNat % 2 ^ 2 ≠ 0) :=
  ⟨runsAgree_reset, by decide +kernel, ⟨_, rfl⟩, ⟨0, by decide, by decide⟩, ⟨rfl, by decide, by decide, by decide, rfl, by decide, rfl⟩,
    ⟨vready _ rfl _ _ rfl (by decide), by decide +kernel, by decide⟩⟩

/-- Some counter of a path can rise when no operation is in flight. -/
theorem room (k : CtxKind) (t : Team) (v : View) (ps : List Path) : Room (st k t) v ps := by
  intro p _; simp [st, State.placeWord, State.counter]

/-- The core's slot 0, and slot 1 for another team. -/
def r0 : TeamRef := { die := 0, core := 0, slot := 0 }

/-- An entry over the first 256 bytes of the stash, with parameters as `mapTeam` holds them. -/
def map0 (n : Nat) (owner : Option TeamRef) : MapEntry :=
  { die := 0, core := 0, n := n, lv := 1, owner := owner, home := owner, age := 1, m0 := 0x10000000000, m1 := 0x20000, m2 := 256, m3 := 0x10000000000
    secs := [] }

/-- Where no stash window is mapped, an access touches none. -/
theorem roomFor (k : CtxKind) (t : Team) (v : View) (p : Path) (ps : List (Place × Nat)) (h : (st k t).touchedBy ps = []) :
    RoomFor (st k t) v p ps := by
  simp only [RoomFor, h]
  simp [st, State.placeWord, State.counter]

theorem witness_LoadsAndStoresBegin :
    (let t := at5 0x20000
     VectorReady (st .team t) (vt t) [(decide (2 ^ 2 = 8), 3), (false, 0)] [.s 5] ∧ (vt t).lanes ≠ [] ∧ Room (st .team t) (vt t) [.load] ∧
       Room (st .team t) (vt t) [.store] ∧ RoomFor (st .team t) (vt t) .load [(.glob 0x20000 0x20000, 8)] ∧
       RoomFor (st .team t) (vt t) .store [(.glob 0x20000 0x20000, 8)] ∧ t.regions = [] ∧
       (∀ i ∈ (vt t).lanes, globTest (st .team t) t (some i) (t.team.getS 5 + (t.lane 0 i).zeroExtend 64) 4 { r := true } = .ok (.glob 0x20000 0x20000)) ∧
       (∀ i ∈ (vt t).lanes, globTest (st .team t) t (some i) (t.team.getS 5 + (t.lane 0 i).zeroExtend 64) 4 { w := true } = .ok (.glob 0x20000 0x20000)) ∧
       Ready (st .team t) (vt t) [.s 3, .s 5, .s 0] ∧ globTest (st .team t) t none (t.team.getS 5 + t.team.getS 0) 8 { r := true } = .ok (.glob 0x20000 0x20000) ∧
       globTest (st .team t) t none (t.team.getS 5 + t.team.getS 0) 8 { w := true } = .ok (.glob 0x20000 0x20000) ∧
       (t.lane 3 0).toNat + 4 ≤ t.stashLen ∧ (st .team t).inWindow t.ref 0 4 = false ∧
       (st .team t).resolveFor t { r := true } (t.team.getS 5 + (t.lane 0 0).zeroExtend 64) = .ok 0x20000) ∧
    (let t := at5 0x80
     VectorReady (st .team t) (vt t) [(decide (2 ^ 3 = 8), 2), (false, 0)] [.s 5] ∧
       RoomFor (st .team t) (vt t) .load ((vt t).lanes.map (fun _ => (.stash t.ref 0x80, 8))) ∧
       RoomFor (st .team t) (vt t) .store ((vt t).lanes.map (fun _ => (.stash t.ref 0x80, 8))) ∧
       RoomFor (st .team t) (vt t) .load [(.stash t.ref 0x80, 128)] ∧ RoomFor (st .team t) (vt t) .store [(.stash t.ref 0x80, 128)] ∧
       (∀ i ∈ (vt t).lanes, stashTest (st .team t) t (some i) false (t.team.getS 5 + (t.lane 0 i).zeroExtend 64) 8 8 false = .ok (.stash t.ref 0x80)) ∧
       (∀ i ∈ (vt t).lanes, stashTest (st .team t) t (some i) false (t.team.getS 5 + (t.lane 0 i).zeroExtend 64) 8 8 true = .ok (.stash t.ref 0x80)) ∧
       Ready (st .team t) (vt t) [.k 3, .s 5, .s 0] ∧ stashTest (st .team t) t none false (t.team.getS 5 + t.team.getS 0) 128 8 false = .ok (.stash t.ref 0x80) ∧
       stashTest (st .team t) t none false (t.team.getS 5 + t.team.getS 0) 128 8 true = .ok (.stash t.ref 0x80) ∧
       stashTest (st .team t) t none true 0x80000008 8 8 true = .ok (.stash t.ref 8)) ∧
    ((vt { team0 with live := 0 }).lanes = []) ∧
    (Plain (st .team team0) (.stash r0 0x80) 8 ∧ ∃ m, ({ st .team team0 with maps := [map0 5 (some r0)] }).windowOf r0 0xFF = some m) :=
  ⟨⟨vready _ rfl _ _ rfl (by decide), by decide +kernel, room _ _ _ _, room _ _ _ _, roomFor _ _ _ _ _ rfl, roomFor _ _ _ _ _ rfl, rfl, by decide +kernel, by decide +kernel, ready _ rfl _ rfl, by decide +kernel,
      by decide +kernel, by decide +kernel, by decide +kernel, by decide +kernel⟩,
    ⟨vready _ rfl _ _ rfl (by decide), roomFor _ _ _ _ _ (by decide +kernel), roomFor _ _ _ _ _ (by decide +kernel), roomFor _ _ _ _ _ (by decide +kernel),
      roomFor _ _ _ _ _ (by decide +kernel), by decide +kernel, by decide +kernel, ready _ rfl _ rfl, by decide +kernel, by decide +kernel, by decide +kernel⟩,
    by decide +kernel, rfl, ⟨_, rfl⟩⟩

theorem witness_MemoryInstructionsFrame : (st .team (at5 0x20000)).view = some (vt (at5 0x20000)) ∧ (vt (at5 0x20000)).team.regions = [] ∧
    ∃ u, exec (.stsc 3 5 0 0 2 0) (st .team (at5 0x20000)) = .next u := ⟨st_view _ rfl, rfl, ⟨_, rfl⟩⟩

/-- The package of `st` with every engine allowed to function 0. -/
def stE (t : Team) : State := let s := st .team t; { s with hub := { s.hub with engMask := [(0, 15)] } }

/-- GO of COPY, 256 bytes from the own stash to global memory, with its arguments. -/
def goTeam : Team :=
  { at5 0x20 with args := team0.args.set 0 #v[0x20000, 0, 0x100, 0], team := ((at5 0x20).team.setS 3 0x10001) }

theorem witness_EngineWindowAccesses :
    (Ready (stE (at5 8)) (vt (at5 8)) [.s 3, .s 5, .s 0] ∧ ((at5 8).team.getS 5 + (at5 8).team.getS 0).toNat = 256 * 0 + 8 * 1 ∧
      (stE (at5 8)).engineAllowed (at5 8) 0 = true) ∧
    (Ready (stE goTeam) (vt goTeam) [.s 3, .s 5, .s 0] ∧ (goTeam.team.getS 5 + goTeam.team.getS 0).toNat = 256 * 0 + 0x20 ∧
      goOk goTeam 0 (goTeam.team.getS 3).toNat goTeam.args[0] goTeam.team.md = true ∧ (stE goTeam).engineAllowed goTeam 0 = true ∧
      goOk goTeam 0 0 goTeam.args[0] goTeam.team.md = false ∧ Room (stE goTeam) (vt goTeam) [.engine]) ∧
    1024 ≤ (0x400 : Word).toNat ∧ 0x20 < (0x28 : Word).toNat % 256 :=
  ⟨⟨⟨view_any _ _ _ _ rfl rfl rfl rfl, by decide⟩, by decide, by decide⟩,
    ⟨⟨view_any _ _ _ _ rfl rfl rfl rfl, by decide⟩, by decide, by decide, by decide, by decide, by
      intro p _; simp [stE, st, State.placeWord, State.counter]⟩, by decide, by decide⟩

/-- s8 to s11 hold its parameters: 256 bytes at 0, one column of 256 bytes, the widest. -/
def mapTeam : Team :=
  tc (fun c => (((c.setS 8 0x10000000000).setS 9 0x20000).setS 10 256).setS 11 0x10000000000)

/-- An operation of the team in flight, and the package with it. -/
def op3 (p : Path) (k : OpKind) : Op := { id := 3, own := { ref := r0, kind := .team }, lv := 1, path := some p, kind := k, done := false }
def flight (p : Path) (k : OpKind) : State := { st .team team1 with ops := [op3 p k], maps := [map0 5 (some r0)] }

/-- The parties: the team's context, and a core. -/
def who0 : Who := { launch := some placedLaunch, die := some 0, core := some 0 }

/-- One lane's accesses. -/
def stashLoad : LoadLane := { lane := 0, place := .stash r0 0x200, n := 4, val := none }
def globLoad : LoadLane := { lane := 0, place := .glob 0x20000 0x20000, n := 4, val := none }
def stashStore : StoreLane := { lane := 0, place := .stash r0 0x200, bytes := [1, 2, 3, 4], stage := .issued }
def globStore : StoreLane := { lane := 0, place := .glob 0x20000 0x20000, bytes := [1, 2, 3, 4], stage := .issued }
def fillPas : List Nat := (List.range 64).map (0x20000 + ·)
def ldgs0 : LdgsLane := { lane := 0, va := 0x20000, pa := 0x20000, off := 0x200, n := 8 }

/-- A window sector over the first 64 bytes of `map0`, byte 0 of it dirty, and a window of it at another address. -/
def dirtySec : WinSector := { ix := 0, st := .M, pas := fillPas, bytes := List.replicate 64 7, dirty := 1 }
def dirtyMap (m1 : Word) : MapEntry := { map0 5 (some r0) with m1 := m1, secs := [dirtySec] }

theorem witness_WindowMappings :
    (Ready (st .team mapTeam) (vt mapTeam) ((List.range 4).map (fun i => .s ((8 : Fin 64).val + i))) ∧ (8 : Fin 64).val ≤ 60 ∧
      (let m := fun i => (mapTeam.team.getSN (8 + i)).toNat
       m 0 / 2 ^ 32 = 256 ∧ m 0 % 2 ^ 32 + 256 ≤ mapTeam.stashLen ∧ m 2 < 2 ^ 40 ∧ m 3 < 2 ^ 41 ∧ m 3 / 2 ^ 32 = 256 ∧ 256 ≤ m 2) ∧
      (st .team mapTeam).map? 0 0 1 5 = none ∧ stashBusy (st .team mapTeam) (vt mapTeam).ref 0 256 = false ∧
      Room (st .team mapTeam) (vt mapTeam) [.store] ∧ Room (st .team mapTeam) (vt mapTeam) [.fill]) ∧
    ({ st .team mapTeam with maps := [map0 5 (some r0)] }.map? 0 0 1 5 = some (map0 5 (some r0)) ∧
      mapBusy { st .team mapTeam with maps := [map0 5 (some r0)] } (vt mapTeam).ref (map0 5 (some r0)) = false) ∧
    (({ st .team mapTeam with maps := [map0 5 (some { r0 with slot := 1 })] }.map? 0 0 1 5).bind (·.owner)) = some { r0 with slot := 1 } ∧
    4 ≤ (([1, 2, 3, 4].map (fun n => { map0 n (some r0) with m0 := 0x10000000100 })).filter
      (fun x => x.woff + x.len ≤ 0 || 0 + 256 ≤ x.woff)).length ∧
    (backFlt (st .team mapTeam) [dirtyMap 0x10000000000] ≠ none ∧ backFlt (st .team mapTeam) [dirtyMap 0x20000] = none ∧
      stashBusy (flight .load (.load (.vec 2 false true) [stashLoad] false)) (vt mapTeam).ref 0x200 0x300 = true ∧
      mapBusy (flight .load (.load (.vec 2 false true) [{ stashLoad with place := .stash r0 0 }] false)) (vt mapTeam).ref (map0 5 (some r0)) = true ∧
      (reclaimed { st .team mapTeam with maps := (List.range 64).map (fun n => { map0 n none with lv := 2 }) } 0 0 [] none).isSome = true) ∧
    (let s : State := { st .team mapTeam with maps := [dirtyMap 0x20000] }
     (s.holder 1).isSome = true ∧ backFault s (dirtyMap 0x20000) dirtySec = none ∧ fillPas.Nodup ∧
       (∀ pa ∈ fillPas, s.lostHome (pa / 64) = none ∧ (s.sectorRec (pa / 64)).tbytes.wf = true) ∧ s.exact = [] ∧
       fillPas[0]? = some 0x20000 ∧ dirtySec.dirty.getLsbD 0 = true ∧ ∀ m ∈ s.maps, m.same (dirtyMap 0x20000) = true) ∧
    (let s : State := { st .team mapTeam with maps := [map0 5 (some r0)] }
     (prefSectors s mapTeam 0xFF 1).length = 1 ∧ (∃ pas, windowPas s (map0 5 (some r0)) 3 { r := true } = .ok pas) ∧
       (map0 5 (some r0)).sec? 3 = none ∧ s.counter r0 .fill + 1 ≤ 65535) ∧
    mapTeam.stashLen < 4096 + (1 : Word).toNat ∧ 4096 + (0 : Word).toNat ≤ mapTeam.stashLen :=
  ⟨⟨ready _ rfl _ rfl, by decide, by decide, rfl, by decide, room _ _ _ _, room _ _ _ _⟩, ⟨by decide, by decide⟩, by decide, by decide, by decide +kernel,
    ⟨rfl, by decide +kernel, by decide +kernel, by decide +kernel, rfl, rfl, by decide, by decide⟩,
    ⟨by decide +kernel, ⟨_, rfl⟩, by decide, by decide⟩, by decide, by decide⟩

/-- One lane with an address in s5, under this MD. -/
def at5m (x : Word) (m : BitVec 26) : Team := at5 x (fun t => { t with team := { t.team with md := m } })

theorem witness_AtomicInstructions :
    (let t := at5m 0x20000 4
     VectorReady (st .team t) (vt t) [((vt t).wide, 2), ((vt t).wide, 3), (false, 0)] [.s 5] ∧ (∀ names, LaneReady (st .team t) (vt t) names) ∧ 4 ≤ (vt t).ty ∧ (vt t).ty ≤ 7 ∧ (vt t).lanes ≠ [] ∧
       Room (st .team t) (vt t) [.atom] ∧ Room (st .team t) (vt t) [.red] ∧
       (∀ i ∈ (vt t).lanes, globTest (st .team t) t (some i) (t.team.getS 5 + (t.lane 0 i).zeroExtend 64) 4 { r := true, w := true } = .ok (.glob 0x20000 0x20000)) ∧
       (∀ i ∈ (vt t).lanes, globTest (st .team t) t (some i) (t.team.getS 5 + (t.lane 0 i).zeroExtend 64) (typeBits (vt t).ty / 8) { w := true } =
         .ok (.glob 0x20000 0x20000))) ∧
    (let t := at5m 0x20000 7
     VectorReady (st .team t) (vt t) [((vt t).wide, 2), ((vt t).wide, 4), (false, 0)] [.s 5] ∧ (vt t).ty ≤ 7 ∧ (vt t).wide = true) ∧
    (let t := at5m 0x20000 10
     VectorReady (st .team t) (vt t) [((vt t).wide, 2), (false, 0)] [.s 5] ∧ 8 ≤ (vt t).ty ∧ (vt t).ty ≤ 10 ∧ rndOk t.team.md = true) ∧
    (let t := { at5m 0x20000 3 with live := 0 }
     VectorReady (st .team t) (vt t) [((vt t).wide, 2), ((vt t).wide, 3), (false, 0)] [.s 5] ∧ (vt t).ty < 4 ∧ (vt t).lanes = []) ∧
    (2 ^ 64 - 1 < 2 ^ 64) :=
  ⟨⟨vready _ rfl _ _ rfl (by decide), fun _ => laneReady _ rfl _ rfl, by decide, by decide, by decide +kernel, room _ _ _ _, room _ _ _ _,
      by decide +kernel, by decide +kernel⟩,
    ⟨vready _ rfl _ _ rfl (by decide), by decide⟩, ⟨vready _ rfl _ _ rfl (by decide), by decide⟩,
    ⟨vready _ rfl _ _ rfl (by decide), by decide, by decide +kernel⟩, by decide⟩

/-- The one lane has an open region on this line, or on none yet. -/
def regionOn (line : Option Nat) : Team :=
  at5 0x20000 (fun t => { t with regions := [{ lane := 0, line := line, code := 0, reads := [], writes := [(0x20001, 9)] }] })
/-- The line of 0x20000. -/
def regionTeam : Team := regionOn (some 0x200)

theorem witness_RegionInstructions :
    (LaneReady (st .team regionTeam) (vt regionTeam) [.k 3, .v 2] ∧ regionTeam.vOk false 2 = true ∧ (vt regionTeam).lanes = [0] ∧
      (∃ r, regionTeam.region? 0 = some r ∧ r.code = 0 ∧ r.line ≠ none) ∧ Room (st .team regionTeam) (vt regionTeam) [.atom]) ∧
    (∀ line ∈ [none, some 0x200, some 0x201],
      let t := regionOn line
      let s := st .team t
      let x := t.team.getS 5 + (t.lane 1 0).zeroExtend 64
      VectorReady s (vt t) [(decide (2 ^ 2 = 8), 3), (false, 1)] [.s 5] ∧ (vt t).lanes = [0] ∧
        globTest s t (some 0) x (2 ^ 2) { r := true, w := true } = .ok (.glob x.toNat 0x20000) ∧
        (∃ r, t.region? 0 = some r ∧ r.code = 0 ∧ r.line = line) ∧ Room s (vt t) [.store] ∧ Room s (vt t) [.load] ∧
        s.held (vt t).ref s.serial (s.locs (.glob x.toNat 0x20000) 4) = false ∧
        ∃ u, s.readSector (s.whoOf t) placedLaunch (0x20000 / 64) = .ok u) ∧
    (LaneReady (st .team team0) (vt team0) [.k 3, .v 2] ∧ ∀ l ∈ (vt team0).lanes, team0.region? l = none) :=
  ⟨⟨⟨⟨st_view _ rfl, by decide⟩, rfl⟩, by decide, by decide +kernel, ⟨_, rfl, by decide⟩, room _ _ _ _⟩,
    fun line h => ⟨vready _ rfl _ _ rfl (by revert h; revert line; decide), by revert h; revert line; decide +kernel,
      by revert h; revert line; decide +kernel, ⟨_, rfl, rfl, rfl⟩, room _ _ _ _, room _ _ _ _, rfl, ⟨_, rfl⟩⟩,
    ⟨⟨st_view _ rfl, by decide⟩, rfl⟩, fun _ _ => rfl⟩

/-- The team context of slot 0. -/
def c0 : CtxRef := { ref := r0, kind := .team }

theorem witness_FencesAndCounterWaits :
    (let t := tc (fun c => { c with hold := some (.fence true true .system 5) })
     (st .team t).view = some (vt t) ∧ (st .team t).ops = [] ∧
       (∃ o ∈ [loadOp 4 .team], o.done = false ∧ o.id < 5 ∧ o.own.ref = t.ref ∧ o.path = some .load) ∧
       (∃ l ∈ [{ globStore with obs := [(c0, 4)] }], l.observedBy c0 5 = true ∧ l.stage.performedFor .system l.place = false) ∧
       ∃ l ∈ [{ globStore with obs := [(c0, 4)], stage := .performed }], l.observedBy c0 5 = true ∧ l.stage.performedFor .system l.place = true) ∧
    (let t := { team0 with access := some { ctx0 with hold := some (.fence false true .team 5) } }
     (st .access t).view = some { team := t, ctx := { ctx0 with hold := some (.fence false true .team 5) }, kind := .access }) ∧
    Ready (st .team team0) (vt team0) [.s 63] :=
  ⟨⟨st_view _ rfl, rfl, ⟨loadOp 4 .team, by decide⟩, ⟨_, List.mem_singleton_self _, by decide⟩, ⟨_, List.mem_singleton_self _, by decide⟩⟩,
    st_view_access _ _ rfl rfl, ready _ rfl _ rfl⟩

/-- An address in s5 and a value in s6. -/
def xy (x n : Word) : Team := tc (fun c => (c.setS 5 x).setS 6 n)

/-- An arrival at the barrier at 0x40. -/
def arrival0 : Arrival := { id := 3, by_ := { ref := r0, kind := .team }, owner := r0, off := 0x40, path := some .load, upto := 3 }

theorem witness_Barriers :
    (Ready (st .team (xy 0x40 65535)) (vt (xy 0x40 65535)) [.s 5, .s 6] ∧ 0 < ((xy 0x40 65535).team.getS 6).toNat ∧
      ((xy 0x40 65535).team.getS 6).toNat ≤ 65535 ∧ 0x40 + 8 ≤ (xy 0x40 65535).stashLen ∧ (st .team (xy 0x40 65535)).inWindow r0 0x40 1 = false ∧
      (st .team (xy 0x40 65535)).held (vt (xy 0x40 65535)).ref (st .team (xy 0x40 65535)).serial ((List.range 8).map (fun i => .s r0 (0x40 + i))) = false) ∧
    ({ st .team (xy 0x40 1) with maps := [map0 5 (some r0)] }.inWindow r0 0x40 1 = true) ∧
    (Ready (st .team (xy 0x40 0)) (vt (xy 0x40 0)) [.s 5, .s 6] ∧ objectWord (st .team (xy 0x40 0)) r0 0x40 / 2 ^ 32 % 2 = 0) ∧
    (objectWord (st .team (xy 0x40 1)) r0 0x40 / 2 ^ 32 % 2 ≠ ((xy 0x40 1).team.getS 6).toNat) ∧ 65535 < (0x10000 : Word).toNat ∧
    (let s : State := { st .team team0 with arrivals := [arrival0] }
     s.arrivals.find? (fun z => z.id == arrival0.id) = some arrival0 ∧ s.team? arrival0.by_.ref = some team0 ∧
       releaseReady s arrival0.by_ .cluster arrival0.upto = true ∧ s.ops = []) ∧
    (let t := { team0 with cbar := { team0.cbar with isOpen := true, pending := some 3 } }
     (st .team t).view = some (vt t) ∧ t.cbar.isOpen = true ∧ t.cbar.pending = some 3 ∧
       (∃ m ∈ (st .team t).teams, m.launch = t.launch ∧ m.cluster = t.cluster ∧ m.cbar.arrived ≤ t.cbar.passed ∧ m.team.run ≠ .ended) ∧
       (st .team t).hub.saved = []) ∧
    (let m := { team0 with team := { ctx0 with run := .ended }, slot := .draining }
     m.team.run = .ended ∧ m.cbar.pending = none ∧ m.cbar.arrived ≤ team0.cbar.passed) ∧
    (let t := { team0 with cbar := { team0.cbar with isOpen := true, arrived := 1 } }
     ∀ m ∈ (st .team t).teams, m.launch = t.launch → m.cluster = t.cluster → t.cbar.passed < m.cbar.arrived) ∧
    team0.cbar.isOpen = false :=
  ⟨⟨ready _ rfl _ rfl, by decide, by decide, by decide, by decide, by decide⟩, by decide, ⟨ready _ rfl _ rfl, by decide⟩, by decide, by decide,
    ⟨rfl, rfl, by decide, rfl⟩, ⟨st_view _ rfl, rfl, rfl, ⟨_, List.mem_singleton_self _, by decide⟩, rfl⟩, by decide,
    fun m hm _ _ => by rw [List.mem_singleton.1 hm]; decide, rfl⟩

/-- The view of the matrix context of a team. -/
def vmx (t : Team) (c : Ctx) : View := { team := t, ctx := c, kind := .matrix }

/-- The team whose matrix context has this MD, s4 = 0x100 (one row from row 0) and s5 = 0x40. -/
def mxTeam (m : BitVec 26) (tile : Tile) : Team :=
  { team0 with matrix := some (({ ctx0 with md := m }.setS 4 0x100).setS 5 0x40), tiles := List.replicate 4 tile }

/-- Its matrix context. -/
def mxCtx (m : BitVec 26) : Ctx := ({ ctx0 with md := m }.setS 4 0x100).setS 5 0x40

theorem mready (m : BitVec 26) (tile : Tile) (names : List RegName) :
    MatrixReady (st .matrix (mxTeam m tile)) (vmx (mxTeam m tile) (mxCtx m)) names :=
  ⟨⟨st_view_matrix _ _ rfl rfl, rfl⟩, rfl⟩

/-- A tile of exact zeros, and one of a semiring. -/
def tile0 : Tile := .exact (List.replicate 4096 Xa.zero)
def tile1 : Tile := .semi 1 (List.replicate 4096 0)

theorem witness_MatrixInstructions :
    (MatrixReady (st .matrix (mxTeam 0x2AA tile0)) (vmx (mxTeam 0x2AA tile0) (mxCtx 0x2AA))
        (.acc (3 : Fin 4).val :: (fragNames 0 (fragRegs 32 10 (64 * 8)) ++ fragNames 16 (fragRegs 32 10 (64 * 8)))) ∧
      (3 : Fin 4).val < (mxTeam 0x2AA tile0).nacc ∧ tileBusy (st .matrix (mxTeam 0x2AA tile0)) (vmx (mxTeam 0x2AA tile0) (mxCtx 0x2AA)) 3 = false ∧
      pairK (mxSemi 0x2AA) (mxTypeA 0x2AA) (mxTypeB 0x2AA) = some 8 ∧ 48 + fragRegs 32 10 (64 * 8) ≤ (mxTeam 0x2AA tile0).nv ∧
      mxSemi 0x2AA = 0 ∧ tile0.tag = 0 ∧ tile1.tag ≠ 0) ∧
    (pairK (mxSemi 0x200AA) (mxTypeA 0x200AA) (mxTypeB 0x200AA) ≠ none ∧ mxSemi 0x200AA = 1 ∧ tile1.tag = 1) ∧
    (pairK (mxSemi 0x80055) (mxTypeA 0x80055) (mxTypeB 0x80055) = some 8 ∧ mxSemi 0x80055 = 4 ∧ mxSemi 0xA00AA = 5) ∧
    (mxSpat 0x2002AA = 2 ∧ mxK (mxTypeA 0x2002AA) = some 8 ∧ mxSemi 0x2002AA = 0) ∧
    (let t := { mxTeam 0x2AA tile0 with tbs := List.replicate 4 { valid := true, typeA := 10, m := 64, k := 8, spat := 1, words := [], stat := 0 } }
     let y := t.termBuf 0
     y.valid = true ∧ y.typeA = mxTypeA 0x2AA ∧ y.m = mxM 0x2AA ∧ y.k = 8) ∧
    (((mxCtx 0x2AA).getS 4).toNat = 1 * 256 + 0 ∧ mxTypeD 0x2AA ≤ 13 ∧ mxRnd 0x2AA ≤ 5 ∧ 0 + 1 ≤ mxM 0x2AA ∧ ¬ (63 + 2 ≤ mxM 0x2AA)) ∧
    (let t := { mxTeam 0x2AA tile0 with stashLen := 8192 }
     stashTest (st .matrix t) t none false ((mxCtx 0x2AA).getS 5) (1 * 64 * 96) 32 true = .ok (.stash r0 0x40) ∧
     stashTest (st .matrix t) t none false ((mxCtx 0x2AA).getS 5) (1 * 64 * 96) 32 false = .ok (.stash r0 0x40) ∧
     (st .matrix t).touchedBy [(.stash r0 0x40, 1 * 64 * 96)] = []) ∧
    (mxSemi 0x600AA = 3 ∧ mxRnd 0x600AA ≤ 5 ∧ (List.replicate 4096 Xa.zero).length = 4096 ∧ (List.replicate 4096 (0 : Lane)).length = 4096) ∧
    (mxK (mxTypeA 0x2002AA) = some 8 ∧ (List.replicate 512 (0 : Lane)).length = elemWords (mxTypeA 0x2002AA) (mxM 0x2002AA * 8) +
      scaleWords (mxTypeA 0x2002AA) (mxM 0x2002AA * 8)) :=
  ⟨⟨mready _ _ _, by decide, rfl, by decide, by decide, by decide, rfl, by decide⟩, by decide, by decide, by decide, by decide, by decide, by decide +kernel,
    ⟨by decide, by decide, List.length_replicate .., List.length_replicate ..⟩, by decide, by decide +kernel⟩

/-- The view of the access context of a team. -/
def vac (t : Team) (c : Ctx) : View := { team := t, ctx := c, kind := .access }

/-- A stream descriptor in s8 to s15: one entry of 32 lanes of words from 0x20000. -/
def astrCtx : Ctx := (((ctx0.setS 8 0x20000).setS 13 0x0000000100000001).setS 14 0x800000001).setS 15 32

/-- A team whose queue 1 holds this. -/
def queueTeam (q : OpQueue) : Team := { team0 with queues := team0.queues.set 1 q, access := some astrCtx }

theorem witness_QueueInstructions :
    ((1 : Fin 4).val < team0.nq ∧ LaneReady (st .team team0) (vt team0) [.v 3] ∧ team0.vOk false 3 = true ∧ (vt team0).eff ≠ 0 ∧
      (vt { team0 with live := 0 }).eff = 0 ∧ (team0.queue 1).entries = [] ∧ (∃ c, team0.access = some c ∧ c.run ≠ .ended)) ∧
    (let t := queueTeam { entries := [[1]], closed := false, stream := none }
     (t.queue 1).entries = [1] :: [] ∧ (t.queue 1).stream = none) ∧
    (team0.queue 1).stream = none ∧
    Ready (st .team team0) (vt team0) [.s 3] ∧
    (let t := queueTeam { entries := [], closed := false, stream := none }
     let desc := (List.range 8).map (fun i => astrCtx.getSN ((8 : Fin 64).val + i))
     Ready (st .access t) (vac t astrCtx) ((List.range 8).map (fun i => .s ((8 : Fin 64).val + i))) ∧ (8 : Fin 64).val ≤ 56 ∧
       streamFault t desc = none ∧ (t.queue 1).stream = none) ∧
    (let t := queueTeam { entries := [], closed := false, stream := some { desc := [], i0 := 0, i1 := 0, i2 := 0, upto := 0, paused := false } }
     (st .access t).view = some (vac t astrCtx) ∧ (t.queue 1).stream ≠ none) :=
  ⟨⟨by decide, ⟨⟨st_view _ rfl, by decide⟩, rfl⟩, by decide, by decide +kernel, by decide +kernel, rfl, ⟨_, rfl, by decide⟩⟩,
    ⟨rfl, rfl⟩, rfl, ready _ rfl _ rfl, ⟨⟨st_view_access _ _ rfl rfl, by decide⟩, by decide, by decide, rfl⟩, st_view_access _ _ rfl rfl, by decide⟩

/-- A handle on 16 rows of 32 F32 at 0x20000. -/
def handle0 : Handle := { base := 0x20000, rstride := 128, cols := 32, rows := 16, clampZero := false, fmt := 10 }

/-- One lane, handle 1 defined, TYPE F32, s5 = 0x40 and s6 = one pair from column 3. -/
def gatherTeam (n : Word) : Team :=
  { team1 with handles := [(1, handle0)], team := ({ ctx0 with md := 0xA }.setS 5 0x40).setS 6 n }

theorem witness_GatherInstructions :
    (let t := tc (fun c => ((c.setS 8 0x20000).setS 9 128).setS 10 0x2000000010 |>.setS 11 10)
     Ready (st .team t) (vt t) ((List.range 4).map (fun i => .s ((8 : Fin 64).val + i))) ∧ (8 : Fin 64).val ≤ 60 ∧ Room (st .team t) (vt t) [.engine] ∧
       (t.team.getSN 10).toNat % 2 ^ 32 ≠ 0 ∧ (t.team.getSN 10).toNat / 2 ^ 32 ≠ 0 ∧ (t.team.getSN 11).toNat < 32) ∧
    (LaneReady (st .team (gatherTeam 0)) (vt (gatherTeam 0)) (vNames false 2 ++ [.v 4, .v (4 + 1)]) ∧ (vt (gatherTeam 0)).wide = false ∧
      (gatherTeam 0).vOk false 2 = true ∧ fetchModeOk (vt (gatherTeam 0)) 1 = true ∧ (gatherTeam 0).handle? 1 = some handle0 ∧
      (gatherTeam 0).handle? 2 = none ∧
      (∃ el : Nat → FetchEl, ∀ i ∈ (vt (gatherTeam 0)).lanes, fetchTest (st .team (gatherTeam 0)) (gatherTeam 0) handle0 i ((gatherTeam 0).lane 4 i).toInt
        ((gatherTeam 0).lane 5 i).toInt = .ok (el i)) ∧ Room (st .team (gatherTeam 0)) (vt (gatherTeam 0)) [.load]) ∧
    (LaneReady (st .team (gatherTeam 0x300000001)) (vt (gatherTeam 0x300000001)) (vNames false 2 ++ [.s 5, .s (5 + 1)]) ∧
      8 ≤ (vt (gatherTeam 0x300000001)).ty ∧ rndOk 0xA = true ∧ ((gatherTeam 0x300000001).team.getSN 6).toNat / 2 ^ 16 % 2 ^ 16 = 0 ∧
      ((gatherTeam 0x300000001).team.getSN 6).toNat % 2 ^ 16 = 1 ∧
      stashTest (st .team (gatherTeam 0x300000001)) (gatherTeam 0x300000001) none false ((gatherTeam 0x300000001).team.getS 5) 8 8 false = .ok (.stash r0 0x40) ∧
      (st .team (gatherTeam 0x300000001)).held { ref := r0, kind := .team } 0 ((st .team team0).locs (.stash r0 0x40) 8) = false ∧
      (st .team (gatherTeam 0x300000001)).touched r0 0x40 8 = [] ∧
      (let s : State := { st .team (gatherTeam 0x300000001) with maps := [map0 5 (some r0)] }
       ∃ q ∈ s.touched r0 0x40 8, q.1.sec? q.2 = none) ∧
      (∃ el, fetchTest (st .team (gatherTeam 0x300000001)) (gatherTeam 0x300000001) handle0 0 (BitVec.ofNat 32 0).toInt (3 + (0 : Nat)) = .ok el) ∧
      ((gatherTeam 0x10000).team.getSN 6).toNat / 2 ^ 16 % 2 ^ 16 ≠ 0 ∧ ((gatherTeam 0).team.getSN 6).toNat % 2 ^ 16 = 0) ∧
    (VectorReady (st .team team0) (vt team0) [(false, 10), (false, 2), (false, 3)] [] ∧ (vt team0).lanes ≠ [] ∧
      (st .team team0).launch? team0.launch = some placedLaunch) :=
  ⟨⟨ready _ rfl _ rfl, by decide, room _ _ _ _, by decide, by decide, by decide⟩,
    ⟨⟨⟨st_view _ rfl, by decide⟩, rfl⟩, by decide, by decide, by decide, rfl, rfl,
      ⟨fun _ => { zero := false, hi := false, parts := [(0x20000, 0x20000, 4)] }, by decide +kernel⟩, room _ _ _ _⟩,
    ⟨⟨⟨st_view _ rfl, by decide⟩, rfl⟩, by decide, by decide, by decide, by decide, by decide +kernel, by decide +kernel, rfl,
      ⟨_, List.mem_singleton_self _, rfl⟩, ⟨_, rfl⟩, by decide, by decide⟩,
    ⟨vready _ rfl _ _ rfl (by decide), by decide +kernel, rfl⟩⟩

/-! ### Completions -/

theorem ok_of_isOk {ε α : Type} {x : Except ε α} (h : x.isOk = true) : ∃ u, x = .ok u := by
  cases x with
  | ok u => exact ⟨u, rfl⟩
  | error e => cases h

theorem pair_ok {ε α β : Type} {x : Except ε (α × β)} (h : x.isOk = true) : ∃ u b, x = .ok (u, b) :=
  (ok_of_isOk h).elim (fun p hp => ⟨p.1, p.2, hp⟩)

theorem triple_eq {α β γ : Type} {x : α × β × γ} {c : γ} (h : x.2.2 = c) : x = (x.1, x.2.1, c) := by
  rw [← h]

theorem pair_ok_and {ε α β : Type} {x : Except ε (α × β)} (p : α → Prop) [DecidablePred p]
    (h : (match x with | .ok y => decide (p y.1) | .error _ => false) = true) : ∃ u b, x = .ok (u, b) ∧ p u := by
  cases x with
  | ok y => exact ⟨y.1, y.2, rfl, of_decide_eq_true h⟩
  | error e => cases h

theorem witness_LoadsAndStoresComplete :
    ((2 : Fin 64).val < team0.v.length ∧ 31 < (team0.v.getD (2 : Fin 64) []).length ∧ (31 : Nat) < 1024 ∧ 0xFF < 2 ^ (8 * 2 ^ (0 : Fin 3).val) ∧
      team0.ctx? .access = some ctx0 ∧ (flight .load (.load (.vec 2 false true) [stashLoad] false)).flying? 9 = none) ∧
    (let s := flight .load (.load (.vec 2 false true) [stashLoad] false)
     s.flying? 3 = some (op3 .load (.load (.vec 2 false true) [stashLoad] false)) ∧ s.team? r0 = some team1 ∧ s.inWindow r0 0x200 4 = false ∧
       s.held { ref := r0, kind := .team } 3 ((List.range 4).map (fun i => .s r0 (0x200 + i))) = false) ∧
    (let s := flight .load (.load (.vec 2 false true) [globLoad] true)
     s.held { ref := r0, kind := .team } 3 ((List.range 4).map (fun i => .g (0x20000 + i))) = false ∧
       s.whoOp (op3 .load (.load (.vec 2 false true) [globLoad] true)) = who0 ∧ ∃ u, s.readSector who0 placedLaunch (0x20000 / 64) = .ok u) ∧
    (let s := flight .store (.store [stashStore] false [])
     s.inWindow r0 0x200 4 = false ∧ s.held { ref := r0, kind := .team } 3 ((List.range 4).map (fun i => .s r0 (0x200 + i))) = false ∧
       mustFollow s (op3 .store (.store [stashStore] false [])) .issued ((List.range 4).map (fun i => .s r0 (0x200 + i))) = false) ∧
    (let s := flight .store (.store [globStore] true [])
     s.held { ref := r0, kind := .team } 3 ((List.range 4).map (fun i => .g (0x20000 + i))) = false ∧
       mustFollow s (op3 .store (.store [globStore] true [])) .issued ((List.range 4).map (fun i => .g (0x20000 + i))) = false ∧
       s.holdsME 0 0 (0x20000 / 64) = false ∧ ∃ u, s.writeSector who0 placedLaunch (0x20000 / 64) (fun _ _ => false) (fun _ => false) = .ok u) ∧
    (let s : State := { flight .store (.store [globStore] false []) with copies := [{ die := 0, core := some 0, sector := 0x800, st := .E }] }
     s.holdsME 0 0 (0x20000 / 64) = true ∧
       ∃ u, s.writeSector who0 placedLaunch (0x20000 / 64) (fun _ _ => false) (fun c => c.die == 0 && (c.core == some 0 || c.core.isNone)) = .ok u) ∧
    (let s := flight .store (.store [globStore] false [])
     s.storeWaits (op3 .store (.store [globStore] false [])) globStore = false ∧ s.holdsME 0 0 0x800 = false ∧ globStore.stage ≠ .performed ∧
       ∃ u, s.writeSector who0 placedLaunch 0x800 (fun _ _ => false) (fun c => c.die == 0 && (c.core == some 0 || c.core.isNone)) = .ok u) ∧
    (let s := flight .fill (.fill 0 0 5 0 fillPas)
     s.map? 0 0 1 5 = some (map0 5 (some r0)) ∧ (map0 5 (some r0)).sec? 0 = none ∧ s.holder 1 = some placedLaunch ∧
       ∃ u m', eachSector s (fun s x => s.readSector who0 placedLaunch x) ((fillPas.map (· / 64)).dedup) = .ok u ∧ u.map? 0 0 1 5 = some m') ∧
    (let s := flight .fill (.ldgs ldgs0)
     s.held { ref := r0, kind := .team } 3 ((List.range 8).map (fun i => Loc.g (0x20000 + i)) ++ s.locs (.stash r0 0x200) 8) = false ∧
       mustFollow s (op3 .fill (.ldgs ldgs0)) .issued (s.locs (.stash r0 0x200) 8) = false) ∧
    (let m : MapEntry := { map0 5 (some r0) with secs := [{ ix := 0, st := .S, pas := fillPas, bytes := List.replicate 64 0, dirty := 0 }] }
     let s : State := { flight .store (.own 0 0 5 0 []) with maps := [m] }
     s.map? 0 0 1 5 = some m ∧ m.secs.map (s.ownPas m) = [fillPas] ∧ (∀ g ∈ fillPas.map (· / 64), g = 0x800) ∧ 0x800 ∈ fillPas.map (· / 64) ∧
       ∃ u m', s.writeSector who0 placedLaunch 0x800 (fun m' x' => m'.same m && x'.ix == 0) (fun _ => false) = .ok u ∧ u.map? 0 0 1 5 = some m') ∧
    (let el : FetchEl := { zero := false, hi := false, parts := [(0x20000, 0x20000, 4)] }
     let s := flight .load (.fetch 2 10 0xA 0 [(0, el)])
     s.held c0 3 ([el].flatMap FetchEl.locs) = false ∧ ∃ u, eachSector s (fun s x => s.readSector who0 placedLaunch x) [0x800] = .ok u ∧
       u.team? r0 = some team1) ∧
    (mdType 0xA = 10 ∧ mdFtz 0xA = false ∧ mdRnd 0xA ≤ 5 ∧ ∃ x : ℝ, (fdecode 10 0x3F800000).isReal x) :=
  ⟨⟨by decide, by decide, by decide, by decide, rfl, rfl⟩, ⟨rfl, rfl, by decide, by decide⟩, ⟨by decide, rfl, ⟨_, rfl⟩⟩, ⟨by decide, by decide, by decide⟩,
    ⟨by decide, by decide, by decide, ⟨_, rfl⟩⟩, ⟨by decide, ⟨_, rfl⟩⟩, ⟨by decide, by decide, by decide, ⟨_, rfl⟩⟩, ⟨rfl, rfl, rfl, ⟨_, _, rfl, rfl⟩⟩, ⟨by decide, by decide⟩,
    ⟨rfl, rfl, by decide, by decide, ⟨_, _, rfl, rfl⟩⟩, ⟨rfl, ⟨_, rfl, rfl⟩⟩, by decide, by decide, by decide, ⟨_, rfl⟩⟩

def atom0 : AtomLane := { lane := 0, va := 0x20000, pa := 0x20000, a := 1, b := 0, res := none }
def red0 : RedLane := { lane := 0, va := 0x20000, pa := 0x20000, bits := 1 }
def region0 (value : Byte) : LaneRegion := { lane := 0, line := some 0x200, code := 0, reads := [(0x20000, value)], writes := [(0x20004, 7)], va := 0x20000 }

/-- One RED.FADD of 65 lanes, each on a sector of its own that its core holds in U, and the package with it. -/
def reds65 : Op := op3 .red (.red 8 10 0 0 ((List.range 65).map (fun i => { lane := i, va := 0x20000 + 64 * i, pa := 0x20000 + 64 * i, bits := 1 })))
def full65 : State :=
  { st .team team1 with ops := [reds65], copies := (List.range 65).map (fun i => { die := 0, core := some 0, sector := 0x800 + i, st := .U }) }

theorem witness_AtomicsComplete :
    (let s := flight .atom (.atom 12 false 2 [atom0])
     s.flying? 3 = some (op3 .atom (.atom 12 false 2 [atom0])) ∧ s.whoOp (op3 .atom (.atom 12 false 2 [atom0])) = who0 ∧
       s.held c0 3 ((List.range 4).map (fun i => Loc.g (0x20000 + i))) = false ∧
       s.clear who0 c0 3 ((List.range 4).map (fun i => Loc.g (0x20000 + i))) = true ∧
       ∃ u u' t, s.readSector who0 placedLaunch 0x800 = .ok u ∧ u.writeSector who0 placedLaunch 0x800 (fun _ _ => false) (fun _ => false) = .ok u' ∧
         u'.team? r0 = some t) ∧
    (let y : AtomLane := { atom0 with lane := 1, va := 0x200FC, pa := 0x200FC }
     let o := op3 .atom (.atom 12 false 2 [atom0, y])
     ∃ u, eachSector (flight .atom o.kind) (fun s z => atomReady s o false z) [atom0, y] = .ok u ∧ u.team? r0 = some team1) ∧
    (let o := op3 .red (.red 0 4 0 0 [red0])
     let s := flight .red o.kind
     o.path ≠ none ∧ s.l1State 0 0 0x800 = .I ∧ (∃ u, s.grantU who0 placedLaunch 0 0 0x800 = .ok u) ∧
       s.ops.filter (isCoreRed 0 0 0x800) = [o] ∧ redReady s o 4 red0 = true ∧ (∃ u, s.mergeLane o 0 4 0 0 red0 = .ok u) ∧
       (∃ k u, s.holder 1 = some k ∧ s.admitWrite k 0x800 = .ok u)) ∧
    (let o : Op := { op3 .red (.red 0 4 0 0 [red0]) with path := none }
     let s : State := { flight .red o.kind with ops := [o] }
     ∃ u u', s.writeSector who0 placedLaunch 0x800 (fun _ _ => false) (fun _ => false) = .ok u ∧ redReady u o 4 red0 = true ∧
       u.mergeLane o 0 4 0 0 red0 = .ok u') ∧
    (∃ g rest, full65.bufferedSectors 0 0 = g :: rest ∧ rest.length = 64) ∧
    (State.reset.exact.find? (fun y => y.sector = 0x20004 / 64) = none ∧ State.reset.exact.length < 4096 ∧ 0x2003C % (typeBits 10 / 8) = 0 ∧
      ∃ e c, (State.reset.applyRed 1 8 10 0 0 0x20000 0x20000 1).exact.find? (fun y => y.sector = 0x800) = some e ∧
        e.cells.find? (fun y => y.off = 0 && y.ty = 10) = some c) ∧
    (let c := ExCell.start 0 10 0 0x3F800000
     c.ty = 10 ∧ c.nan = false ∧ c.pinf = false ∧ c.ninf = false ∧ ∃ y : ℝ, (fdecode c.ty 0x3F800000).isReal y) ∧
    (let s := flight .atom (.xend 3 2 [{ lane := 0, region := region0 0, res := none }])
     s.held c0 3 [.g 0x20000, .g 0x20004] = false ∧ s.clear who0 c0 3 [.g 0x20000, .g 0x20004] = true ∧
       ∃ u u' t, eachSector s (fun s g => s.readSector who0 placedLaunch g) [0x800] = .ok u ∧ u.homeByte who0 0x20000 = 0 ∧ u.homeByte who0 0x20000 ≠ 1 ∧
         eachSector u (fun s g => s.writeSector who0 placedLaunch g (fun _ _ => false) (fun _ => false)) [0x800] = .ok u' ∧ u'.team? r0 = some t) :=
  ⟨⟨rfl, rfl, by decide, by decide, ⟨_, _, _, rfl, rfl, rfl⟩⟩, ⟨_, rfl, rfl⟩,
    ⟨by decide, by decide, ⟨_, rfl⟩, by decide, by decide, ⟨_, rfl⟩, ⟨_, _, rfl, rfl⟩⟩, ⟨_, _, rfl, by decide +kernel, rfl⟩,
    ⟨0x800, (List.range 64).map (fun i => 0x801 + i), by decide +kernel, by decide⟩,
    ⟨rfl, by decide, by decide, ⟨_, _, rfl, rfl⟩⟩, ⟨rfl, by decide +kernel, by decide +kernel, by decide +kernel, ⟨_, rfl⟩⟩,
    ⟨by decide, by decide, ⟨_, _, _, rfl, by decide +kernel, by decide +kernel, rfl, rfl⟩⟩⟩

/-- A command on an engine, and the package with it. -/
def cmd0 (e code : Nat) (args : Vector Word 4) : Cmd :=
  { id := 0, own := { ref := r0, kind := .team }, lv := 1, engine := e, code := code, opf := 0, dsp := false, ssp := false, rel := none, acq := some .core
    args := args, md := 4, isc := 0, upto := 0, parts := [], writes := [], paused := false, handle := none }
def engineSt (c : Cmd) : State := { st .team team0 with cmds := [c] }

theorem witness_EnginesAndStreams :
    (let c := cmd0 0 1 #v[0x20000, 0x30000, 0x0000000100000001, 0]
     let s := engineSt c
     c.id < s.serial ∧ s.team? c.own.ref = some team0 ∧ s.holder c.lv = some placedLaunch ∧ c.mayRead s = true ∧ s.cmd? 0 0 [1] = some c ∧
       ∃ u b, engineRead s c team0 (some 0) (some 0) (0x20000 + BitVec.ofNat 64 0) 1 = .ok (u, b) ∧ u.resolveFor team0 { w := true } 0x30000 = .ok 0x30000) ∧
    (let s := engineSt (cmd0 0 2 #v[0x20000, 0, 0x0000000100000001, 0])
     (s.cmd? 0 0 [2]).isSome = true ∧ s.resolveFor team0 { w := true } 0x20000 = .ok 0x20000) ∧
    (let s := engineSt (cmd0 2 2 #v[0x20000, 0x30000, 1, 0x100000000])
     (s.cmd? 0 2 [2]).isSome = true ∧ 0 < ((0x100000000 : Word).toNat / 2 ^ 32) * ((1 : Word).toNat % 2 ^ 32)) ∧
    (let c := cmd0 2 1 #v[0x20000, 0x30000, 1, 0]
     let s := engineSt c
     s.cmd? 0 2 [1] = some c ∧ ∃ u x, engineRead s c team0 (some 0) none (0x20000 + BitVec.ofNat 64 0) 4 = .ok (u, x) ∧
       u.resolveFor team0 { w := true } 0x30000 = .ok 0x30000) ∧
    (let c := { cmd0 3 2 #v[0x20000, 0, 0x30000, 1] with md := 10 }
     let s := engineSt c
     s.cmd? 0 3 [2] = some c ∧ ∃ u, mergePart c (mergeCount s (some placedLaunch) 0) team0 s 0 = .ok u [] []) ∧
    (let c := cmd0 1 1 #v[0, 0, 0, 0]
     (engineSt c).cmd? 0 1 [1] = some c ∧ c.rel = none ∧ ∀ x ∈ (engineSt c).cmds, 0 ≤ x.id) ∧
    (let x : Stream := { desc := (List.range 8).map (fun i => astrCtx.getSN (8 + i)), i0 := 0, i1 := 0, i2 := 0, upto := 0, paused := false }
     let t := queueTeam { entries := [], closed := false, stream := some x }
     let s := st .team t
     s.team? r0 = some t ∧ (t.queue 1).stream = some x ∧ opsSettled s (fun y => y == { ref := t.ref, kind := .access }) true true .device x.upto = true ∧
       (t.queue 1).entries.length < t.qdepth ∧ ∃ u y, streamWords t s x (t.nl - x.words.length) = (u, y, none)) ∧
    (queueTeam { entries := [[], [], [], []], closed := false, stream := none }).qdepth ≤ 4 :=
  ⟨⟨by decide, rfl, rfl, by decide, rfl, pair_ok_and (fun u => State.resolveFor u team0 { w := true } 0x30000 = .ok 0x30000) (by decide +kernel)⟩, ⟨rfl, by decide +kernel⟩, ⟨rfl, by decide⟩, ⟨rfl, pair_ok_and (fun u => State.resolveFor u team0 { w := true } 0x30000 = .ok 0x30000) (by decide +kernel)⟩, ⟨rfl, ⟨_, rfl⟩⟩, ⟨rfl, rfl, by decide⟩,
    ⟨rfl, rfl, by decide, by decide, ⟨_, _, triple_eq (by decide +kernel)⟩⟩, by decide⟩

/-- A MERGE of one partial of one element that reads, translates and is admitted; a stream whose first word faults. -/
theorem witness_EnginesAndStreams_merge :
    (let c := { cmd0 3 2 #v[0x20000, 0, 0x30000, 1] with md := 10 }
     match engineRead (engineSt c) c team0 none none 0x20000 4 with
     | .ok (u0, _) =>
       match engineRead u0 c team0 none none 0x30000 96 with
       | .ok (u1, _) =>
         (match u1.resolveFor team0 { w := true } 0x20003 with | .ok p => p == 0x20003 | .error _ => false) && (u1.holder 1).isSome &&
           (u1.writeSector { launch := some placedLaunch, die := none, core := none } placedLaunch 0x800 (fun _ _ => false) (fun _ => false)).isOk
       | .error _ => false
     | .error _ => false) = true ∧
    (let x : Stream := { desc := 0x10000000000 :: (List.range 7).map (fun i => astrCtx.getSN (9 + i)), i0 := 0, i1 := 0, i2 := 0, upto := 0, paused := false }
     let t := queueTeam { entries := [], closed := false, stream := some x }
     match streamWords t (st .team t) x t.nl with | (_, _, some (.faults ..)) => true | _ => false) = true := by decide +kernel

theorem witness_EnginesAndStreams_sides :
    (let c := { cmd0 0 1 #v[0x20, 0x28, 0x0000000100000001, 0] with ssp := true, dsp := true }
     let s := engineSt c
     s.cmd? 0 0 [1] = some c ∧ windowFault s r0 0x20 1 false = none ∧ s.touched r0 0x20 1 = [] ∧ windowFault s r0 0x28 1 true = none) ∧
    (let k : Int := 5
     k < 2 ^ 600 ∧ -(2 : Int) ^ 600 < k ∧ Xa.ofRecord (bytesOfNat 96 5) = { v := BitVec.ofInt 640 k, pinf := false, ninf := false, nan := false }) ∧
    (resolve (engineSt (cmd0 0 2 #v[0, 0, 0, 0])) 0 0 { w := true } 0x10000000000 = .error .pageNotPresent ∧ serviced .pageNotPresent 0x10000000000 = true) :=
  ⟨⟨rfl, by decide, rfl, by decide⟩, by decide +kernel, by decide +kernel⟩

/-! ### The hub and the package -/

/-- A package that has booted with every die, and that holds this launch and these teams. -/
def up (l : Launch) (ts : List Team) : State :=
  let s := st .team team0
  { s with
    teams := ts, hub := { s.hub with launches := [l], spBase := Vector.replicate 8 0x400000000, spSize := Vector.replicate 8 0x1000000 }
    sec := { s.sec with boot := { s.sec.boot with ready := true, dieok := 255, brory := 1 } } }

theorem witness_PlacementAndSlots :
    (let l := { placedLaunch with unplaced := [0] }
     let s := up l []
     s.launch? 0 = some l ∧ l.st = .running ∧ 0 ∈ l.unplaced ∧ l.lrec.dieOf 0 = some 0 ∧ mayStart s l = true ∧ heldBack s l 0 = false ∧ dieServes s 0 = true ∧
       l.lrec.cw = 1 ∧ l.lrec.ch = 1 ∧ rectangle (s.die 0) (l.coreSet 0) 1 1 7 5 = some [47] ∧ [47].Nodup ∧ s.former = [] ∧ s.teams = [] ∧ s.maps = [] ∧
       l.lrec.nl * l.lrec.nv * 4 ≤ 1048576 ∧ l.lrec.stash + l.lrec.nq * l.lrec.qdepth * l.lrec.nl * 4 ≤ 786432 ∧ l.lrec.nacc ≤ 4 ∧ l.args.length ≤ 32) ∧
    (∀ w ∈ [Wait.waitc .load 0, .boundary 9, .vpop 1, .goFull 0, .bwait r0 0x40 true], (up placedLaunch [{ team0 with slot := .waiting w }]).team? r0 =
      some { team0 with slot := .waiting w }) ∧
    ((queueTeam { entries := [[1]], closed := false, stream := none }).queue 1).entries ≠ [] ∧
    ((up placedLaunch [team0]).counter r0 .load ≤ 0 ∧ (up placedLaunch [team0]).written 9 = true ∧ (up placedLaunch [team0]).cmdCount r0 0 < 16 ∧
      phaseOver (up placedLaunch [team0]) r0 0x40 true = true ∧
      clusterMet (up placedLaunch [{ team0 with slot := .waiting .cbarw, cbar := { team0.cbar with isOpen := true, arrived := 1 } }])
        { team0 with slot := .waiting .cbarw, cbar := { team0.cbar with isOpen := true, arrived := 1 } } = true) ∧
    (let s := { up placedLaunch [{ team0 with slot := .ready }] with readyQ := [r0] }
     s.readyQ.find? (fun x => x.die = 0 && x.core = 0) = some r0 ∧ s.teams.countP (fun x => x.ref.die == 0 && x.ref.core == 0 && x.slot == .active) < 8) ∧
    (let s := { up placedLaunch [team0] with readyQ := [{ r0 with slot := 1 }] }
     s.team? r0 = some team0 ∧ team0.slot = .active ∧ ∃ x ∈ s.readyQ, x.die = 0 ∧ x.core = 0) ∧
    (let t := { team0 with slot := .draining, matrix := none, access := some { ctx0 with run := .ended } }
     let s := up placedLaunch [t]
     s.team? r0 = some t ∧ t.cbar.pending = none ∧ stashAwaited s r0 = false ∧ s.ops = [] ∧ s.cmds = [] ∧ s.arrivals = []) :=
  ⟨⟨rfl, rfl, by decide, by decide, by decide, by decide, by decide, rfl, rfl, by decide, by decide, rfl, rfl, rfl, by decide, by decide, by decide, by decide⟩,
    fun _ _ => rfl, by decide, ⟨by decide, by decide, by decide, by decide, by decide⟩, ⟨by decide, by decide⟩, ⟨rfl, rfl, ⟨_, List.mem_singleton_self _, by decide⟩⟩,
    ⟨rfl, rfl, by decide, rfl, rfl, rfl⟩⟩

/-- A tentative sector of the placed launch. -/
def tent0 : SectorRec := { SectorRec.reset 0x800 with tent := true, lv := 1, tbytes := [(0x20000, 5)] }

theorem witness_SegmentsCommit :
    ((up placedLaunch []).launch? 0 = some placedLaunch ∧ 0 ∈ liveDies (up placedLaunch []) ∧ liveDies (up placedLaunch []) = List.range 8) ∧
    (let l := { placedLaunch with doneDies := List.range 8 }
     (up l []).launch? 0 = some l ∧ (∀ d ∈ liveDies (up l []), d ∈ l.doneDies) ∧ (∀ k ∈ (up l []).hub.launches, precedes k l = false)) ∧
    (let l := { placedLaunch with st := .preparing, prepDies := List.range 8, biDies := List.range 8 }
     (up l []).launch? 0 = some l ∧ ∀ d ∈ liveDies (up l []), d ∈ l.prepDies ∧ d ∈ l.biDies) ∧
    (let l := { placedLaunch with st := .preparing, prepDies := [7] }
     (up l []).launch? 0 = some l ∧ 7 ∈ l.prepDies ∧ 7 ∉ l.biDies) ∧
    (let l := { placedLaunch with st := .committing }
     let s := { up l [] with sectors := [tent0] }
     s.launch? 0 = some l ∧ MemoryCanonical s ∧ (s.sectors.map (·.sector)).Nodup ∧ dieOf (64 * tent0.sector) = 0 ∧ (∃ d ∈ liveDies s, d ∉ l.ackDies) ∧
       s.tableUsers [0x800] = [] ∧ dieOf 0x20000 < 8) ∧
    (let l := { placedLaunch with st := .committing }
     let o : Op := { op3 .load (.load (.vec 2 false true) [globLoad] true) with lv := 2 }
     let k := { placedLaunch with sid := 1, adm := 2, lv := 2 }
     let x := up l []
     let s := { x with
       sectors := [{ tent0 with sector := 0x80 }], ops := [o], walks := [{ die := 0, core := some 0, line := 0x20 }]
       hub := { x.hub with launches := [l, k] } }
     s.tableUsers [0x80] ≠ [] ∧ s.awaits l.lv o = false) ∧
    (let l := { placedLaunch with st := .committing, ackDies := List.range 8 }
     (up l []).launch? 0 = some l ∧ (∀ d ∈ liveDies (up l []), d ∈ l.ackDies) ∧ l.tokens = [] ∧ l.written = [] ∧ windlassWaits (up l []) l = false ∧
       l.lrec.nseg ≤ l.seg + 1 ∧ (windlassCommit (up l []) l l.csn l.written []).launch? 0 = some l ∧
       windlassWaits ((windlassCommit (up l []) l l.csn l.written []).putLaunch l) l = false) ∧
    (let l := { placedLaunch with pin := some (3, 0), tokens := [((0, 0), 1)] }
     let s := up l []
     windlassWaits { s with windlass := s.windlass.set (3 : Fin 16) { s.windlass[(3 : Fin 16)] with windowDue := true } } l = true) ∧
    ({ placedLaunch with lrec := { placedRec with nseg := 2 } }.seg + 1 < 2) ∧ placedLaunch.seg < 256 ∧ placedLaunch.rused < 256 :=
  ⟨⟨rfl, by decide, by decide⟩, ⟨rfl, by decide, by decide⟩, ⟨rfl, by decide⟩, ⟨rfl, by decide, by decide⟩,
    ⟨rfl, show Memory.wf _ = true by decide, by decide, by decide, ⟨0, by decide, by decide⟩, rfl, by decide⟩,
    by decide +kernel, ⟨rfl, by decide, rfl, rfl, rfl, by decide, rfl, rfl⟩, by decide, by decide, by decide, by decide⟩

theorem witness_AbortsAndCistern :
    (let l := { placedLaunch with st := .aborting 0x43 }
     let s := { up l [team0] with sectors := [tent0] }
     s.launch? 0 = some l ∧ 3 ∈ liveDies s ∧ 3 ∉ l.ackDies ∧ (s.sectors.map (·.sector)).Nodup) ∧
    (let l := { placedLaunch with st := .aborting 0x42 }
     let x := { placedLaunch with sid := 1, adm := 0, lv := 0, st := .waiting }
     x.sid ≠ l.sid ∧ x.st = .waiting ∧ dependsOn x l = true) ∧
    (let l := { placedLaunch with st := .aborting 0x43, ackDies := List.range 8, retriesLeft := 1 }
     (up l []).launch? 0 = some l ∧ liveDies (up l []) = List.range 8 ∧ (∀ d < 8, d ∈ l.ackDies) ∧ l.killPending = false ∧ l.doomed = false ∧ l.retriesLeft ≠ 0) ∧
    (let s := { up placedLaunch [] with sectors := [tent0] }
     s.sectorRec 0x800 = tent0 ∧ tent0.cis = false ∧ tent0.prep = false ∧ s.holder 1 = some placedLaunch ∧ placedLaunch.lrec.quota = 0 ∧
       0 < s.hub.cisSize[(1 : Fin 8)] / 64 ∧ s.hub.cisSize[Fin.ofNat 8 (dieOf 0x20000)] / 64 ≤ 0) ∧
    (let s := { up placedLaunch [] with sectors := [{ tent0 with sector := 0x900, cis := true }, tent0], dead := [(7, 0xA00)] }
     youngestIn s 0 = some placedLaunch ∧ (s.dead.filter (fun p => dieOf (64 * p.2) = 0)).length = 1) ∧
    ((7 : BitVec 16) ∈ ({ (up placedLaunch []).hub with busyTags := [7] } : Hub).busyTags) ∧
    (let r := { SectorRec.reset 0x800 with comC := true, cbytes := [(0x20000, 5)] }
     let s := { up placedLaunch [] with sectors := [r] }
     (s.sectorRec 0x800).tent = false ∧ MemoryCanonical s) ∧
    (let r := { SectorRec.reset 0x800 with rmk := true, rovf := true, bound := [1, 2] }
     let s := { up placedLaunch [] with sectors := [r] }
     (s.sectorRec 0x800).rovf = true ∧ ∃ l ∈ s.hub.launches, l.isOpen = true ∧ l.lv ∈ (s.sectorRec 0x800).bound) ∧
    (∀ l ∈ (up { placedLaunch with st := .waiting } []).hub.launches, l.isOpen = false) :=
  ⟨⟨rfl, by decide, by decide, by decide⟩, by decide, ⟨rfl, by decide, by decide, rfl, rfl, by decide⟩, ⟨rfl, rfl, rfl, rfl, rfl, by decide, by decide⟩,
    ⟨rfl, by decide⟩, by decide, ⟨rfl, show Memory.wf _ = true by decide⟩,
    ⟨rfl, ⟨_, List.mem_singleton_self _, by decide⟩⟩, by decide⟩

/-- A package whose queue 0, in host memory, holds one entry of these two words. -/
def queued (w arg : Nat) (l : Launch) : State :=
  let s := up l []
  let x : Queue := { Queue.reset with en := true, hostmem := true, log2n := 4, pi := 1 }
  { s with mem := s.mem.setN (hostPa 0) (bytesOfNat 8 w ++ bytesOfNat 8 arg), hub := { s.hub with queues := [(0, x)] } }

/-- A launch record of one team of 32 lanes and 8 registers, with its kernel descriptor at 0x20000 of the device. -/
def recordAt (s : State) (a lid : Nat) : State :=
  let put := fun (m : Memory) (p : Nat × Nat × Nat) => m.setN p.1 (bytesOfNat p.2.1 p.2.2)
  { s with mem := [(hostPa a, 8, 0x20000), (hostPa a + 8, 8, lid), (hostPa a + 0x10, 4, 1), (hostPa a + 0x14, 4, 1), (hostPa a + 0x18, 4, 1),
      (hostPa a + 0x1C, 2, 0x101), (hostPa a + 0x20, 2, 32), (hostPa a + 0x22, 1, 8), (hostPa a + 0x54, 4, 1), (hostPa a + 0xCC, 1, 1),
      (0x20000, 8, 0x14C384B44), (0x20008, 8, 0x100), (0x20020, 4, 0x80020), (0x2002C, 2, 0x101), (0x20030, 4, 0x10)].foldl put s.mem }

theorem witness_WorkQueues :
    (let s := queued 4 0 placedLaunch
     nextQueue s = some 0 ∧ nextEntry s (s.queue 0) = some (4, 0)) ∧
    (let s := queued 3 1 placedLaunch
     nextQueue s = some 0 ∧ nextEntry s (s.queue 0) = some (3, 1) ∧
       s.hub.launches.find? (fun k => k.func = (s.queue 0).func && k.lrec.lid = 1) = some placedLaunch ∧ s.launch? placedLaunch.sid = some placedLaunch) ∧
    (let s := queued 3 2 placedLaunch
     nextEntry s (s.queue 0) = some (3, 2) ∧ ∀ l ∈ s.hub.launches, l.lrec.lid ≠ 2) ∧
    (let s := queued 2 9 placedLaunch
     nextEntry s (s.queue 0) = some (2, 9)) ∧
    (let s := queued 0x200 0 placedLaunch
     nextEntry s (s.queue 0) = some (0x200, 0)) ∧
    (let s := queued 5 0 placedLaunch
     nextEntry s (s.queue 0) = some (5, 0)) ∧
    (let s := queued 257 0x101 placedLaunch
     nextEntry s (s.queue 0) = some (257, 0x101)) ∧
    (let s := queued 1 0x100 placedLaunch
     nextEntry s (s.queue 0) = some (1, 0x100)) ∧
    (let x : Queue := { Queue.reset with en := true, log2n := 4 }
     let s := { up placedLaunch [] with hub := { (up placedLaunch []).hub with queues := [(7, x)] } }
     s.hub.queues.find? (fun y => y.2.en && y.2.func == 0 && y.2.lidx == 0) = some (7, x) ∧ s.sec.boot.ready = true ∧ x.qerr = false ∧
       ((16 : BitVec 32) - x.ci).toNat ≤ 2 ^ x.log2n ∧ 2 ^ x.log2n < ((17 : BitVec 32) - x.ci).toNat) ∧
    (let s := up placedLaunch []
     let v : BitVec 64 := 0x8000000000000010
     bitAt v.toNat 63 = true ∧ (s.queue 8191).en = false ∧ bits v.toNat 22 16 ≤ 64 ∧ bits v.toNat 4 0 = 16 ∧ s.hub.queues = [] ∧
       (assoc s.hub.asids (bits v.toNat 33 24) Asid.reset).func = bits v.toNat 22 16 ∧ 16 < bits (0x8000000000000011 : BitVec 64).toNat 4 0 ∧
       64 < bits (0x8000000000410010 : BitVec 64).toNat 22 16 ∧ bits (0x8000000000000003 : BitVec 64).toNat 4 0 < 4) :=
  ⟨by decide +kernel, ⟨by decide +kernel, by decide +kernel, rfl, rfl⟩, ⟨by decide +kernel, by decide +kernel⟩, by decide +kernel, by decide +kernel,
    by decide +kernel, by decide +kernel, by decide +kernel, ⟨rfl, rfl, rfl, by decide, by decide⟩, by decide +kernel⟩

theorem witness_WorkQueues_launch :
    let s := recordAt (queued 1 0x100 placedLaunch) 0x100 9
    let here : State := { s with hub := { s.hub with served := s.hub.served.set (Fin.ofNat 4 (s.queue 0).qprio) 0 } }
    let b := (cpBytes here true 0 0 0x100 256).getD []
    let d := (cpBytes here false 0 0 (BitVec.ofNat 64 (Machine.fld b 0 8)) 256).getD []
    cpBytes here true 0 0 0x100 256 = some b ∧ cpBytes here false 0 0 (BitVec.ofNat 64 (Machine.fld b 0 8)) 256 = some d ∧
      recordOk here 0 b d = true ∧ (s.stream 0 (recordOfBytes b).stream).failed = false ∧ nextQueue s = some 0 ∧
      nextEntry s (s.queue 0) = some (1, 0x100) := by decide +kernel

theorem witness_LaunchesAdmitted :
    (let l := { placedLaunch with st := .waiting, adm := 0, lv := 0 }
     let s := up l []
     s.launch? 0 = some l ∧ s.sec.boot.ready = true ∧ s.alarm.cpStopped = false ∧ eligible s l = true ∧ admittedFirst s l = true ∧
       s.hub.launches.countP (·.isOpen) < 512 ∧ (5 : BitVec 16) ∉ s.hub.busyTags ∧ (∀ k ∈ s.hub.launches, k.isOpen = false) ∧ s.sectors = [] ∧
       (admissionTests s l).2 = []) ∧
    (let l := { placedLaunch with st := .waiting, adm := 0, lrec := { placedRec with csetp := 0x20000 } }
     (admissionTests (up l []) l).2 ≠ []) ∧
    (let l := { placedLaunch with adm := 0, hostmem := false, lrec := { placedRec with argn := 1, argp := 0x10000000000 } }
     0x42 ∈ (admissionTests (up l []) l).2) ∧
    (placedLaunch.adm ≠ 0 ∧ placedLaunch.pin = none ∧ domainOf (up placedLaunch []) placedLaunch = none) :=
  ⟨⟨rfl, rfl, rfl, by decide, by decide, by decide, by decide, by decide, rfl, by decide +kernel⟩, by decide +kernel, by decide +kernel, by decide, rfl, rfl⟩

/-- A park record of the placed team, and its own function's ring with it held. -/
def park0 : ParkRec :=
  { func := 0, sid := 0, lid := 1, tcode := 0, code := 0x11, ctx := 0, core := 0, team := 0, lane := 65535, tag := 0, impl := true, x := false, w := false
    svc := true, die := 0, pc := 0x10000, rgnpc := 0x10000, rgncnt := 0, addr := 0, isc := 0, ss := [] }

theorem witness_RegisterWrites :
    (up placedLaunch []).sec.boot.ready = true ∧ bitAt (1 : BitVec 64).toNat 0 = true ∧ (∃ i < 8, bits (0 : BitVec 64).toNat (2 * i + 1) (2 * i) < [3, 3, 2, 3, 1, 1, 0, 0].getD i 0) ∧
    (up { placedLaunch with st := .waiting } []).hub.launches.countP (·.isOpen) = 0 ∧ (up placedLaunch []).hub.launches.countP (·.isOpen) ≠ 0 ∧
    (up placedLaunch []).hub.cisBase[(7 : Fin 8)] ≠ bits (0 : BitVec 64).toNat 36 21 * 2097152 ∧ (9 : BitVec 64).toNat % 256 ≤ 9 ∧ 9 < (10 : BitVec 64).toNat % 256 ∧
    (let v : BitVec 64 := 0x800000000000000C
     bitAt v.toNat 63 = true ∧ bits v.toNat 4 0 = 12 ∧ ((up placedLaunch []).func 64).fren = false ∧ ((up placedLaunch []).func 64).held = [] ∧
       ((up placedLaunch []).func 64).rren = false ∧ 12 < bits (0x800000000000000D : BitVec 64).toNat 4 0 ∧ bits (0x8000000000000003 : BitVec 64).toNat 4 0 < 4) ∧
    (let g : FuncRegs := { FuncRegs.reset with fren := true, frlog2n := 4, frpi := 16, frci := 0, held := [park0], rrlog2n := 4 }
     g.held = [park0] ∧ park0.func = 0 ∧ (g.frpi - 1).toNat < 2 ^ g.frlog2n ∧ ((16 : BitVec 32) - g.rrci).toNat ≤ 2 ^ g.rrlog2n ∧
       2 ^ g.rrlog2n < ((17 : BitVec 32) - g.rrci).toNat) := by decide +kernel

theorem witness_AccessesFromOutside :
    (let s := up placedLaunch []
     s.sec.boot.ready = true ∧ s.cxlFenced = false ∧ s.sec.boot.brory ≠ 0 ∧
       (∀ i < 2, 0x2003F + i < 96000000000 ∧ granted s 0 (0x2003F + i) 0 true = true ∧ granted s 0 (0x2003F + i) 0 false = true ∧
         s.lostHome (flat 0 (0x2003F + i) / 64) = none ∧ (s.sectorRec (flat 0 (0x2003F + i) / 64)).prep = false ∧
         (s.sectorRec (flat 0 (0x2003F + i) / 64)).tent = false ∧ (s.sectorRec (flat 0 (0x2003F + i) / 64)).rmk = false ∧
         (s.sectorRec (flat 0 (0x2003F + i) / 64)).rovf = false) ∧ s.tableUsers (outsideSectors s 0 0x2003F 2 true) = [] ∧ MemoryCanonical s ∧ s.maps = []) ∧
    (let o := op3 .load (.load (.vec 2 false true) [globLoad] true)
     let s := { up placedLaunch [] with ops := [o], walks := [{ die := 0, core := some 0, line := 0x20 }] }
     s.tableUsers (outsideSectors s 0 0x2000 8 true) ≠ []) ∧
    (granted (up placedLaunch []) 0 0x40000000 0 true = false ∧ 0x40000000 < 96000000000) ∧
    (let s := { up placedLaunch [] with sectors := [{ tent0 with prep := true }] }
     (s.sectorRec (flat 0 0x20000 / 64)).prep = true ∧ (s.sectorRec (flat 0 0x20000 / 64)).tent = true ∧
       placedLaunch.lv = (s.sectorRec (flat 0 0x20000 / 64)).lv ∧ s.launch? placedLaunch.sid = some placedLaunch ∧ placedLaunch.st = .running) :=
  ⟨⟨rfl, by decide, by decide, by decide +kernel, by decide +kernel, show Memory.wf _ = true by decide, rfl⟩, by decide +kernel, by decide +kernel,
    by decide +kernel, by decide +kernel, by decide +kernel, rfl, rfl⟩

/-- A Windlass domain in force: two slots of one page on dies 0 and 1, version 0, its area at 0x40000 of die 0. -/
def dom0 : Domain :=
  { Domain.reset with
    en := true, maxch := 1, cmax := 2, plead := 1, win := 1, cold := 1, hot := 2, slotsz := 4096, varea := 0x40000, nslot := #v[1, 0, 0, 0, 0, 0, 0, 0]
    store := #v[0x200000, 0x200000, 0x200000, 0x200000, 0x200000, 0x200000, 0x200000, 0x200000], versions := [{ vnum := 0, slot := 0, withdrawn := false }] }

/-- The package with it as domain 0, with entry 0 of version 0 a key with its home replica on die 0. -/
def windy (d : Domain) : State :=
  let s := up placedLaunch []
  { s with
    windlass := Vector.replicate 16 d
    mem := ((s.mem.setN 0x40000 (bytesOfNat 8 (2 ^ 32))).setN 0x41040 (bytesOfNat 8 (2 ^ 62 + 2 ^ 57) ++ bytesOfNat 8 1)).setN 0x41054
      (List.replicate 28 0xFF) }

theorem witness_Windlass :
    (let d := { dom0 with windowDue := true }
     (windy d).windlass[(3 : Fin 16)] = d ∧ d.windowDue = true ∧ d.publishCsn = none ∧ d.pending = [] ∧ d.newest? = some { vnum := 0, slot := 0, withdrawn := false }) ∧
    (let p : Decision := { made := 1, changes := [.grow 0 1 0 none] }
     let d := { dom0 with pending := [p] }
     let s := windy d
     d.pending = p :: [] ∧ d.newest?.isSome = true ∧ p.changes[0]? = some (.grow 0 1 0 none) ∧ d.slotsz = 4096 ∧
       masterPa s d (masterAt d 0 (entryOf s d 0 0)) 0 = some 0x200000 ∧ hubResolve s d.wasid (slotVa d 1 0) true true = some 0x200000) ∧
    (let p : Decision := { made := 1, changes := [.grow 0 1 0 (some true)] }
     let d := { dom0 with pending := [p], publishCsn := some 5 }
     p.settled = true ∧ p.empty = false ∧ d.newest?.isSome = true ∧ d.freeVersion = some 1 ∧ Change.grow 0 1 0 none ∉ p.changes) ∧
    (let s := windy { dom0 with en := false }
     let v : BitVec 64 := 0x8000000000010200
     let e : Domain := { dom0 with en := false, maxch := bits v.toNat 28 16, cmax := bits v.toNat 11 8, policy := bits v.toNat 0 0 }
     bitAt v.toNat 63 = true ∧ bitAt v.toNat 62 = false ∧ e.paramsOk s = true ∧ { e with maxch := 0 }.paramsOk s = false) ∧
    (let v : BitVec 64 := 0x10200
     bitAt v.toNat 63 = false ∧ dom0.maxch = bits v.toNat 28 16 ∧ dom0.cmax = bits v.toNat 11 8 ∧ dom0.policy = bits v.toNat 0 0 ∧
       (∀ l ∈ (windy dom0).hub.launches, (assoc (windy dom0).hub.asids l.asid Asid.reset).domv = false) ∧ (windy dom0).hub.streams = []) ∧
    (let p : Decision := { made := 1, changes := [.grow 0 1 0 none] }
     let d := { dom0 with pending := [p], wasid := 1 }
     copyPages d (masterAt d 0 (entryOf (windy d) d 0 0)) (slotVa d 1 0) (windy d) (List.range (d.slotsz / 4096)) = none) ∧
    (∀ die, dom0.count die 0 < 2 ^ 32) ∧
    (let s := windy dom0
     { vnum := 0, slot := 0, withdrawn := false } ∈ s.windlass[(3 : Fin 16)].versions ∧
       (0, 0) ∈ (entryOf s s.windlass[(3 : Fin 16)] 0 0).reps) :=
  ⟨⟨by decide, rfl, rfl, rfl, rfl⟩, ⟨rfl, rfl, rfl, rfl, by decide +kernel, by decide +kernel⟩, by decide, by decide +kernel, by decide +kernel,
    by decide +kernel, fun _ => Nat.zero_lt_succ _, by decide +kernel⟩

/-- Parameters and a version area that EN = 1 accepts: no entry, no slot. -/
theorem witness_Windlass_area :
    (let s := { up placedLaunch [] with mem := [(0x40004, 1)] }
     let e : Domain := { dom0 with en := false, nslot := Vector.replicate 8 0 }
     e.paramsOk s && areaOk s e) = true := by decide +kernel

/-- The team, awaiting this pre-emption. -/
def stopTeam (a : Stop) : Team := { team0 with stop := some a }

/-- A saved team of a launch of clusters of two: its rank, and how its team context stands. -/
def savedOf (rank : Nat) (run : RunState) : SavedTeam :=
  { launch := 0, cluster := 0, die := 0, entries := [(5, [1, 2, 3, 4])], byReply := false
    team := { team0 with t := rank, slot := .ready, team := { ctx0 with run := run } } }

theorem witness_TeamsSavedAndRestored :
    (let t := stopTeam (.save false none)
     let s := up placedLaunch [t]
     s.team? r0 = some t ∧ stoppedStill s t = true ∧ fencedOut s t = true ∧ ∀ m ∈ s.maps, m.owner ≠ some r0) ∧
    (let t := { stopTeam (.save true (some 0x2000)) with regions := [region0 0] }
     (∃ r ∈ t.regions, r.code = 0) ∧ t.team.run = .running) ∧
    (let t := stopTeam (.flush 1)
     let s := up placedLaunch [t]
     s.team? r0 = some t ∧ stoppedStill s t = true ∧ runsOn s t = false ∧ t.mayRestart = true ∧ s.launch? 0 = some placedLaunch ∧
       ({ t with restartable := false }).mayRestart = false ∧ ∀ x ∈ s.teams, x = t) ∧
    (let l := { placedLaunch with lrec := { placedRec with gx := 2, cw := 2 } }
     let xs := [savedOf 0 .running, savedOf 1 .ended]
     let x := up l []
     let s := { x with hub := { x.hub with saved := xs } }
     s.launch? 0 = some l ∧ s.hub.saved.filter (fun y => y.launch = 0 && y.cluster = 0) = xs ∧
       (∀ x ∈ xs, x.byReply = false ∧ x.entries.length ≤ 64 ∧ (x.entries.map (·.1)).Nodup ∧ clrank l.lrec x.team.t < 2) ∧
       (xs.map (fun x => clrank l.lrec x.team.t)).Nodup ∧ s.teams = [] ∧ dieServes s 0 = true ∧
       rectangle (s.die 0) (l.coreSet 0) 2 1 6 5 = some [46, 47] ∧ s.maps = [] ∧ l.lrec.nl * l.lrec.nv * 4 ≤ 1048576 ∧
       l.lrec.footprint ≤ 786432 ∧ l.lrec.nacc ≤ 4 ∧ s.hub.heldReplies = []) ∧
    (let x := savedOf 0 .parkedTrap
     let h : HeldReply := { sid := 0, team := 0, ctx := 0, abort := false, rv1 := 1, rv2 := 2, record := park0 }
     let s := { up placedLaunch [] with hub := { (up placedLaunch []).hub with saved := [x], heldReplies := [h] } }
     s.hub.saved.filter (fun y => y.launch = 0 && y.cluster = 0) = [x] ∧ s.hub.heldReplies = [h] ∧ h.sid = 0 ∧ h.team = x.team.t ∧
       rectangle (s.die 0) (placedLaunch.coreSet 0) 1 1 7 5 = some [47]) :=
  ⟨⟨rfl, by decide +kernel, by decide +kernel, by decide⟩, ⟨⟨_, List.mem_singleton_self _, rfl⟩, rfl⟩,
    ⟨rfl, by decide +kernel, by decide +kernel, by decide +kernel, rfl, by decide +kernel, fun _ h => List.mem_singleton.1 h⟩,
    ⟨rfl, rfl, by decide +kernel, by decide, rfl, by decide, by decide +kernel, rfl, by decide, by decide, by decide, rfl⟩,
    ⟨rfl, rfl, rfl, rfl, by decide +kernel⟩⟩

theorem witness_PreemptionAndKills :
    (let l := { placedLaunch with sid := 1, adm := 2, lv := 2, prio := 3, unplaced := [0], lrec := { placedRec with stream := 1 } }
     let k := placedLaunch
     let s := { up placedLaunch [team0] with hub := { (up placedLaunch [team0]).hub with launches := [k, l] } }
     s.launch? 1 = some l ∧ l.st = .running ∧ (firstWaiting l 0).isSome = true ∧ mayStart s l = true ∧ dieServes s 0 = true ∧
       victimLaunch s 0 l.prio = some k ∧ s.teams.find? (fun t => t.launch = k.sid && t.ref.die = 0 && t.stop.isNone) = some team0) ∧
    (let l := { placedLaunch with sid := 1, adm := 2, lv := 2, prio := 3, unplaced := [0], lrec := { placedRec with csetp := 64 }, coreSets := [1] }
     let s := { up placedLaunch [{ team0 with nl := 1024 }] with hub := { (up placedLaunch [team0]).hub with launches := [placedLaunch, l] } }
     firstWaiting l 0 = some 0 ∧ l.coreSet 0 = some 1 ∧
       fitsSomewhere (withoutStopped { s with teams := [{ team0 with stashLen := 786432 }] }) l 0 = false) ∧
    (let k := { placedLaunch with lrec := { placedRec with expic := 4, idemp := true } }
     let t := { team0 with team := { ctx0 with isc := 3 } }
     k.lrec.ppol = 0 ∧ 3 * k.lrec.expic ≤ 4 * t.team.isc.toNat ∧ t.slot ≠ .parked ∧ team0.restartable = true ∧ 4 * team0.team.isc.toNat < k.lrec.expic ∧
       ∀ n c, team0.ctx? n = some c → c.run = .running ∨ c.run = .ended) ∧
    (let s := { up placedLaunch [team0] with time := 1000000000 }
     s.launch? 0 = some placedLaunch ∧ s.hub.klim ≠ 0 ∧ (∃ t ∈ s.teams, t.launch = 0) ∧ s.hub.parks = [] ∧
       placedLaunch.lastProgress.toNat + 1000 * s.hub.klim.toNat ≤ s.time.toNat ∧
       (∀ t ∈ s.teams, t.progress.toNat + 1000 * s.hub.klim.toNat ≤ s.time.toNat)) ∧
    ((up placedLaunch [team0]).time.toNat < placedLaunch.lastProgress.toNat + 1000 * (up placedLaunch [team0]).hub.klim.toNat) ∧
    (let s := up placedLaunch [team0]
     s.dies[(7 : Fin 8)].fenced = false ∧ 47 ∉ s.dies[(7 : Fin 8)].lost ∧ s.dies[(7 : Fin 8)].cols = List.range 8 ∧ s.dies[(7 : Fin 8)].rows = List.range 6) :=
  ⟨⟨rfl, rfl, by decide, by decide, by decide, rfl, rfl⟩, ⟨by decide, rfl, by decide +kernel⟩,
    ⟨rfl, by decide, by decide, by decide, by decide, fun n c h => by cases n <;> cases h <;> exact .inl rfl⟩,
    ⟨rfl, by decide, ⟨_, List.mem_singleton_self _, rfl⟩, rfl, by decide, by decide⟩, by decide, by decide⟩

/-- A package whose function 0 has one published reply: LID 1, team 0, this CTX, ACTION and RV1. -/
def replied (ctx action rv1 rv2 : Nat) (k : ParkRec) (ts : List Team) : State :=
  let s := up placedLaunch ts
  let b := bytesOfNat 8 1 ++ bytesOfNat 8 (ctx * 2 ^ 32) ++ bytesOfNat 8 action ++ bytesOfNat 8 rv1 ++ bytesOfNat 8 rv2
  { s with mem := s.mem.setN (hostPa 0x1000) b, hub := { s.hub with
      parks := [k], funcs := [(0, { FuncRegs.reset with rren := true, rrbase := 0x1000, rrlog2n := 4, rrpi := 1 })] } }

/-- The parked team. -/
def parkedTeam : Team := { team0 with slot := .parked, team := { ctx0 with run := .parkedTrap } }

/-- A small saved team of a launch, its image unedited but for the header. -/
def savedTeam : Team := { team0 with nv := 0, v := [], nacc := 0, tiles := [], tbs := [], stashLen := 0, nq := 0, queues := [], matrix := none, access := none, team := { ctx0 with run := .parkedTrap } }

theorem witness_RepliesAct :
    (∀ p ∈ [(0, 1), (0, 2), (0, 3), (0, 0), (0, 5)], ∃ x, nextReply (replied p.1 p.2 0x100 (2 ^ 40) park0 [parkedTeam]) 0 = some x ∧ x.action = p.2 ∧
      namedRecord (replied p.1 p.2 0x100 (2 ^ 40) park0 [parkedTeam]) 0 x = some park0 ∧ park0.ctx < 3) ∧
    (∃ x, nextReply (replied 1 1 0 0 park0 [parkedTeam]) 0 = some x ∧ x.action = 1 ∧ namedRecord (replied 1 1 0 0 park0 [parkedTeam]) 0 x = none) ∧
    (let s := replied 0 1 0 0 park0 [parkedTeam]
     s.teams.find? (fun y => y.launch = park0.sid && y.t = park0.team) = some parkedTeam ∧ s.team? parkedTeam.ref = some parkedTeam ∧ parkedTeam.stop = none ∧
       s.hub.saved = [] ∧ parkedTeam.ctx? park0.kind = some parkedTeam.team ∧ parkedTeam.team.windows = [] ∧ s.launch? park0.sid = some placedLaunch ∧
       poolFits s parkedTeam.ref.die (s.teams.filter (fun m => m.launch = 0 && m.cluster = 0)) = true ∧ parkedTeam.imageLen ≤ 2 ^ 40) ∧
    (let k := { park0 with ctx := 3, lane := 0 }
     ∃ x, nextReply (replied 3 1 0 0 k [team0]) 0 = some x ∧ namedRecord (replied 3 1 0 0 k [team0]) 0 x = some k) ∧
    (let t := { parkedTeam with stop := some (.save false none) }
     outOfSlot (replied 0 1 0 0 park0 [t]) park0 = true ∧ outOfSlot (replied 0 2 0 0 park0 [t]) park0 = true) ∧
    (let y : SavedTeam := { launch := 0, cluster := 0, die := 0, team := savedTeam, entries := [], byReply := false }
     let s0 := replied 0 3 0x100 (2 ^ 40) park0 []
     let s := { s0 with hub := { s0.hub with saved := [y] } }
     s.hub.saved.find? (fun y => y.isOf park0) = some y ∧ savingByReply s park0 = false ∧ y.team.imageLen ≤ 2 ^ 40) ∧
    (let y : SavedTeam := { launch := 0, cluster := 0, die := 0, team := savedTeam, entries := [], byReply := true }
     let s0 := replied 0 4 0x10000 0 park0 []
     let s := { s0 with
       mem := (s0.mem.setN (hostPa 0x10000) (bytesOfNat 4 0x4C385349 ++ [1, 0])).setN (hostPa 0x10008) (bytesOfNat 8 1 ++ bytesOfNat 4 0 ++ bytesOfNat 4 savedTeam.imageLen)
       hub := { s0.hub with saved := [y] } }
     s.hub.saved.find? (fun z => z.isOf park0 && z.byReply) = some y ∧ s.teams = [] ∧
       imageOk s y (s.mem.getN (Config.hostBase + 0x10000) y.team.imageLen) = true ∧ imageOk s0 y (s0.mem.getN (Config.hostBase + 0x10000) y.team.imageLen) = false) :=
  ⟨by decide +kernel, by decide +kernel, ⟨rfl, rfl, rfl, rfl, rfl, rfl, rfl, by decide +kernel, by decide +kernel⟩, by decide +kernel,
    by decide +kernel, ⟨rfl, by decide +kernel, by decide +kernel⟩, ⟨rfl, rfl, by decide +kernel, by decide +kernel⟩⟩

/-- What a boot finds: every test passes, with these images in flash. -/
def boot0 (hub die : List Byte) : BootInput :=
  { hubSelfTest := true, linkUp := List.replicate 8 true, faultyCores := [], sramOk := List.replicate 8 true, hbmOk := List.replicate 8 true
    brory := [0], regReset := true, flash := some (hub, die), made := none }

theorem witness_BootSequence : (boot0 [1] [2]).flash = some ([1], [2]) ∧ (boot0 [] []).made = none ∧ (boot0 [] []).hubSelfTest = true ∧
    State.reset.alarm.keylock = false ∧ MemoryCanonical State.reset ∧
    State.reset.sec.fuses.found { boot0 [] [] with flash := none } false = State.reset.sec.fuses.found { boot0 [] [] with flash := none } true ∧
    12 ≤ (12 : Nat) ∧ fitMesh 12 16 (8, 6) = (3, 4) ∧ fitMesh 45 16 (8, 6) = (7, 6) :=
  ⟨rfl, rfl, rfl, rfl, rfl, by decide, by decide⟩

theorem witness_SecurityResponses :
    (up placedLaunch []).sec.boot.ready = true ∧ (∀ src < 5, src ≠ 0 → 1 ≤ bits Alarm.reset.cfg.toNat (2 * src + 1) (2 * src)) ∧
    bits Alarm.reset.cfg.toNat 1 0 = 3 ∧ bits Alarm.reset.cfg.toNat 9 8 = 1 ∧ (3 : BitVec 64).toNat % 4 ≠ 0 ∧ ¬ (64 < (up placedLaunch []).sec.boot.bootSvn0) ∧
    ¬ (2 ≤ (up placedLaunch []).alarm.level) ∧ (∃ l ∈ (up placedLaunch []).hub.launches, l.isOpen = true) ∧
    (∀ l ∈ (up { placedLaunch with st := .waiting } []).hub.launches, l.isOpen = false) ∧ State.reset.alarm.due = [] ∧
    (∀ n : Fin 2, n.val ∉ (up placedLaunch []).sec.spdm.sessions) ∧
    (let p : Spdm := { pendingSessions := [3], sessions := [4], count := 5 }
     3 ∈ p.pendingSessions ∧ 4 ∈ p.sessions) := by decide

theorem witness_FleetEvents :
    (let s := { up placedLaunch [team0] with sectors := [tent0] }
     s.launch? placedLaunch.sid = some placedLaunch ∧ placedLaunch.st = .running ∧ (s.sectorRec 0x800).tent = true ∧
       s.hub.launches.find? (fun k => k.isOpen && k.lv == (s.sectorRec 0x800).lv) = some placedLaunch ∧
       s.sec.boot.ready = true ∧ s.dies[(7 : Fin 8)].fenced = false ∧ s.dies[(7 : Fin 8)].retired = [] ∧ (∀ d : Fin 8, s.dies[d].ringLink = true ∧ s.dies[d].hubLink = true)) ∧
    (let s := up placedLaunch [team0]
     let u := { s with dies := s.dies.set (0 : Fin 8) { Die.reset with hubLink := false, ringLink := false } }
     u.dies[(0 : Fin 8)].hubLink = false ∧ u.dies[(0 : Fin 8)].fenced = false ∧ u.loans = [] ∧ placedLaunch.lrec.uses 0 = true ∧
       ∀ d : Fin 8, d ≠ 0 → u.dies[d].fenced = false ∧ u.dies[d].hubLink = true) ∧
    (State.reset.dies[(1 : Fin 8)].pwr.toNat + 8 + 257 ≤ State.reset.dies[(1 : Fin 8)].budget ∧ State.reset.dies[(1 : Fin 8)].budget < State.reset.dies[(1 : Fin 8)].pwr.toNat + 8 + 258) ∧
    (let x : Loan := { id := 1, lender := 0, borrower := 7, units := 265, deadline := 5 }
     let s := { State.reset with loans := [x] }
     s.loan? x.id = some x ∧ x.units ≤ s.dies[(7 : Fin 8)].budget ∧ (∀ y ∈ s.loans, y.id = x.id → y = x) ∧ s.time.toNat < x.deadline.toNat ∧
       ({ s with time := 5 }.time.toNat ≥ x.deadline.toNat)) ∧
    (let l := { placedLaunch with st := .committing }
     let s := { up l [] with sectors := [tent0] }
     (s.sectorRec 0x800).tent = true ∧ s.hub.launches.find? (fun k => k.isOpen && k.lv == (s.sectorRec 0x800).lv) = some l ∧ s.launch? l.sid = some l) ∧
    ((up placedLaunch []).sec.boot.brory.getLsbD 0 = true ∧ (up placedLaunch []).sec.boot.brory.getLsbD 17 = false ∧
      (up placedLaunch []).sec.boot.brory &&& ~~~ BitVec.ofNat 18 (2 ^ 0) = 0) ∧
    (∃ x, ({ State.reset with time := 6, loans := [{ id := 1, lender := 0, borrower := 7, units := 265, deadline := 5 }] } : State).overdue = some x) ∧
    (∃ s : State, s.hubLost = true ∧ s.agenda = .issue { ref := r0, kind := .team } :: [] ∧ (s.dies[(0 : Fin 8)].fenced = false)) :=
  ⟨⟨rfl, rfl, rfl, rfl, rfl, by decide, by decide, by decide⟩, by decide +kernel, by decide, ⟨rfl, by decide, by decide, by decide, by decide⟩,
    ⟨rfl, rfl, rfl⟩, by decide, ⟨_, rfl⟩,
    ⟨{ st .team team0 with hubLost := true, agenda := [.issue { ref := r0, kind := .team }] }, rfl, rfl, by decide⟩⟩

/-! ### Further states: the other clauses and the edges of their hypotheses -/

/-- Each vector instruction's own operands, with the highest scalar register as B, also where it is odd under a 64-bit TYPE. -/
theorem witness_vector_operands :
    (∀ m ∈ [(4 : BitVec 26), 7], ∀ p ∈ ([([62, 0, 2], []), ([62, 0], []), ([62, 0], [.s 63]), ([62, 0, 2, 4], [])] : List (List (Fin 64) × List RegName)),
      VectorReady (st .team (md m)) (vt (md m)) (p.1.map (fun r => ((vt (md m)).wide, r.val))) p.2 ∧ (vt (md m)).ty ≤ 7) ∧
    VectorReady (st .team (md 15)) (vt (md 15)) [(false, 63)] [] ∧
    (VectorReady (st .team (md 0x0B)) (vt (md 0x0B)) (((vt (md 0x0B)).wide, 62) :: srcRegs 0x0B (some .plain) [.vec 0]) [.s 63] ∧
      VectorReady (st .team (md 0x0B)) (vt (md 0x0B)) (((vt (md 0x0B)).wide, 62) :: srcRegs 0x0B (some .plain) [.vec 0, .vec 2]) [] ∧
      VectorReady (st .team (md 0x0B)) (vt (md 0x0B)) (((vt (md 0x0B)).wide, 62) :: srcRegs 0x0B (some .plain) [.vec 0, .vec 2, .acc 4]) [] ∧
      floatLayout 0x0B [.plain, .packed, .widen] = some .plain ∧ rndOk 0x0B = true) ∧
    VectorReady (st .team (md 6)) (vt (md 6)) (((vt (md 6)).wide, 62) :: ((vt (md 6)).wide, 0) :: []) [.s 63] := by
  refine ⟨fun m hm p hp => ⟨?_, ?_⟩, vready _ rfl _ _ rfl (by decide),
    ⟨vready _ rfl _ _ rfl (by decide), vready _ rfl _ _ rfl (by decide), vready _ rfl _ _ rfl (by decide), by decide⟩, vready _ rfl _ _ rfl (by decide)⟩
  · fin_cases hm <;> fin_cases hp <;> exact vready _ rfl _ _ rfl (by decide)
  · fin_cases hm <;> decide

/-- Sums of finite terms, of both infinities, of one, and of no number; MIN in a type without an infinity. -/
theorem witness_ScansAndLoadBalance_sums :
    List.Forall₂ FVal.isReal [.fin false 1 0, .fin true 1 (-1)] [1, -1 / 2] ∧
    (let xs : List FVal := [.inf true, .inf false]
     .inf true ∈ xs ∧ .inf false ∈ xs) ∧
    (let xs : List FVal := [.nan, .inf false]
     .nan ∈ xs ∧ .inf true ∉ xs) ∧
    (let xs : List FVal := [.inf false]
     .nan ∉ xs ∧ .inf false ∈ xs ∧ .inf true ∉ xs) ∧
    ((FVal.fin true 0 0).isNegZero = true) ∧ scanModeOk 0xA 1 = true ∧ scanModeOk 0xA 2 = true := by
  refine ⟨.cons (by norm_num [FVal.isReal]) (.cons (by norm_num [FVal.isReal]) .nil), by decide, by decide, by decide, by decide, by decide, by decide⟩

theorem witness_Conversions_drawn : (5 : Nat) ≤ 5 ∧ ∃ x : ℝ, (fdecodeFtz false 8 0x3E00).isReal x := ⟨by decide, _, rfl⟩

/-- A GO store and a GO load on an engine that the function may not use. -/
theorem witness_EngineWindowAccesses_denied :
    Ready (st .team goTeam) (vt goTeam) [.s 3, .s 5, .s 0] ∧ (goTeam.team.getS 5 + goTeam.team.getS 0).toNat = 256 * 0 + 0x20 ∧
    (st .team goTeam).engineAllowed goTeam 0 = false := ⟨ready _ rfl _ rfl, by decide, by decide⟩

/-- What a write-back asks of its tables; an STMAP with room for the entries it raises; a PREF that an access table denies, and one that none
denies. -/
theorem witness_WindowMappings_sides :
    (let s : State := { st .team mapTeam with maps := [dirtyMap 0x20000] }
     s.holder 1 = some placedLaunch ∧ s.launch? placedLaunch.sid = some placedLaunch ∧ s.ops = [] ∧
       (s.tablesFor placedLaunch ((dirtyMap 0x20000).dirtyVas dirtySec)).length = 2 ∧
       ∀ g ∈ s.tablesFor placedLaunch ((dirtyMap 0x20000).dirtyVas dirtySec), s.lostHome g = none) ∧
    (st .team mapTeam).counter mapTeam.ref .store + ([dirtyMap 0x20000].countP (fun x => x.secs.any (fun y => decide (y.dirty ≠ 0)))) ≤ 65535 ∧
    (let s : State := { st .team mapTeam with maps := [map0 5 (some r0)] }
     let denied : State := { s with hub := { s.hub with access := [] } }
     prefDenied s mapTeam 0 256 = none ∧ prefDenied denied mapTeam 0 256 = some (.accessTable, 0x20000)) := by decide +kernel

/-- An arrival at the object of a team that has left its slot, at which a bound context of its launch may wait; and one where nobody can. -/
theorem witness_Barriers_former :
    (let r1 : TeamRef := { r0 with slot := 1 }
     let f : FormerStash := { ref := r1, launch := 0, cluster := 1, t := 1, stashLen := 0x1000, stash := Memory.setN [] 0x40 (bytesOfNat 8 0x10001) }
     let s : State := { st .team team0 with former := [f], arrivals := [{ arrival0 with owner := r1 }] }
     let old := objectWord s r1 0x40
     s.team? r1 = none ∧ arriveWord old / 2 ^ 32 % 2 ≠ old / 2 ^ 32 % 2 ∧ s.waitedOn f 0x40 = true ∧
       ({ s with teams := [{ team0 with launch := 7 }] } : State).waitedOn f 0x40 = false) ∧
    (let s : State := { st .team team0 with arrivals := [arrival0] }
     s.team? arrival0.owner ≠ none) := by decide +kernel

/-- The first write of a window sector, whose walk is noted first; and a fill beside a walk cache that holds its line. -/
theorem witness_LoadsAndStoresComplete_grant :
    (let m : MapEntry := { map0 5 (some r0) with secs := [{ ix := 0, st := .S, pas := fillPas, bytes := List.replicate 64 0, dirty := 0 }] }
     let o := op3 .store (.own 0 0 5 0 [])
     let s : State := { flight .store (.own 0 0 5 0 []) with maps := [m] }
     let s0 := s.noteWindow o 0 0 5 0
     s0.map? 0 0 1 5 = some m ∧ (m.sec? 0).map (s0.ownPas m) = some fillPas ∧ s0.walks ≠ [] ∧ s0.holder 1 ≠ none ∧
       (match s0.writeSector { launch := s0.holder 1, die := some 0, core := some 0 } ((s0.holder 1).getD placedLaunch) 0x800
           (fun m' x' => m'.same m && x'.ix == 0) (fun _ => false) with
        | .ok u => (u.map? 0 0 1 5).isSome
        | .error _ => false) = true) ∧
    (let s : State := { flight .fill (.fill 0 0 5 0 fillPas) with walks := [{ die := 1, core := some 0, line := 0x200 }] }
     s.walkers 0x800 = true ∧ (flight .fill (.fill 0 0 5 0 fillPas)).walkers 0x800 = false) := by decide +kernel

/-- Sectors that a core holds in U. -/
def fullU (n : Nat) : State :=
  { st .team team1 with copies := (List.range n).map (fun i => { die := 0, core := some 0, sector := 0x800 + i, st := .U }) }

/-- Buffers of 63 and of 64 sectors, and a U copy that no RED has touched. -/
theorem witness_AtomicsComplete_buffer :
    ((fullU 63).bufferedSectors 0 0).length < 64 ∧
    (fullU 64).bufferedSectors 0 0 = [0x800] ++ (List.range 63).map (fun i => 0x801 + i) ∧
    (fullU 1).ops.any (isCoreRed 0 0 0x800) = false ∧ (fullU 1).l1State 0 0 0x800 = .U := by decide +kernel

/-- A FWARM of the first row of handle 1: its sectors are warmed; the first has no translation; an access table denies it. -/
theorem witness_EnginesAndStreams_warm :
    (let c := { cmd0 1 1 #v[1, 0, 1, 0] with handle := some handle0 }
     let s := engineSt c
     let rows := handle0.sectorVas 0 1
     let denied : State := { s with hub := { s.hub with access := [] } }
     s.cmd? 0 1 [1] = some c ∧ c.rel = none ∧ (0 : Nat) ∉ c.parts ∧ rows = [0x20000, 0x20040] ∧
       (match warmSectors team0 s rows with | .ok u => decide (∀ x ∈ u.cmds, 0 ≤ x.id) && !u.copies.isEmpty | .error _ => false) = true ∧
       (s.noteTeam team0 [0x10000000000]).resolveFor team0 { r := true } 0x10000000000 = .error .pageNotPresent ∧
       (denied.noteTeam team0 [0x20000]).resolveFor team0 { r := true } 0x20000 = .error .accessTable ∧
       (match warmSectors team0 denied rows with | .error (.faults .accessTable _ _) => true | _ => false) = true) ∧
    (let s := (engineSt (cmd0 1 1 #v[0, 0, 0, 0])).noteTeam team0 [0x20000]
     s.resolveFor team0 { r := true } 0x20000 = .ok 0x20000 ∧ (s.whoOf team0).launch = s.holder 1 ∧ (s.holder 1).isSome = true ∧
       (s.readSector (s.whoOf team0) ((s.holder 1).getD placedLaunch) 0x800).isOk = true) ∧
    (let s := (engineSt (cmd0 0 1 #v[0, 0, 0, 0])).engineWalk team0 (some 0) [0x20000]
     s.resolveFor team0 { r := true } 0x20000 = .ok 0x20000 ∧ (s.holder 1).isSome = true) := by decide +kernel

/-- A stream of the stash: an element that is single-copy atomic, one that is not, and its last byte. -/
theorem witness_EnginesAndStreams_parts :
    (let at_ := fun (off : Word) (part : List Byte) =>
       ({ desc := [off, 1, 4, 0, 0, 0x0000000100000001, 0x900000001, 32], i0 := 0, i1 := 0, i2 := 0, upto := 0, paused := false, part := part } : Stream)
     let s : State := { st .team team0 with maps := [dirtyMap 0x20000] }
     s.touched r0 0x100 4 = [] ∧ s.isWhole (.stash r0 8) 4 = true ∧ s.isWhole (.stash r0 6) 4 = false ∧
       s.touched r0 6 4 ≠ [] ∧ (∀ q ∈ s.touched r0 6 4, q.1.sec? q.2 ≠ none) ∧
       (match streamWord s team0 (at_ 6 []) 0 with | .byte .. => true | _ => false) = true ∧
       (match streamWord s team0 (at_ 6 [1, 2, 3]) 0 with | .word .. => true | _ => false) = true ∧
       (match streamWords team0 s (at_ 6 []) 32 with | (_, _, some .waits) => true | _ => false) = true) := by decide +kernel

/-- A core that holds a team already: its lowest free slot is 1. -/
theorem witness_PlacementAndSlots_shared :
    (let l := { placedLaunch with unplaced := [0] }
     let t := { team0 with ref := { die := 0, core := 47, slot := 0 }, launch := 9, nacc := 0 }
     let s := up l [t]
     let there := s.teams.filter (fun t => t.ref.die = 0 && t.ref.core = 47)
     s.launch? 0 = some l ∧ rectangle (s.die 0) (l.coreSet 0) 1 1 7 5 = some [47] ∧ there = [t] ∧
       s.team? { die := 0, core := 47, slot := 0 } ≠ none ∧ s.team? { die := 0, core := 47, slot := 1 } = none ∧
       (there.map (fun t => t.nl * t.nv * 4)).sum + l.lrec.nl * l.lrec.nv * 4 ≤ 1048576 ∧
       (there.map (fun t => t.stashLen + t.nq * t.qdepth * t.nl * 4)).sum + 0 +
         (l.lrec.stash + l.lrec.nq * l.lrec.qdepth * l.lrec.nl * 4) ≤ 786432 ∧ s.maps = [] ∧
       (there.map (fun t => t.nacc)).sum + l.lrec.nacc ≤ 4 ∧ there.countP (fun t => t.matrix.isSome) < 4 ∧
       there.countP (fun t => t.access.isSome) < 8 ∧ mayStart s l = true ∧ heldBack s l 0 = false ∧ l.args.length ≤ 32) :=
  ⟨rfl, by decide +kernel, rfl, by decide +kernel, by decide +kernel, by decide, by decide, rfl, by decide, by decide, by decide, by decide +kernel, by decide +kernel, by decide⟩

/-- The package of `up` with die 0 out of service. -/
def up7 (l : Launch) (ts : List Team) : State :=
  let s := up l ts
  { s with dies := s.dies.set (0 : Fin 8) { s.dies[(0 : Fin 8)] with fenced := true } }

/-- Tentative data on a die out of service, met at PREPARE and at READY. -/
theorem witness_SegmentsCommit_lost :
    (let l := { placedLaunch with doneDies := List.range 8 }
     let s := { up7 l [] with sectors := [tent0] }
     s.launch? 0 = some l ∧ l.st = .running ∧ (∀ d ∈ liveDies s, d ∈ l.doneDies) ∧ (∀ k ∈ s.hub.launches, precedes k l = false) ∧ 3 ∈ liveDies s ∧
       3 ∉ l.prepDies ∧ s.ops = [] ∧ tent0.tent = true ∧ tent0.lv = l.lv ∧ (s.die (dieOf (64 * tent0.sector))).fenced = true) ∧
    (let l := { placedLaunch with st := .preparing, prepDies := List.range 8, biDies := List.range 8 }
     let s := { up7 l [] with sectors := [tent0] }
     s.launch? 0 = some l ∧ ∀ d ∈ liveDies s, d ∈ l.prepDies ∧ d ∈ l.biDies) := by decide +kernel

/-- An abort acknowledged with a die out of service; a running launch that a successor follows, and one past its commit point. -/
theorem witness_AbortsAndCistern_sides :
    (let l := { placedLaunch with st := .aborting 0x45, ackDies := [1, 2, 3, 4, 5, 6, 7], retriesLeft := 1, lrec := { placedRec with ranges := [] } }
     let s := up7 l [team0]
     s.launch? 0 = some l ∧ (∀ d ∈ liveDies s, d ∈ l.ackDies) ∧ liveDies s ≠ List.range 8 ∧ lostRange s l = false ∧ (dropFenced s l).teams = [] ∧
       l.killPending = false ∧ l.doomed = false) ∧
    (let x := { placedLaunch with sid := 1, adm := 2, lv := 2 }
     let s0 := up placedLaunch []
     let s := { s0 with hub := { s0.hub with launches := [placedLaunch, x] } }
     s.launch? 0 = some placedLaunch ∧ s.launch? 1 = some x ∧ precedes placedLaunch x = true ∧ x.st = .running ∧ precedes x placedLaunch = false) ∧
    ((up { placedLaunch with st := .committing } []).launch? 0 = some { placedLaunch with st := .committing }) ∧
    ((up { placedLaunch with st := .aborting 0x43 } []).launch? 0 = some { placedLaunch with st := .aborting 0x43 }) := by decide +kernel

/-- One step of a refresh from its master's bytes. -/
def refreshStep (d : Domain) (master : Word ⊕ Nat) (va : Word) (s : State) (u : Nat) : State :=
  match masterPa s d master (64 * u), hubResolve s d.wasid (va + BitVec.ofNat 64 (64 * u)) true true with
  | some a, some b => s.hubWrite b (committedN s a 64)
  | _, _ => s

/-- The states that the refresh clause follows exist for every domain. -/
theorem witness_Windlass_refresh (s : State) (d : Domain) (master : Word ⊕ Nat) (r : Nat × Nat) :
    ∃ st : Nat → State, st 0 = s ∧ ∀ u,
      let src := masterPa (st u) d master (64 * u)
      let dst := hubResolve (st u) d.wasid (slotVa d r.1 r.2 + BitVec.ofNat 64 (64 * u)) true true
      (∃ a b, src = some a ∧ dst = some b ∧ st (u + 1) = (st u).hubWrite b (committedN (st u) a 64)) ∨
        ((src = none ∨ dst = none) ∧ st (u + 1) = st u) := by
  refine ⟨Nat.rec s (fun u x => refreshStep d master (slotVa d r.1 r.2) x u), rfl, fun u => ?_⟩
  simp only [refreshStep]
  split
  · rename_i a b ha hb; exact .inl ⟨a, b, ha, hb, rfl⟩
  · rename_i h
    refine .inr ⟨?_, rfl⟩
    by_contra hn
    simp only [not_or, ← ne_eq, Option.ne_none_iff_exists'] at hn
    obtain ⟨⟨a, ha⟩, b, hb⟩ := hn
    exact h a b ha hb

/-- A pending decision, a slot of 4 KiB with its pages, publications that wait, that drop, that find no slot and that succeed, and a launch
that pins a version. -/
theorem witness_Windlass_sides :
    (let p : Decision := { made := 1, changes := [.grow 0 1 0 none] }
     let d := { dom0 with windowDue := true, pending := [p], publishCsn := none }
     d.windowDue = true ∧ d.pending ≠ [] ∧ dom0.slotsz ≠ 0 ∧ dom0.slotsz % 4096 = 0) ∧
    (let s := windy dom0
     (copyPages dom0 (masterAt dom0 0 (entryOf s dom0 0 0)) (slotVa dom0 1 0) s (List.range (dom0.slotsz / 4096))).isSome = true ∧
       masterPa s dom0 (masterAt dom0 0 (entryOf s dom0 0 0)) (64 * 63) = some 0x200FC0 ∧
       hubResolve s dom0.wasid (slotVa dom0 1 0 + BitVec.ofNat 64 (64 * 63)) true true = some 0x200FC0) ∧
    (let waits : Decision := { made := 1, changes := [.grow 0 1 0 none] }
     let drops : Decision := { made := 1, changes := [.grow 0 1 0 (some false)] }
     let good : Decision := { made := 1, changes := [.grow 0 1 0 (some true)] }
     let full := { dom0 with versions := (List.range 16).map (fun i => { vnum := i, slot := i, withdrawn := false }) }
     (∃ c ∈ waits.changes, c = .grow 0 1 0 none) ∧ (∀ c ∈ drops.changes, c = .grow 0 1 0 (some false)) ∧ good.settled = true ∧
       good.empty = false ∧ full.freeVersion = none ∧ dom0.freeVersion = some 1 ∧ dom0.newest? = some { vnum := 0, slot := 0, withdrawn := false }) ∧
    (let x := entryOf (windy dom0) dom0 0 0
     x.kind < 4 ∧ x.homed < 8 ∧ x.rows < 2 ^ 64 ∧ x.reps = [(0, 0)] ∧ (x.reps.map (·.1)).Nodup ∧ x.fh = false ∧
       x.reps.find? (fun r => r.1 = x.homed) = some (x.homed, 0)) ∧
    (let l := { placedLaunch with pin := some (3, 0) }
     let s0 := windy dom0
     let s := { s0 with hub := { s0.hub with launches := [l] } }
     s.launch? l.sid = some l ∧ (s.hub.launches.map (·.sid)).Nodup ∧ l.st = .running ∧
       { vnum := 0, slot := 0, withdrawn := false } ∈ s.windlass[(3 : Fin 16)].versions) := by decide +kernel

theorem witness_Windlass_canonical : MemoryCanonical (windy dom0) := show Memory.wf _ = true by decide +kernel

/-- Big-endian bytes of a number. -/
def beBytes (n v : Nat) : List Byte := (bytesOfNat n v).reverse

/-- The signed part of an image of 64 zero bytes: MAGIC, KIND, SVN 0, LEN and DIGEST. -/
def imageHead (kind : Nat) : List Byte :=
  bytesOfNat 4 0x4C384657 ++ bytesOfNat 4 kind ++ bytesOfNat 8 0 ++ bytesOfNat 8 64 ++ sha512 (List.replicate 64 0)

/-- The public key of the private key 1: the base point. -/
def key1 : List Byte := beBytes 66 gx521 ++ beBytes 66 gy521

/-- The image signed by hand with the private key 1 and the nonce 1: r = x(G), s = z + r modulo the order. -/
def signedImage (kind : Nat) : List Byte :=
  imageHead kind ++ beBytes 66 (gx521 % n521) ++ beBytes 66 ((beNat (sha512 (imageHead kind)) + gx521) % n521) ++ List.replicate 36 0 ++ key1 ++
    List.replicate 188 0

/-- R372 refuses a correctly signed image as another KIND, under another key, with another SVN, with another body, and below its floor. -/
theorem test_refused_images : verifyImage (signedImage 0) 1 (sha512 key1) 0 = 2 ∧ verifyImage (signedImage 0) 0 [] 0 = 3 ∧
    verifyImage ((signedImage 0).set 8 1) 0 (sha512 key1) 0 = 4 ∧ verifyImage ((signedImage 0).set 512 1) 0 (sha512 key1) 0 = 5 ∧
    verifyImage (signedImage 0) 0 (sha512 key1) 1 = 6 := by decide +kernel

/-- The package as made, with the key's hash fused for both KINDs. -/
def fusedKeys : State :=
  { State.reset with sec := { State.reset.sec with fuses := { State.reset.sec.fuses with keyHash0 := sha512 key1, keyHash1 := sha512 key1 } } }

/-- What a boot of those images finds, with these links, cores and memories. -/
def bootOf (link sram hbm : List Bool) : BootInput :=
  { boot0 (signedImage 0) (signedImage 1) with faultyCores := List.replicate 8 [], linkUp := link, sramOk := sram, hbmOk := hbm }

/-- Boots whose hub passes, and that stop at step 3, at step 5 and at step 6; and one that passes them all. -/
theorem witness_BootSequence_stops :
    (let no := List.replicate 8 false
     let all := List.replicate 8 true
     let f := fusedKeys.sec.fuses.found (bootOf all all all) true
     f.flashHub = signedImage 0 ∧ f.flashDie = signedImage 1 ∧ f.keyHash0 = sha512 key1 ∧ f.keyHash1 = sha512 key1 ∧ fuseFloor f.svn0 = 0 ∧
       fuseFloor f.svn1 = 0 ∧ (bootOf no all all).hubSelfTest = true ∧ (∀ d < 8, ¬ passed (bootOf no all all).linkUp d = true) ∧
       (∀ d < 8, passed (bootOf all no all).linkUp d = true ∧ ¬ passed (bootOf all no all).sramOk d = true) ∧
       (∀ d < 8, passed (bootOf all all no).sramOk d = true ∧ 12 ≤ goodCores (bootOf all all no) f d ∧ passed (bootOf all all no).hbmOk d = false)) := by
  decide +kernel

/-- The boot of signed images with every part in order ends READY, and its measurement register 1 is extended (R370, R375). -/
theorem test_boot_ready :
    (match exec (.coldBoot (bootOf (List.replicate 8 true) (List.replicate 8 true) (List.replicate 8 true))) fusedKeys with
     | .next u => (u.sec.boot.ready, u.sec.boot.dieok, u.sec.boot.fstep, decide (u.sec.boot.meas[1] ≠ 0))
     | _ => (false, 0, 0, false)) = (true, 255, 0, true) := by decide +kernel

/-- A team that is saved with a window of one dirty byte attached; a region closed with a code beside an open one; a cluster on its way to the
pool that a reply lets be restored. -/
theorem witness_TeamsSavedAndRestored_dirty :
    (let t := stopTeam (.save false none)
     let s : State := { up placedLaunch [t] with maps := [dirtyMap 0x20000] }
     let n := s.noteWalk placedLaunch 0 (some 0) ((dirtyMap 0x20000).dirtyVas dirtySec)
     s.team? r0 = some t ∧ stoppedStill s t = true ∧ fencedOut s t = true ∧ s.attached r0 = [dirtyMap 0x20000] ∧ s.holder 1 = some placedLaunch ∧
       dirtySec.dirty.getLsbD 0 = true ∧ dirtySec.pas[0]? = some 0x20000 ∧ dirtySec.pas.Nodup ∧ backFault n (dirtyMap 0x20000) dirtySec = none ∧
       (∀ p ∈ dirtySec.pas, n.lostHome (p / 64) = none) ∧ n.exact = [] ∧ ∀ r ∈ n.sectors, r.tbytes.wf = true) ∧
    (let s := replied 0 1 0 0 park0 [stopTeam (.save true none)]
     outOfSlot s park0 = true ∧ clusterOf s park0 = some 0 ∧ (stopTeam (.save true none)).stop = some (.save true none)) :=
  ⟨⟨rfl, by decide +kernel, by decide +kernel, rfl, rfl, by decide, rfl, by decide +kernel, by decide +kernel, by decide +kernel, by decide +kernel, by decide +kernel⟩,
    by decide +kernel, by decide +kernel, rfl⟩

/-- An alarm at level 2 with no open launch. -/
theorem witness_SecurityResponses_fenced :
    (let s0 := up { placedLaunch with st := .waiting } []
     let s := { s0 with alarm := { s0.alarm with cpStopped := true } }
     s.sec.boot.ready = true ∧ s.alarm.cpStopped = true ∧ ∀ l ∈ s.hub.launches, l.isOpen = false) := by decide

/-- A frame that holds tentative data; a die whose last path goes while it has lent and borrowed; launches that the last port cuts off. -/
theorem witness_FleetEvents_sides :
    (let s := { up placedLaunch [team0] with sectors := [tent0] }
     s.sec.boot.ready = true ∧ tent0 ∈ s.sectors ∧ tent0.tent = true ∧ tent0.lv = placedLaunch.lv ∧ tent0.sector / 64 = flat 0 0x20000 / 4096 ∧
       s.dies[(0 : Fin 8)].fenced = false ∧ 0x20000 / 4096 * 4096 ∉ s.dies[(0 : Fin 8)].retired) ∧
    (let x : Loan := { id := 1, lender := 0, borrower := 7, units := 265, deadline := 5 }
     let s := { up placedLaunch [team0] with loans := [x] }
     let u : State := { s with dies := s.dies.set (0 : Fin 8) { s.dies[(0 : Fin 8)] with hubLink := false, ringLink := false } }
     (u.loans.map (·.id)).Nodup ∧ x.units ≤ u.dies[(7 : Fin 8)].budget ∧ u.dies[(0 : Fin 8)].fenced = false ∧
       ∀ d : Fin 8, d ≠ 0 → u.dies[d].fenced = false ∧ u.dies[d].hubLink = true) ∧
    (let l := { placedLaunch with st := .committing, lrec := { placedRec with nseg := 2 } }
     (up l []).launch? l.sid = some l ∧ l.sid ∈ [0] ∧ l.seg + 1 < l.lrec.nseg) := by decide +kernel

/-- A pair that lies across two aligned units of its window: read a byte at a time, from the first byte and from a later one. -/
theorem witness_GatherInstructions_pair :
    (let s : State := { st .team (gatherTeam 1) with maps := [dirtyMap 0x20000] }
     s.isWhole (.stash r0 (4 + 8 * 0)) 8 = false ∧ s.touched r0 4 8 ≠ [] ∧ (∀ q ∈ s.touched r0 4 8, q.1.sec? q.2 ≠ none) ∧
       s.held c0 s.serial (s.locs (.stash r0 4) 8) = false ∧ (gatherTeam 1).bag = [] ∧ ({ gatherTeam 1 with bag := [7] }).bag.length % 8 ≠ 0 ∧
       s.isWhole (.stash r0 (8 + 8 * 0)) 8 = true) := by decide +kernel

/-- Sectors that nobody holds in U are gathered without a change; and one that a core does hold so is not. -/
theorem witness_AccessesFromOutside_gathered :
    (let s := { up placedLaunch [] with sectors := [tent0] }
     s.copies = [] ∧ s.gathered (outsideSectors s 0 0x20000 1 true) = s ∧ (s.gathered (outsideSectors s 0 0x20000 1 true)).launch? 0 = some placedLaunch) ∧
    (let s := { up placedLaunch [] with copies := [{ die := 0, core := some 0, sector := 0x800, st := .U }] }
     (s.gathered (outsideSectors s 0 0x20000 1 false)).copies = [] ∧ ∃ c ∈ s.copies, c.sector = flat 0 0x20000 / 64 ∧ c.st = .U) :=
  ⟨⟨rfl, by decide +kernel, by decide +kernel⟩, by decide +kernel⟩

/-- A denial whose walk reads a table on a die out of service, and arguments whose bytes lie there. -/
theorem witness_ParkRecords_lost :
    (let s := up7 placedLaunch [team0]
     s.view = some (vt team0) ∧ s.launch? team0.launch = some placedLaunch ∧
       (tableSectors s placedLaunch.asid 0x20000).findSome? s.lostHome = some 0x45 ∧
       (tableSectors (up placedLaunch [team0]) placedLaunch.asid 0x20000).findSome? (up placedLaunch [team0]).lostHome = none) ∧
    (let l := { placedLaunch with adm := 0, hostmem := false, lrec := { placedRec with argn := 1, argp := 0x20000 } }
     (∀ i < 8, (resolve (up7 l []) l.asid l.func { r := true } (0x20000 + BitVec.ofNat 64 i)).isOk = true) ∧
       (up7 l []).lostHome (0x20000 / 64) = some 0x45 ∧ 0x45 ∈ (admissionTests (up7 l []) l).2) :=
  ⟨⟨view_any _ _ _ _ rfl rfl rfl rfl, rfl, by decide +kernel, by decide +kernel⟩, by decide +kernel, by decide +kernel, by decide +kernel⟩

/-- A stream in the middle of a word, at which a new entry waits, and none. -/
theorem witness_WindowMappings_half :
    (let x : Stream := { desc := [6, 1, 4, 0, 0, 0x0000000100000001, 0x900000001, 32], i0 := 0, i1 := 0, i2 := 0, upto := 0, paused := false, part := [1] }
     let t := { mapTeam with queues := mapTeam.queues.set 1 { entries := [], closed := false, stream := some x } }
     halfMade (st .team t) (map0 5 (some r0)) = true ∧ halfMade (st .team mapTeam) (map0 5 (some r0)) = false) := by decide +kernel

/-- FENCE.FULL once its acquire is made: its earlier entries of LOAD, FILL and ATOM are done, and a store is not performed yet. -/
theorem witness_FencesAndCounterWaits_acquired :
    (let t := tc (fun c => { c with hold := some (.fence true true .system 5) })
     let s : State := { st .team t with ops := [op3 .store (.store [globStore] false [])] }
     s.view = some (vt t) ∧ (∀ o ∈ s.ops, ¬(o.path = some .load ∨ o.path = some .fill ∨ o.path = some .atom)) ∧
       ∃ o ∈ (s.observeAll (s.whoOf t) c0 5).ops, o.done = false ∧ o.id < 5 ∧ o.own.ref = t.ref ∧ o.path = some .store ∧
         o.performedFor .system = false) := ⟨view_any _ _ _ _ rfl rfl rfl rfl, by decide +kernel, by decide +kernel⟩

/-- A command whose write to the stash is not made yet, and one that has none. -/
theorem witness_EnginesAndStreams_written :
    (let c := { cmd0 0 2 #v[0x20, 0, 0x0000000100000001, 0] with writes := [3] }
     stashWritten (flight .store (.store [stashStore] true [])) c = false ∧
       stashWritten (flight .store (.store [{ stashStore with stage := .performed }] true [])) c = true ∧
       stashWritten (engineSt (cmd0 1 1 #v[0, 0, 0, 0])) (cmd0 1 1 #v[0, 0, 0, 0]) = true) := by decide +kernel

/-- A DRAINING team whose store is still counted, and one whose only operation under way is an engine's write, which is not. -/
theorem witness_PlacementAndSlots_draining :
    (let t := { team0 with slot := .draining, matrix := none, access := none }
     let s := up placedLaunch [t]
     let counted : State := { s with ops := [op3 .store (.store [globStore] false [])] }
     let free : State := { s with ops := [{ op3 .store (.store [globStore] true []) with path := none }] }
     mayLeave counted t = false ∧ mayLeave free t = true ∧ (∀ o ∈ free.ops, o.own.ref = r0 → o.path = none)) := by decide +kernel

/-- Of two launches that wait on a full die, the one of higher priority goes first. -/
theorem witness_PreemptionAndKills_first :
    (let big := { placedRec with csetp := 64 }
     let l1 := { placedLaunch with sid := 1, adm := 2, lv := 2, prio := 3, unplaced := [0], lrec := { big with stream := 1 }, coreSets := [1] }
     let l2 := { placedLaunch with sid := 2, adm := 3, lv := 3, prio := 2, unplaced := [0], lrec := { big with stream := 2 }, coreSets := [1] }
     let s0 := up placedLaunch [{ team0 with ref := r0, stashLen := 786432 }]
     let s := { s0 with hub := { s0.hub with launches := [placedLaunch, l2, l1] } }
     shutOut s l1 0 = true ∧ shutOut s l2 0 = true ∧ preemptsFirst s l1 0 = true ∧ preemptsFirst s l2 0 = false ∧
       (victimLaunch s 0 l1.prio).map (·.sid) = some 0 ∧ s.teams.any (fun t => t.launch = 0 && t.ref.die = 0 && t.stop.isNone) = true) := by
  decide +kernel

/-- A RESUME of a paused stream whose team a SAVE reply is taking out of its slot. -/
theorem witness_RepliesAct_freed :
    (let k := { park0 with ctx := 3, lane := 4 }
     let s := replied 3 1 0 0 k [stopTeam (.save true none)]
     (∃ x, nextReply s 0 = some x ∧ x.action = 1 ∧ namedRecord { s with mem := s.mem.setN (hostPa 0x1008) (bytesOfNat 8 (3 * 2 ^ 32 + 4 * 2 ^ 48)) } 0
       { x with lane := 4 } = some k) ∧ clusterOf s k = some 0 ∧ 4 ≤ k.lane) := by decide +kernel

/-- The bytes of a word that decodes to none. -/
theorem witness_StepRunsTheDecodedInstruction_none :
    (let bytes : List Byte := [0, 0, 0, 0xFC]
     bytes.length = (if hasLiteral (natOfBytes (bytes.take 4)) then 8 else 4) ∧ decode bytes = .error .illegalOpcode ∧
       Reject.illegalOpcode ≠ .truncated) := by decide +kernel

/-! ### Words and steps -/

/-- SADD s3, s1, s2 where the next step fetches it. -/
def placed : State := State.reset.withFetchWord 32 0x30304200

theorem witness_StepRunsTheDecodedInstruction :
    (let s1 : State := { placed.clock with agenda := [], cur := { ref := r0, kind := .team } }
     placed.agenda = .issue { ref := r0, kind := .team } :: [] ∧ placed.hubLost = false ∧ placed.clock.overdue = none ∧
       s1.launch? 0 = some placedLaunch ∧ (∀ a ∈ [0x10000, 0x10004], ∀ x ∈ s1.tablesFor placedLaunch [a], s1.lostHome x = none) ∧ s1.view = some (vt (placedTeam 0)) ∧ mayIssue s1 (vt (placedTeam 0)) = true ∧
       boundaryOf s1 (placedTeam 0).team = none ∧ decode [0x00, 0x42, 0x30, 0x30] = .ok (.sadd 3 1 2, []) ∧
       (∀ j < 4, s1.resolveFor (placedTeam 0) { x := true } ((placedTeam 0).team.pc + BitVec.ofNat 64 j) = .ok (0x10000 + j) ∧
         s1.lostHome ((0x10000 + j) / 64) = none ∧ (s1.sectorRec ((0x10000 + j) / 64)).prep = false ∧
         s1.codeByte placedLaunch.adm (0x10000 + j) = ([0x00, 0x42, 0x30, 0x30] : List Byte).getD j 0)) ∧
    State.reset.codeLog = [] ∧
    ((Instr.rotation 0 0 0).isEvent = true ∧ ∀ b, Instr.rotation 0 0 0 ≠ .illegalInstruction b) ∧ (∀ k : Fin 8, State.reset.hub.perfSel[k] = 0) :=
  ⟨⟨rfl, rfl, rfl, rfl, by decide +kernel, view_any _ _ _ _ rfl rfl rfl rfl, rfl, rfl, rfl, by decide +kernel⟩, rfl, ⟨rfl, by intro b h; cases h⟩,
    by decide⟩

theorem witness_StepKeepsMemoryCanonical : MemoryCanonical placed ∧ ∃ u, step placed = .next u := ⟨show Memory.wf _ = true by decide, _, rfl⟩

theorem witness_DecodeEncode : (Instr.sadd 63 63 63).isEvent = false ∧ (Instr.sadd 63 63 63).wf = true ∧
    decode (encodeBytes (.ldg 63 63 63 true true 2 15) ++ [0xFF]) = .ok (.ldg 63 63 63 true true 2 15, [0xFF]) := by decide

/-! ### Words written out from the manual's encoding (R158, R164 to R171), one family a theorem -/

/-- Decoding the four bytes of a word. -/
def dec (w : Nat) : Except Reject Instr := decodeWord w 0

theorem test_word_sys : dec 0b000000_000011_000000_000010_00000101 = .ok (.srd 3 2) ∧ dec 0b000000_000000_111110_000000_00000100 = .ok (.ret 62) ∧
    dec 0b000000_000001_000010_000000_00000111 = .ok (.sliceof 1 2) := by decide
theorem test_word_wide : dec 0b000001_00000000000000000110100100 = .ok (.mode 0x1A4) ∧ dec 0b000010_00000000000000000000000111 = .ok (.trap 7) ∧
    dec 0b000011_00000000000000000000001001 = .ok (.rgn 9) := by decide
theorem test_word_jump : dec 0b000100_11111111111111111111111111 = .ok (.bra (-1)) ∧ dec 0b000101_00000000000000000000001000 = .ok (.call 8) := by decide
theorem test_word_branch : dec 0b000110_000101_11111111111111111110 = .ok (.bsz 5 (-2)) ∧ dec 0b001010_000011_00000000000000000100 = .ok (.bkall 3 4) ∧
    dec 0b001000_010000_00000000000000000100 = .error .illegalEncoding := by decide
theorem test_word_salu : dec 0b001100_000011_000001_000010_00000001 = .ok (.ssub 3 1 2) ∧ dec 0b001100_000010_000111_000011_00011011 = .ok (.sbfx 2 7 3) := by decide
theorem test_word_imm : dec 0b001101_000001_000010_11111111111111 = .ok (.saddi 1 2 (-1)) ∧ dec 0b010001_000001_000010_00000000000101 = .ok (.sslti 1 2 5) := by decide
theorem test_word_mask : dec 0b010100_000001_000010_000011_00000011 = .ok (.kandn 1 2 3) ∧ dec 0b010100_000001_000010_000011_00001001 = .ok (.kfroms 1 2 3) := by decide
theorem test_word_kmem : dec 0b010101_000001_000010_000011_0001_0101 = .ok (.kst 1 2 3 5) := by decide
theorem test_word_vint : dec 0b011000_000001_000010_000011_00010100 = .ok (.vsel 1 2 3) ∧ dec 0b011000_000001_000010_000011_00011001 = .ok (.vadds 1 2 3) ∧
    dec 0b011001_000001_000010_10000000000000 = .ok (.vaddi 1 2 (-8192)) := by decide
theorem test_word_vmad : dec 0b011010_000001_000010_000011_000100_01 = .ok (.vmsb 1 2 3 4) := by decide
theorem test_word_vfp : dec 0b011100_000001_000010_000000_00001101 = .ok (.vpack 1 2) ∧ dec 0b011100_000001_000010_000011_00000111 = .ok (.vfceq 1 2 3) := by decide
theorem test_word_vfma : dec 0b011101_000001_000010_000011_000100_10 = .ok (.vfnma 1 2 3 4) := by decide
theorem test_word_vsfu : dec 0b011110_000001_000010_000011_0000_0111 = .ok (.vfdiv 1 2 3 7) ∧ dec 0b011110_000001_000010_000000_1000_0001 = .ok (.vftanh 1 2 1) := by decide
theorem test_word_vxl : dec 0b100000_000001_000010_000101_0110_0011 = .ok (.vscanx 1 2 5 3) ∧ dec 0b100000_000001_000010_000110_0110_0011 = .error .illegalEncoding := by
  decide
theorem test_word_stash : dec 0b100100_000001_000010_000011_1101_0010 = .ok (.lds 1 2 3 true true 1 2) ∧ dec 0b100101_000001_000010_000011_1010_0000 = .ok (.sts 1 2 3 true 2 0) ∧
    dec 0b101010_000001_000010_000011_0011_0001 = .ok (.ldgs 1 2 3 3 1) := by decide
theorem test_word_global : dec 0b100110_000001_000010_000011_1000_0010 = .ok (.ldg 1 2 3 true false 0 2) ∧ dec 0b100111_000001_000010_000011_0011_0000 = .ok (.stg 1 2 3 false 3 0) := by
  decide
theorem test_word_scalar_memory : dec 0b101000_000001_000010_000011_0110_0100 = .ok (.ldsc 1 2 3 1 2 4) ∧ dec 0b101001_000001_000010_000011_1111_0000 = .ok (.stsc 1 2 3 3 3 0) ∧
    dec 0b101001_000001_000010_000011_1110_0000 = .error .illegalEncoding := by decide
theorem test_word_smap : dec 0b101011_000000_001000_000101_00000000 = .ok (.stmap 8 5) ∧ dec 0b101011_000001_000000_000010_00000101 = .ok (.stqry 1 2) := by decide
theorem test_word_atom : dec 0b101100_000001_000010_000011_1001_0000 = .ok (.atomCas 1 2 3 0) ∧ dec 0b101100_000001_000010_000011_1100_1111 = .ok (.atomExchq 1 2 3 15) := by decide
theorem test_word_red : dec 0b101101_000001_000010_000011_1000_0000 = .ok (.redFadd 1 2 3 0) ∧ dec 0b101101_000001_000010_000011_1011_0000 = .error .illegalEncoding := by decide
theorem test_word_xrgn : dec 0b101110_000010_000011_000000_00000001 = .ok (.xend 2 3) := by decide
theorem test_word_sync : dec 0b101111_000000_000000_000101_00000001 = .ok (.fenceRel 5) ∧ dec 0b101111_000000_000011_000001_00000011 = .ok (.waitc 3 1) ∧
    dec 0b101111_000000_000010_000011_00000111 = .ok (.bwait 2 3) := by decide
theorem test_word_matrix : dec 0b110000_000010_001000_010000_0001_0100 = .ok (.mma 2 8 16 4) ∧ dec 0b110000_100000_000001_000101_0100_0000 = .ok (.mdrain 32 1 5 0) := by decide
theorem test_word_queue : dec 0b110010_000100_000001_000000_00000000 = .ok (.vpop 4 1) ∧ dec 0b110011_000001_010000_000000_00000000 = .ok (.astr 1 16) := by decide
theorem test_word_fetch : dec 0b110100_000001_000010_000011_0001_0100 = .ok (.fetch 1 2 3 4) ∧ dec 0b110101_000001_000010_000011_0000_0000 = .ok (.route 1 2 3 0) := by decide

/-! ### Single steps, their results worked out by hand from the rules -/

/-- What a team context's instruction leaves of its view. -/
def after {α : Type} (i : Instr) (t : Team) (f : View → α) : Option α :=
  match exec i (st .team t) with
  | .next u => u.view.map f
  | _ => none

/-- Scalars 1 and 2. -/
def two (x y : Word) : Team := tc (fun c => (c.setS 1 x).setS 2 y)

/-- One lane, TYPE and the other fields of MD, and lane 0 of v1 and v2. -/
def lane0 (m : BitVec 26) (x y : Lane) : Team :=
  { team1 with team := { ctx0 with md := m }, v := (team1.v.set 1 ([x] ++ List.replicate 31 0)).set 2 ([y] ++ List.replicate 31 0) }

theorem test_sadd_wraps : after (.sadd 3 1 2) (two (BitVec.allOnes 64) 2) (fun v => (v.ctx.getS 3, v.ctx.pc)) = some (1, 0x10004) := by decide +kernel
theorem test_smulhi_signed : after (.smulhi 3 1 2) (two (BitVec.allOnes 64) 2) (fun v => v.ctx.getS 3) = some (BitVec.allOnes 64) := by decide +kernel
theorem test_smulhn_unsigned : after (.smulhn 3 1 2) (two (BitVec.allOnes 64) 2) (fun v => v.ctx.getS 3) = some 1 := by decide +kernel
theorem test_ssra_sign : after (.ssra 3 1 2) (two 0x8000000000000000 65) (fun v => v.ctx.getS 3) = some 0xC000000000000000 := by decide +kernel
theorem test_s0_discards : after (.sadd 0 1 2) (two 1 2) (fun v => v.ctx.getS 0) = some 0 := by decide +kernel
theorem test_sclz_zero : after (.sclz 3 1) (two 0 0) (fun v => v.ctx.getS 3) = some 64 := by decide +kernel
theorem test_sbfx_field : after (.sbfx 1 7 4) (two 0xABCDE 0) (fun v => v.ctx.getS 1) = some 0xCD := by decide +kernel
theorem test_call_links : after (.call (-1)) (two 0 0) (fun v => (v.ctx.pc, v.ctx.getS 62)) = some (0xFFFC, 0x10004) := by decide +kernel
theorem test_smovl_counts_once : after (.smovlSigned 3 0xFFFFFFFF) (two 0 0) (fun v => (v.ctx.getS 3, v.ctx.pc, v.ctx.isc)) =
    some (BitVec.allOnes 64, 0x10008, 1) := by decide +kernel
theorem test_kfirst_none : after (.kfirst 3 5) (two 0 0) (fun v => v.ctx.getS 3) = some (BitVec.allOnes 64) := by decide +kernel
theorem test_knot_stays_in_team : after (.knot 5 4) (two 0 0) (fun v => v.team.k[(5 : Fin 16)]) = some 0xFFFFFFFF := by decide +kernel
theorem test_vadd_wraps_i8 : after (.vadd 3 1 2) (lane0 0 0x7F 1) (fun v => v.team.lane 3 0) = some 0xFFFFFF80 := by decide +kernel
theorem test_vadd_saturates_i8 : after (.vadd 3 1 2) (lane0 0x8000 0x7F 1) (fun v => (v.team.lane 3 0, v.ctx.fpfl)) = some (0x7F, fSX) := by decide +kernel
theorem test_vfadd_f32 : after (.vfadd 3 1 2) (lane0 0xAA 0x3F800000 0x40000000) (fun v => v.team.lane 3 0) = some 0x40400000 := by decide +kernel
theorem test_vfmul_nan : after (.vfmul 3 1 2) (lane0 0xAA 0x7F800000 0) (fun v => v.team.lane 3 0) = some 0x7FC00000 := by decide +kernel
theorem test_exit_one_lane : after .exitLanes { team0 with k := team0.k.set 0 1 } (fun v => (v.team.live, v.team.slot)) = some (0xFFFFFFFE, .active) := by decide +kernel
theorem test_incw_wraps_at_bound : atomValue 10 32 9 1 10 = 0 ∧ atomValue 11 32 9 5 10 = 10 := by decide
theorem test_step_runs_the_placed_word : (match step placed with | .next u => u.view.map (fun v => (v.ctx.pc, v.ctx.isc)) | _ => none) = some (0x10004, 1) := by decide +kernel
theorem test_step_of_a_word_that_is_none :
    (match step (State.reset.withFetchWord 32 0xFC000000) with | .next u => u.view.map (fun v => (v.ctx.run, v.ctx.isc)) | _ => none) =
      some (.parkedFault, 0) := by decide +kernel

end Sys2Proof.Tests
end

/-! The words of the encoder and what the decoder reads in them (O58). -/

namespace Sys2Proof.Codec

-- one proof after another: side by side they take more threads than the check's memory limit has stacks for
set_option Elab.async false

/-! ### The fields of a word (R158) -/

/-- A word laid out by its major opcode, three register fields and the two halves of its low byte (R158, R159). -/
def word (m d a b x l : Nat) : Nat := m * 67108864 + d * 1048576 + a * 16384 + b * 256 + x * 16 + l

section
variable {m d a b x l : Nat}

@[simp] theorem fld_word_major (hm : m < 64) (hd : d < 64) (ha : a < 64) (hb : b < 64) (hx : x < 16) (hl : l < 16) :
    fld (word m d a b x l) 26 6 = m := by
  simp only [fld, word]; omega
@[simp] theorem fld_word_low (hx : x < 16) (hl : l < 16) : fld (word m d a b x l) 0 8 = x * 16 + l := by simp only [fld, word]; omega

@[simp] theorem fld_word_d (hd : d < 64) (ha : a < 64) (hb : b < 64) (hx : x < 16) (hl : l < 16) :
    fld (word m d a b x l) 20 6 = d := by simp only [fld, word]; omega
@[simp] theorem fld_word_d4 (hd : d < 16) (ha : a < 64) (hb : b < 64) (hx : x < 16) (hl : l < 16) :
    fld (word m d a b x l) 20 4 = d ∧ fld (word m d a b x l) 24 2 = 0 := by simp only [fld, word]; omega
@[simp] theorem fld_word_d2 (hd : d < 4) (ha : a < 64) (hb : b < 64) (hx : x < 16) (hl : l < 16) :
    fld (word m d a b x l) 20 2 = d ∧ fld (word m d a b x l) 22 4 = 0 := by simp only [fld, word]; omega

@[simp] theorem fld_word_a (ha : a < 64) (hb : b < 64) (hx : x < 16) (hl : l < 16) : fld (word m d a b x l) 14 6 = a := by
  simp only [fld, word]; omega
@[simp] theorem fld_word_a4 (ha : a < 16) (hb : b < 64) (hx : x < 16) (hl : l < 16) :
    fld (word m d a b x l) 14 4 = a ∧ fld (word m d a b x l) 18 2 = 0 := by simp only [fld, word]; omega
@[simp] theorem fld_word_a2 (ha : a < 4) (hb : b < 64) (hx : x < 16) (hl : l < 16) :
    fld (word m d a b x l) 14 2 = a ∧ fld (word m d a b x l) 16 4 = 0 := by simp only [fld, word]; omega

@[simp] theorem fld_word_b (hb : b < 64) (hx : x < 16) (hl : l < 16) : fld (word m d a b x l) 8 6 = b := by simp only [fld, word]; omega
@[simp] theorem fld_word_b4 (hb : b < 16) (hx : x < 16) (hl : l < 16) :
    fld (word m d a b x l) 8 4 = b ∧ fld (word m d a b x l) 12 2 = 0 := by simp only [fld, word]; omega
@[simp] theorem fld_word_b3 (hb : b < 8) (hx : x < 16) (hl : l < 16) :
    fld (word m d a b x l) 8 3 = b ∧ fld (word m d a b x l) 11 3 = 0 := by simp only [fld, word]; omega

/-! Fields that span several registers are zero where these are. -/

@[simp] theorem fld_word_8_18 (hx : x < 16) (hl : l < 16) : fld (word m 0 0 0 x l) 8 18 = 0 := by simp only [fld, word]; omega
@[simp] theorem fld_word_8_12 (hx : x < 16) (hl : l < 16) : fld (word m d 0 0 x l) 8 12 = 0 := by simp only [fld, word]; omega
@[simp] theorem fld_word_14_12 (hb : b < 64) (hx : x < 16) (hl : l < 16) : fld (word m 0 0 b x l) 14 12 = 0 := by simp only [fld, word]; omega
@[simp] theorem fld_word_11_15 (hb : b < 8) (hx : x < 16) (hl : l < 16) : fld (word m 0 0 b x l) 11 15 = 0 := by simp only [fld, word]; omega

@[simp] theorem fld_word_high (hx : x < 16) (hl : l < 16) : fld (word m d a b x l) 4 4 = x := by simp only [fld, word]; omega
@[simp] theorem fld_word_lowest (hl : l < 16) : fld (word m d a b x l) 0 4 = l := by simp only [fld, word]; omega

/-! The memory accesses hold two flags, or a space, above a two-bit size in the upper half (R164: LDS to LDGS). -/

@[simp] theorem fld_word_flags {c e z : Nat} (hc : c < 2) (he : e < 2) (hz : z < 4) (hl : l < 16) :
    let w := word m d a b (c * 8 + e * 4 + z) l
    fld w 7 1 = c ∧ fld w 6 1 = e ∧ fld w 4 2 = z := by simp only [fld, word]; omega
@[simp] theorem fld_word_flag {c z : Nat} (hc : c < 2) (hz : z < 4) (hl : l < 16) :
    let w := word m d a b (c * 8 + z) l
    fld w 7 1 = c ∧ fld w 6 1 = 0 ∧ fld w 4 2 = z := by simp only [fld, word]; omega
@[simp] theorem fld_word_space {s z : Nat} (hs : s < 4) (hz : z < 4) (hl : l < 16) :
    let w := word m d a b (s * 4 + z) l
    fld w 6 2 = s ∧ fld w 4 2 = z := by simp only [fld, word]; omega
@[simp] theorem fld_word_size {z : Nat} (hz : z < 4) (hl : l < 16) :
    let w := word m d a b z l
    fld w 6 2 = 0 ∧ fld w 4 2 = z := by simp only [fld, word]; omega

theorem word_lt (hm : m < 64) (hd : d < 64) (ha : a < 64) (hb : b < 64) (hx : x < 16) (hl : l < 16) :
    word m d a b x l < 4294967296 := by simp only [word]; omega

/-- The decoder of each major opcode (R164). -/
@[simp] theorem decodeWord_word (hd : d < 64) (ha : a < 64) (hb : b < 64) (hx : x < 16) (hl : l < 16) (lit : BitVec 32) :
    let w := fun m => word m d a b x l
    decodeWord (w 0) lit = decSys (w 0) ∧ decodeWord (w 12) lit = decSalu (w 12) lit ∧ decodeWord (w 20) lit = decMask (w 20) ∧
    decodeWord (w 21) lit = decKmem (w 21) ∧ decodeWord (w 24) lit = decVint (w 24) ∧ decodeWord (w 26) lit = decVmad (w 26) ∧
    decodeWord (w 28) lit = decVfp (w 28) ∧ decodeWord (w 29) lit = decVfma (w 29) ∧ decodeWord (w 30) lit = decVsfu (w 30) ∧
    decodeWord (w 32) lit = decVxl (w 32) ∧ decodeWord (w 36) lit = decLds (w 36) ∧ decodeWord (w 37) lit = decSts (w 37) ∧
    decodeWord (w 38) lit = decLdg (w 38) ∧ decodeWord (w 39) lit = decStg (w 39) ∧ decodeWord (w 40) lit = decLdsc (w 40) ∧
    decodeWord (w 41) lit = decStsc (w 41) ∧ decodeWord (w 42) lit = decLdgs (w 42) ∧ decodeWord (w 43) lit = decSmap (w 43) ∧
    decodeWord (w 44) lit = decAtom (w 44) ∧ decodeWord (w 45) lit = decRed (w 45) ∧ decodeWord (w 46) lit = decXrgn (w 46) ∧
    decodeWord (w 47) lit = decSync (w 47) ∧ decodeWord (w 48) lit = decMtx (w 48) ∧ decodeWord (w 50) lit = decQop (w 50) ∧
    decodeWord (w 51) lit = decAcc (w 51) ∧ decodeWord (w 52) lit = decFetch (w 52) ∧
    decodeWord (w 53) lit = decRoute (w 53) := by
  simp (disch := omega) [decodeWord]

/-- Only an SMOVL takes a literal word (R161). -/
@[simp] theorem hasLiteral_word (hm : m < 64) (hd : d < 64) (ha : a < 64) (hb : b < 64) (hx : x < 16) (hl : l < 16) :
    hasLiteral (word m d a b x l) = (m == 12 && x * 16 + l == 23) := by
  simp only [hasLiteral, fld_word_major hm hd ha hb hx hl, fld_word_low hx hl]
end

/-! ### The words of `encodeNat` by their registers -/

section
variable {B d a b l : Nat}

theorem word_d (hB : B % 67108864 < 16384) :
    B + d * 1048576 = word (B / 67108864) d 0 (B % 16384 / 256) (B % 256 / 16) (B % 16) := by simp only [word]; omega
theorem word_a (hB : B % 67108864 < 256) : B + a * 16384 = word (B / 67108864) 0 a 0 (B % 256 / 16) (B % 16) := by
  simp only [word]; omega
theorem word_b (hB : B % 67108864 < 256) : B + b * 256 = word (B / 67108864) 0 0 b (B % 256 / 16) (B % 16) := by
  simp only [word]; omega
theorem word_da (hB : B % 67108864 < 16384) :
    B + d * 1048576 + a * 16384 = word (B / 67108864) d a (B % 16384 / 256) (B % 256 / 16) (B % 16) := by
  simp only [word]; omega
theorem word_db (hB : B % 67108864 < 256) : B + d * 1048576 + b * 256 = word (B / 67108864) d 0 b (B % 256 / 16) (B % 16) := by
  simp only [word]; omega
theorem word_ab (hB : B % 67108864 < 256) : B + a * 16384 + b * 256 = word (B / 67108864) 0 a b (B % 256 / 16) (B % 16) := by
  simp only [word]; omega
theorem word_dab (hB : B % 67108864 < 256) :
    B + d * 1048576 + a * 16384 + b * 256 = word (B / 67108864) d a b (B % 256 / 16) (B % 16) := by simp only [word]; omega
theorem word_dab_nib (hB : B % 67108864 < 256) (h : B % 16 = 0) :
    B + d * 1048576 + a * 16384 + b * 256 + l = word (B / 67108864) d a b (B % 256 / 16) l := by
  simp only [word]; omega
theorem word_da_nib (hB : B % 67108864 < 256) (h : B % 16 = 0) :
    B + d * 1048576 + a * 16384 + l = word (B / 67108864) d a 0 (B % 256 / 16) l := by
  simp only [word]; omega
theorem word_d_nib (hB : B % 67108864 < 256) (h : B % 16 = 0) :
    B + d * 1048576 + l = word (B / 67108864) d 0 0 (B % 256 / 16) l := by
  simp only [word]; omega
theorem word_dab_scale {z : Nat} (hB : B % 67108864 = 0) :
    B + d * 1048576 + a * 16384 + b * 256 + z * 16 + l = word (B / 67108864) d a b z l := by simp only [word]; omega
theorem word_dab_space {s z : Nat} (hB : B % 67108864 = 0) :
    B + d * 1048576 + a * 16384 + b * 256 + s * 64 + z * 16 + l = word (B / 67108864) d a b (s * 4 + z) l := by
  simp only [word]; omega
theorem word_dab_flag {c z : Nat} (hB : B % 67108864 = 0) :
    B + d * 1048576 + a * 16384 + b * 256 + c * 128 + z * 16 + l = word (B / 67108864) d a b (c * 8 + z) l := by
  simp only [word]; omega
theorem word_dab_flags {c e z : Nat} (hB : B % 67108864 = 0) :
    B + d * 1048576 + a * 16384 + b * 256 + c * 128 + e * 64 + z * 16 + l = word (B / 67108864) d a b (c * 8 + e * 4 + z) l := by
  simp only [word]; omega
end

/-! A fourth register stands above a two-bit code (R164: VMAD and VFMA). -/

@[simp] theorem fld_quad {B d a b c : Nat} (hB : B % 67108864 < 4) (hd : d < 64) (ha : a < 64) (hb : b < 64) (hc : c < 64) :
    let w := B + d * 1048576 + a * 16384 + b * 256 + c * 4
    fld w 26 6 = B / 67108864 % 64 ∧ fld w 20 6 = d ∧ fld w 14 6 = a ∧ fld w 8 6 = b ∧ fld w 2 6 = c ∧ fld w 0 2 = B % 4 := by
  simp only [fld]; omega

/-! Words with an immediate hold it in their low bits. -/

section
variable {B d a : Nat}

@[simp] theorem fld_imm26 (hB : B % 67108864 = 0) (i : BitVec 26) :
    fld (B + i.toNat) 26 6 = B / 67108864 % 64 ∧ fld (B + i.toNat) 0 26 = i.toNat := by simp only [fld]; omega
@[simp] theorem fld_imm16 (hB : B % 67108864 = 0) (i : BitVec 16) :
    fld (B + i.toNat) 26 6 = B / 67108864 % 64 ∧ fld (B + i.toNat) 16 10 = 0 ∧ fld (B + i.toNat) 0 16 = i.toNat := by
  simp only [fld]; omega
@[simp] theorem fld_imm20 (hB : B % 67108864 = 0) (hd : d < 64) (i : BitVec 20) :
    let w := B + d * 1048576 + i.toNat
    fld w 26 6 = B / 67108864 % 64 ∧ fld w 20 6 = d ∧ fld w 0 20 = i.toNat := by simp only [fld]; omega
@[simp] theorem fld_imm20_k (hB : B % 67108864 = 0) (hd : d < 16) (i : BitVec 20) :
    let w := B + d * 1048576 + i.toNat
    fld w 20 4 = d ∧ fld w 24 2 = 0 := by simp only [fld]; omega
@[simp] theorem fld_imm14 (hB : B % 67108864 = 0) (hd : d < 64) (ha : a < 64) (i : BitVec 14) :
    let w := B + d * 1048576 + a * 16384 + i.toNat
    fld w 26 6 = B / 67108864 % 64 ∧ fld w 20 6 = d ∧ fld w 14 6 = a ∧ fld w 0 14 = i.toNat := by simp only [fld]; omega
end

/-- Decoding the word gives the instruction, the word says whether a literal word follows, and it has 32 bits. -/
def ReadsBack (i : Instr) (w : Nat) (l : Option (BitVec 32)) : Prop :=
  decodeWord w (l.getD 0) = .ok i ∧ hasLiteral w = l.isSome ∧ w < 4294967296

/-! Words with a condition on a field beyond its width (R162). -/

section
variable (d a b : Fin 64) (q : Fin 4) (k : Fin 16) (c e : Bool) (s z : Fin 4) (l : Fin 16)

theorem readsBack_srd (h : (Instr.srd d b).wf = true) :
    ReadsBack (.srd d b) (0x00000005 + d.val * 1048576 + b.val * 256) none := by
  rw [word_db (by decide)]
  simpa (disch := omega) [ReadsBack, need, word_lt, decSys, Instr.wf] using h

theorem readsBack_swr (h : (Instr.swr a b).wf = true) :
    ReadsBack (.swr a b) (0x00000006 + a.val * 16384 + b.val * 256) none := by
  rw [word_ab (by decide)]
  simpa (disch := omega) [ReadsBack, need, word_lt, decSys, Instr.wf] using h

theorem readsBack_sbfx (h : (Instr.sbfx d a b).wf = true) :
    ReadsBack (.sbfx d a b) (0x3000001B + d.val * 1048576 + a.val * 16384 + b.val * 256) none := by
  rw [word_dab (by decide)]
  simpa (disch := omega) [ReadsBack, need, word_lt, decSalu, Instr.wf] using h

theorem readsBack_stmap (h : (Instr.stmap a b).wf = true) :
    ReadsBack (.stmap a b) (0xAC000000 + a.val * 16384 + b.val * 256) none := by
  rw [word_ab (by decide)]
  simpa (disch := omega) [ReadsBack, need, word_lt, decSmap, Instr.wf] using h

theorem readsBack_astr (h : (Instr.astr q a).wf = true) :
    ReadsBack (.astr q a) (0xCC000000 + q.val * 1048576 + a.val * 16384) none := by
  rw [word_da (by decide)]
  simpa (disch := omega) [ReadsBack, need, word_lt, decAcc, Instr.wf] using h

theorem readsBack_hdef (h : (Instr.hdef k a l).wf = true) :
    ReadsBack (.hdef k a l) (0xD0000000 + k.val * 1048576 + a.val * 16384 + l.val) none := by
  rw [word_da_nib (by decide) (by decide)]
  simpa (disch := omega) [ReadsBack, need, word_lt, decFetch, Instr.wf] using h

theorem readsBack_epool (h : (Instr.epool d k b l).wf = true) :
    ReadsBack (.epool d k b l) (0xD0000020 + d.val * 1048576 + k.val * 16384 + b.val * 256 + l.val) none := by
  rw [word_dab_nib (by decide) (by decide)]
  simpa (disch := omega) [ReadsBack, need, word_lt, decFetch, Instr.wf] using h

theorem readsBack_lds (h : (Instr.lds d a b c e z l).wf = true) : ReadsBack (.lds d a b c e z l)
    (0x90000000 + d.val * 1048576 + a.val * 16384 + b.val * 256 + c.toNat * 128 + e.toNat * 64 + z.val * 16 + l.val) none := by
  have hc := c.toNat_lt
  have he := e.toNat_lt
  rw [word_dab_flags (by decide)]
  simpa (disch := omega) [ReadsBack, need, word_lt, decLds, Instr.wf, imp_iff_not_or] using h

theorem readsBack_ldg (h : (Instr.ldg d a b c e z l).wf = true) : ReadsBack (.ldg d a b c e z l)
    (0x98000000 + d.val * 1048576 + a.val * 16384 + b.val * 256 + c.toNat * 128 + e.toNat * 64 + z.val * 16 + l.val) none := by
  have hc := c.toNat_lt
  have he := e.toNat_lt
  rw [word_dab_flags (by decide)]
  simpa (disch := omega) [ReadsBack, need, word_lt, decLdg, Instr.wf, imp_iff_not_or] using h

theorem readsBack_sts : ReadsBack (.sts d a b c z l)
    (0x94000000 + d.val * 1048576 + a.val * 16384 + b.val * 256 + c.toNat * 128 + z.val * 16 + l.val) none := by
  have hc := c.toNat_lt
  rw [word_dab_flag (by decide)]
  simp (disch := omega) [ReadsBack, need, word_lt, decSts]

theorem readsBack_stg : ReadsBack (.stg d a b c z l)
    (0x9C000000 + d.val * 1048576 + a.val * 16384 + b.val * 256 + c.toNat * 128 + z.val * 16 + l.val) none := by
  have hc := c.toNat_lt
  rw [word_dab_flag (by decide)]
  simp (disch := omega) [ReadsBack, need, word_lt, decStg]

theorem readsBack_ldsc (h : (Instr.ldsc d a b s z l).wf = true) : ReadsBack (.ldsc d a b s z l)
    (0xA0000000 + d.val * 1048576 + a.val * 16384 + b.val * 256 + s.val * 64 + z.val * 16 + l.val) none := by
  rw [word_dab_space (by decide)]
  simpa (disch := omega) [ReadsBack, need, word_lt, decLdsc, Instr.wf, imp_iff_not_or] using h

theorem readsBack_stsc (h : (Instr.stsc d a b s z l).wf = true) : ReadsBack (.stsc d a b s z l)
    (0xA4000000 + d.val * 1048576 + a.val * 16384 + b.val * 256 + s.val * 64 + z.val * 16 + l.val) none := by
  rw [word_dab_space (by decide)]
  simpa (disch := omega) [ReadsBack, need, word_lt, decStsc, Instr.wf, imp_iff_not_or] using h

theorem readsBack_ldgs : ReadsBack (.ldgs d a b z l)
    (0xA8000000 + d.val * 1048576 + a.val * 16384 + b.val * 256 + z.val * 16 + l.val) none := by
  rw [word_dab_scale (by decide)]
  simp (disch := omega) [ReadsBack, need, word_lt, decLdgs]
end

/-- The words of ATOM and RED, which act at the home (R244 to R246). -/
def isHomeOp : Instr → Bool
  | .atomAdd .. | .atomMin .. | .atomMax .. | .atomMinn .. | .atomMaxn .. | .atomAnd .. | .atomOr .. | .atomXor .. |
    .atomExch .. | .atomCas .. | .atomIncw .. | .atomAddb .. | .atomExchq .. | .redAdd .. | .redMin .. | .redMax .. |
    .redMinn .. | .redMaxn .. | .redAnd .. | .redOr .. | .redXor .. | .redFadd .. | .redFmin .. | .redFmax .. => true
  | _ => false

/-- What has to be read back of an instruction: its word, if it has one. -/
def ReadsOwnWord (i : Instr) : Prop :=
  match encodeNat i with
  | some (w, l) => ReadsBack i w l
  | none => True

theorem readsOwnWord_homeOp (i : Instr) (h : isHomeOp i = true) : ReadsOwnWord i := by
  cases i
  case atomAdd d a b l | atomMin d a b l | atomMax d a b l | atomMinn d a b l | atomMaxn d a b l | atomAnd d a b l |
      atomOr d a b l | atomXor d a b l | atomExch d a b l | atomCas d a b l | atomIncw d a b l | atomAddb d a b l |
      atomExchq d a b l | redAdd d a b l | redMin d a b l | redMax d a b l | redMinn d a b l | redMaxn d a b l |
      redAnd d a b l | redOr d a b l | redXor d a b l | redFadd d a b l | redFmin d a b l | redFmax d a b l =>
    dsimp only [ReadsOwnWord, encodeNat]
    rw [word_dab_nib (by decide) (by decide)]
    simp (disch := omega) [ReadsBack, need, word_lt, decAtom, decRed]
  all_goals nomatch h

/-- The words of the vector unit: integer, floating, special functions, cross-lane (R213 to R228). -/
def isLaneOp : Instr → Bool
  | .vabs .. | .vneg .. | .vpopc .. | .vclz .. | .vmov .. | .vmovs .. | .vfabs .. | .vfneg .. | .vfclass .. | .vcvt .. |
    .vpack .. | .vunpk .. | .viota .. | .vadd .. | .vsub .. | .vmul .. | .vmulh .. | .vand .. | .vor .. | .vxor .. | .vandn .. |
    .vshl .. | .vshr .. | .vsra .. | .vmin .. | .vmax .. | .vsel .. | .vceq .. | .vcne .. | .vclt .. | .vcle .. | .vadds .. |
    .vmuls .. | .vfadd .. | .vfsub .. | .vfmul .. | .vfmin .. | .vfmax .. | .vfceq .. | .vfclt .. | .vfcle .. | .vfcun .. |
    .vfadds .. | .vfmuls .. | .vaddi .. | .vfdiv .. | .vperm .. | .vshup .. | .vshdn .. | .vshx .. | .vscan .. | .vscanx .. |
    .vred .. | .lbal .. | .vmad .. | .vmsb .. | .vbfx .. | .vbfi .. | .vfma .. | .vfms .. | .vfnma .. | .vfnms .. | .vfsqrt .. |
    .vfrcp .. | .vfrsq .. | .vfexp2 .. | .vflog2 .. | .vfsinpi .. | .vfcospi .. | .vftanh .. | .vbcast .. | .vcmpr .. => true
  | _ => false

theorem readsOwnWord_laneOp (i : Instr) (h : isLaneOp i = true) : ReadsOwnWord i := by
  cases i
  case vabs d a | vneg d a | vpopc d a | vclz d a | vmov d a | vmovs d a | vfabs d a | vfneg d a | vfclass d a | vcvt d a |
      vpack d a | vunpk d a =>
    dsimp only [ReadsOwnWord, encodeNat]
    rw [word_da (by decide)]
    simp (disch := omega) [ReadsBack, need, word_lt, decVint, decVfp]
  case viota d =>
    dsimp only [ReadsOwnWord, encodeNat]
    rw [word_d (by decide)]
    simp (disch := omega) [ReadsBack, need, word_lt, decVint]
  case vadd d a b | vsub d a b | vmul d a b | vmulh d a b | vand d a b | vor d a b | vxor d a b | vandn d a b | vshl d a b |
      vshr d a b | vsra d a b | vmin d a b | vmax d a b | vsel d a b | vceq d a b | vcne d a b | vclt d a b | vcle d a b |
      vadds d a b | vmuls d a b | vfadd d a b | vfsub d a b | vfmul d a b | vfmin d a b | vfmax d a b | vfceq d a b |
      vfclt d a b | vfcle d a b | vfcun d a b | vfadds d a b | vfmuls d a b =>
    dsimp only [ReadsOwnWord, encodeNat]
    rw [word_dab (by decide)]
    simp (disch := omega) [ReadsBack, need, word_lt, decVint, decVfp]
  case vaddi d a i =>
    dsimp only [ReadsOwnWord, encodeNat]
    simp (disch := omega) [ReadsBack, hasLiteral, decodeWord, need, decVaddi]
    omega
  case vfdiv d a b l | vperm d a b l | vshup d a b l | vshdn d a b l | vshx d a b l | vscan d a o l | vscanx d a o l |
      vred d a o l | lbal d a b l =>
    dsimp only [ReadsOwnWord, encodeNat]
    rw [word_dab_nib (by decide) (by decide)]
    simp (disch := omega) [ReadsBack, need, word_lt, decVsfu, decVxl]
  case vmad d a b c | vmsb d a b c | vbfx d a b c | vbfi d a b c | vfma d a b c | vfms d a b c | vfnma d a b c | vfnms d a b c =>
    dsimp only [ReadsOwnWord, encodeNat]
    simp (disch := omega) [ReadsBack, hasLiteral, decodeWord, need, decVmad, decVfma]
    omega
  case vfsqrt d a l | vfrcp d a l | vfrsq d a l | vfexp2 d a l | vflog2 d a l | vfsinpi d a l | vfcospi d a l | vftanh d a l |
      vbcast d a l | vcmpr d a l =>
    dsimp only [ReadsOwnWord, encodeNat]
    rw [word_da_nib (by decide) (by decide)]
    simp (disch := omega) [ReadsBack, need, word_lt, decVsfu, decVxl]
  all_goals nomatch h

/-- The word of every well-formed instruction is read back as that instruction. -/
theorem readsOwnWord (i : Instr) (hwf : i.wf = true) : ReadsOwnWord i := by
  cases i
  case nop | brk | endCtx | exitLanes | xbegin | xabort | cbara | cbarw =>
    exact ⟨rfl, rfl, by decide⟩
  case ret a | modev a | barv a =>
    dsimp only [ReadsOwnWord, encodeNat]
    rw [word_a (by decide)]
    simp (disch := omega) [ReadsBack, need, word_lt, decSys, decSync]
  case stqry d n =>
    dsimp only [ReadsOwnWord, encodeNat]
    rw [word_db (by decide)]
    simp (disch := omega) [ReadsBack, need, word_lt, decSmap]
  case pref a b | waitc a p | binit a b | barc a p | bwait a b =>
    dsimp only [ReadsOwnWord, encodeNat]
    rw [word_ab (by decide)]
    simp (disch := omega) [ReadsBack, need, word_lt, decSmap, decSync]
  case sliceof d a | spop d a | sclz d a | sctz d a | smov d a | knot d a | kmov d a | kpop d a | kfirst d a | xend d a |
      vpop d a | qstat d a =>
    dsimp only [ReadsOwnWord, encodeNat]
    rw [word_da (by decide)]
    simp (disch := omega) [ReadsBack, need, word_lt, decSys, decSalu, decMask, decXrgn, decQop]
  case mdrd d | kclr d | klive d | aqwait d =>
    dsimp only [ReadsOwnWord, encodeNat]
    rw [word_d (by decide)]
    simp (disch := omega) [ReadsBack, need, word_lt, decSys, decMask, decAcc]
  case mode i | trap c | rgn t | bra o | call o =>
    dsimp only [ReadsOwnWord, encodeNat]
    simp (disch := omega) [ReadsBack, hasLiteral, decodeWord, need, decMode, decTrap, decRgn, decBra, decCall]
    omega
  case bsz c o | bsnz c o | bkz c o | bknz c o | bkall c o =>
    dsimp only [ReadsOwnWord, encodeNat]
    simp (disch := omega) [ReadsBack, hasLiteral, decodeWord, need, decBsz, decBsnz, decBkz, decBknz, decBkall]
    omega
  case sadd d a b | ssub d a b | smul d a b | smulhi d a b | smulhn d a b | sand d a b | sor d a b | sxor d a b | sandn d a b |
      sshl d a b | sshr d a b | ssra d a b | smin d a b | smax d a b | sminn d a b | smaxn d a b | sseq d a b | sslt d a b |
      ssltn d a b | sshli d a n | sshri d a n | ssrai d a n | kand d a b | kor d a b | kxor d a b | kandn d a b | ktos d a b |
      kfroms d a b =>
    dsimp only [ReadsOwnWord, encodeNat]
    rw [word_dab (by decide)]
    simp (disch := omega) [ReadsBack, need, word_lt, decSalu, decMask]
  case smovl d lit | smovlSigned d lit =>
    dsimp only [ReadsOwnWord, encodeNat]
    rw [word_d (by decide)]
    simp (disch := omega) [ReadsBack, need, word_lt, decSalu]
  case smovlHigh d a lit =>
    dsimp only [ReadsOwnWord, encodeNat]
    rw [word_da (by decide)]
    simp (disch := omega) [ReadsBack, word_lt, decSalu]
  case saddi d a i | sandi d a i | sori d a i | sxori d a i | sslti d a i =>
    dsimp only [ReadsOwnWord, encodeNat]
    simp (disch := omega) [ReadsBack, hasLiteral, decodeWord, need, decSaddi, decSandi, decSori, decSxori, decSslti]
    omega
  case kld d a b l | kst d a b l | mma d a b l | mmas d a b l | mdrain d a b l | mxport d a b l | mxload d a b l |
      fetch d h b l | route d a b l =>
    dsimp only [ReadsOwnWord, encodeNat]
    rw [word_dab_nib (by decide) (by decide)]
    simp (disch := omega) [ReadsBack, need, word_lt, decKmem, decMtx, decFetch, decRoute]
  case msplit d a l | mstat d a l =>
    dsimp only [ReadsOwnWord, encodeNat]
    rw [word_da_nib (by decide) (by decide)]
    simp (disch := omega) [ReadsBack, need, word_lt, decMtx]
  case stunmap n | stflush n | stinv n | fenceAcq s | fenceRel s | fenceFull s =>
    dsimp only [ReadsOwnWord, encodeNat]
    rw [word_b (by decide)]
    simp (disch := omega) [ReadsBack, need, word_lt, decSmap, decSync]
  case mzero d l =>
    dsimp only [ReadsOwnWord, encodeNat]
    rw [word_d_nib (by decide) (by decide)]
    simp (disch := omega) [ReadsBack, need, word_lt, decMtx]
  case srd => exact readsBack_srd _ _ hwf
  case swr => exact readsBack_swr _ _ hwf
  case sbfx => exact readsBack_sbfx _ _ _ hwf
  case stmap => exact readsBack_stmap _ _ hwf
  case astr => exact readsBack_astr _ _ hwf
  case hdef => exact readsBack_hdef _ _ _ hwf
  case epool => exact readsBack_epool _ _ _ _ hwf
  case lds => exact readsBack_lds _ _ _ _ _ _ _ hwf
  case ldg => exact readsBack_ldg _ _ _ _ _ _ _ hwf
  case sts => exact readsBack_sts _ _ _ _ _ _
  case stg => exact readsBack_stg _ _ _ _ _ _
  case ldsc => exact readsBack_ldsc _ _ _ _ _ _ hwf
  case stsc => exact readsBack_stsc _ _ _ _ _ _ hwf
  case ldgs => exact readsBack_ldgs _ _ _ _ _
  case atomAdd | atomMin | atomMax | atomMinn | atomMaxn | atomAnd | atomOr | atomXor | atomExch | atomCas | atomIncw |
      atomAddb | atomExchq | redAdd | redMin | redMax | redMinn | redMaxn | redAnd | redOr | redXor | redFadd | redFmin |
      redFmax =>
    exact readsOwnWord_homeOp _ rfl
  case vabs | vneg | vpopc | vclz | vmov | vmovs | vfabs | vfneg | vfclass | vcvt | vpack | vunpk | viota | vadd | vsub | vmul |
      vmulh | vand | vor | vxor | vandn | vshl | vshr | vsra | vmin | vmax | vsel | vceq | vcne | vclt | vcle | vadds | vmuls |
      vfadd | vfsub | vfmul | vfmin | vfmax | vfceq | vfclt | vfcle | vfcun | vfadds | vfmuls | vaddi | vfdiv | vperm | vshup |
      vshdn | vshx | vscan | vscanx | vred | lbal | vmad | vmsb | vbfx | vbfi | vfma | vfms | vfnma | vfnms | vfsqrt | vfrcp |
      vfrsq | vfexp2 | vflog2 | vfsinpi | vfcospi | vftanh | vbcast | vcmpr =>
    exact readsOwnWord_laneOp _ rfl
  -- what is left are the events, which have no word
  all_goals trivial

/-! ### From bytes to words (R5, R157, R161) -/

@[simp] theorem leBytes_length (n v : Nat) : (leBytes n v).length = n := by
  induction n generalizing v with
  | zero => rfl
  | succ n ih => simp [leBytes, ih]

/-- The four bytes of a word stand for it. -/
theorem leNat_leBytes_word (w : BitVec 32) : leNat (leBytes 4 w.toNat) = w.toNat := by
  simp only [leBytes, leNat, BitVec.toNat_ofNat]
  omega

/-- An instruction without a literal word is decoded from its four bytes. -/
theorem decode_word {i : Instr} {w : BitVec 32} (rest : List Byte) (hl : hasLiteral w.toNat = false)
    (hd : decodeWord w.toNat 0 = .ok i) : decode (leBytes 4 w.toNat ++ rest) = .ok (i, rest) := by
  have hlen : ¬ (leBytes 4 w.toNat ++ rest).length < 4 := by simp
  rw [decode, if_neg hlen, List.take_left' (leBytes_length 4 _), List.drop_left' (leBytes_length 4 _), leNat_leBytes_word]
  simp only [hl, hd, Bool.false_eq_true, if_false]

/-- An instruction with a literal word is decoded from the bytes of both. -/
theorem decode_word_literal {i : Instr} {w lit : BitVec 32} (rest : List Byte) (hl : hasLiteral w.toNat = true)
    (hd : decodeWord w.toNat lit = .ok i) :
    decode (leBytes 4 w.toNat ++ (leBytes 4 lit.toNat ++ rest)) = .ok (i, rest) := by
  have h4 : ¬ (leBytes 4 w.toNat ++ (leBytes 4 lit.toNat ++ rest)).length < 4 := by simp
  have h8 : ¬ (leBytes 4 w.toNat ++ (leBytes 4 lit.toNat ++ rest)).length < 8 := by simp; omega
  have hdrop : (leBytes 4 w.toNat ++ (leBytes 4 lit.toNat ++ rest)).drop 8 = rest := by
    rw [← List.append_assoc]
    exact List.drop_left' (by simp)
  rw [decode, if_neg h4, List.take_left' (leBytes_length 4 _), List.drop_left' (leBytes_length 4 _), leNat_leBytes_word]
  simp only [hl, if_true, if_neg h8]
  rw [List.take_left' (leBytes_length 4 _), leNat_leBytes_word, hdrop, BitVec.ofNat_toNat, BitVec.setWidth_eq, hd]

/-- Every instruction word has an encoding. -/
theorem encodeNat_isSome (i : Instr) : (encodeNat i).isSome = !i.isEvent := by cases i <;> rfl

/-- Settles O58: each word is read back from its fields, so its bytes are. -/
theorem decodeEncode : Obligations.DecodeEncode := by
  intro i rest hev hwf
  have hback := readsOwnWord i hwf
  have hsome := encodeNat_isSome i
  rw [hev] at hsome
  obtain ⟨⟨w, l⟩, he⟩ := Option.isSome_iff_exists.1 hsome
  rw [ReadsOwnWord, he] at hback
  obtain ⟨hd, hl, hlt⟩ := hback
  have hw : (BitVec.ofNat 32 w).toNat = w := by simpa using Nat.mod_eq_of_lt hlt
  rw [← hw] at hd hl
  cases l with
  | none => simpa [encodeBytes, encode, he] using decode_word rest hl hd
  | some lit => simpa [encodeBytes, encode, he] using decode_word_literal rest hl hd

end Sys2Proof.Codec

/-! ## O60: every step keeps memory canonical

Six operations of the model write the field `mem` (`hostPut`, `settle`, `commitSector`, `hubWrite`, `outsideStore` and `resetPackage`),
each through an operation of `Laws/Memory`. Below, every operation that gives a state has one lemma `<operation>_canonical`, in the
order of the model's files: each branch it takes is made of operations before it. Where it writes no memory at all, the lemma is its
own hypothesis. -/

namespace Sys2Proof.Machine.Canonical

-- one proof after another: side by side they take more threads than the check's memory limit has stacks for
set_option Elab.async false

/-! ### What is asked of the results that hold a state -/

/-- Both ends of an operation that may be refused leave memory canonical. -/
def BothCanonical : Except State State → Prop
  | .ok s => MemoryCanonical s
  | .error s => MemoryCanonical s

/-- Both ends of an operation that may be refused, the good one with a value, leave memory canonical. -/
def BothFstCanonical {α : Type} : Except State (State × α) → Prop
  | .ok p => MemoryCanonical p.1
  | .error s => MemoryCanonical s

/-- A state that an operation may give is canonical. -/
def SomeCanonical : Option State → Prop
  | some s => MemoryCanonical s
  | none => True

/-- The state after an effect without a fault is canonical. -/
def OkCanonical : Except Flt State → Prop
  | .ok s => MemoryCanonical s
  | .error _ => True

/-- The next state, when there is one, is canonical. -/
def NextCanonical : Host.Outcome State Fault Refusal → Prop
  | .next s => MemoryCanonical s
  | _ => True

section
variable {s : State}

/-! ### Folds and conditionals -/

theorem ite_canonical {c : Prop} [Decidable c] {u v : State} (hu : MemoryCanonical u) (hv : MemoryCanonical v) :
    MemoryCanonical (if c then u else v) := by
  split
  · exact hu
  · exact hv

theorem foldl_canonical {α : Type} {f : State → α → State} (hf : ∀ s x, MemoryCanonical s → MemoryCanonical (f s x)) (l : List α)
    (h : MemoryCanonical s) : MemoryCanonical (l.foldl f s) :=
  List.foldlRecOn l f h fun _ h x _ => hf _ x h

theorem foldl_fst_canonical {α β : Type} {f : State × β → α → State × β}
    (hf : ∀ a x, MemoryCanonical a.1 → MemoryCanonical (f a x).1) (l : List α) {a : State × β} (h : MemoryCanonical a.1) :
    MemoryCanonical (l.foldl f a).1 := by
  induction l generalizing a with
  | nil => exact h
  | cons x l ih => exact ih (hf a x h)

/-! ### Writes of the field itself -/

theorem canonical_of_mem {u : State} {m : Memory} (hu : u.mem = m) (hm : m.wf = true) : MemoryCanonical u := by
  rw [MemoryCanonical, hu]
  exact hm

theorem setN_canonical (h : MemoryCanonical s) (a : Nat) (bs : List Byte) :
    MemoryCanonical { s with mem := s.mem.setN a bs } := canonical_of_mem rfl (Memory.setN_wf a bs h)

/-! ### Machine/Trans -/

theorem setRec_canonical (h : MemoryCanonical s) (r : SectorRec) : MemoryCanonical (s.setRec r) := h

/-! ### Machine/Records -/

theorem hostPut_canonical (h : MemoryCanonical s) (a : Nat) (bs : List Byte) : MemoryCanonical (s.hostPut a bs) :=
  setN_canonical h _ _

theorem setFunc_canonical (h : MemoryCanonical s) (f : Nat) (r : FuncRegs) : MemoryCanonical (s.setFunc f r) := h

theorem ringPut_canonical (h : MemoryCanonical s) (r : ParkRec) : MemoryCanonical (s.ringPut r) := by
  grind [State.ringPut, MemoryCanonical, hostPut_canonical, setFunc_canonical]

theorem raiseRecord_canonical (h : MemoryCanonical s) (r : ParkRec) : MemoryCanonical (s.raiseRecord r) := by
  grind [State.raiseRecord, MemoryCanonical, setFunc_canonical, ringPut_canonical]

theorem flushHeld_canonical (h : MemoryCanonical s) (f : Nat) : MemoryCanonical (s.flushHeld f) := by
  refine foldl_canonical (fun s r h => ?_) _ h
  dsimp only
  split_ifs
  · exact h
  · exact ringPut_canonical (setFunc_canonical h f _) r

/-! ### Machine/Ops -/

theorem putTeam_canonical (h : MemoryCanonical s) (t : Team) : MemoryCanonical (s.putTeam t) := h

theorem putLaunch_canonical (h : MemoryCanonical s) (l : Launch) : MemoryCanonical (s.putLaunch l) := h

theorem setDie_canonical (h : MemoryCanonical s) (d : Nat) (x : Die) : MemoryCanonical (s.setDie d x) := h

theorem requestAbort_canonical (h : MemoryCanonical s) (sid status : Nat) : MemoryCanonical (s.requestAbort sid status) := by
  grind [State.requestAbort, MemoryCanonical, putLaunch_canonical]

theorem zeroise_canonical (h : MemoryCanonical s) : MemoryCanonical s.zeroise := h

theorem stopAll_canonical (h : MemoryCanonical s) : MemoryCanonical s.stopAll := h

theorem reportAlarms_canonical (h : MemoryCanonical s) : MemoryCanonical s.reportAlarms := by
  unfold State.reportAlarms
  split_ifs
  · exact h
  · exact foldl_canonical (fun _ r h => raiseRecord_canonical h r) _ h

theorem raiseAlarm_canonical (h : MemoryCanonical s) (source : Nat) : MemoryCanonical (s.raiseAlarm source) := by
  grind [State.raiseAlarm, MemoryCanonical, raiseRecord_canonical, stopAll_canonical, reportAlarms_canonical, zeroise_canonical]

theorem progress_canonical (h : MemoryCanonical s) (sid : Nat) : MemoryCanonical (s.progress sid) := by
  grind [State.progress, MemoryCanonical, putLaunch_canonical]

theorem deny_canonical (h : MemoryCanonical s) (code : FaultCode) (sid : Nat) (lost : Option Nat) :
    MemoryCanonical (s.deny code sid lost) := by
  grind [State.deny, MemoryCanonical, requestAbort_canonical, raiseAlarm_canonical]

theorem park_canonical (h : MemoryCanonical s) (v : View) (f : Flt) (tcode : BitVec 16) (ss : List Word) :
    MemoryCanonical (park s v f tcode ss) := by
  grind [park, MemoryCanonical, raiseRecord_canonical, putTeam_canonical, deny_canonical]

theorem instr_canonical (h : MemoryCanonical s) {req : View → Req} {body : View → Except Flt State}
    (hb : ∀ v, OkCanonical (body v)) : NextCanonical (instr s req body) := by
  cases ho : instr s req body with
  | next u =>
    cases hv : s.view with
    | none => simp [instr, hv] at ho
    | some v =>
      obtain ⟨f, rfl⟩ | ⟨_, hu⟩ := instr_cases hv ho
      · exact park_canonical h ..
      · have := hb v
        rw [hu] at this
        exact this
  | fault f => trivial
  | refused r => trivial

theorem retire_canonical (h : MemoryCanonical s) (v : View) (t : Team) (c : Ctx) : MemoryCanonical (s.retire v t c) := h

theorem retireEnding_canonical (h : MemoryCanonical s) (v : View) (t : Team) (c : Ctx) :
    MemoryCanonical (s.retireEnding v t c) := h

theorem putOp_canonical (h : MemoryCanonical s) (o : Op) : MemoryCanonical (s.putOp o) := h

theorem addOp_canonical (h : MemoryCanonical s) (own : CtxRef) (lv : BitVec 16) (path : Option Path) (kind : OpKind) :
    MemoryCanonical (s.addOp own lv path kind) := h

theorem finishOp_canonical (h : MemoryCanonical s) (id : Nat) : MemoryCanonical (s.finishOp id) := h

theorem makeReady_canonical (h : MemoryCanonical s) (r : TeamRef) : MemoryCanonical (s.makeReady r) := by
  grind [State.makeReady, MemoryCanonical, putTeam_canonical]

theorem await_canonical (h : MemoryCanonical s) (v : View) (w : Wait) : MemoryCanonical (s.await v w) := by
  grind [State.await, MemoryCanonical, putTeam_canonical]

/-! ### Machine/Access -/

theorem putMap_canonical (h : MemoryCanonical s) (m : MapEntry) : MemoryCanonical (s.putMap m) := h

theorem observeAt_canonical (h : MemoryCanonical s) (w : Who) (c : CtxRef) (id : Nat) (ls : List Loc) :
    MemoryCanonical (s.observeAt w c id ls) := h

theorem observeAll_canonical (h : MemoryCanonical s) (w : Who) (c : CtxRef) (upto : Nat) :
    MemoryCanonical (s.observeAll w c upto) := h

theorem bumpTag_canonical (h : MemoryCanonical s) (line : Nat) : MemoryCanonical (s.bumpTag line) := h

theorem settle_canonical (h : MemoryCanonical s) (x : Nat) : MemoryCanonical (s.settle x) := by
  unfold State.settle
  dsimp only
  split
  · exact setRec_canonical (setN_canonical h _ _) _
  · exact h

theorem dropCopies_canonical (h : MemoryCanonical s) (sector : Nat) (p : Copy → Bool) :
    MemoryCanonical (s.dropCopies sector p) := h

theorem cisternEvict_canonical (h : MemoryCanonical s) (sector : Nat) : MemoryCanonical (s.cisternEvict sector) := by
  grind [State.cisternEvict, MemoryCanonical, requestAbort_canonical, setRec_canonical]

theorem sliceRoom_canonical (h : MemoryCanonical s) (die sector : Nat) : MemoryCanonical (s.sliceRoom die sector) := by
  grind [State.sliceRoom, MemoryCanonical, dropCopies_canonical, cisternEvict_canonical]

theorem makeTentative_canonical (h : MemoryCanonical s) (lv : BitVec 16) (sector : Nat) :
    MemoryCanonical (s.makeTentative lv sector) := by
  grind [State.makeTentative, MemoryCanonical, sliceRoom_canonical, settle_canonical, setRec_canonical]

theorem showEntry_canonical (h : MemoryCanonical s) (e : ExactEntry) : MemoryCanonical (s.showEntry e) := h

theorem showCells_canonical (h : MemoryCanonical s) (sector : Nat) : MemoryCanonical (s.showCells sector) := by
  grind [State.showCells, MemoryCanonical, showEntry_canonical]

theorem putRaw_canonical (h : MemoryCanonical s) (pa : Nat) (bytes : List Byte) : MemoryCanonical (s.putRaw pa bytes) := h

theorem putHome_canonical (h : MemoryCanonical s) (pa : Nat) (bytes : List Byte) : MemoryCanonical (s.putHome pa bytes) := by
  grind [State.putHome, MemoryCanonical, putRaw_canonical, showCells_canonical]

theorem putCells_canonical (h : MemoryCanonical s) (cs : List Host.Cell) : MemoryCanonical (s.putCells cs) :=
  foldl_canonical (fun _ x h => showCells_canonical h x) _ (foldl_canonical (fun _ (c : Host.Cell) h => putRaw_canonical h c.1 [c.2]) _ h)

theorem addCopy_canonical (h : MemoryCanonical s) (c : Copy) : MemoryCanonical (s.addCopy c) := by
  grind [State.addCopy, MemoryCanonical, dropCopies_canonical, sliceRoom_canonical]

theorem dropWalks_canonical (h : MemoryCanonical s) (sector : Nat) : MemoryCanonical (s.dropWalks sector) := by
  grind [State.dropWalks, MemoryCanonical]

theorem cleanProxy_canonical (h : MemoryCanonical s) (die : Nat) (secs : List Nat) : MemoryCanonical (s.cleanProxy die secs) := h

theorem shareAll_canonical (h : MemoryCanonical s) (sector : Nat) : MemoryCanonical (s.shareAll sector) := h

theorem addProxy_canonical (h : MemoryCanonical s) (die sector : Nat) (st : CState) :
    MemoryCanonical (s.addProxy die sector st) := by
  grind [State.addProxy, MemoryCanonical, addCopy_canonical]

theorem addCore_canonical (h : MemoryCanonical s) (die core sector : Nat) (st : CState) (fetch : Bool) :
    MemoryCanonical (s.addCore die core sector st fetch) := by
  grind [State.addCore, MemoryCanonical, addProxy_canonical, addCopy_canonical]

theorem shareCopy_canonical (h : MemoryCanonical s) (w : Who) (die core sector : Nat) (fetch : Bool) :
    MemoryCanonical (s.shareCopy w die core sector fetch) := by
  grind [State.shareCopy, MemoryCanonical, addCore_canonical, shareAll_canonical]

theorem abortYounger_canonical (h : MemoryCanonical s) (a b : Launch) : MemoryCanonical (s.abortYounger a b) := by
  grind [State.abortYounger, MemoryCanonical, requestAbort_canonical]

theorem markRead_canonical (h : MemoryCanonical s) (l : Launch) (sector : Nat) : MemoryCanonical (s.markRead l sector) := by
  grind [State.markRead, MemoryCanonical, setRec_canonical]

theorem noteRead_canonical (h : MemoryCanonical s) (l : Launch) (sector : Nat) : MemoryCanonical (s.noteRead l sector) := by
  grind [State.noteRead, MemoryCanonical, putLaunch_canonical]

theorem admitRead_canonical (h : MemoryCanonical s) (l : Launch) (sector : Nat) : BothCanonical (s.admitRead l sector) := by
  grind [State.admitRead, MemoryCanonical, BothCanonical, markRead_canonical, abortYounger_canonical, noteRead_canonical,
    requestAbort_canonical]

theorem admitWrite_canonical (h : MemoryCanonical s) (l : Launch) (sector : Nat) : BothCanonical (s.admitWrite l sector) := by
  grind [State.admitWrite, MemoryCanonical, BothCanonical, abortYounger_canonical, requestAbort_canonical]

theorem foldEntry_canonical (h : MemoryCanonical s) (e : ExactEntry) : MemoryCanonical (s.foldEntry e) := by
  grind [State.foldEntry, MemoryCanonical, putLaunch_canonical, setRec_canonical]

theorem exactRoom_canonical (h : MemoryCanonical s) (sector : Nat) : MemoryCanonical (s.exactRoom sector) := by
  grind [State.exactRoom, MemoryCanonical, foldEntry_canonical]

theorem exactEntry_canonical (h : MemoryCanonical s) (lv : BitVec 16) (sector ty va rnd : Nat) (seed : Word) :
    MemoryCanonical (s.exactEntry lv sector ty va rnd seed) := by
  grind [State.exactEntry, MemoryCanonical, exactRoom_canonical]

theorem mergeExact_canonical (h : MemoryCanonical s) (lv : BitVec 16) (va pa ty rnd : Nat) (seed : Word) (x : Nat) :
    MemoryCanonical (s.mergeExact lv va pa ty rnd seed x) := by
  grind [State.mergeExact, MemoryCanonical, showEntry_canonical, exactEntry_canonical]

theorem applyRed_canonical (h : MemoryCanonical s) (lv : BitVec 16) (sub ty rnd : Nat) (seed : Word) (va pa : Nat) (x : Word) :
    MemoryCanonical (s.applyRed lv sub ty rnd seed va pa x) := by
  grind [State.applyRed, MemoryCanonical, mergeExact_canonical, putHome_canonical]

theorem mergeLane_canonical (h : MemoryCanonical s) (o : Op) (sub ty rnd : Nat) (seed : Word) (x : RedLane) :
    BothCanonical (s.mergeLane o sub ty rnd seed x) := by
  grind [State.mergeLane, MemoryCanonical, BothCanonical, applyRed_canonical, admitWrite_canonical, makeTentative_canonical]

theorem leaveReds_canonical (h : MemoryCanonical s) (o : Op) (sub ty rnd : Nat) (seed : Word) (left : List RedLane) :
    MemoryCanonical (s.leaveReds o sub ty rnd seed left) := by
  grind [State.leaveReds, MemoryCanonical, putOp_canonical, finishOp_canonical]

theorem mergeOp_canonical (h : MemoryCanonical s) (o : Op) (x : Nat) : MemoryCanonical (s.mergeOp o x).1 := by
  unfold State.mergeOp
  split
  · split_ifs
    · exact h
    · refine leaveReds_canonical (foldl_fst_canonical (fun a l h => ?_) _ h) ..
      grind [BothCanonical, mergeLane_canonical]
  · exact h

theorem mergeU_canonical (h : MemoryCanonical s) (die core x : Nat) : MemoryCanonical (s.mergeU die core x).1 := by
  unfold State.mergeU
  extract_lets place r
  have hr : MemoryCanonical r.1 := by
    refine foldl_fst_canonical (fun a o h => ?_) _ h
    exact mergeOp_canonical h o x
  grind [addCore_canonical, dropCopies_canonical, bumpTag_canonical]

theorem gatherIf_canonical (h : MemoryCanonical s) (w : Who) (x : Nat) (pick : BitVec 16 → Bool) :
    BothCanonical (s.gatherIf w x pick) := by
  unfold State.gatherIf
  extract_lets r
  have hr : MemoryCanonical r.1 := by
    refine foldl_fst_canonical (fun a k h => ?_) _ h
    grind [mergeU_canonical]
  split <;> exact hr

theorem gather_canonical (h : MemoryCanonical s) (w : Who) (sector : Nat) : BothCanonical (s.gather w sector) := by
  grind [State.gather, MemoryCanonical, BothCanonical, gatherIf_canonical]

theorem gathered_canonical (h : MemoryCanonical s) (xs : List Nat) : MemoryCanonical (s.gathered xs) := by
  refine foldl_canonical (fun s x h => ?_) _ h
  grind [BothCanonical, gather_canonical]

theorem shareWalk_canonical (h : MemoryCanonical s) (sector : Nat) : MemoryCanonical (s.shareWalk sector) := by
  grind [State.shareWalk, MemoryCanonical, gathered_canonical, shareAll_canonical]

theorem noteWalk_canonical (h : MemoryCanonical s) (l : Launch) (die : Nat) (core : Option Nat) (vas : List Nat) :
    MemoryCanonical (s.noteWalk l die core vas) := by
  unfold State.noteWalk
  extract_lets secs caches new s1 s2
  have h1 : MemoryCanonical s1 :=
    foldl_canonical (fun _ _ h => foldl_canonical (fun _ _ h => shareWalk_canonical h _) _ h) _ h
  have h2 : MemoryCanonical s2 := foldl_canonical (fun _ x h => noteRead_canonical h l x) _ h1
  split
  · exact requestAbort_canonical h2 _ _
  · exact h2

theorem writeBack_canonical (h : MemoryCanonical s) (m : MapEntry) (x : WinSector) : MemoryCanonical (s.writeBack m x) := by
  have tentative {s : State} (gs : List Nat) (h : MemoryCanonical s) :
      MemoryCanonical (gs.foldl (fun s g => s.makeTentative m.lv g) s) :=
    foldl_canonical (fun _ g h => makeTentative_canonical h m.lv g) _ h
  unfold State.writeBack
  grind [noteWalk_canonical, deny_canonical, requestAbort_canonical, putCells_canonical, cleanProxy_canonical]

theorem recallWindows_canonical (h : MemoryCanonical s) (x : Nat) (keep : MapEntry → WinSector → Bool) :
    MemoryCanonical (s.recallWindows x keep) := by
  refine foldl_canonical (fun s m h => foldl_canonical (fun s w h => ?_) _ h) _ h
  grind [writeBack_canonical, putMap_canonical]

theorem shareWindows_canonical (h : MemoryCanonical s) (w : Who) (sector : Nat) : MemoryCanonical (s.shareWindows w sector) := h

theorem noteTeam_canonical (h : MemoryCanonical s) (t : Team) (vas : List Nat) : MemoryCanonical (s.noteTeam t vas) := by
  grind [State.noteTeam, MemoryCanonical, noteWalk_canonical]

theorem evictBuffer_canonical (h : MemoryCanonical s) (die core : Nat) : MemoryCanonical (s.evictBuffer die core) :=
  foldl_canonical (fun _ x h => mergeU_canonical h die core x) _ h

theorem grantU_canonical (h : MemoryCanonical s) (w : Who) (l : Launch) (die core sector : Nat) :
    BothCanonical (s.grantU w l die core sector) := by
  grind [State.grantU, MemoryCanonical, BothCanonical, evictBuffer_canonical, dropWalks_canonical, addCore_canonical,
    dropCopies_canonical, gatherIf_canonical, recallWindows_canonical, admitWrite_canonical]

theorem readSector_canonical (h : MemoryCanonical s) (w : Who) (l : Launch) (sector : Nat) :
    BothCanonical (s.readSector w l sector) := by
  grind [State.readSector, MemoryCanonical, BothCanonical, sliceRoom_canonical, shareWindows_canonical, setRec_canonical,
    admitRead_canonical, gather_canonical]

theorem writeSector_canonical (h : MemoryCanonical s) (w : Who) (l : Launch) (sector : Nat)
    (keepW : MapEntry → WinSector → Bool) (keepC : Copy → Bool) :
    BothCanonical (s.writeSector w l sector keepW keepC) := by
  grind [State.writeSector, MemoryCanonical, BothCanonical, dropWalks_canonical, dropCopies_canonical, recallWindows_canonical,
    admitWrite_canonical, makeTentative_canonical, gather_canonical]

/-- A traversal that stops at the first sector it cannot serve keeps memory canonical when each of its steps does. -/
theorem eachSector_canonical {α : Type} {f : State → α → Except State State}
    (hf : ∀ s x, MemoryCanonical s → BothCanonical (f s x)) (h : MemoryCanonical s) (xs : List α) :
    BothCanonical (eachSector s f xs) := by
  induction xs generalizing s with
  | nil => exact h
  | cons x xs ih =>
    have hx := hf s x h
    unfold eachSector
    split
    next hs => rw [hs] at hx; exact ih hx
    next hs => rw [hs] at hx; exact hx

theorem setStash_canonical (h : MemoryCanonical s) (r : TeamRef) (off : Nat) (bytes : List Byte) :
    MemoryCanonical (s.setStash r off bytes) := h

/-! ### Machine/MemOps -/

theorem startSector_canonical (h : MemoryCanonical s) (c : CtxRef) (m : MapEntry) (ix : Nat) (write : Bool) (need : Need) :
    MemoryCanonical (s.startSector c m ix write need) := by
  grind [State.startSector, MemoryCanonical, addOp_canonical]

theorem startTouch_canonical (h : MemoryCanonical s) (c : CtxRef) (p : Place) (n : Nat) (w : Bool) :
    MemoryCanonical (s.startTouch c p n w) := by
  unfold State.startTouch
  split
  · exact h
  · exact foldl_canonical (fun _ q h => startSector_canonical h ..) _ h

theorem renewTouch_canonical (h : MemoryCanonical s) (o : Op) (r : TeamRef) (off n : Nat) (w : Bool) :
    MemoryCanonical (s.renewTouch o r off n w) := by
  have started {s : State} (qs : List (MapEntry × Nat)) (h : MemoryCanonical s) :
      MemoryCanonical (qs.foldl (fun s q => s.startSector o.own q.1 q.2 w {}) s) :=
    foldl_canonical (fun _ q h => startSector_canonical h ..) _ h
  grind [State.renewTouch, deny_canonical]

theorem issueLoad_canonical (h : MemoryCanonical s) (v : View) (dst : LoadDst) (names : List RegName) (la : Nat) (na : Bool)
    (lanes : List LoadLane) : MemoryCanonical (issueLoad s v dst names la na lanes) := by
  unfold issueLoad
  split
  · exact retire_canonical h ..
  · exact retire_canonical (addOp_canonical (foldl_canonical (fun _ l h => startTouch_canonical h ..) _ h) ..) ..

theorem issueStore_canonical (h : MemoryCanonical s) (v : View) (na : Bool) (lanes : List StoreLane) :
    MemoryCanonical (issueStore s v na lanes) := by
  unfold issueStore
  split
  · exact retire_canonical h ..
  · exact retire_canonical (addOp_canonical (foldl_canonical (fun _ l h => startTouch_canonical h ..) _ h) ..) ..

theorem regionLoads_canonical (h : MemoryCanonical s) (v : View) (n : Nat) (t : Team) (ps : List (Nat × Place)) :
    BothFstCanonical (regionLoads v n s t ps) := by
  induction ps generalizing s t with
  | nil => exact h
  | cons p ps ih =>
    obtain ⟨i, p⟩ := p
    unfold regionLoads
    split
    · grind [BothFstCanonical, BothCanonical, observeAt_canonical, readSector_canonical]
    · grind [BothFstCanonical]

theorem issueGo_canonical (h : MemoryCanonical s) (v : View) (e g : Nat) : MemoryCanonical (issueGo s v e g) := h

theorem engineStore_canonical (h : MemoryCanonical s) (v : View) (x val : Word) : OkCanonical (engineStore s v x val) := by
  grind [engineStore, MemoryCanonical, OkCanonical, retire_canonical, issueGo_canonical, await_canonical]

theorem engineLoad_canonical (h : MemoryCanonical s) (v : View) (x : Word) (d : Fin 64) (la : Nat) :
    OkCanonical (engineLoad s v x d la) := by
  grind [engineLoad, MemoryCanonical, OkCanonical, retire_canonical]

theorem execLdgs_canonical (h : MemoryCanonical s) (d a b : Fin 64) (z : Fin 4) (l : Fin 16) :
    NextCanonical (execLdgs d a b z l s) := by
  refine instr_canonical h fun v => ?_
  split
  · trivial
  · split
    · exact h
    · exact retire_canonical (foldl_canonical (fun _ x h => addOp_canonical h ..) _ h) ..

/-! ### Machine/Scalar -/

theorem scalarOp_canonical (h : MemoryCanonical s) (d : Fin 64) (reads : List (Fin 64)) (f : Ctx → Word) :
    NextCanonical (scalarOp s d reads f) := by
  refine instr_canonical h fun v => ?_
  grind [OkCanonical, retire_canonical]

theorem scalar3_canonical (h : MemoryCanonical s) (d a b : Fin 64) (f : Word → Word → Word) : NextCanonical (scalar3 s d a b f) :=
  scalarOp_canonical h ..

theorem scalar2_canonical (h : MemoryCanonical s) (d a : Fin 64) (f : Word → Word) : NextCanonical (scalar2 s d a f) :=
  scalarOp_canonical h ..

theorem literalOp_canonical (h : MemoryCanonical s) (d : Fin 64) (reads : List (Fin 64)) (f : Ctx → Word) :
    NextCanonical (literalOp s d reads f) := by
  refine instr_canonical h fun v => ?_
  grind [OkCanonical, retire_canonical]

/-! ### Machine/Masks -/

theorem maskOp_canonical (h : MemoryCanonical s) (d : Fin 16) (reads : List RegName) (f : Team → Ctx → Mask) :
    NextCanonical (maskOp s d reads f) := by
  refine instr_canonical h fun v => ?_
  grind [OkCanonical, retire_canonical]

theorem maskToScalar_canonical (h : MemoryCanonical s) (d : Fin 64) (reads : List RegName) (f : Team → Ctx → Word) :
    NextCanonical (maskToScalar s d reads f) := by
  refine instr_canonical h fun v => ?_
  grind [OkCanonical, retire_canonical]

/-! ### Machine/VInt -/

theorem laneResult_canonical (h : MemoryCanonical s) (v : View) (wide : Bool) (d : Nat) (f : Nat → Option (Nat × Flags)) :
    MemoryCanonical (laneResult s v wide d f) := h

theorem intOp_canonical (h : MemoryCanonical s) (d : Nat) (srcs : List Nat) (extra : List RegName)
    (f : View → Nat → Nat → Option (Nat × Flags)) :
    NextCanonical (intOp s d srcs extra f) := by
  refine instr_canonical h fun v => ?_
  grind [OkCanonical, laneResult_canonical]

theorem satOp_canonical (h : MemoryCanonical s) (d : Nat) (srcs : List Nat) (extra : List RegName) (f : View → Nat → Nat → ℤ) :
    NextCanonical (satOp s d srcs extra f) :=
  intOp_canonical h ..

theorem plainOp_canonical (h : MemoryCanonical s) (d : Nat) (srcs : List Nat) (f : View → Nat → Nat → Nat) :
    NextCanonical (plainOp s d srcs f) :=
  intOp_canonical h ..

theorem rawOp_canonical (h : MemoryCanonical s) (d : Nat) (srcs : List Nat) (extra : List RegName)
    (f : View → Bool → Nat → Option Nat) :
    NextCanonical (rawOp s d srcs extra f) := by
  refine instr_canonical h fun v => ?_
  grind [OkCanonical, laneResult_canonical]

theorem intCompare_canonical (h : MemoryCanonical s) (d : Fin 16) (a b : Fin 64) (f : ℤ → ℤ → Bool) :
    NextCanonical (intCompare s d a b f) := by
  refine instr_canonical h fun v => ?_
  grind [OkCanonical, retire_canonical]

/-! ### Machine/VFp -/

theorem floatOp_canonical (h : MemoryCanonical s) (allowed : List Layout) (rounds : Bool) (d : Nat) (srcs : List FSrc)
    (f : Nat → List FVal → FVal × Flags) :
    NextCanonical (floatOp s allowed rounds d srcs f) := by
  refine instr_canonical h fun v => ?_
  grind [OkCanonical, laneResult_canonical]

theorem floatCompare_canonical (h : MemoryCanonical s) (d : Fin 16) (a b : Fin 64) (f : Option Ordering → Bool) :
    NextCanonical (floatCompare s d a b f) := by
  refine instr_canonical h fun v => ?_
  grind [OkCanonical, retire_canonical]

/-! ### Machine/Fetch -/

theorem execHdef_canonical (h : MemoryCanonical s) (n : Fin 16) (a : Fin 64) (l : Fin 16) : NextCanonical (execHdef n a l s) := by
  refine instr_canonical h fun v => ?_
  grind [OkCanonical, addOp_canonical, finishOp_canonical, retire_canonical]

theorem execFetch_canonical (h : MemoryCanonical s) (d : Fin 64) (n : Fin 16) (b : Fin 64) (l : Fin 16) :
    NextCanonical (execFetch d n b l s) := by
  refine instr_canonical h fun v => ?_
  grind [OkCanonical, addOp_canonical, retire_canonical]

theorem bagPairs_canonical (h : MemoryCanonical s) (v : View) (p : Place) (c : Nat) : BothFstCanonical (bagPairs s v p c) := by
  unfold bagPairs
  split
  · exact h
  · dsimp only
    split_ifs
    · exact h
    · exact startTouch_canonical h ..
    · exact h
    · exact putTeam_canonical (observeAt_canonical h ..) _
    · exact observeAt_canonical h ..

theorem execEpool_canonical (h : MemoryCanonical s) (d : Fin 64) (n : Fin 16) (b : Fin 64) (l : Fin 16) :
    NextCanonical (execEpool d n b l s) := by
  refine instr_canonical h fun v => ?_
  extract_lets md names x cw c col0
  split
  · trivial
  split
  · trivial
  split
  · exact retire_canonical h ..
  split
  · trivial
  next p _ =>
    have hbag := bagPairs_canonical h v p c
    split
    next hs => rw [hs] at hbag; exact hbag
    next hs =>
      rw [hs] at hbag
      split
      · trivial
      · split
        · exact hbag
        · exact retire_canonical (addOp_canonical hbag ..) ..

/-! ### Machine/MemEvents -/

theorem loadAccess_canonical (h : MemoryCanonical s) (o : Op) (na : Bool) (l : LoadLane) :
    BothFstCanonical (loadAccess s o na l) := by
  grind [loadAccess, MemoryCanonical, BothFstCanonical, BothCanonical, observeAt_canonical, renewTouch_canonical,
    shareCopy_canonical, readSector_canonical]

theorem loadAccesses_canonical (h : MemoryCanonical s) (o : Op) (na : Bool) (pick : List Nat) (before ls : List LoadLane) :
    MemoryCanonical (loadAccesses o na pick s before ls).1 := by
  induction ls generalizing s before with
  | nil => exact h
  | cons l ls ih =>
    unfold loadAccesses
    grind [BothFstCanonical, loadAccess_canonical]

theorem map_canonical {r : Except State State} (h : BothCanonical r) {f : State → State}
    (hf : ∀ s, MemoryCanonical s → MemoryCanonical (f s)) : BothCanonical (r.map f) := by
  cases r with
  | error s => exact h
  | ok s => exact hf s h

/-- What a successful step returns beside the state does not matter. -/
theorem map_fst_canonical {α β : Type} {r : Except State (State × α)} (h : BothFstCanonical r) (f : State × α → β) :
    BothFstCanonical (r.map fun p => (p.1, f p)) := by
  cases r with
  | error s => exact h
  | ok p => exact h

theorem map_pair_canonical {β : Type} {r : Except State State} (h : BothCanonical r) {f : State → State × β}
    (hf : ∀ s, MemoryCanonical s → MemoryCanonical (f s).1) : BothFstCanonical (r.map f) := by
  cases r with
  | error s => exact h
  | ok s => exact hf s h

theorem fetchReady_canonical (h : MemoryCanonical s) (o : Op) (els : List FetchEl) : BothCanonical (fetchReady s o els) := by
  unfold fetchReady
  dsimp only
  split
  · exact h
  · split_ifs
    · exact h
    · exact map_canonical (eachSector_canonical (fun _ x h => readSector_canonical h ..) h _) fun _ h => observeAt_canonical h ..

theorem cacheEls_canonical (h : MemoryCanonical s) (o : Op) (els : List FetchEl) : MemoryCanonical (s.cacheEls o els) :=
  foldl_canonical (fun _ _ h => shareCopy_canonical h ..) _ h

theorem deliverLanes_canonical (h : MemoryCanonical s) (o : Op) (wide : Bool) (d : Nat) (rs : List (Nat × Nat × Flags)) :
    MemoryCanonical (deliverLanes s o wide d rs) := by
  grind [deliverLanes, MemoryCanonical, finishOp_canonical, putTeam_canonical]

theorem execLoadComplete_canonical (h : MemoryCanonical s) (op : Nat) (lanes : List Nat) :
    NextCanonical (execLoadComplete op lanes s) := by
  grind [execLoadComplete, MemoryCanonical, NextCanonical, BothCanonical, cacheEls_canonical, loadAccesses_canonical,
    putOp_canonical, deliverLanes_canonical, fetchReady_canonical, finishOp_canonical, putTeam_canonical]

theorem writeWindow_canonical (h : MemoryCanonical s) (m : MapEntry) (j : Nat) (b : Byte) :
    MemoryCanonical (writeWindow s m j b) := by
  grind [writeWindow, MemoryCanonical, putMap_canonical]

theorem showWindow_canonical (h : MemoryCanonical s) (m : MapEntry) (ix : Nat) : MemoryCanonical (s.showWindow m ix) := by
  grind [State.showWindow, MemoryCanonical, putMap_canonical]

/-- A shared owner's sharers give their copies back before it writes again (R89). -/
theorem takeSharers_canonical (h : MemoryCanonical s) (q : MapEntry × Nat) :
    MemoryCanonical (match q.1.sec? q.2 with
      | some x =>
        if x.st = .O then
          (x.pas.map (· / 64)).dedup.foldl
            (fun s g => ((s.recallWindows g (fun m' x' => m'.same q.1 && x'.ix == q.2)).dropWalks g).dropCopies g (fun _ => true)) s
        else s
      | none => s) := by
  split
  · split_ifs
    · exact foldl_canonical (fun _ g h => dropCopies_canonical (dropWalks_canonical (recallWindows_canonical h g _) g) g _) _ h
    · exact h
  · exact h

theorem stashWrite_canonical (h : MemoryCanonical s) (o : Op) (r : TeamRef) (off : Nat) (bs : List Byte) :
    BothCanonical (stashWrite s o r off bs) := by
  unfold stashWrite
  extract_lets secs
  split
  · exact renewTouch_canonical h ..
  · rename_i s1 s2 _
    have h1 : MemoryCanonical s1 := foldl_canonical (fun _ q h => takeSharers_canonical h q) secs h
    have h2 : MemoryCanonical s2 := by
      refine foldl_canonical (fun s p h => ?_) _ h1
      split
      · exact writeWindow_canonical h ..
      · exact setStash_canonical h ..
    split
    · exact h2
    · exact foldl_canonical (fun _ q h => showWindow_canonical h ..) _ h2

theorem globalWrite_canonical (h : MemoryCanonical s) (o : Op) (na : Bool) (bumped : List Nat) (pa : Nat) (bytes : List Byte) :
    BothFstCanonical (globalWrite s o na bumped pa bytes) := by
  grind [globalWrite, MemoryCanonical, BothFstCanonical, BothCanonical, addCore_canonical, putHome_canonical, bumpTag_canonical,
    writeSector_canonical]

theorem storeAccess_canonical (h : MemoryCanonical s) (o : Op) (na dieOnly : Bool) (bumped : List Nat) (before : List StoreLane)
    (l : StoreLane) : BothFstCanonical (storeAccess s o na dieOnly bumped before l) := by
  have home (pa : Nat) : BothFstCanonical ((globalWrite s o na bumped pa l.bytes).map
      fun p => (p.1, p.2, { l with stage := .performed })) := map_fst_canonical (globalWrite_canonical h ..) _
  have stash (r : TeamRef) (off : Nat) : BothFstCanonical ((stashWrite s o r off l.bytes).map
      fun s => (s, bumped, { l with stage := .performed })) := map_pair_canonical (stashWrite_canonical h ..) fun _ h => h
  grind [storeAccess, BothFstCanonical, MemoryCanonical, dropCopies_canonical]

theorem storeAccesses_canonical (h : MemoryCanonical s) (o : Op) (na dieOnly : Bool) (pick bumped : List Nat)
    (before ls : List StoreLane) : MemoryCanonical (storeAccesses o na dieOnly pick s bumped before ls).1 := by
  induction ls generalizing s bumped before with
  | nil => exact h
  | cons l ls ih =>
    unfold storeAccesses
    grind [BothFstCanonical, storeAccess_canonical]

theorem execStorePerformed_canonical (h : MemoryCanonical s) (op : Nat) (lanes : List Nat) (dieOnly : Bool) :
    NextCanonical (execStorePerformed op lanes dieOnly s) := by
  grind [execStorePerformed, MemoryCanonical, NextCanonical, storeAccesses_canonical, putOp_canonical, finishOp_canonical]

/-- The sharing of the sectors a fill reads, and the copies it notes on the die, write no memory. -/
theorem noteFill_canonical (h : MemoryCanonical s) (w : Who) (die : Nat) (st : CState) (secs : List Nat) :
    MemoryCanonical (secs.foldl (fun s x => s.addProxy die x st)
      (secs.foldl (fun s x => if s.readsNewest w x then s.shareAll x else s) s)) :=
  foldl_canonical (fun _ _ h => addProxy_canonical h ..) _
    (foldl_canonical (fun _ x h => ite_canonical (shareAll_canonical h x) h) _ h)

theorem execWindowFill_canonical (h : MemoryCanonical s) (op : Nat) : NextCanonical (execWindowFill op s) := by
  unfold execWindowFill
  split
  · exact h
  next o _ =>
  split
  next die core n ix pas _ =>
    split
    · exact finishOp_canonical h op
    · dsimp only
      split
      · exact h
      next k _ =>
        split
        · exact finishOp_canonical h op
        · have hread := eachSector_canonical (fun _ x h => readSector_canonical h
            { launch := s.holder o.lv, die := some die, core := some core } k x) h (pas.map (· / 64)).dedup
          split
          next hs => rw [hs] at hread; exact hread
          next u hs =>
            rw [hs] at hread
            split
            · exact finishOp_canonical (noteFill_canonical hread ..) op
            · exact finishOp_canonical (putMap_canonical (noteFill_canonical hread ..) _) op
  · exact h

theorem execStashCopyComplete_canonical (h : MemoryCanonical s) (op : Nat) (lanes : List Nat) :
    NextCanonical (execStashCopyComplete op lanes s) := by
  unfold execStashCopyComplete
  split
  · exact h
  split
  next o _ l _ =>
    extract_lets w
    split
    · exact h
    next k _ =>
      split
      · exact h
      · have hread := readSector_canonical h w k (l.pa / 64)
        split
        next hs => rw [hs] at hread; exact hread
        next hs => rw [hs] at hread; exact finishOp_canonical (setStash_canonical (observeAt_canonical hread ..) ..) _
  · exact h

theorem grantL1_canonical (h : MemoryCanonical s) (o : Op) (sector : Nat) : MemoryCanonical (grantL1 s o sector) := by
  grind [grantL1, MemoryCanonical, BothCanonical, addCore_canonical, bumpTag_canonical, writeSector_canonical]

theorem ownNext_canonical (h : MemoryCanonical s) (o : Op) (die core n : Nat) (x : WinSector) (got : List Nat) :
    MemoryCanonical (s.ownNext o die core n x got) := by
  grind [State.ownNext, MemoryCanonical, putOp_canonical, putMap_canonical, finishOp_canonical]

theorem noteWindow_canonical (h : MemoryCanonical s) (o : Op) (die core n ix : Nat) :
    MemoryCanonical (s.noteWindow o die core n ix) := by
  grind [State.noteWindow, MemoryCanonical, noteWalk_canonical]

theorem grantWindow_canonical (h : MemoryCanonical s) (o : Op) (die core n ix sector : Nat) :
    MemoryCanonical (grantWindow s o die core n ix sector) := by
  grind [grantWindow, MemoryCanonical, BothCanonical, addProxy_canonical, ownNext_canonical, putMap_canonical,
    finishOp_canonical, bumpTag_canonical, writeSector_canonical, noteWindow_canonical]

theorem execOwnershipGrant_canonical (h : MemoryCanonical s) (op sector : Nat) : NextCanonical (execOwnershipGrant op sector s) := by
  unfold execOwnershipGrant
  split
  · exact h
  next o _ =>
  extract_lets die core
  split
  · have hg := grantL1_canonical h o sector
    extract_lets ready
    split
    · exact h
    · split
      · exact execStorePerformed_canonical hg ..
      · exact hg
  · exact grantWindow_canonical h ..
  next w _ _ _ _ _ _ _ =>
    split
    · exact h
    next k _ =>
      have hu := grantU_canonical h w k die core sector
      split
      · split
        next hs => rw [hs] at hu; exact hu
        next hs => rw [hs] at hu; exact hu
      · exact h
  · exact h

/-! ### Machine/Atom -/

theorem atomOp_canonical (h : MemoryCanonical s) (sub : Nat) (d a b : Fin 64) (l : Fin 16) :
    NextCanonical (atomOp sub d a b l s) := by
  refine instr_canonical h fun v => ?_
  grind [OkCanonical, retireEnding_canonical, addOp_canonical]

theorem atomReady_canonical (h : MemoryCanonical s) (o : Op) (wide : Bool) (x : AtomLane) :
    BothCanonical (atomReady s o wide x) := by
  grind [atomReady, MemoryCanonical, BothCanonical, writeSector_canonical, readSector_canonical]

theorem atomApply_canonical (h : MemoryCanonical s) (sub : Nat) (wide : Bool) (x : AtomLane) :
    MemoryCanonical (atomApply s sub wide x).1 := by
  grind [atomApply, MemoryCanonical, putHome_canonical, bumpTag_canonical]

theorem atomLane_canonical (h : MemoryCanonical s) (o : Op) (sub : Nat) (wide : Bool) (before : List AtomLane) (x : AtomLane) :
    BothFstCanonical (atomLane s o sub wide before x) := by
  unfold atomLane
  split_ifs
  · exact h
  · exact map_pair_canonical (atomReady_canonical h o wide x) fun _ h => atomApply_canonical h sub wide x

theorem atomLanes_canonical (h : MemoryCanonical s) (o : Op) (sub : Nat) (wide : Bool) (pick : List Nat) (before ls : List AtomLane) :
    MemoryCanonical (atomLanes o sub wide pick s before ls).1 := by
  induction ls generalizing s before with
  | nil => exact h
  | cons x ls ih =>
    unfold atomLanes
    grind [BothFstCanonical, atomLane_canonical]

theorem exchqLine_canonical (h : MemoryCanonical s) (o : Op) (wide : Bool) (ls : List AtomLane) (line : Nat) :
    MemoryCanonical (exchqLine o wide s ls line).1 := by
  unfold exchqLine
  extract_lets mine
  have hr := eachSector_canonical (fun _ x h => atomReady_canonical h o wide x) h (ls.filter mine)
  split
  next hs => rw [hs] at hr; exact hr
  next hs =>
    rw [hs] at hr
    refine foldl_fst_canonical (fun a x h => ?_) _ hr
    split
    · exact atomApply_canonical h 12 wide x
    · exact h

theorem exchqLanes_canonical (h : MemoryCanonical s) (o : Op) (wide : Bool) (pick : List Nat) (ls : List AtomLane) :
    MemoryCanonical (exchqLanes o wide pick s ls).1 :=
  foldl_fst_canonical (fun _ _ h => exchqLine_canonical h ..) _ h

theorem execAtomPerformed_canonical (h : MemoryCanonical s) (op : Nat) (lanes : List Nat) :
    NextCanonical (execAtomPerformed op lanes s) := by
  grind [execAtomPerformed, MemoryCanonical, NextCanonical, exchqLanes_canonical, atomLanes_canonical, putOp_canonical,
    finishOp_canonical, putTeam_canonical]

theorem redOp_canonical (h : MemoryCanonical s) (sub : Nat) (d a b : Fin 64) : NextCanonical (redOp sub d a b s) := by
  refine instr_canonical h fun v => ?_
  grind [OkCanonical, retireEnding_canonical, addOp_canonical]

theorem redMerge_canonical (h : MemoryCanonical s) (o : Op) (sector : Nat) : MemoryCanonical (redMerge s o sector) := by
  grind [redMerge, MemoryCanonical, BothCanonical, grantU_canonical, mergeU_canonical, mergeOp_canonical, bumpTag_canonical,
    writeSector_canonical]

theorem execRedMerge_canonical (h : MemoryCanonical s) (op : Nat) (lanes : List Nat) : NextCanonical (execRedMerge op lanes s) := by
  unfold execRedMerge
  split
  · exact h
  split
  · exact foldl_canonical (fun _ x h => redMerge_canonical h _ x) _ h
  · exact h

theorem decideRegion_canonical (h : MemoryCanonical s) (o : Op) (before : List XendLane) (x : XendLane) :
    BothFstCanonical (decideRegion s o before x) := by
  unfold decideRegion
  extract_lets r ls w earlier
  split
  · exact h
  split
  · exact h
  next secs _ _ k _ =>
    have hread := eachSector_canonical (fun _ g h => readSector_canonical h w k g) h (secs r.reads)
    split
    next hs => rw [hs] at hread; exact hread
    next u hs =>
      rw [hs] at hread
      split
      · have hwrite := eachSector_canonical (fun _ g h => writeSector_canonical h w k g (fun _ _ => false) (fun _ => false))
          hread (secs r.writes)
        split
        next hs => rw [hs] at hwrite; exact hwrite
        next hs => rw [hs] at hwrite; exact bumpTag_canonical (putCells_canonical hwrite _) _
      · exact hread

theorem decideRegions_canonical (h : MemoryCanonical s) (o : Op) (pick : List Nat) (before ls : List XendLane) :
    MemoryCanonical (decideRegions o pick s before ls).1 := by
  induction ls generalizing s before with
  | nil => exact h
  | cons x ls ih =>
    unfold decideRegions
    grind [BothFstCanonical, decideRegion_canonical]

theorem execRegionValidation_canonical (h : MemoryCanonical s) (op : Nat) (lanes : List Nat) :
    NextCanonical (execRegionValidation op lanes s) := by
  grind [execRegionValidation, MemoryCanonical, NextCanonical, putOp_canonical, decideRegions_canonical, finishOp_canonical,
    putTeam_canonical]

/-! ### Machine/Maps -/

theorem writeBackAll_canonical (h : MemoryCanonical s) (m : MapEntry) : MemoryCanonical (writeBackAll s m) :=
  foldl_canonical (fun _ x h => writeBack_canonical h m x) _ h

theorem writeBackCounted_canonical (h : MemoryCanonical s) (v : View) (m : MapEntry) :
    MemoryCanonical (writeBackCounted s v m) := by
  grind [writeBackCounted, MemoryCanonical, writeBackAll_canonical, addOp_canonical]

theorem bareWindow_canonical (h : MemoryCanonical s) (m : MapEntry) : MemoryCanonical (bareWindow s m) := by
  grind [bareWindow, MemoryCanonical, setStash_canonical]

theorem endFills_canonical (h : MemoryCanonical s) (m : MapEntry) : MemoryCanonical (endFills s m) := h

theorem releaseHomes_canonical (h : MemoryCanonical s) (m : MapEntry) : MemoryCanonical (releaseHomes s m) := h

theorem freeMap_canonical (h : MemoryCanonical s) (m : MapEntry) : MemoryCanonical (freeMap s m) := by
  grind [freeMap, MemoryCanonical, bareWindow_canonical, releaseHomes_canonical, endFills_canonical]

theorem reclaimMap_canonical (h : MemoryCanonical s) (m : MapEntry) : MemoryCanonical (reclaimMap s m) := by
  grind [reclaimMap, MemoryCanonical, freeMap_canonical, writeBackAll_canonical]

theorem mapWindow_canonical (h : MemoryCanonical s) (v : View) (m : MapEntry) (old : Option MapEntry) (hits : List MapEntry) :
    MemoryCanonical (mapWindow s v m old hits) := by
  unfold mapWindow
  extract_lets s1
  have h1 : MemoryCanonical s1 :=
    foldl_canonical (fun _ x h => freeMap_canonical (writeBackCounted_canonical h v x) x) _ h
  split
  · split_ifs
    · exact putMap_canonical h1 _
    · exact freeMap_canonical (writeBackCounted_canonical h1 v _) _
  · rename_i s2 _
    have h2 : MemoryCanonical s2 := by grind [reclaimMap_canonical]
    exact h2

theorem mapChange_canonical (h : MemoryCanonical s) (n : Fin 64) (back : Bool) {f : View → MapEntry → State}
    (hf : ∀ v m, MemoryCanonical (f v m)) : NextCanonical (mapChange s n back f) := by
  refine instr_canonical h fun v => ?_
  grind [OkCanonical, retire_canonical]

theorem execStunmap_canonical (h : MemoryCanonical s) (n) : NextCanonical (execStunmap n s) :=
  mapChange_canonical h _ _ fun v m => freeMap_canonical (writeBackCounted_canonical h v m) m

theorem execStflush_canonical (h : MemoryCanonical s) (n) : NextCanonical (execStflush n s) := by
  refine mapChange_canonical h _ _ fun v m => ?_
  grind [writeBackCounted_canonical, releaseHomes_canonical, putMap_canonical]

theorem discardWindow_canonical (h : MemoryCanonical s) (m : MapEntry) : MemoryCanonical (discardWindow s m) :=
  foldl_canonical (fun _ g h => dropCopies_canonical (recallWindows_canonical h g _) g _) _
    (putMap_canonical (releaseHomes_canonical h m) _)

theorem execStinv_canonical (h : MemoryCanonical s) (n) : NextCanonical (execStinv n s) :=
  mapChange_canonical h _ _ fun _ m => ite_canonical (freeMap_canonical (discardWindow_canonical h m) m) (discardWindow_canonical h m)

theorem execPref_canonical (h : MemoryCanonical s) (a b : Fin 64) : NextCanonical (execPref a b s) := by
  refine instr_canonical h fun v => ?_
  dsimp only
  split
  · trivial
  · split
    · trivial
    · split
      · exact h
      · exact retire_canonical (foldl_canonical (fun _ p h => startSector_canonical h ..) _ h) ..

/-! ### Machine/Tables -/

theorem logCode_canonical (h : MemoryCanonical s) (sector : Nat) : MemoryCanonical (s.logCode sector) := by
  grind [State.logCode, MemoryCanonical]

theorem pruneCode_canonical (h : MemoryCanonical s) : MemoryCanonical s.pruneCode := h

theorem retranslateAll_canonical (h : MemoryCanonical s) (users : List Op) : MemoryCanonical (s.retranslateAll users) := by
  refine foldl_canonical (fun s u h => ?_) _ h
  grind [noteWalk_canonical, putOp_canonical, deny_canonical]

theorem replacing_canonical (h : MemoryCanonical s) (xs : List Nat) : MemoryCanonical (s.replacing xs) := by
  unfold State.replacing
  extract_lets s1
  have h1 : MemoryCanonical s1 := foldl_canonical (fun _ x h => logCode_canonical h x) _ h
  split <;> exact h1

theorem walked_canonical (i : Instr) {u : State} (h : MemoryCanonical u) : MemoryCanonical (s.walked i u) := by
  unfold State.walked
  extract_lets own issued
  have hown : MemoryCanonical own := by grind [noteTeam_canonical]
  have hissued : MemoryCanonical issued := by
    refine foldl_canonical (fun x o h => ?_) _ hown
    grind [noteTeam_canonical]
  refine foldl_canonical (fun x r h => ?_) _ hissued
  grind [noteTeam_canonical]

/-! ### Machine/Sync -/

theorem fenceOp_canonical (h : MemoryCanonical s) (acq rel : Bool) (c : Fin 6) : NextCanonical (fenceOp acq rel c s) := by
  refine instr_canonical h fun v => ?_
  grind [OkCanonical, retire_canonical]

theorem execFenceComplete_canonical (h : MemoryCanonical s) (die core slot : Nat) (kind : Fin 3) :
    NextCanonical (execFenceComplete die core slot kind s) := by
  unfold execFenceComplete
  grind [NextCanonical, observeAll_canonical, putTeam_canonical]

theorem arriveOp_canonical (h : MemoryCanonical s) (v : View) (a : Fin 64) (path : Option Path) :
    OkCanonical (arriveOp s v a path) := by
  grind [arriveOp, MemoryCanonical, OkCanonical, retireEnding_canonical]

theorem execBarrierArrival_canonical (h : MemoryCanonical s) (arrival : Nat) : NextCanonical (execBarrierArrival arrival s) := by
  grind [execBarrierArrival, MemoryCanonical, NextCanonical, setStash_canonical]

theorem execClusterArrival_canonical (h : MemoryCanonical s) (die core slot : Nat) :
    NextCanonical (execClusterArrival die core slot s) := by
  grind [execClusterArrival, MemoryCanonical, NextCanonical, putTeam_canonical]

/-! ### Machine/Queue -/

theorem sideFault_canonical (h : MemoryCanonical s) (t : Team) (lane cmd : Nat) (code : FaultCode) (addr : Word) (w : Bool) :
    MemoryCanonical (sideFault s t lane cmd code addr w) := by
  grind [sideFault, MemoryCanonical, raiseRecord_canonical, deny_canonical]

def StreamCanonical : StreamRead → Prop
  | .word s _ => MemoryCanonical s
  | .byte s _ => MemoryCanonical s
  | .waits s => MemoryCanonical s
  | .faults _ _ => True

theorem streamStash_canonical (h : MemoryCanonical s) (t : Team) (x : Stream) (off : Nat) :
    StreamCanonical (streamStash s t x off) := by
  grind [streamStash, StreamCanonical, noteTeam_canonical, startTouch_canonical, observeAt_canonical]

theorem streamWord_canonical (h : MemoryCanonical s) (t : Team) (x : Stream) (l : Nat) : StreamCanonical (streamWord s t x l) := by
  grind [streamWord, StreamCanonical, BothCanonical, streamStash_canonical, noteTeam_canonical, readSector_canonical,
    observeAt_canonical]

theorem streamWords_canonical (h : MemoryCanonical s) (t : Team) (x : Stream) (n : Nat) :
    MemoryCanonical (streamWords t s x n).1 := by
  induction n generalizing s x with
  | zero => exact h
  | succ n ih =>
    have hw := streamWord_canonical h t x x.words.length
    unfold streamWords
    split
    next hs => rw [hs] at hw; exact hw
    next hs => exact h
    next hs => rw [hs] at hw; exact hw
    next hs => rw [hs] at hw; exact ih hw _

theorem execStreamEntryAppend_canonical (h : MemoryCanonical s) (die core slot : Nat) (q : Fin 4) :
    NextCanonical (execStreamEntryAppend die core slot q s) := by
  grind [execStreamEntryAppend, MemoryCanonical, NextCanonical, streamWords_canonical, putTeam_canonical, sideFault_canonical]

/-! ### Machine/Windlass -/

theorem hubWrite_canonical (h : MemoryCanonical s) (pa : Nat) (bs : List Byte) : MemoryCanonical (s.hubWrite pa bs) :=
  setN_canonical (foldl_canonical (fun _ x h => settle_canonical h x) _ (replacing_canonical h _)) pa bs

theorem setDomain_canonical (h : MemoryCanonical s) (m : Nat) (d : Domain) : MemoryCanonical (s.setDomain m d) := h

theorem publish_canonical (h : MemoryCanonical s) (m : Nat) (csn : Word) (f : Nat → Entry → Entry) :
    MemoryCanonical (publish s m csn f) := by
  unfold publish
  dsimp only
  split
  · exact setDomain_canonical (hubWrite_canonical (foldl_canonical (fun _ p h => hubWrite_canonical h _ _) _
      (hubWrite_canonical h _ _)) _ _) _ _
  · exact h

theorem retireVersions_canonical (h : MemoryCanonical s) (m : Nat) : MemoryCanonical (retireVersions s m) :=
  setDomain_canonical (foldl_canonical (fun _ _ h => hubWrite_canonical h _ _) _ h) _ _

theorem retireAll_canonical (h : MemoryCanonical s) : MemoryCanonical (retireAll s) :=
  foldl_canonical (fun _ m h => retireVersions_canonical h m) _ h

theorem execWindowEnd_canonical (h : MemoryCanonical s) (domain : Nat) (occupied : List Nat) :
    NextCanonical (execWindowEnd domain occupied s) := by
  grind [execWindowEnd, MemoryCanonical, NextCanonical, setDomain_canonical]

theorem copyPages_canonical (h : MemoryCanonical s) (d : Domain) (m : Word ⊕ Nat) (va : Word) (ps : List Nat) :
    SomeCanonical (copyPages d m va s ps) := by
  induction ps generalizing s with
  | nil => exact h
  | cons p ps ih =>
    unfold copyPages
    split
    · exact ih (hubWrite_canonical h _ _)
    · trivial

theorem execReplicaCopyDone_canonical (h : MemoryCanonical s) (domain copyIx : Nat) (err : Option CopyError) :
    NextCanonical (execReplicaCopyDone domain copyIx err s) := by
  grind [execReplicaCopyDone, MemoryCanonical, NextCanonical, SomeCanonical, setDomain_canonical, copyPages_canonical]

theorem execVersionPublish_canonical (h : MemoryCanonical s) (domain : Nat) : NextCanonical (execVersionPublish domain s) := by
  grind [execVersionPublish, MemoryCanonical, NextCanonical, setDomain_canonical, retireVersions_canonical, publish_canonical]

theorem copySector_canonical (h : MemoryCanonical s) (d : Domain) (m : Word ⊕ Nat) (r : Nat × Nat) (u : Nat) :
    SomeCanonical (copySector s d m r u) := by
  grind [copySector, MemoryCanonical, SomeCanonical, hubWrite_canonical]

theorem refreshReplica_canonical (h : MemoryCanonical s) (d : Domain) (m : Word ⊕ Nat) (bad : List (Nat × Nat)) (r : Nat × Nat) :
    MemoryCanonical (refreshReplica d m bad r s).1 := by
  refine foldl_fst_canonical (fun a u h => ?_) _ h
  have hc := copySector_canonical h d m r u
  grind [SomeCanonical]

theorem withdraw_canonical (h : MemoryCanonical s) (m : Nat) (bad : List (Nat × Nat × Nat)) : MemoryCanonical (withdraw s m bad) := by
  unfold withdraw
  split_ifs
  · exact h
  · refine foldl_canonical (fun s l h => ?_) _ h
    grind [requestAbort_canonical]

theorem publishWithdrawal_canonical (h : MemoryCanonical s) (m : Nat) (csn : Word) :
    MemoryCanonical (publishWithdrawal s m csn) := by
  grind [publishWithdrawal, MemoryCanonical, setDomain_canonical, retireVersions_canonical, publish_canonical]

theorem refreshEntry_canonical (h : MemoryCanonical s) (asid : Nat) (written : List Nat) (bad : List (Nat × Nat)) (d : Domain)
    (v : Version) (e : Nat) : MemoryCanonical (refreshEntry asid written bad d v e s).1 := by
  unfold refreshEntry
  extract_lets ts mst wrote
  split_ifs
  · exact h
  · refine foldl_fst_canonical (fun a r h => ?_) _ h
    exact refreshReplica_canonical h d mst bad r

theorem refreshDomain_canonical (h : MemoryCanonical s) (asid : Nat) (csn : Word) (written : List Nat)
    (bad : List (Nat × Nat × Nat × Nat)) (m : Nat) : MemoryCanonical (refreshDomain asid csn written bad s m) := by
  unfold refreshDomain
  extract_lets d
  split
  · exact h
  · refine publishWithdrawal_canonical (withdraw_canonical ?_ m _) m csn
    split_ifs
    · exact h
    · refine foldl_fst_canonical (fun a e h => ?_) _ h
      exact refreshEntry_canonical h ..

theorem windlassCommit_canonical (h : MemoryCanonical s) (l : Launch) (csn : Word) (written : List Nat)
    (bad : List (Nat × Nat × Nat × Nat)) : MemoryCanonical (windlassCommit s l csn written bad) := by
  unfold windlassCommit
  extract_lets s1
  have h1 : MemoryCanonical s1 := foldl_canonical (fun _ m h => refreshDomain_canonical h ..) _ h
  split
  · exact h1
  · split_ifs
    · exact h1
    · exact setDomain_canonical h1 _ _

theorem enableDomain_canonical (h : MemoryCanonical s) (domain x : Nat) : MemoryCanonical (enableDomain s domain x) := by
  grind [enableDomain, MemoryCanonical, setDomain_canonical]

theorem execWindlassDomainEnable_canonical (h : MemoryCanonical s) (domain : Fin 16) (value : BitVec 64) :
    NextCanonical (execWindlassDomainEnable domain value s) := by
  grind [execWindlassDomainEnable, MemoryCanonical, NextCanonical, enableDomain_canonical]

theorem disableDomain_canonical (h : MemoryCanonical s) (domain x : Nat) : MemoryCanonical (disableDomain s domain x) := by
  grind [disableDomain, MemoryCanonical, setDomain_canonical]

theorem execWindlassDomainDisable_canonical (h : MemoryCanonical s) (domain : Fin 16) (value : BitVec 64) :
    NextCanonical (execWindlassDomainDisable domain value s) := by
  grind [execWindlassDomainDisable, MemoryCanonical, NextCanonical, disableDomain_canonical]

theorem writeDomainWord_canonical (h : MemoryCanonical s) (domain off x : Nat) :
    MemoryCanonical (writeDomainWord s domain off x) := by
  grind [writeDomainWord, MemoryCanonical, setDomain_canonical, disableDomain_canonical, enableDomain_canonical]

/-! ### Machine/Engine -/

theorem putCmd_canonical (h : MemoryCanonical s) (c : Cmd) : MemoryCanonical (s.putCmd c) := h

def PartCanonical : PartResult → Prop
  | .ok s _ _ => MemoryCanonical s
  | .waits s => MemoryCanonical s
  | .faults _ _ _ => True
  | .aborts => True

def EngineCanonical {α : Type} : Except PartResult (State × α) → Prop
  | .ok p => MemoryCanonical p.1
  | .error e => PartCanonical e

def WarmCanonical : Except PartResult State → Prop
  | .ok s => MemoryCanonical s
  | .error e => PartCanonical e

theorem runParts_canonical {f : State → Nat → PartResult} (hf : ∀ s p, MemoryCanonical s → PartCanonical (f s p))
    (h : MemoryCanonical s) (ps : List Nat) : MemoryCanonical (runParts f s ps).1 := by
  induction ps generalizing s with
  | nil => exact h
  | cons p ps ih =>
    have hp := hf s p h
    unfold runParts
    split
    next hs => rw [hs] at hp; exact ih hp
    next hs => rw [hs] at hp; exact ih hp
    next => exact h

theorem showWrites_canonical (h : MemoryCanonical s) (c : Cmd) : MemoryCanonical (showWrites s c) := by
  grind [showWrites, MemoryCanonical]

theorem completeCmd_canonical (h : MemoryCanonical s) (c : Cmd) (total : Nat) : MemoryCanonical (completeCmd s c total) := by
  grind [completeCmd, MemoryCanonical, finishOp_canonical, showWrites_canonical]

theorem runCmd_canonical (h : MemoryCanonical s) (c : Cmd) (total : Nat) (parts : List Nat)
    (red : Option (Nat × Nat × Nat × Word)) {f : Team → State → Nat → PartResult}
    (hf : ∀ t s p, MemoryCanonical s → PartCanonical (f t s p)) : MemoryCanonical (runCmd s c total parts red f) := by
  unfold runCmd
  split
  next t l _ _ =>
    have hr := runParts_canonical (hf t) h (c.todo total parts)
    grind [addOp_canonical, putCmd_canonical, progress_canonical, sideFault_canonical, requestAbort_canonical,
      completeCmd_canonical]
  next => exact h

theorem engineWalk_canonical (h : MemoryCanonical s) (t : Team) (core : Option Nat) (vas : List Nat) :
    MemoryCanonical (s.engineWalk t core vas) := by
  grind [State.engineWalk, MemoryCanonical, noteWalk_canonical]

theorem engineRead_canonical (h : MemoryCanonical s) (c : Cmd) (t : Team) (die core : Option Nat) (va : Word) (n : Nat) :
    EngineCanonical (engineRead s c t die core va n) := by
  unfold engineRead
  refine List.foldlRecOn (motive := EngineCanonical) _ _ (engineWalk_canonical h ..) fun acc hacc i _ => ?_
  split
  · exact hacc
  next u x =>
    have hr (w : Who) (l : Launch) (g : Nat) := readSector_canonical hacc w l g
    grind [EngineCanonical, PartCanonical, BothCanonical]

theorem engine_map_canonical {α β : Type} {r : Except PartResult (State × α)} (h : EngineCanonical r) (f : State × α → β) :
    EngineCanonical (r.map fun p => (p.1, f p)) := by
  cases r with
  | error e => exact h
  | ok p => exact h

theorem engineStash_canonical (h : MemoryCanonical s) (c : Cmd) (t : Team) (off : Nat) :
    EngineCanonical (engineStash s c t off) := by
  grind [engineStash, EngineCanonical, PartCanonical, noteTeam_canonical, startTouch_canonical]

theorem engineWrite_canonical (h : MemoryCanonical s) (c : Cmd) (t : Team) (p : Nat) (stash : Bool) (va : Word) (b : Nat) :
    PartCanonical (engineWrite c s t p stash va b) := by
  grind [engineWrite, PartCanonical]

theorem copyPart_canonical (h : MemoryCanonical s) (c : Cmd) (t : Team) (p : Nat) : PartCanonical (copyPart c t s p) := by
  grind [copyPart, EngineCanonical, engineStash_canonical, engineRead_canonical, engineWrite_canonical]

theorem execCopy_canonical (h : MemoryCanonical s) (cmd : Nat) (parts : List Nat) : NextCanonical (execCopy cmd parts s) := by
  grind [execCopy, MemoryCanonical, NextCanonical, runCmd_canonical, copyPart_canonical]

theorem fillPart_canonical (h : MemoryCanonical s) (c : Cmd) (t : Team) (p : Nat) : PartCanonical (fillPart c t s p) :=
  engineWrite_canonical h ..

theorem execFill_canonical (h : MemoryCanonical s) (cmd : Nat) (parts : List Nat) : NextCanonical (execFill cmd parts s) := by
  grind [execFill, MemoryCanonical, NextCanonical, runCmd_canonical, fillPart_canonical]

theorem warmSector_canonical (h : MemoryCanonical s) (t : Team) (va : Word) : WarmCanonical (warmSector t s va) := by
  unfold warmSector
  extract_lets u
  have hu : MemoryCanonical u := noteTeam_canonical h ..
  split
  · exact hu
  · trivial
  next w _ pa _ =>
    split
    · exact hu
    next l _ =>
      have hr := readSector_canonical hu w l (pa / 64)
      split
      next hs => rw [hs] at hr; exact hr
      next hs => rw [hs] at hr; exact shareCopy_canonical hr ..

theorem warmSectors_canonical (h : MemoryCanonical s) (t : Team) (vas : List Word) : WarmCanonical (warmSectors t s vas) := by
  induction vas generalizing s with
  | nil => exact h
  | cons va vas ih =>
    have hw := warmSector_canonical h t va
    unfold warmSectors
    split
    next hs => rw [hs] at hw; exact ih hw
    next hs => rw [hs] at hw; exact hw

theorem warmPart_canonical (h : MemoryCanonical s) (c : Cmd) (t : Team) (p : Nat) : PartCanonical (warmPart c t s p) := by
  grind [warmPart, PartCanonical, WarmCanonical, warmSectors_canonical]

theorem execFwarm_canonical (h : MemoryCanonical s) (cmd : Nat) : NextCanonical (execFwarm cmd s) := by
  grind [execFwarm, MemoryCanonical, NextCanonical, runCmd_canonical, warmPart_canonical]

theorem credPart_canonical (h : MemoryCanonical s) (c : Cmd) (t : Team) (p : Nat) : PartCanonical (credPart c t s p) := by
  grind [credPart, PartCanonical, EngineCanonical, engineRead_canonical]

theorem execCred_canonical (h : MemoryCanonical s) (cmd : Nat) (parts : List Nat) : NextCanonical (execCred cmd parts s) := by
  grind [execCred, MemoryCanonical, NextCanonical, runCmd_canonical, credPart_canonical]

theorem cbcastPart_canonical (h : MemoryCanonical s) (c : Cmd) (t : Team) (p : Nat) : PartCanonical (cbcastPart c t s p) := by
  grind [cbcastPart, EngineCanonical, engineRead_canonical, engineWrite_canonical]

theorem execCbcast_canonical (h : MemoryCanonical s) (cmd : Nat) (parts : List Nat) : NextCanonical (execCbcast cmd parts s) := by
  grind [execCbcast, MemoryCanonical, NextCanonical, runCmd_canonical, cbcastPart_canonical]

theorem mergePart_canonical (h : MemoryCanonical s) (c : Cmd) (count : Nat) (t : Team) (i : Nat) :
    PartCanonical (mergePart c count t s i) := by
  unfold mergePart
  extract_lets ty n elems size va
  split
  · exact h
  have hmaster := engineRead_canonical h c t none none va n
  split
  next hs => rw [hs] at hmaster; exact hmaster
  next u master hs =>
    rw [hs] at hmaster
    extract_lets got
    have hgot : EngineCanonical got := by
      refine List.foldlRecOn (motive := EngineCanonical) _ _ hmaster fun acc hacc j _ => ?_
      split
      · exact hacc
      · exact engine_map_canonical (engineRead_canonical hacc ..) _
    clear_value got
    rcases got with e | ⟨v, ps⟩
    · exact hgot
    dsimp only
    split
    · trivial
    next pas _ =>
      split
      · exact hgot
      next l _ =>
        have hwrite := eachSector_canonical (fun _ x h => writeSector_canonical h { launch := some l, die := none, core := none } l x
          (fun _ _ => false) (fun _ => false)) hgot (pas.map (· / 64)).dedup
        split
        next hs => rw [hs] at hwrite; exact hwrite
        next hs =>
          rw [hs] at hwrite
          exact foldl_canonical (fun _ x h => bumpTag_canonical h _) _ (putCells_canonical hwrite _)

theorem execMerge_canonical (h : MemoryCanonical s) (cmd : Nat) (parts : List Nat) : NextCanonical (execMerge cmd parts s) := by
  grind [execMerge, MemoryCanonical, NextCanonical, runCmd_canonical, mergePart_canonical]

/-! ### Machine/Matrix -/

theorem mtxRetire_canonical (h : MemoryCanonical s) (v : View) (t : Team) (c : Ctx) (la : Nat) (names : List RegName) :
    MemoryCanonical (mtxRetire s v t c la names) := h

theorem mtxRetireEnding_canonical (h : MemoryCanonical s) (v : View) (t : Team) (c : Ctx) (la : Nat) (names : List RegName) :
    MemoryCanonical (mtxRetireEnding s v t c la names) := h

theorem execMxload_canonical (h : MemoryCanonical s) (d : Fin 4) (a b : Fin 64) (l : Fin 16) :
    NextCanonical (execMxload d a b l s) := by
  refine instr_canonical h fun v => ?_
  split
  · trivial
  · split
    · exact h
    · exact mtxRetire_canonical (addOp_canonical (foldl_canonical (fun _ x h => startTouch_canonical h ..) _ h) ..) ..

/-! ### Machine/Sched -/

theorem makeRoom_canonical (h : MemoryCanonical s) (die core : Nat) (r : LaunchRec) : MemoryCanonical (makeRoom s die core r) := by
  refine foldl_canonical (fun s _ h => ?_) _ h
  grind [reclaimMap_canonical]

theorem settleFormer_canonical (h : MemoryCanonical s) (die core : Nat) : MemoryCanonical (settleFormer s die core) := h

theorem forgetObserver_canonical (h : MemoryCanonical s) (r : TeamRef) : MemoryCanonical (s.forgetObserver r) := h

theorem seat_canonical (h : MemoryCanonical s) (t : Team) : MemoryCanonical (seat s t) := by
  grind [seat, MemoryCanonical, forgetObserver_canonical, settleFormer_canonical]

theorem occupy_canonical (h : MemoryCanonical s) (t : Team) : MemoryCanonical (occupy s t) := by
  grind [occupy, MemoryCanonical, seat_canonical, makeReady_canonical]

theorem placeMembers_cons (die : Nat) (r : LaunchRec) (mk : TeamRef → Nat → Team) (core t : Nat) (ms : List (Nat × Nat)) :
    placeMembers die r mk s ((core, t) :: ms) =
      match freeSlot (makeRoom s die core r) die core with
      | some slot =>
        if coreFits (makeRoom s die core r) die core r (stashTaken (makeRoom s die core r) die core) then
          placeMembers die r mk (occupy (makeRoom s die core r) (mk { die := die, core := core, slot := slot } t)) ms
        else none
      | none => none := by
  delta placeMembers placeMembers._f
  generalize makeRoom = room
  rfl

theorem placeMembers_nil (die : Nat) (r : LaunchRec) (mk : TeamRef → Nat → Team) : placeMembers die r mk s [] = some s := by
  delta placeMembers
  rfl

theorem placeMembers_canonical (h : MemoryCanonical s) (die : Nat) (r : LaunchRec) (mk : TeamRef → Nat → Team)
    (ms : List (Nat × Nat)) : SomeCanonical (placeMembers die r mk s ms) := by
  induction ms generalizing s with
  | nil => rw [placeMembers_nil]; exact h
  | cons m ms ih =>
    rw [placeMembers_cons]
    have hr := makeRoom_canonical h die m.1 r
    generalize makeRoom s die m.1 r = u at hr ⊢
    split
    · split_ifs
      · exact ih (occupy_canonical hr _)
      · trivial
    · trivial

theorem releaseHeld_canonical (h : MemoryCanonical s) (sid die : Nat) : MemoryCanonical (s.releaseHeld sid die) := h

theorem execTeamPlacement_canonical (h : MemoryCanonical s) (launch cluster col row : Nat) :
    NextCanonical (execTeamPlacement launch cluster col row s) := by
  unfold execTeamPlacement
  split
  · exact h
  next l _ =>
  split
  · exact h
  next die _ =>
  split
  · exact h
  split
  · exact h
  next cores _ =>
  split
  · exact h
  · extract_lets ts
    have hp := placeMembers_canonical h die l.lrec (fun r t => startTeam l r t) ts
    split
    · exact h
    next hs =>
      rw [hs] at hp
      split
      · exact h
      · exact releaseHeld_canonical (putLaunch_canonical hp _) ..

theorem execTeamWake_canonical (h : MemoryCanonical s) (die core slot : Nat) : NextCanonical (execTeamWake die core slot s) := by
  grind [execTeamWake, MemoryCanonical, NextCanonical, makeReady_canonical]

theorem execActiveEntry_canonical (h : MemoryCanonical s) (die core : Nat) : NextCanonical (execActiveEntry die core s) := by
  grind [execActiveEntry, MemoryCanonical, NextCanonical, putTeam_canonical]

theorem execRotation_canonical (h : MemoryCanonical s) (die core slot : Nat) : NextCanonical (execRotation die core slot s) := by
  grind [execRotation, MemoryCanonical, NextCanonical, makeReady_canonical]

theorem leaveWindows_canonical (h : MemoryCanonical s) (r : TeamRef) : MemoryCanonical (s.leaveWindows r) := h

theorem foldProgress_canonical (h : MemoryCanonical s) (t : Team) : MemoryCanonical (foldProgress s t) := by
  grind [foldProgress, MemoryCanonical, putLaunch_canonical]

theorem execDrainingExit_canonical (h : MemoryCanonical s) (die core slot : Nat) :
    NextCanonical (execDrainingExit die core slot s) := by
  grind [execDrainingExit, MemoryCanonical, NextCanonical, leaveWindows_canonical, foldProgress_canonical]

/-! ### Machine/Commit -/

theorem noteDenial_canonical (h : MemoryCanonical s) (hostmem : Bool) (asid func : Nat) (need : Need) (a : Word) (n : Nat) :
    MemoryCanonical (noteDenial s hostmem asid func need a n) := by
  grind [noteDenial, MemoryCanonical, raiseAlarm_canonical]

theorem setQueue_canonical (h : MemoryCanonical s) (q : Nat) (x : Queue) : MemoryCanonical (s.setQueue q x) := h

theorem stopQueue_canonical (h : MemoryCanonical s) (q : Nat) : MemoryCanonical (s.stopQueue q) := h

theorem writeCompletion_canonical (h : MemoryCanonical s) (l : Launch) (status : Nat) : MemoryCanonical (writeCompletion s l status) := by
  unfold writeCompletion
  split
  · exact noteDenial_canonical (stopQueue_canonical h _) ..
  next pas _ =>
    have hw : MemoryCanonical ((pas.zip (completionBytes l status s.time)).foldl (fun s p => s.hubWrite p.1 [p.2]) s) :=
      foldl_canonical (fun _ p h => hubWrite_canonical h _ _) _ h
    dsimp only
    split <;> exact hw

theorem setStream_canonical (h : MemoryCanonical s) (x : StreamRec) : MemoryCanonical (s.setStream x) := h

theorem countOutcome_canonical (h : MemoryCanonical s) (i : Nat) : MemoryCanonical (countOutcome s i) := h

theorem forgetTag_canonical (h : MemoryCanonical s) (lv : BitVec 16) : MemoryCanonical (s.forgetTag lv) := h

theorem finishLaunch_canonical (h : MemoryCanonical s) (l : Launch) (status : Nat) :
    MemoryCanonical (finishLaunch s l status) := by
  grind [finishLaunch, MemoryCanonical, setStream_canonical, writeCompletion_canonical, pruneCode_canonical,
    forgetTag_canonical]

theorem endLaunches_canonical (h : MemoryCanonical s) (fuel : Nat) (ls : List (Launch × Nat)) :
    MemoryCanonical (endLaunches fuel s ls) := by
  induction fuel generalizing s ls with
  | zero => exact h
  | succ fuel ih =>
    cases ls with
    | nil => exact h
    | cons p ls =>
      obtain ⟨l, status⟩ := p
      unfold endLaunches
      dsimp only
      have hl := finishLaunch_canonical h l status
      split_ifs
      · exact ih hl _
      · refine ih (foldl_canonical (fun _ _ h => countOutcome_canonical h _) _ ?_) _
        exact hl

theorem endLaunch_canonical (h : MemoryCanonical s) (l : Launch) (status : Nat) : MemoryCanonical (endLaunch s l status) := by
  grind [endLaunch, MemoryCanonical, endLaunches_canonical, retireAll_canonical, reportAlarms_canonical]

theorem execDoneReport_canonical (h : MemoryCanonical s) (launch die : Nat) : NextCanonical (execDoneReport launch die s) := by
  grind [execDoneReport, MemoryCanonical, NextCanonical, putLaunch_canonical]

theorem setPrepared_canonical (h : MemoryCanonical s) (lv : BitVec 16) (dies : List Nat) :
    MemoryCanonical (setPrepared s lv dies) := by
  unfold setPrepared
  extract_lets mine s1
  exact foldl_canonical (fun _ r h => dropCopies_canonical (recallWindows_canonical h r.sector _) r.sector _) _ h

theorem execPrepare_canonical (h : MemoryCanonical s) (launch die : Nat) : NextCanonical (execPrepare launch die s) := by
  unfold execPrepare
  split
  · exact h
  · split_ifs
    · exact h
    · exact requestAbort_canonical h _ _
    · exact setPrepared_canonical (foldl_canonical (fun _ m h => reclaimMap_canonical h m) _ (putLaunch_canonical h _)) _ _

theorem execBackInvalidationAck_canonical (h : MemoryCanonical s) (launch die : Nat) :
    NextCanonical (execBackInvalidationAck launch die s) := by
  grind [execBackInvalidationAck, MemoryCanonical, NextCanonical, putLaunch_canonical]

theorem execReady_canonical (h : MemoryCanonical s) (launch : Nat) : NextCanonical (execReady launch s) := by
  grind [execReady, MemoryCanonical, NextCanonical, putLaunch_canonical, requestAbort_canonical]

theorem commitSector_canonical (h : MemoryCanonical s) (r : SectorRec) : MemoryCanonical (commitSector s r) := by
  have h1 : MemoryCanonical { s with exact := s.exact.filter (fun e => e.sector ≠ r.sector) } := h
  unfold commitSector
  dsimp only
  split
  · exact setRec_canonical h1 _
  · exact setRec_canonical (setN_canonical h1 _ _) _

theorem releaseMarks_canonical (h : MemoryCanonical s) (lv : BitVec 16) (die : Nat) : MemoryCanonical (releaseMarks s lv die) :=
  foldl_canonical (fun _ _ h => setRec_canonical h _) _ h

theorem execCommit_canonical (h : MemoryCanonical s) (launch die : Nat) : NextCanonical (execCommit launch die s) := by
  unfold execCommit
  split
  · exact h
  · split
    · exact h
    · extract_lets mine secs users
      split
      · exact h
      · rename_i u _
        have hu : MemoryCanonical u := retranslateAll_canonical
          (foldl_canonical (fun _ r h => commitSector_canonical h r) mine (replacing_canonical h secs)) users
        split
        · exact hu
        · exact putLaunch_canonical (releaseMarks_canonical hu ..) _

theorem discardSectors_canonical (h : MemoryCanonical s) (lv : BitVec 16) (die : Nat) : MemoryCanonical (discardSectors s lv die) := by
  unfold discardSectors
  extract_lets mine s1 s2
  have h1 : MemoryCanonical s1 :=
    foldl_canonical (fun _ (r : SectorRec) h => dropCopies_canonical (setRec_canonical h r.discard) r.sector _) mine h
  have h2 : MemoryCanonical { s2 with exact := s2.exact.filter (fun e => !mine.any (fun r => r.sector = e.sector)) } := h1
  exact releaseMarks_canonical h2 lv die

theorem dropLost_canonical (h : MemoryCanonical s) (lv : BitVec 16) : MemoryCanonical (s.dropLost lv) := by
  refine foldl_canonical (fun s d h => ?_) _ h
  exact discardSectors_canonical h lv d

theorem execCommitAck_canonical (h : MemoryCanonical s) (launch : Nat) (bad : List (Nat × Nat × Nat × Nat)) :
    NextCanonical (execCommitAck launch bad s) := by
  grind [execCommitAck, MemoryCanonical, NextCanonical, countOutcome_canonical, putLaunch_canonical, retireAll_canonical,
    dropLost_canonical, windlassCommit_canonical, requestAbort_canonical, endLaunch_canonical]

theorem dropIdleU_canonical (h : MemoryCanonical s) (die : Nat) : MemoryCanonical (s.dropIdleU die) := h

theorem dropTeams_canonical (h : MemoryCanonical s) (l : Launch) (die : Nat) : MemoryCanonical (dropTeams s l die) :=
  have h1 := foldl_canonical (fun _ m h => releaseHomes_canonical h m) (s.maps.filter (fun m => m.lv == l.lv && m.die == die)) h
  dropIdleU_canonical h1 die

theorem execAbort_canonical (h : MemoryCanonical s) (launch die : Nat) : NextCanonical (execAbort launch die s) := by
  grind [execAbort, MemoryCanonical, NextCanonical, dropTeams_canonical, putLaunch_canonical, discardSectors_canonical]

theorem dropFenced_canonical (h : MemoryCanonical s) (l : Launch) : MemoryCanonical (dropFenced s l) := by
  refine foldl_canonical (fun s d h => ?_) _ h
  split
  · exact h
  · exact discardSectors_canonical (dropTeams_canonical h l d) _ _

theorem endUnrun_canonical (h : MemoryCanonical s) (l : Launch) (status final : Nat) :
    MemoryCanonical (endUnrun s l status final) := by
  grind [endUnrun, MemoryCanonical, countOutcome_canonical, endLaunch_canonical]

theorem execAbortAck_canonical (h : MemoryCanonical s) (launch : Nat) : NextCanonical (execAbortAck launch s) := by
  grind [execAbortAck, MemoryCanonical, NextCanonical, endUnrun_canonical, countOutcome_canonical, dropFenced_canonical,
    putLaunch_canonical, pruneCode_canonical, retireAll_canonical, forgetTag_canonical, endLaunch_canonical]

theorem execCisternEvict_canonical (h : MemoryCanonical s) (sector : Nat) : NextCanonical (execCisternEvict sector s) := by
  grind [execCisternEvict, MemoryCanonical, NextCanonical, cisternEvict_canonical]

theorem execCisternCopyback_canonical (h : MemoryCanonical s) (sector : Nat) : NextCanonical (execCisternCopyback sector s) := by
  grind [execCisternCopyback, MemoryCanonical, NextCanonical, settle_canonical]

theorem execCisternLazyReclaim_canonical (h : MemoryCanonical s) (lv : BitVec 16) :
    NextCanonical (execCisternLazyReclaim lv s) := by
  grind [execCisternLazyReclaim, MemoryCanonical, NextCanonical]

theorem execReadMarkClear_canonical (h : MemoryCanonical s) (sector : Nat) : NextCanonical (execReadMarkClear sector s) := by
  grind [execReadMarkClear, MemoryCanonical, NextCanonical, setRec_canonical]

/-! ### Machine/Hub -/

theorem takeEntry_canonical (h : MemoryCanonical s) (queue op : Nat) {act : State → Queue → Nat → Word → State}
    (hact : ∀ s x w arg, MemoryCanonical s → MemoryCanonical (act s x w arg)) : MemoryCanonical (takeEntry s queue op act) := by
  unfold takeEntry
  split_ifs
  · exact h
  extract_lets x hub s1
  have h1 : MemoryCanonical s1 := h
  split
  · exact noteDenial_canonical (stopQueue_canonical h1 _) ..
  · split_ifs
    · exact stopQueue_canonical h1 _
    · exact h
    · exact hact _ _ _ _ h1

theorem passEntry_canonical (h : MemoryCanonical s) (queue : Nat) : MemoryCanonical (passEntry s queue) := h

theorem endWaiting_canonical (h : MemoryCanonical s) (l : Launch) (status : Nat) : MemoryCanonical (endWaiting s l status) := by
  grind [endWaiting, MemoryCanonical, countOutcome_canonical, endLaunch_canonical]

theorem takeLaunch_canonical (h : MemoryCanonical s) (queue : Nat) (x : Queue) (w : Nat) (arg : Word) :
    MemoryCanonical (takeLaunch queue s x w arg) := by
  grind [takeLaunch, MemoryCanonical, stopQueue_canonical, noteDenial_canonical, endWaiting_canonical, passEntry_canonical]

theorem execLaunch_canonical (h : MemoryCanonical s) (queue : Nat) : NextCanonical (execLaunch queue s) :=
  takeEntry_canonical h queue 1 fun _ x w arg h => takeLaunch_canonical h queue x w arg

theorem execReleaseStream_canonical (h : MemoryCanonical s) (queue : Nat) : NextCanonical (execReleaseStream queue s) :=
  takeEntry_canonical h queue 2 fun _ _ _ _ h => retireAll_canonical (setStream_canonical (passEntry_canonical h queue) _)

theorem killLaunch_canonical (h : MemoryCanonical s) (l : Launch) : MemoryCanonical (killLaunch s l) := by
  grind [killLaunch, MemoryCanonical, endWaiting_canonical, putLaunch_canonical, requestAbort_canonical]

theorem execKill_canonical (h : MemoryCanonical s) (queue : Nat) : NextCanonical (execKill queue s) := by
  refine takeEntry_canonical h queue 3 fun s x w arg h => ?_
  dsimp only
  split
  · exact passEntry_canonical h queue
  · exact killLaunch_canonical (passEntry_canonical h queue) _

theorem execQueueNop_canonical (h : MemoryCanonical s) (queue : Nat) : NextCanonical (execQueueNop queue s) :=
  takeEntry_canonical h queue 4 fun _ _ _ _ h => passEntry_canonical h queue

theorem execLaunchAdmission_canonical (h : MemoryCanonical s) (launch : Nat) (lv : BitVec 16) :
    NextCanonical (execLaunchAdmission launch lv s) := by
  grind [execLaunchAdmission, MemoryCanonical, NextCanonical, noteDenial_canonical, setStream_canonical, endWaiting_canonical,
    putLaunch_canonical, retireAll_canonical]

/-! ### Machine/Driver -/

theorem cfgErr_canonical (h : MemoryCanonical s) : MemoryCanonical s.cfgErr := h

theorem guarded_canonical (h : MemoryCanonical s) (good : Bool) {u : State} (hu : MemoryCanonical u) :
    MemoryCanonical (guarded s good u) := by
  unfold guarded
  split
  · exact hu
  · exact h

theorem writeQueueCtl_canonical (h : MemoryCanonical s) (q v : Nat) : MemoryCanonical (writeQueueCtl s q v) := by
  grind [writeQueueCtl, MemoryCanonical, setQueue_canonical, cfgErr_canonical]

theorem writeQueue_canonical (h : MemoryCanonical s) (q w v : Nat) : MemoryCanonical (writeQueue s q w v) := by
  unfold writeQueue
  dsimp only
  split
  · exact guarded_canonical h _ (setQueue_canonical h _ _)
  · exact writeQueueCtl_canonical h q v
  · exact guarded_canonical h _ (setQueue_canonical h _ _)
  · exact h

theorem execQueueEnable_canonical (h : MemoryCanonical s) (queue : Nat) (value : BitVec 64) :
    NextCanonical (execQueueEnable queue value s) := by
  grind [execQueueEnable, MemoryCanonical, NextCanonical, writeQueueCtl_canonical]

theorem ringDoorbell_canonical (h : MemoryCanonical s) (func lidx : Nat) (p : BitVec 32) :
    MemoryCanonical (ringDoorbell s func lidx p) := by
  grind [ringDoorbell, MemoryCanonical, stopQueue_canonical, setQueue_canonical]

theorem execDoorbell_canonical (h : MemoryCanonical s) (func lidx : Nat) (value : BitVec 32) :
    NextCanonical (execDoorbell func lidx value s) := by
  grind [execDoorbell, MemoryCanonical, NextCanonical, ringDoorbell_canonical]

theorem writeFaultCtl_canonical (h : MemoryCanonical s) (f v : Nat) : MemoryCanonical (writeFaultCtl s f v) := by
  grind [writeFaultCtl, MemoryCanonical, cfgErr_canonical, flushHeld_canonical, setFunc_canonical]

theorem execFaultRingEnable_canonical (h : MemoryCanonical s) (func : Nat) (value : BitVec 64) :
    NextCanonical (execFaultRingEnable func value s) := by
  grind [execFaultRingEnable, MemoryCanonical, NextCanonical, writeFaultCtl_canonical]

theorem writeFrci_canonical (h : MemoryCanonical s) (f : Nat) (v : BitVec 32) : MemoryCanonical (writeFrci s f v) := by
  grind [writeFrci, MemoryCanonical, flushHeld_canonical, setFunc_canonical]

theorem execFaultRingConsume_canonical (h : MemoryCanonical s) (func : Nat) (value : BitVec 32) :
    NextCanonical (execFaultRingConsume func value s) := by
  grind [execFaultRingConsume, MemoryCanonical, NextCanonical, writeFrci_canonical]

theorem writeReplyCtl_canonical (h : MemoryCanonical s) (f v : Nat) : MemoryCanonical (writeReplyCtl s f v) := by
  grind [writeReplyCtl, MemoryCanonical, cfgErr_canonical, setFunc_canonical]

theorem execReplyRingEnable_canonical (h : MemoryCanonical s) (func : Nat) (value : BitVec 64) :
    NextCanonical (execReplyRingEnable func value s) := by
  grind [execReplyRingEnable, MemoryCanonical, NextCanonical, writeReplyCtl_canonical]

theorem writeRrpi_canonical (h : MemoryCanonical s) (f : Nat) (p : BitVec 32) : MemoryCanonical (writeRrpi s f p) := by
  grind [writeRrpi, MemoryCanonical, cfgErr_canonical, setFunc_canonical]

theorem execReplyDoorbell_canonical (h : MemoryCanonical s) (func : Nat) (value : BitVec 32) :
    NextCanonical (execReplyDoorbell func value s) := by
  grind [execReplyDoorbell, MemoryCanonical, NextCanonical, writeRrpi_canonical]

theorem writeRing_canonical (h : MemoryCanonical s) (f off v : Nat) : MemoryCanonical (writeRing s f off v) := by
  unfold writeRing
  dsimp only
  split
  · exact guarded_canonical h _ (setFunc_canonical h f _)
  · exact writeFaultCtl_canonical h f v
  · exact writeFrci_canonical h f _
  · exact guarded_canonical h _ (setFunc_canonical h f _)
  · exact writeReplyCtl_canonical h f v
  · exact writeRrpi_canonical h f _
  · exact setFunc_canonical h f _
  · exact h

theorem writePerfSel_canonical (h : MemoryCanonical s) (i : Fin 8) (v : Nat) : MemoryCanonical (writePerfSel s i v) := by
  grind [writePerfSel, MemoryCanonical, cfgErr_canonical]

theorem execPerfSelect_canonical (h : MemoryCanonical s) (counter : Fin 8) (value : BitVec 64) :
    NextCanonical (execPerfSelect counter value s) := by
  grind [execPerfSelect, MemoryCanonical, NextCanonical, writePerfSel_canonical]

theorem writeRange_canonical (h : MemoryCanonical s) (off v : Nat) : MemoryCanonical (writeRange s off v) := by
  grind [writeRange, MemoryCanonical, guarded_canonical]

theorem writeAlarmCfg_canonical (h : MemoryCanonical s) (v : Nat) : MemoryCanonical (writeAlarmCfg s v) := by
  grind [writeAlarmCfg, MemoryCanonical, guarded_canonical]

theorem writeSvnup_canonical (h : MemoryCanonical s) (v : Nat) : MemoryCanonical (writeSvnup s v) := by
  grind [writeSvnup, MemoryCanonical, cfgErr_canonical, raiseAlarm_canonical]

theorem execSvnup_canonical (h : MemoryCanonical s) (value : BitVec 64) : NextCanonical (execSvnup value s) := by
  grind [execSvnup, MemoryCanonical, NextCanonical, writeSvnup_canonical]

theorem writeAsid_canonical (h : MemoryCanonical s) (a w v : Nat) : MemoryCanonical (writeAsid s a w v) := by
  grind [writeAsid, MemoryCanonical, cfgErr_canonical]

theorem writeAccess_canonical (h : MemoryCanonical s) (d i w v : Nat) : MemoryCanonical (writeAccess s d i w v) := by
  grind [writeAccess, MemoryCanonical, guarded_canonical]

theorem writeBar0_canonical (h : MemoryCanonical s) (off v : Nat) : MemoryCanonical (writeBar0 s off v) := by
  refine ite_canonical (writeRange_canonical h ..) <| ite_canonical h <| ite_canonical (ite_canonical h h) <|
    ite_canonical (writeSvnup_canonical h v) <| ite_canonical h <| ite_canonical (writeAlarmCfg_canonical h v) <|
    ite_canonical (writePerfSel_canonical h _ v) <| ite_canonical (writeAsid_canonical h ..) <|
    ite_canonical (writeQueue_canonical h ..) <| ite_canonical (writeDomainWord_canonical h ..) <|
    ite_canonical (ite_canonical (writeAccess_canonical h ..) h) <| ite_canonical h h

theorem execConfigWrite_canonical (h : MemoryCanonical s) (func bar off : Nat) (value : BitVec 64) :
    NextCanonical (execConfigWrite func bar off value s) := by
  grind [execConfigWrite, MemoryCanonical, NextCanonical, writeBar0_canonical, writeRing_canonical, ringDoorbell_canonical]

/-! ### Machine/Boot -/

theorem dieStep_canonical {b : Booting} (h : MemoryCanonical b.s) (step cause : Nat) (good : Nat → Bool) :
    MemoryCanonical (b.dieStep step cause good).s := by
  unfold Booting.dieStep
  split
  · exact h
  · exact foldl_canonical (fun _ d h => setDie_canonical h d _) _ h

theorem hubStep_canonical {b : Booting} (h : MemoryCanonical b.s) (step cause : Nat) (good : Bool) {f : State → State}
    (hf : ∀ s, MemoryCanonical s → MemoryCanonical (f s)) : MemoryCanonical (b.hubStep step cause good f).s := by
  unfold Booting.hubStep
  split
  · exact h
  · split
    · exact hf _ h
    · exact h

theorem buildMesh_canonical (h : MemoryCanonical s) (d good : Nat) : MemoryCanonical (s.buildMesh d good) := by
  grind [State.buildMesh, MemoryCanonical, setDie_canonical]

theorem resetPackage_canonical (h : MemoryCanonical s) (cold : Bool) : MemoryCanonical (resetPackage s cold) :=
  canonical_of_mem rfl (Memory.filter_wf _ h)

theorem setBoot_canonical (h : MemoryCanonical s) (f : Boot → Boot) : MemoryCanonical (s.setBoot f) := h

theorem measure_canonical (h : MemoryCanonical s) (i : Nat) (d : List Byte) : MemoryCanonical (s.measure i d) := h

/-- A step of boot that is left out once boot has stopped. -/
theorem unlessStopped_canonical {b u : Booting} (h : MemoryCanonical b.s) (hu : MemoryCanonical u.s) :
    MemoryCanonical (match b.stopped with
      | some _ => b
      | none => u).s := by
  split
  · exact h
  · exact hu

theorem bootPackage_canonical (h : MemoryCanonical s) (x : BootInput) : MemoryCanonical (bootPackage s x) := by
  unfold bootPackage
  extract_lets f hubCause dieCause keys startHub startDies meshes served b b1 b2 b3 b4 b5 b6 b7
  have hstartDies (b : Booting) (h : MemoryCanonical b.s) : MemoryCanonical (startDies b).s :=
    unlessStopped_canonical h (foldl_canonical (fun _ d h => measure_canonical h (2 + d) (imageDigest f.flashDie)) b.dies
      (setBoot_canonical h _))
  have hmeshes (b : Booting) (h : MemoryCanonical b.s) : MemoryCanonical (meshes b).s :=
    unlessStopped_canonical h (foldl_canonical (fun _ d h => buildMesh_canonical h d (goodCores x f d)) b.dies h)
  have hserved (b : Booting) (h : MemoryCanonical b.s) : MemoryCanonical (served b).s :=
    unlessStopped_canonical h (setBoot_canonical h _)
  have h1 : MemoryCanonical b1.s := hubStep_canonical h _ _ _ fun _ h => setBoot_canonical (measure_canonical h _ _) _
  have h2 : MemoryCanonical b2.s := hubStep_canonical h1 _ _ _ fun _ h => setBoot_canonical (measure_canonical h _ _) _
  have h3 : MemoryCanonical b3.s := dieStep_canonical h2 _ _ _
  have h4 : MemoryCanonical b4.s := hstartDies _ (dieStep_canonical h3 _ _ _)
  have h5 : MemoryCanonical b5.s := hmeshes _ (dieStep_canonical h4 _ _ _)
  have h6 : MemoryCanonical b6.s := hserved _ (dieStep_canonical h5 _ _ _)
  have h7 : MemoryCanonical b7.s := hubStep_canonical h6 _ _ _ fun _ h => h
  split
  · exact setBoot_canonical h7 _
  · exact setBoot_canonical h7 _

theorem boot_canonical (h : MemoryCanonical s) (cold : Bool) (x : BootInput) : MemoryCanonical (boot s cold x) := by
  grind [boot, MemoryCanonical, resetPackage_canonical, bootPackage_canonical]

theorem execColdBoot_canonical (h : MemoryCanonical s) (input : BootInput) : NextCanonical (execColdBoot input s) := by
  grind [execColdBoot, MemoryCanonical, NextCanonical, boot_canonical]

theorem execWarmReset_canonical (h : MemoryCanonical s) (input : BootInput) : NextCanonical (execWarmReset input s) := by
  grind [execWarmReset, MemoryCanonical, NextCanonical, boot_canonical]

/-! ### Machine/Control -/

theorem endTeam_canonical (h : MemoryCanonical s) (v : View) : MemoryCanonical (endTeam s v) := h

theorem execTrap_canonical (h : MemoryCanonical s) (c : BitVec 16) : NextCanonical (execTrap c s) := by
  grind [execTrap, MemoryCanonical, NextCanonical, park_canonical]

theorem branchIf_canonical (h : MemoryCanonical s) (v : View) (o : BitVec 20) (taken : Bool) :
    MemoryCanonical (branchIf s v o taken) := h

theorem execIllegalInstruction_canonical (h : MemoryCanonical s) (opcode : Bool) :
    NextCanonical (execIllegalInstruction opcode s) := by
  grind [execIllegalInstruction, MemoryCanonical, NextCanonical, park_canonical]

/-! ### Machine/Spdm -/

theorem spdmAnswer_canonical (h : MemoryCanonical s) (r : SpdmResp) : MemoryCanonical (spdmAnswer s r) := h

theorem spdmIf_canonical (h : MemoryCanonical s) (good : Bool) (r : SpdmResp) : MemoryCanonical (spdmIf s good r) := h

theorem execGetVersion_canonical (h : MemoryCanonical s) : NextCanonical (execGetVersion s) := by
  grind [execGetVersion, MemoryCanonical, NextCanonical, spdmAnswer_canonical]

theorem execGetCapabilities_canonical (h : MemoryCanonical s) : NextCanonical (execGetCapabilities s) := by
  grind [execGetCapabilities, MemoryCanonical, NextCanonical, spdmAnswer_canonical]

theorem execNegotiateAlgorithms_canonical (h : MemoryCanonical s) (p521 sha512 : Bool) :
    NextCanonical (execNegotiateAlgorithms p521 sha512 s) := by
  grind [execNegotiateAlgorithms, MemoryCanonical, NextCanonical, spdmIf_canonical]

theorem execGetDigests_canonical (h : MemoryCanonical s) : NextCanonical (execGetDigests s) := by
  grind [execGetDigests, MemoryCanonical, NextCanonical, spdmAnswer_canonical]

theorem execGetCertificate_canonical (h : MemoryCanonical s) (certSlot : Nat) :
    NextCanonical (execGetCertificate certSlot s) := by
  grind [execGetCertificate, MemoryCanonical, NextCanonical, spdmIf_canonical]

theorem execChallenge_canonical (h : MemoryCanonical s) (certSlot : Nat) : NextCanonical (execChallenge certSlot s) := by
  grind [execChallenge, MemoryCanonical, NextCanonical, spdmIf_canonical]

theorem execGetMeasurements_canonical (h : MemoryCanonical s) (req : MeasRequest) :
    NextCanonical (execGetMeasurements req s) := by
  grind [execGetMeasurements, MemoryCanonical, NextCanonical, spdmIf_canonical]

theorem execKeyExchange_canonical (h : MemoryCanonical s) (certSlot : Nat) : NextCanonical (execKeyExchange certSlot s) := by
  grind [execKeyExchange, MemoryCanonical, NextCanonical, spdmAnswer_canonical]

theorem execFinish_canonical (h : MemoryCanonical s) (msg : SecuredMsg) : NextCanonical (execFinish msg s) := by
  grind [execFinish, MemoryCanonical, NextCanonical, spdmAnswer_canonical, raiseAlarm_canonical]

theorem execEndSession_canonical (h : MemoryCanonical s) (msg : SecuredMsg) : NextCanonical (execEndSession msg s) := by
  grind [execEndSession, MemoryCanonical, NextCanonical, spdmAnswer_canonical, raiseAlarm_canonical]

theorem execSpdmUnsupported_canonical (h : MemoryCanonical s) (code : BitVec 8) : NextCanonical (execSpdmUnsupported code s) := by
  grind [execSpdmUnsupported, MemoryCanonical, NextCanonical, spdmAnswer_canonical]

theorem execSupplyVoltageEvent_canonical (h : MemoryCanonical s) : NextCanonical (execSupplyVoltageEvent s) := by
  grind [execSupplyVoltageEvent, MemoryCanonical, NextCanonical, raiseAlarm_canonical]

theorem execClockFrequencyEvent_canonical (h : MemoryCanonical s) : NextCanonical (execClockFrequencyEvent s) := by
  grind [execClockFrequencyEvent, MemoryCanonical, NextCanonical, raiseAlarm_canonical]

theorem execTemperatureShutdownEvent_canonical (h : MemoryCanonical s) (die : Nat) :
    NextCanonical (execTemperatureShutdownEvent die s) := by
  grind [execTemperatureShutdownEvent, MemoryCanonical, NextCanonical, raiseAlarm_canonical]

theorem execSecurityControllerFault_canonical (h : MemoryCanonical s) : NextCanonical (execSecurityControllerFault s) := by
  grind [execSecurityControllerFault, MemoryCanonical, NextCanonical, raiseAlarm_canonical]

/-! ### Machine/Fleet -/

theorem abortAll_canonical (h : MemoryCanonical s) (pick : Launch → Bool) (status : Nat) : MemoryCanonical (s.abortAll pick status) :=
  foldl_canonical (fun _ l h => requestAbort_canonical h l.sid status) _ h

theorem moveUnits_canonical (h : MemoryCanonical s) (source target units : Nat) :
    MemoryCanonical (s.moveUnits source target units) := h

theorem strikeUnits_canonical (h : MemoryCanonical s) (id units : Nat) : MemoryCanonical (s.strikeUnits id units) := h

theorem returnUnits_canonical (fuel : Nat) (h : MemoryCanonical s) (id units : Nat) :
    MemoryCanonical (State.returnUnits fuel s id units) := by
  induction fuel generalizing s id units with
  | zero => exact h
  | succ fuel ih =>
    unfold State.returnUnits
    split
    · exact h
    · refine moveUnits_canonical (foldl_canonical (fun s i h => ?_) _ (strikeUnits_canonical h _ _)) _ _ _
      dsimp only
      split_ifs
      · exact h
      · exact ih h _ _

theorem returnLoan_canonical (h : MemoryCanonical s) (x : Loan) (units : Nat) : MemoryCanonical (s.returnLoan x units) := by
  grind [State.returnLoan, MemoryCanonical, returnUnits_canonical]

theorem fenceOne_canonical (h : MemoryCanonical s) (d : Nat) : MemoryCanonical (s.fenceOne d) := by
  unfold State.fenceOne
  split_ifs
  · exact h
  · extract_lets s1 s2 s3
    have h2 : MemoryCanonical s2 := h
    have h3 : MemoryCanonical s3 := by
      refine foldl_canonical (fun s x h => ?_) _ h2
      split_ifs
      · exact returnLoan_canonical h x _
      · exact h
    exact abortAll_canonical h3 _ _

theorem relink_canonical (h : MemoryCanonical s) : MemoryCanonical s.relink := by
  refine foldl_canonical (fun s i h => ?_) _ h
  grind [fenceOne_canonical, setDie_canonical]

theorem fenceDie_canonical (h : MemoryCanonical s) (d : Nat) : MemoryCanonical (s.fenceDie d) := by
  grind [State.fenceDie, MemoryCanonical, fenceOne_canonical, relink_canonical]

theorem execHubLinkFailure_canonical (h : MemoryCanonical s) (die : Nat) : NextCanonical (execHubLinkFailure die s) := by
  grind [execHubLinkFailure, MemoryCanonical, NextCanonical, setDie_canonical, relink_canonical]

theorem execRingLinkFailure_canonical (h : MemoryCanonical s) (die : Nat) : NextCanonical (execRingLinkFailure die s) := by
  grind [execRingLinkFailure, MemoryCanonical, NextCanonical, setDie_canonical, relink_canonical]

theorem execLinkRecovery_canonical (h : MemoryCanonical s) (hubLink : Bool) (die : Nat) :
    NextCanonical (execLinkRecovery hubLink die s) := by
  grind [execLinkRecovery, MemoryCanonical, NextCanonical, setDie_canonical, relink_canonical]

theorem execHubLoss_canonical (h : MemoryCanonical s) : NextCanonical (execHubLoss s) := by
  grind [execHubLoss, MemoryCanonical, NextCanonical]

theorem cutOff_canonical (h : MemoryCanonical s) (cut : Launch → Bool) (status : Nat) :
    MemoryCanonical (s.cutOff cut status) := by
  grind [State.cutOff, MemoryCanonical, abortAll_canonical]

theorem execBroryPortLoss_canonical (h : MemoryCanonical s) (loss : PortLoss) : NextCanonical (execBroryPortLoss loss s) := by
  grind [execBroryPortLoss, MemoryCanonical, NextCanonical, cutOff_canonical, setBoot_canonical]

theorem retireFrame_canonical (h : MemoryCanonical s) (die off : Nat) (met : Option Nat) :
    MemoryCanonical (s.retireFrame die off met) := by
  grind [State.retireFrame, MemoryCanonical, fenceDie_canonical, raiseRecord_canonical, abortAll_canonical, setDie_canonical]

theorem loseSector_canonical (h : MemoryCanonical s) (sector : Nat) : MemoryCanonical (s.loseSector sector) := by
  grind [State.loseSector, MemoryCanonical, retireFrame_canonical, requestAbort_canonical]

theorem execUncorrectableError_canonical (h : MemoryCanonical s) (site : ErrorSite) :
    NextCanonical (execUncorrectableError site s) := by
  cases site with
  | coreArray a die core => exact abortAll_canonical h _ _
  | tentative sector => exact ite_canonical (loseSector_canonical h sector) h
  | frame die off met => exact ite_canonical (retireFrame_canonical h die off met) h
  | image launch team => exact ite_canonical (requestAbort_canonical h launch _) h

theorem execCorrectedError_canonical (h : MemoryCanonical s) (die : Nat) : NextCanonical (execCorrectedError die s) := by
  grind [execCorrectedError, MemoryCanonical, NextCanonical, setDie_canonical]

theorem execTelemetryRefresh_canonical (h : MemoryCanonical s) (die : Fin 8) (pwr temp : BitVec 16) (throttled : Nat) :
    NextCanonical (execTelemetryRefresh die pwr temp throttled s) := by
  grind [execTelemetryRefresh, MemoryCanonical, NextCanonical, setDie_canonical]

theorem execPowerLoan_canonical (h : MemoryCanonical s) (lender borrower units : Nat) :
    NextCanonical (execPowerLoan lender borrower units s) := by
  grind [execPowerLoan, MemoryCanonical, NextCanonical, moveUnits_canonical]

theorem execLoanRepay_canonical (h : MemoryCanonical s) (loan units : Nat) : NextCanonical (execLoanRepay loan units s) := by
  grind [execLoanRepay, MemoryCanonical, NextCanonical, returnLoan_canonical]

theorem execLoanRenew_canonical (h : MemoryCanonical s) (loan : Nat) : NextCanonical (execLoanRenew loan s) := by
  grind [execLoanRenew, MemoryCanonical, NextCanonical]

theorem execLoanExpiry_canonical (h : MemoryCanonical s) (loan : Nat) : NextCanonical (execLoanExpiry loan s) := by
  grind [execLoanExpiry, MemoryCanonical, NextCanonical, returnLoan_canonical]

/-! ### Machine/Host -/

theorem noteOutsideDenial_canonical (h : MemoryCanonical s) (die off n : Nat) (write : Bool) :
    MemoryCanonical (noteOutsideDenial s die off n write) := by
  grind [noteOutsideDenial, MemoryCanonical, raiseAlarm_canonical]

theorem execHostRead_canonical (h : MemoryCanonical s) (die off len : Nat) : NextCanonical (execHostRead die off len s) := by
  grind [execHostRead, MemoryCanonical, NextCanonical, gathered_canonical, noteOutsideDenial_canonical]

theorem outsideStore_canonical (h : MemoryCanonical s) (die off : Nat) (bs : List Byte) :
    MemoryCanonical (outsideStore s die off bs) := by
  unfold outsideStore
  extract_lets sectors s1
  have h1 : s1.mem.wf = true :=
    foldl_canonical (fun _ x h => settle_canonical (dropCopies_canonical (recallWindows_canonical h x _) x _) x) _
      (replacing_canonical h sectors)
  refine canonical_of_mem rfl (List.foldlRecOn (motive := fun m => Memory.wf m = true) _ _ h1 fun m hm p _ => ?_)
  split
  · exact Memory.set_wf _ _ hm
  · exact hm

theorem outsideWrite_canonical (h : MemoryCanonical s) (die off : Nat) (bs : List Byte) :
    MemoryCanonical (outsideWrite s die off bs) := by
  have aborted {s : State} (ls : List Launch) (h : MemoryCanonical s) :
      MemoryCanonical (ls.foldl (fun s l => s.requestAbort l.sid 0x48) s) :=
    foldl_canonical (fun _ l h => requestAbort_canonical h l.sid 0x48) _ h
  grind [outsideWrite, gathered_canonical, noteOutsideDenial_canonical, outsideStore_canonical]

theorem execHostWrite_canonical (h : MemoryCanonical s) (die off : Nat) (bytes : List Byte) :
    NextCanonical (execHostWrite die off bytes s) := by
  grind [execHostWrite, MemoryCanonical, NextCanonical, hostPut_canonical, outsideWrite_canonical]

theorem execBroryPeerAccess_canonical (h : MemoryCanonical s) (write : Bool) (die off len : Nat) (bytes : List Byte) :
    NextCanonical (execBroryPeerAccess write die off len bytes s) := by
  grind [execBroryPeerAccess, MemoryCanonical, NextCanonical, gathered_canonical, noteOutsideDenial_canonical,
    outsideWrite_canonical]

/-! ### Machine/Preempt -/

theorem stopCluster_canonical (h : MemoryCanonical s) (launch cluster : Nat) (f : Team → Stop) :
    MemoryCanonical (s.stopCluster launch cluster f) := h

theorem preemptCluster_canonical (h : MemoryCanonical s) (k : Launch) (die cluster waiter : Nat) :
    MemoryCanonical (preemptCluster s k die cluster waiter) := by
  grind [preemptCluster, MemoryCanonical, stopCluster_canonical, putLaunch_canonical]

theorem execPreemption_canonical (h : MemoryCanonical s) (launch die : Nat) : NextCanonical (execPreemption launch die s) := by
  grind [execPreemption, MemoryCanonical, NextCanonical, preemptCluster_canonical]

theorem removeTeam_canonical (h : MemoryCanonical s) (t : Team) : MemoryCanonical (s.removeTeam t) := by
  grind [State.removeTeam, MemoryCanonical, foldProgress_canonical]

theorem execContextSave_canonical (h : MemoryCanonical s) (die core slot : Nat) : NextCanonical (execContextSave die core slot s) := by
  have freed (ms : List MapEntry) : MemoryCanonical (ms.foldl (fun s m => freeMap (writeBackAll s m) m) s) :=
    foldl_canonical (fun _ m h => freeMap_canonical (writeBackAll_canonical h m) m) ms h
  unfold execContextSave
  grind [NextCanonical, MemoryCanonical, removeTeam_canonical, hostPut_canonical]

theorem execFlushAndRestart_canonical (h : MemoryCanonical s) (die core slot : Nat) :
    NextCanonical (execFlushAndRestart die core slot s) := by
  grind [execFlushAndRestart, MemoryCanonical, NextCanonical, putLaunch_canonical, preemptCluster_canonical,
    removeTeam_canonical]

theorem attachEntry_canonical (h : MemoryCanonical s) (t : Team) (e : Nat × List Word) : MemoryCanonical (attachEntry s t e) := by
  grind [attachEntry, MemoryCanonical, reclaimMap_canonical, putMap_canonical]

theorem applyHeld_canonical (h : MemoryCanonical s) (n : HeldReply) (ref : TeamRef) : MemoryCanonical (applyHeld s n ref) := by
  grind [applyHeld, MemoryCanonical, makeReady_canonical, requestAbort_canonical, putTeam_canonical]

theorem restoreTeam_canonical (h : MemoryCanonical s) (x : SavedTeam) (ref : TeamRef) : MemoryCanonical (restoreTeam s x ref) := by
  unfold restoreTeam
  extract_lets enter src t0 t s1 s2 s3 mine s4
  have h0 : MemoryCanonical { s with serial := s.serial + 1 } := h
  have h1 : MemoryCanonical s1 := seat_canonical h0 t
  have h2 : MemoryCanonical s2 := by grind [makeReady_canonical]
  have h3 : MemoryCanonical s3 := foldl_canonical (fun _ e h => attachEntry_canonical h t e) _ h2
  exact foldl_canonical (fun _ y h => applyHeld_canonical h y ref) _ h3

theorem restoreMembers_cons (die : Nat) (r : LaunchRec) (core : Nat) (x : SavedTeam) (ms : List (Nat × SavedTeam)) :
    restoreMembers die r s ((core, x) :: ms) =
      match freeSlot (makeRoom s die core r) die core with
      | some slot =>
        if coreFits (makeRoom s die core r) die core r (stashTaken (makeRoom s die core r) die core) then
          restoreMembers die r (restoreTeam (makeRoom s die core r) x { die := die, core := core, slot := slot }) ms
        else none
      | none => none := by
  delta restoreMembers restoreMembers._f
  generalize makeRoom = room
  rfl

theorem restoreMembers_nil (die : Nat) (r : LaunchRec) : restoreMembers die r s [] = some s := by
  delta restoreMembers
  rfl

theorem restoreMembers_canonical (h : MemoryCanonical s) (die : Nat) (r : LaunchRec) (ms : List (Nat × SavedTeam)) :
    SomeCanonical (restoreMembers die r s ms) := by
  induction ms generalizing s with
  | nil => rw [restoreMembers_nil]; exact h
  | cons m ms ih =>
    rw [restoreMembers_cons]
    have hr := makeRoom_canonical h die m.1 r
    generalize makeRoom s die m.1 r = u at hr ⊢
    split
    · split_ifs
      · exact ih (restoreTeam_canonical hr m.2 _)
      · trivial
    · trivial

theorem execTeamRestore_canonical (h : MemoryCanonical s) (launch cluster col row : Nat) :
    NextCanonical (execTeamRestore launch cluster col row s) := by
  unfold execTeamRestore
  split
  · exact h
  next l _ =>
  extract_lets xs leaving
  split
  · exact h
  next s0 _ x0 _ =>
  split
  · exact h
  split
  · exact h
  extract_lets seats
  split
  · exact h
  have hr := restoreMembers_canonical (show MemoryCanonical s0 from h) x0.die l.lrec seats
  split
  · exact h
  next hs =>
    rw [hs] at hr
    split
    · exact hr
    · exact putLaunch_canonical hr _

theorem execKillByPolicy_canonical (h : MemoryCanonical s) (launch : Nat) : NextCanonical (execKillByPolicy launch s) := by
  grind [execKillByPolicy, MemoryCanonical, NextCanonical, requestAbort_canonical]

theorem execCoreLoss_canonical (h : MemoryCanonical s) (die core : Nat) : NextCanonical (execCoreLoss die core s) := by
  grind [execCoreLoss, MemoryCanonical, NextCanonical, abortAll_canonical, setDie_canonical, setBoot_canonical]

/-! ### Machine/Reply -/

theorem passReply_canonical (h : MemoryCanonical s) (f : Nat) : MemoryCanonical (passReply s f) := h

theorem unmatched_canonical (h : MemoryCanonical s) (f : Nat) : MemoryCanonical (unmatched s f) := h

theorem takeReply_canonical (h : MemoryCanonical s) (f action : Nat) {act : State → Reply → ParkRec → Option State}
    (hact : ∀ s x r, MemoryCanonical s → SomeCanonical (act s x r)) : MemoryCanonical (takeReply s f action act) := by
  unfold takeReply
  split
  · exact h
  next x _ =>
    split_ifs
    · exact unmatched_canonical (passReply_canonical h f) f
    · exact h
    · split
      · exact unmatched_canonical (passReply_canonical h f) f
      next r _ =>
        have ha := hact (passReply s f) x r (passReply_canonical h f)
        cases hs : act (passReply s f) x r with
        | none => exact passReply_canonical h f
        | some u => rw [hs] at ha; exact ha

theorem answer_canonical (h : MemoryCanonical s) (r : ParkRec) : MemoryCanonical (answer s r) := by
  grind [answer, MemoryCanonical, progress_canonical]

theorem freeCluster_canonical (h : MemoryCanonical s) (launch cluster : Nat) : MemoryCanonical (freeCluster s launch cluster) := h

theorem unpause_canonical (h : MemoryCanonical s) (r : ParkRec) : MemoryCanonical (unpause s r) := by
  grind [unpause, MemoryCanonical]

theorem holdReply_canonical (h : MemoryCanonical s) (r : ParkRec) (abort : Bool) (rv1 rv2 : Word) :
    MemoryCanonical (holdReply s r abort rv1 rv2) := by
  grind [holdReply, MemoryCanonical, freeCluster_canonical, answer_canonical]

theorem resumeContext_canonical (h : MemoryCanonical s) (x : Reply) (r : ParkRec) : SomeCanonical (resumeContext s x r) := by
  grind [resumeContext, MemoryCanonical, SomeCanonical, makeReady_canonical, answer_canonical, putTeam_canonical,
    holdReply_canonical]

theorem resumeUnit_canonical (h : MemoryCanonical s) (r : ParkRec) : MemoryCanonical (resumeUnit s r) := by
  grind [resumeUnit, MemoryCanonical, freeCluster_canonical, answer_canonical, unpause_canonical]

theorem execReplyResume_canonical (h : MemoryCanonical s) (func : Nat) : NextCanonical (execReplyResume func s) := by
  refine takeReply_canonical h func 1 fun s x r h => ?_
  split
  · exact resumeUnit_canonical h r
  · exact resumeContext_canonical h x r

theorem execReplyAbort_canonical (h : MemoryCanonical s) (func : Nat) : NextCanonical (execReplyAbort func s) := by
  refine takeReply_canonical h func 2 fun s x r h => ?_
  split
  · exact holdReply_canonical h ..
  · exact requestAbort_canonical (answer_canonical h r) ..

theorem holdSaved_canonical (h : MemoryCanonical s) (launch cluster : Nat) : MemoryCanonical (holdSaved s launch cluster) := h

theorem saveCluster_canonical (h : MemoryCanonical s) (x : Reply) (r : ParkRec) : SomeCanonical (saveCluster s x r) := by
  grind [saveCluster, MemoryCanonical, SomeCanonical, stopCluster_canonical, hostPut_canonical, holdSaved_canonical]

theorem execReplySave_canonical (h : MemoryCanonical s) (func : Nat) : NextCanonical (execReplySave func s) := by
  refine takeReply_canonical h func 3 fun s x r h => ?_
  have hsave := saveCluster_canonical h x r
  have hun := unmatched_canonical h func
  split
  · exact hun
  · cases hs : saveCluster s x r with
    | none => exact hun
    | some u => rw [hs] at hsave; exact hsave

theorem execReplyRestore_canonical (h : MemoryCanonical s) (func : Nat) : NextCanonical (execReplyRestore func s) := by
  refine takeReply_canonical h func 4 fun s x r h => ?_
  split
  · exact unmatched_canonical h func
  · split
    · exact unmatched_canonical h func
    · dsimp only
      split
      · exact raiseAlarm_canonical (requestAbort_canonical h ..) _
      · exact h

/-! ### Machine/VSfu -/

theorem sfuOp_canonical (h : MemoryCanonical s) (fn : Nat) (d a : Fin 64) (b : Option (Fin 64)) (la : Fin 16) :
    NextCanonical (sfuOp s fn d a b la) := by
  refine instr_canonical h fun v => ?_
  grind [OkCanonical, retire_canonical]

/-! ### Machine/VXl -/

theorem xlDone_canonical (h : MemoryCanonical s) (v : View) (t : Team) (fl : Flags) (la : Fin 16) (names : List RegName) :
    MemoryCanonical (xlDone s v t fl la names) := h

theorem xlMove_canonical (h : MemoryCanonical s) (d a : Fin 64) (idx : List Nat) (extra : List RegName) (la : Fin 16)
    (f : View → Nat → Option Nat) :
    NextCanonical (xlMove s d a idx extra la f) := by
  refine instr_canonical h fun v => ?_
  grind [OkCanonical, xlDone_canonical]

theorem scanOp_canonical (h : MemoryCanonical s) (d a : Fin 64) (o : Fin 6) (la : Fin 16) (sel : Nat → Nat → Bool) :
    NextCanonical (scanOp s d a o la sel) := by
  refine instr_canonical h fun v => ?_
  grind [OkCanonical, xlDone_canonical]

/-! ### Machine/Issue -/

theorem noteFrames_canonical (h : MemoryCanonical s) (sid : Nat) (frames : List Nat) :
    MemoryCanonical (s.noteFrames sid frames) := by
  grind [State.noteFrames, MemoryCanonical, putLaunch_canonical]

theorem fetchFault_canonical (h : MemoryCanonical s) (v : View) (code : FaultCode) (a : Word) :
    MemoryCanonical (fetchFault s v code a) := by
  grind [fetchFault, MemoryCanonical, park_canonical, noteTeam_canonical]

theorem clock_canonical (h : MemoryCanonical s) : MemoryCanonical s.clock := h

theorem counted_canonical (i : Instr) {u : State} (h : MemoryCanonical u) : MemoryCanonical (counted i s u) := h

/-- Every instruction and event leaves memory canonical: those of a shared shape by its lemma, every other by its own. -/
theorem exec_canonical (h : MemoryCanonical s) (i : Instr) : NextCanonical (exec i s) := by
  cases i <;> dsimp only [exec]
  case sadd | ssub | smul | smulhi | smulhn | sand | sor | sxor | sandn | sshl | sshr | ssra | smin | smax | sminn | smaxn |
      sseq | sslt | ssltn =>
    exact scalar3_canonical h ..
  case spop | sclz | sctz | smov | sshli | sshri | ssrai | saddi | sandi | sori | sxori | sslti =>
    exact scalar2_canonical h ..
  case smovl | smovlSigned | smovlHigh =>
    exact literalOp_canonical h ..
  case kand | kor | kxor | kandn | knot | kmov | kfroms | kclr | klive =>
    exact maskOp_canonical h ..
  case kpop | kfirst | ktos =>
    exact maskToScalar_canonical h ..
  case vadd | vsub | vmul | vabs | vneg | vadds | vmuls | vaddi | vmad | vmsb =>
    exact satOp_canonical h ..
  case vmulh | vshl | vshr | vsra | vmin | vmax | vpopc | vclz | vbfx =>
    exact plainOp_canonical h ..
  case vand | vor | vxor | vandn | vmov | vsel =>
    exact rawOp_canonical h ..
  case vmovs | vbfi =>
    exact intOp_canonical h ..
  case vceq | vcne | vclt | vcle =>
    exact intCompare_canonical h ..
  case vfadd | vfsub | vfmul | vfmin | vfmax | vfabs | vfneg | vfadds | vfmuls | vfma | vfms | vfnma | vfnms =>
    exact floatOp_canonical h ..
  case vfceq | vfclt | vfcle | vfcun =>
    exact floatCompare_canonical h ..
  case vfdiv | vfsqrt | vfrcp | vfrsq | vfexp2 | vflog2 | vfsinpi | vfcospi | vftanh =>
    exact sfuOp_canonical h ..
  case vperm | vshup | vshdn | vshx | vbcast =>
    exact xlMove_canonical h ..
  case vscan | vscanx | vred =>
    exact scanOp_canonical h ..
  case atomAdd | atomMin | atomMax | atomMinn | atomMaxn | atomAnd | atomOr | atomXor | atomExch | atomCas | atomIncw |
      atomAddb | atomExchq =>
    exact atomOp_canonical h ..
  case redAdd | redMin | redMax | redMinn | redMaxn | redAnd | redOr | redXor | redFadd | redFmin | redFmax =>
    exact redOp_canonical h ..
  case fenceAcq | fenceRel | fenceFull =>
    exact fenceOp_canonical h ..
  case nop | brk | endCtx | exitLanes | ret | srd | swr | sliceof | mdrd | modev | mode | rgn | bra | call | bsz | bsnz | bkz |
      bknz | bkall | sbfx | kld | kst | viota | vfclass | vcvt | vpack | vunpk | vcmpr | lbal | lds | sts | ldg | stg | ldsc |
      stsc | stmap | stqry | xbegin | xend | xabort | waitc | binit | barv | barc | bwait | cbara | cbarw | mzero | mma |
      msplit | mmas | mdrain | mxport | mstat | vpop | qstat | astr | aqwait | route =>
    refine instr_canonical h fun v => ?_
    grind [OkCanonical, BothCanonical, BothFstCanonical, addOp_canonical, arriveOp_canonical, await_canonical,
      branchIf_canonical, endTeam_canonical, engineLoad_canonical, engineStore_canonical, issueLoad_canonical,
      issueStore_canonical, laneResult_canonical, mapWindow_canonical, mtxRetireEnding_canonical, mtxRetire_canonical,
      observeAll_canonical, putLaunch_canonical, regionLoads_canonical, retireEnding_canonical, retire_canonical,
      setStash_canonical, xlDone_canonical]
  case trap => exact execTrap_canonical h ..
  case ldgs => exact execLdgs_canonical h ..
  case stunmap => exact execStunmap_canonical h ..
  case stflush => exact execStflush_canonical h ..
  case stinv => exact execStinv_canonical h ..
  case pref => exact execPref_canonical h ..
  case mxload => exact execMxload_canonical h ..
  case hdef => exact execHdef_canonical h ..
  case fetch => exact execFetch_canonical h ..
  case epool => exact execEpool_canonical h ..
  case illegalInstruction => exact execIllegalInstruction_canonical h ..
  case copy => exact execCopy_canonical h ..
  case fill => exact execFill_canonical h ..
  case fwarm => exact execFwarm_canonical h ..
  case cred => exact execCred_canonical h ..
  case cbcast => exact execCbcast_canonical h ..
  case merge => exact execMerge_canonical h ..
  case streamEntryAppend => exact execStreamEntryAppend_canonical h ..
  case loadComplete => exact execLoadComplete_canonical h ..
  case storePerformed => exact execStorePerformed_canonical h ..
  case windowFill => exact execWindowFill_canonical h ..
  case stashCopyComplete => exact execStashCopyComplete_canonical h ..
  case ownershipGrant => exact execOwnershipGrant_canonical h ..
  case atomPerformed => exact execAtomPerformed_canonical h ..
  case redMerge => exact execRedMerge_canonical h ..
  case regionValidation => exact execRegionValidation_canonical h ..
  case barrierArrival => exact execBarrierArrival_canonical h ..
  case clusterArrival => exact execClusterArrival_canonical h ..
  case fenceComplete => exact execFenceComplete_canonical h ..
  case teamWake => exact execTeamWake_canonical h ..
  case activeEntry => exact execActiveEntry_canonical h ..
  case rotation => exact execRotation_canonical h ..
  case cisternEvict => exact execCisternEvict_canonical h ..
  case cisternCopyback => exact execCisternCopyback_canonical h ..
  case teamPlacement => exact execTeamPlacement_canonical h ..
  case drainingExit => exact execDrainingExit_canonical h ..
  case doneReport => exact execDoneReport_canonical h ..
  case prepare => exact execPrepare_canonical h ..
  case ready => exact execReady_canonical h ..
  case commit => exact execCommit_canonical h ..
  case commitAck => exact execCommitAck_canonical h ..
  case windowEnd => exact execWindowEnd_canonical h ..
  case replicaCopyDone => exact execReplicaCopyDone_canonical h ..
  case versionPublish => exact execVersionPublish_canonical h ..
  case abort => exact execAbort_canonical h ..
  case abortAck => exact execAbortAck_canonical h ..
  case doorbell => exact execDoorbell_canonical h ..
  case launch => exact execLaunch_canonical h ..
  case releaseStream => exact execReleaseStream_canonical h ..
  case kill => exact execKill_canonical h ..
  case queueNop => exact execQueueNop_canonical h ..
  case launchAdmission => exact execLaunchAdmission_canonical h ..
  case preemption => exact execPreemption_canonical h ..
  case contextSave => exact execContextSave_canonical h ..
  case flushAndRestart => exact execFlushAndRestart_canonical h ..
  case teamRestore => exact execTeamRestore_canonical h ..
  case killByPolicy => exact execKillByPolicy_canonical h ..
  case coreLoss => exact execCoreLoss_canonical h ..
  case replyDoorbell => exact execReplyDoorbell_canonical h ..
  case replyResume => exact execReplyResume_canonical h ..
  case replyAbort => exact execReplyAbort_canonical h ..
  case replySave => exact execReplySave_canonical h ..
  case replyRestore => exact execReplyRestore_canonical h ..
  case hostRead => exact execHostRead_canonical h ..
  case hostWrite => exact execHostWrite_canonical h ..
  case configWrite => exact execConfigWrite_canonical h ..
  case perfSelect => exact execPerfSelect_canonical h ..
  case queueEnable => exact execQueueEnable_canonical h ..
  case faultRingEnable => exact execFaultRingEnable_canonical h ..
  case faultRingConsume => exact execFaultRingConsume_canonical h ..
  case replyRingEnable => exact execReplyRingEnable_canonical h ..
  case windlassDomainEnable => exact execWindlassDomainEnable_canonical h ..
  case windlassDomainDisable => exact execWindlassDomainDisable_canonical h ..
  case svnup => exact execSvnup_canonical h ..
  case coldBoot => exact execColdBoot_canonical h ..
  case warmReset => exact execWarmReset_canonical h ..
  case getVersion => exact execGetVersion_canonical h ..
  case getCapabilities => exact execGetCapabilities_canonical h ..
  case negotiateAlgorithms => exact execNegotiateAlgorithms_canonical h ..
  case getDigests => exact execGetDigests_canonical h ..
  case getCertificate => exact execGetCertificate_canonical h ..
  case challenge => exact execChallenge_canonical h ..
  case getMeasurements => exact execGetMeasurements_canonical h ..
  case keyExchange => exact execKeyExchange_canonical h ..
  case finish => exact execFinish_canonical h ..
  case endSession => exact execEndSession_canonical h ..
  case spdmUnsupported => exact execSpdmUnsupported_canonical h ..
  case supplyVoltageEvent => exact execSupplyVoltageEvent_canonical h ..
  case clockFrequencyEvent => exact execClockFrequencyEvent_canonical h ..
  case temperatureShutdownEvent => exact execTemperatureShutdownEvent_canonical h ..
  case securityControllerFault => exact execSecurityControllerFault_canonical h ..
  case uncorrectableError => exact execUncorrectableError_canonical h ..
  case correctedError => exact execCorrectedError_canonical h ..
  case hubLinkFailure => exact execHubLinkFailure_canonical h ..
  case ringLinkFailure => exact execRingLinkFailure_canonical h ..
  case telemetryRefresh => exact execTelemetryRefresh_canonical h ..
  case powerLoan => exact execPowerLoan_canonical h ..
  case loanRepay => exact execLoanRepay_canonical h ..
  case loanRenew => exact execLoanRenew_canonical h ..
  case loanExpiry => exact execLoanExpiry_canonical h ..
  case backInvalidationAck => exact execBackInvalidationAck_canonical h ..
  case cisternLazyReclaim => exact execCisternLazyReclaim_canonical h ..
  case readMarkClear => exact execReadMarkClear_canonical h ..
  case linkRecovery => exact execLinkRecovery_canonical h ..
  case hubLoss => exact execHubLoss_canonical h ..
  case broryPortLoss => exact execBroryPortLoss_canonical h ..
  case broryPeerAccess => exact execBroryPeerAccess_canonical h ..

/-! ### The step -/

/-- A move leaves the state canonical, or has an instruction start from a canonical state. -/
def MoveCanonical : NextMove → Prop
  | .stop _ => True
  | .idle s => MemoryCanonical s
  | .run _ s => MemoryCanonical s

theorem fetchMove_canonical (h : MemoryCanonical s) (v : View) : MoveCanonical (fetchMove s v) := by
  grind [fetchMove, MoveCanonical, fetchFault_canonical, requestAbort_canonical, noteFrames_canonical, noteTeam_canonical]

theorem issueMove_canonical (h : MemoryCanonical s) (r : CtxRef) : MoveCanonical (issueMove s r) := by
  have hr : MemoryCanonical { s with cur := r } := h
  grind [issueMove, MoveCanonical, await_canonical, fetchMove_canonical]

theorem moveOf_canonical (h : MemoryCanonical s) (t : Option Turn) : MoveCanonical (moveOf s t) := by
  unfold moveOf
  split
  · exact h
  · exact issueMove_canonical h _
  · split <;> exact h

theorem nextTurn_canonical (h : MemoryCanonical s) : MemoryCanonical (nextTurn s).2 := by
  unfold nextTurn
  split <;> exact h

theorem nextMove_canonical (h : MemoryCanonical s) : MoveCanonical (nextMove s) := by
  have hc := clock_canonical h
  unfold nextMove
  dsimp only
  split
  · exact returnLoan_canonical hc _ _
  · split
    · trivial
    · exact moveOf_canonical (nextTurn_canonical hc) _

theorem step_canonical (h : MemoryCanonical s) : NextCanonical (step s) := by
  have hm := nextMove_canonical h
  unfold step
  split
  · trivial
  next hs => rw [hs] at hm; exact hm
  next i s1 hs =>
    rw [hs] at hm
    have he := exec_canonical hm i
    split
    next hx => rw [hx] at he; exact counted_canonical i (walked_canonical i he)
    · trivial
    · trivial

end

/-- Settles O60: memory stays canonical over every operation of the model (`exec_canonical`, `nextMove_canonical`). -/
theorem stepKeepsMemoryCanonical : Obligations.StepKeepsMemoryCanonical := by
  unfold Obligations.StepKeepsMemoryCanonical
  intro s u h hu
  have := step_canonical h
  rwa [hu] at this

end Sys2Proof.Machine.Canonical

/-! ## Writes of the driver's registers, and reads of them (O47)

A write or a read of a register goes to the register at its offset (`exec_configWrite_bar0`, `exec_configWrite_ring`,
`readRegister_bar0`, `readRegister_ring`); each register's rule is a lemma of its own, and the obligation collects them. -/

namespace Sys2Proof.Machine.Registers

-- one proof after another: side by side they take more threads than the check's memory limit has stacks for
set_option Elab.async false

section
variable {s : State} {v : BitVec 64} {f off : Nat} {g : FuncRegs}

/-! ### Keyed lists and the ring registers of a function -/

/-- In a keyed list that holds the key, or has the pair at its end, the key finds what was set. -/
theorem find?_setAssoc {α β : Type} [DecidableEq α] (l : List (α × β)) (k : α) (x : β) :
    (setAssoc l k x).find? (fun p => p.1 = k) = some (k, x) := by
  unfold setAssoc
  split
  next h =>
    induction l with
    | nil => simp at h
    | cons p l ih =>
      by_cases hp : p.1 = k
      · simp [hp]
      · simp only [List.any_cons, hp, decide_false, Bool.false_or] at h
        simpa [hp] using ih h
  next h =>
    have hn : l.find? (fun p => decide (p.1 = k)) = none :=
      List.find?_eq_none.2 fun p hp hk => h (List.any_eq_true.2 ⟨p, hp, hk⟩)
    simp [List.find?_append, hn]

@[simp] theorem assoc_setAssoc {α β : Type} [DecidableEq α] (l : List (α × β)) (k : α) (x d : β) :
    assoc (setAssoc l k x) k d = x := by
  rw [assoc, find?_setAssoc]

@[simp] theorem setAssoc_setAssoc {α β : Type} [DecidableEq α] (l : List (α × β)) (k : α) (x y : β) :
    setAssoc (setAssoc l k x) k y = setAssoc l k y := by
  have hany : (setAssoc l k x).any (fun p => p.1 = k) = true := by
    have hk := find?_setAssoc l k x
    exact List.any_eq_true.2 ⟨(k, x), List.mem_of_find?_eq_some hk, by simp⟩
  rw [setAssoc, if_pos hany]
  unfold setAssoc
  split
  · rw [List.map_map]
    refine List.map_congr_left fun p _ => ?_
    by_cases hp : p.1 = k <;> simp [hp]
  next h =>
    have hl : l.map (fun p => if p.1 = k then (k, y) else p) = l :=
      (List.map_congr_left fun p hp => if_neg fun hk => h (List.any_eq_true.2 ⟨p, hp, by simpa using hk⟩)).trans (List.map_id l)
    simp [hl]

@[simp] theorem func_setFunc : (s.setFunc f g).func f = g := assoc_setAssoc ..

@[simp] theorem setFunc_setFunc (g' : FuncRegs) : (s.setFunc f g).setFunc f g' = s.setFunc f g' := by
  simp [State.setFunc]

/-! ### Writes of the package's registers -/

/-- The state after an ignored write: only CFGERR is set (R355). -/
theorem cfgErr_eq : s.cfgErr = { s with hub := { s.hub with cfgerr := true } } := rfl

/-- A write at an offset of BAR0 of PF goes to the register there (R355). -/
theorem exec_configWrite_bar0 (hr : s.sec.boot.ready = true) (ho : off % 8 = 0) :
    exec (.configWrite 0 0 off v) s = .next (writeBar0 s off v.toNat) := by
  simp [execConfigWrite, hr, ho]

/-- A write at an offset of BAR2 of a function above its doorbells goes to the ring register there (R365). -/
theorem exec_configWrite_ring (hr : s.sec.boot.ready = true) (hf : f ≤ 64) (ho : off % 8 = 0) :
    exec (.configWrite f 2 (0x10000 + off) v) s = .next (writeRing s f off v.toNat) := by
  have ha : (0x10000 + off) % 8 = 0 := by omega
  simp [execConfigWrite, hr, ha, Nat.not_lt.2 hf]

theorem exec_perfSelect_ready (hr : s.sec.boot.ready = true) (i : Fin 8) :
    exec (.perfSelect i v) s = .next (writePerfSel s i v.toNat) := by
  simp [execPerfSelect, hr]

theorem exec_faultRingEnable_ready (hr : s.sec.boot.ready = true) (hf : f ≤ 64) (hen : bitAt v.toNat 63 = true) :
    exec (.faultRingEnable f v) s = .next (writeFaultCtl s f v.toNat) := by
  simp [execFaultRingEnable, hr, hf, hen]

theorem exec_replyRingEnable_ready (hr : s.sec.boot.ready = true) (hf : f ≤ 64) (hen : bitAt v.toNat 63 = true) :
    exec (.replyRingEnable f v) s = .next (writeReplyCtl s f v.toNat) := by
  simp [execReplyRingEnable, hr, hf, hen]

theorem exec_faultRingConsume_ready (hr : s.sec.boot.ready = true) (hf : f ≤ 64) (c : BitVec 32) :
    exec (.faultRingConsume f c) s = .next (writeFrci s f c) := by
  simp [execFaultRingConsume, hr, hf]

theorem exec_replyDoorbell_ready (hr : s.sec.boot.ready = true) (hf : f ≤ 64) (p : BitVec 32) :
    exec (.replyDoorbell f p) s = .next (writeRrpi s f p) := by
  simp [execReplyDoorbell, hr, hf]

theorem writeBar0_cfgerr {n : Nat} (h : bitAt n 0 = true) :
    writeBar0 s 0x310 n = { s with hub := { s.hub with cfgerr := false } } := by
  simp [writeBar0, h]

theorem writeBar0_klim (n : Nat) : writeBar0 s 0x300 n = { s with hub := { s.hub with klim := BitVec.ofNat 32 n } } := by
  simp [writeBar0]

theorem writeBar0_src (n : Nat) :
    writeBar0 s 0x500 n = { s with alarm := { s.alarm with src := s.alarm.src &&& ~~~ BitVec.ofNat 8 (n / 256) } } := by
  simp [writeBar0]

/-- A source's level in a written configuration is the two bits of the value. -/
theorem levelOf_ofNat (a : Alarm) (n : Nat) {i : Nat} (hi : i < 8) :
    ({ a with cfg := BitVec.ofNat 16 n } : Alarm).levelOf i = bits n (2 * i + 1) (2 * i) := by
  simp only [Alarm.levelOf, bits, BitVec.toNat_ofNat]
  interval_cases i <;> omega

/-- The minimum levels of the sources (R377). -/
theorem levelOf_reset {i : Nat} (hi : i < 8) : Alarm.reset.levelOf i = [3, 3, 2, 3, 1, 1, 0, 0].getD i 0 := by
  interval_cases i <;> decide

theorem writeBar0_alarmCfg_low {n : Nat} (h : ∃ i < 8, bits n (2 * i + 1) (2 * i) < [3, 3, 2, 3, 1, 1, 0, 0].getD i 0) :
    writeBar0 s 0x508 n = s.cfgErr := by
  obtain ⟨i, hi, hlow⟩ := h
  have hbad : (List.range 8).all
      (fun i => Alarm.reset.levelOf i ≤ ({ s.alarm with cfg := BitVec.ofNat 16 n } : Alarm).levelOf i) = false := by
    refine List.all_eq_false.2 ⟨i, List.mem_range.2 hi, ?_⟩
    rw [levelOf_ofNat _ _ hi, levelOf_reset hi]
    simpa using hlow
  simp only [writeBar0, writeAlarmCfg, hbad, guarded]
  simp

/-- CISBASE of a die: it changes while no launch is open (R356). -/
theorem writeBar0_cisBase (d : Fin 8) (n : Nat) :
    writeBar0 s (0x100 + 16 * d.val) n =
      guarded s (openCount s = 0) { s with hub := { s.hub with cisBase := s.hub.cisBase.set d (bits n 36 21 * 2097152) } } := by
  have hd : Fin.ofNat 8 (16 * d.val / 16) = d := by
    rw [Nat.mul_div_cancel_left _ (by decide)]
    exact Fin.ofNat_val_eq_self d
  have hw : 0x100 ≤ 0x100 + 16 * d.val ∧ 0x100 + 16 * d.val < 0x180 := by omega
  simp only [writeBar0, hw, writeRange, Nat.add_sub_cancel_left, hd, units2M]
  simp [show 16 * d.val < 128 by omega]

theorem openCount_eq_countP : openCount s = s.hub.launches.countP (·.isOpen) := List.countP_eq_length_filter.symm

theorem guarded_of_true {u : State} {c : Bool} (h : c = true) : guarded s c u = u := if_pos h

theorem guarded_of_false {u : State} {c : Bool} (h : c = false) : guarded s c u = s.cfgErr := by simp [guarded, h]

theorem writePerfSel_selects {n : Nat} (i : Fin 8) (hn : n % 256 ≤ 9) (ho : openCount s = 0) :
    writePerfSel s i n = { s with
      hub := { s.hub with perfSel := s.hub.perfSel.set i (BitVec.ofNat 8 n) }
      perf := s.perf.filter (fun p => p.1.2.2 ≠ i.val) } := by
  have he : ¬ 9 < (BitVec.ofNat 8 n).toNat := by
    rw [BitVec.toNat_ofNat]
    omega
  exact if_neg (by simp only [he, ho, ne_eq, not_true, decide_false, Bool.or_self, Bool.false_eq_true, not_false_iff])

theorem writePerfSel_reserved {n : Nat} (i : Fin 8) (hn : 9 < n % 256) : writePerfSel s i n = s.cfgErr := by
  have he : 9 < (BitVec.ofNat 8 n).toNat := by
    rw [BitVec.toNat_ofNat]
    omega
  exact if_pos (by simp only [he, decide_true, Bool.true_or])

/-- BAR0's read-only registers (R356, R371, R382). -/
theorem writeBar0_readOnly {n : Nat} (h : off ∈ [0x308, 0x400, 0x800, 0xA00]) : writeBar0 s off n = s := by
  fin_cases h <;> simp [writeBar0]

/-! ### Writes of the rings' registers -/

/-- FRPI's word is written by its consumer half only, so these are the read-only registers of the rings (R365, R366). -/
theorem writeRing_readOnly {n : Nat} (h : off ∈ [0x18, 0x38, 0x48]) : writeRing s f off n = s := by
  fin_cases h <;> rfl

/-- With no record held, none moves into the ring (R365). -/
theorem flushHeld_of_nil (h : (s.func f).held = []) : s.flushHeld f = s := by
  simp [State.flushHeld, h]

/-- The one record held moves into the ring when there is room (R365). -/
theorem flushHeld_of_single {r : ParkRec} (h : (s.func f).held = [r]) (hroom : (s.func f).full = false) :
    s.flushHeld f = (s.setFunc f { s.func f with held := [] }).ringPut r := by
  simp [State.flushHeld, h, hroom]

/-- Of two settings of a function's registers with a write of host memory between them, the later stands. -/
theorem hostPut_setFunc_setFunc {a : Nat} {bs : List Byte} (g' : FuncRegs) :
    ((s.setFunc f g).hostPut a bs).setFunc f g' = (s.hostPut a bs).setFunc f g' := by
  rw [show (s.setFunc f g).hostPut a bs = (s.hostPut a bs).setFunc f g from rfl, setFunc_setFunc]

/-- A record put in a ring is written at FRPI, which moves on, and FVEC is signalled (R365). -/
theorem ringPut_setFunc {r : ParkRec} (hr : r.func = f) :
    (s.setFunc f g).ringPut r =
      { (s.hostPut (g.frbase.toNat + 128 * (g.frpi.toNat % 2 ^ g.frlog2n)) r.bytes).setFunc f { g with frpi := g.frpi + 1 } with
        out := s.out ++ [.irq f g.fvec] } := by
  subst hr
  unfold State.ringPut
  rw [func_setFunc]
  generalize r.bytes = bs
  exact congrArg (fun u : State => { u with out := s.out ++ [Output.irq r.func g.fvec] }) (hostPut_setFunc_setFunc _)

theorem writeFaultCtl_enables {n : Nat} (hen : bitAt n 63 = true) (hlo : 4 ≤ bits n 4 0) (hhi : bits n 4 0 ≤ 12)
    (hoff : (s.func f).fren = false) (hheld : (s.func f).held = []) :
    writeFaultCtl s f n = s.setFunc f { s.func f with fren := true, frlog2n := bits n 4 0 } := by
  simp [writeFaultCtl, hen, hoff, Nat.not_lt.2 hlo, Nat.not_lt.2 hhi, flushHeld_of_nil, hheld]

theorem writeFaultCtl_size {n : Nat} (h : bits n 4 0 < 4 ∨ 12 < bits n 4 0) : writeFaultCtl s f n = s.cfgErr := by
  rcases h with h | h <;> simp [writeFaultCtl, h]

theorem writeReplyCtl_enables {n : Nat} (hen : bitAt n 63 = true) (hlo : 4 ≤ bits n 4 0) (hhi : bits n 4 0 ≤ 12)
    (hoff : (s.func f).rren = false) :
    writeReplyCtl s f n = s.setFunc f { s.func f with rren := true, rrlog2n := bits n 4 0, rrci := 0, rrpi := 0 } := by
  simp [writeReplyCtl, hen, hoff, Nat.not_lt.2 hlo, Nat.not_lt.2 hhi]

theorem writeReplyCtl_size {n : Nat} (h : bits n 4 0 < 4 ∨ 12 < bits n 4 0) : writeReplyCtl s f n = s.cfgErr := by
  rcases h with h | h <;> simp [writeReplyCtl, h]

theorem writeFrci_of_nil (h : (s.func f).held = []) (c : BitVec 32) :
    writeFrci s f c = s.setFunc f { s.func f with frci := c } :=
  flushHeld_of_nil (by simp [h])

/-- Room made in the ring lets the one record held in: it is written at FRPI, which moves on, and FVEC is signalled (R365). -/
theorem writeFrci_of_single {r : ParkRec} (h : (s.func f).held = [r]) (hr : r.func = f) (hen : (s.func f).fren = true)
    {c : BitVec 32} (hroom : ((s.func f).frpi - c).toNat < 2 ^ (s.func f).frlog2n) :
    writeFrci s f c =
      { (s.hostPut ((s.func f).frbase.toNat + 128 * ((s.func f).frpi.toNat % 2 ^ (s.func f).frlog2n)) r.bytes).setFunc f
          { s.func f with frci := c, held := [], frpi := (s.func f).frpi + 1 } with
        out := s.out ++ [.irq f (s.func f).fvec] } := by
  have hfull : ((s.setFunc f { s.func f with frci := c }).func f).full = false := by
    rw [func_setFunc, FuncRegs.full]
    simp only [hen, Nat.not_le.2 hroom, Bool.not_true, decide_false, Bool.or_self]
  have hheld : ((s.setFunc f { s.func f with frci := c }).func f).held = [r] := by simp [h]
  rw [writeFrci, flushHeld_of_single hheld hfull, func_setFunc, setFunc_setFunc, ringPut_setFunc hr]

theorem writeRrpi_publishes {p : BitVec 32} (hroom : (p - (s.func f).rrci).toNat ≤ 2 ^ (s.func f).rrlog2n)
    (hahead : ((s.func f).rrpi - (s.func f).rrci).toNat ≤ (p - (s.func f).rrci).toNat) :
    writeRrpi s f p = s.setFunc f { s.func f with rrpi := p } := by
  exact if_neg (by simp only [Nat.not_lt.2 hroom, Nat.not_lt.2 hahead, decide_false, Bool.or_self, Bool.false_eq_true, not_false_iff])

theorem writeRrpi_ignored {p : BitVec 32} (h : 2 ^ (s.func f).rrlog2n < (p - (s.func f).rrci).toNat ∨
    (p - (s.func f).rrci).toNat < ((s.func f).rrpi - (s.func f).rrci).toNat) : writeRrpi s f p = s.cfgErr :=
  if_pos (by simpa only [Bool.or_eq_true, decide_eq_true_eq] using h)

/-- A write to a read-only register of BAR0 does nothing (R355). -/
theorem exec_configWrite_readOnly (hr : s.sec.boot.ready = true) (h : off ∈ [0x308, 0x400, 0x800, 0xA00]) :
    exec (.configWrite 0 0 off v) s = .next s := by
  have ho : off % 8 = 0 := by fin_cases h <;> rfl
  rw [exec_configWrite_bar0 hr ho, writeBar0_readOnly h]

/-- A write to a read-only register of a function's rings does nothing (R355). -/
theorem exec_configWrite_ringReadOnly (hr : s.sec.boot.ready = true) (hf : f ≤ 64) (h : off ∈ [0x10018, 0x10038, 0x10048]) :
    exec (.configWrite f 2 off v) s = .next s := by
  obtain ⟨o, ho, rfl⟩ : ∃ o ∈ [0x18, 0x38, 0x48], off = 0x10000 + o :=
    ⟨off - 0x10000, by fin_cases h <;> decide, by fin_cases h <;> rfl⟩
  have ha : o % 8 = 0 := by fin_cases ho <;> rfl
  rw [exec_configWrite_ring hr hf ha, writeRing_readOnly ho]

/-! ### Reads -/

/-- A flag is its bit, at its place. -/
theorem flag_low (x : Bool) (lo : Nat) : ∃ r : Nat, flag x lo = r * 2 ^ lo ∧ r < 2 ∧ (r == 1) = x := by
  cases x
  · exact ⟨0, by simp [flag], by decide, rfl⟩
  · exact ⟨1, by simp [flag], by decide, rfl⟩

/-- Before boot is complete only BOOTST answers (R370; log 27). -/
theorem readRegister_before_ready {func bar off : Nat} (hr : s.sec.boot.ready = false) (h : bar ≠ 0 ∨ off ≠ 0x400) :
    readRegister s func bar off = none := by
  rcases h with h | h <;> simp [readRegister, hr, h]

theorem readRegister_bar0 (hr : s.sec.boot.ready = true) (ho : off % 8 = 0) :
    readRegister s 0 0 off = some (BitVec.ofNat 64 (readBar0 s off)) := by
  simp [readRegister, hr, ho]

theorem readRegister_ring (hr : s.sec.boot.ready = true) (hf : f ≤ 64) (o : Nat) (ho : o % 8 = 0) :
    readRegister s f 2 (0x10000 + o) = some (BitVec.ofNat 64 ((s.func f).word o)) := by
  have ha : (0x10000 + o) % 8 = 0 := by omega
  simp [readRegister, hr, ha, Nat.not_lt.2 hf]

theorem readRegister_bootst : readRegister s 0 0 0x400 = some (BitVec.ofNat 64 s.sec.boot.word) := by
  simp [readRegister, readBar0]

/-- The fields of BOOTST's word (R371). -/
theorem bootWord_fields (b : Boot) :
    let n := (BitVec.ofNat 64 b.word).toNat
    bits n 47 32 = b.degr.toNat ∧ bits n 31 24 = b.dieok.toNat ∧ bits n 15 12 = b.fstep % 16 ∧ bits n 11 8 = b.fcause % 16 ∧
      bitAt n 0 = b.ready ∧ bits n 63 48 = 0 ∧ bits n 23 16 = 0 ∧ bits n 7 1 = 0 := by
  have hd := b.degr.isLt
  have hk := b.dieok.isLt
  obtain ⟨r, hw, hlt, hb⟩ := flag_low b.ready 0
  simp only [BitVec.toNat_ofNat, Boot.word, at_, bits, bitAt, hw]
  rw [← hb]
  refine ⟨by omega, by omega, by omega, by omega, ?_, by omega, by omega, by omega⟩
  congr 1
  omega

theorem readBar0_svnup : readBar0 s 0x408 = 0 := by simp [readBar0]

theorem readBar0_cfgerr : readBar0 s 0x310 = if s.hub.cfgerr then 1 else 0 := by simp [readBar0, flag]

theorem readBar0_klim : readBar0 s 0x300 = s.hub.klim.toNat := by simp [readBar0]

theorem readBar0_alarm : readBar0 s 0x500 = s.alarm.word := by simp [readBar0]

theorem readBar0_outcomes (i : Fin 10) : readBar0 s (0xA00 + 8 * i.val) = s.hub.outcomes[i].toNat := by
  have hi : (0xA00 + 8 * i.val - 0xA00) / 8 = i.val := by omega
  simp only [readBar0, Bool.and_eq_true, decide_eq_true_eq]
  simp (disch := omega) only [if_neg, if_pos, hi, Fin.ofNat_val_eq_self]

theorem readBar0_perfSel (i : Fin 8) : readBar0 s (0xC00 + 8 * i.val) = s.hub.perfSel[i].toNat := by
  have hi : (0xC00 + 8 * i.val - 0xC00) / 8 = i.val := by omega
  simp only [readBar0, Bool.and_eq_true, decide_eq_true_eq]
  simp (disch := omega) only [if_neg, if_pos, hi, Fin.ofNat_val_eq_self]

theorem readBar0_queueCtl {q : Nat} (hq : q < 8192) : readBar0 s (0x20000 + 32 * q + 8) = (s.queue q).word 1 := by
  have hblock : (0x20000 + 32 * q + 8 - 0x20000) / 32 = q := by omega
  have hword : (0x20000 + 32 * q + 8) / 8 % 4 = 1 := by omega
  simp only [readBar0, Bool.and_eq_true, decide_eq_true_eq]
  simp (disch := omega) only [if_neg, if_pos]
  rw [hblock, hword]

theorem ofNat_shiftLeft {w : Nat} (n k : Nat) : BitVec.ofNat w (n <<< k) = BitVec.ofNat w n <<< k :=
  BitVec.eq_of_toNat_eq (by simp [Nat.shiftLeft_eq])

/-- The alarm register's word as its fields at their bits (R377). -/
theorem ofNat_alarmWord (a : Alarm) :
    BitVec.ofNat 64 a.word = (a.src.zeroExtend 64 <<< 8 ||| (if a.keylock then 4 else 0) ||| BitVec.ofNat 64 (a.level % 4)) := by
  have hl : a.level % 4 < 2 ^ 2 := Nat.mod_lt _ (by decide)
  have hlow : flag a.keylock 2 + a.level % 4 < 2 ^ 8 ∧ flag a.keylock 2 + a.level % 4 = flag a.keylock 2 ||| a.level % 4 := by
    cases a.keylock
    · simp only [flag, Bool.false_eq_true, if_false, Nat.zero_add, Nat.zero_or, and_true]
      omega
    · refine ⟨?_, Nat.shiftLeft_add_eq_or_of_lt hl 1⟩
      simp only [flag, if_true]
      omega
  have hflag : BitVec.ofNat 64 (flag a.keylock 2) = if a.keylock then 4 else 0 := by cases a.keylock <;> rfl
  obtain ⟨hlt, hor⟩ := hlow
  rw [Alarm.word, at_, ← Nat.shiftLeft_eq, Nat.add_assoc, Nat.shiftLeft_add_eq_or_of_lt hlt, hor, ← Nat.or_assoc]
  rw [BitVec.ofNat_or, BitVec.ofNat_or, ofNat_shiftLeft, BitVec.ofNat_toNat, hflag]

/-- Two counts of 32 bits in one word. -/
theorem ofNat_counts (x y : BitVec 32) :
    BitVec.ofNat 64 (at_ x.toNat 32 + y.toNat) = (x.zeroExtend 64 <<< 32 ||| y.zeroExtend 64) := by
  rw [at_, ← Nat.shiftLeft_eq, Nat.shiftLeft_add_eq_or_of_lt y.isLt, BitVec.ofNat_or, ofNat_shiftLeft, BitVec.ofNat_toNat,
    BitVec.ofNat_toNat]

/-- The fields of the word at +0x08 of a queue block (R359). -/
theorem queueWord_fields (y : Queue) :
    let n := (BitVec.ofNat 64 (y.word 1)).toNat
    bitAt n 63 = y.en ∧ bitAt n 62 = y.qerr ∧ bitAt n 61 = false ∧ bits n 60 48 = y.lidx % 2 ^ 13 ∧ bits n 47 34 = 0 ∧
      bits n 33 24 = y.asid % 2 ^ 10 ∧ bitAt n 23 = y.hostmem ∧ bits n 22 16 = y.func % 2 ^ 7 ∧ bits n 15 10 = 0 ∧
      bits n 9 8 = y.qprio % 4 ∧ bits n 7 5 = 0 ∧ bits n 4 0 = y.log2n % 32 := by
  obtain ⟨e, hew, he, heb⟩ := flag_low y.en 63
  obtain ⟨r, hrw, hr, hrb⟩ := flag_low y.qerr 62
  obtain ⟨m, hmw, hm, hmb⟩ := flag_low y.hostmem 23
  simp only [BitVec.toNat_ofNat, Queue.word, at_, bits, bitAt, hew, hrw, hmw]
  rw [← heb, ← hrb, ← hmb]
  refine ⟨?_, ?_, ?_, by omega, by omega, by omega, ?_, by omega, by omega, by omega, by omega, by omega⟩
  · congr 1
    omega
  · congr 1
    omega
  · rw [beq_eq_false_iff_ne]
    omega
  · congr 1
    omega

end

/-- Settles O47: a write and a read go to the register at their offset, and each clause is that register's rule. -/
theorem registerWrites : Obligations.RegisterWrites := by
  unfold Obligations.RegisterWrites
  refine ⟨fun s v hr => ?writes, fun s func bar off hr h => readRegister_before_ready hr h,
    fun s => ⟨_, readRegister_bootst, bootWord_fields _⟩, fun s hr => ?reads⟩
  case writes =>
    simp only [← cfgErr_eq, ← openCount_eq_countP]
    refine ⟨fun h => ?cfgerr, ?klim, ?src, fun h => ?alarmCfg, fun d => ⟨fun ho => ?cisBase, fun ho => ?cisBaseOpen⟩,
      fun i => ⟨fun hn ho => ?selects, fun hn => ?reserved⟩, fun f hf => ⟨fun hen hlo hhi hoff hheld => ?faultEnable,
        fun hen hsize => ⟨?faultSize, ?replySize⟩, fun hen hlo hhi hoff => ?replyEnable, fun c hheld => ?noneHeld,
        fun c r hheld hfunc hen hroom => ?oneHeld, fun p hroom hahead => ?publishes, fun p h => ?runsAhead,
        fun off h => ?ringReadOnly, fun off h => ?readOnly⟩⟩
    case cfgerr => rw [exec_configWrite_bar0 hr (by decide), writeBar0_cfgerr h]
    case klim => rw [exec_configWrite_bar0 hr (by decide), writeBar0_klim]
    case src => rw [exec_configWrite_bar0 hr (by decide), writeBar0_src]
    case alarmCfg => rw [exec_configWrite_bar0 hr (by decide), writeBar0_alarmCfg_low h]
    case cisBase =>
      rw [exec_configWrite_bar0 hr (by omega), writeBar0_cisBase, guarded_of_true (decide_eq_true ho)]
    case cisBaseOpen =>
      rw [exec_configWrite_bar0 hr (by omega), writeBar0_cisBase, guarded_of_false (decide_eq_false ho)]
    case selects => rw [exec_perfSelect_ready hr, writePerfSel_selects i hn ho]
    case reserved => rw [exec_perfSelect_ready hr, writePerfSel_reserved i hn]
    case faultEnable => rw [exec_faultRingEnable_ready hr hf hen, writeFaultCtl_enables hen hlo hhi hoff hheld]
    case faultSize => rw [exec_faultRingEnable_ready hr hf hen, writeFaultCtl_size hsize]
    case replySize => rw [exec_replyRingEnable_ready hr hf hen, writeReplyCtl_size hsize]
    case replyEnable => rw [exec_replyRingEnable_ready hr hf hen, writeReplyCtl_enables hen hlo hhi hoff]
    case noneHeld => rw [exec_faultRingConsume_ready hr hf, writeFrci_of_nil hheld]
    case oneHeld => rw [exec_faultRingConsume_ready hr hf, writeFrci_of_single hheld hfunc hen hroom]
    case publishes => rw [exec_replyDoorbell_ready hr hf, writeRrpi_publishes hroom hahead]
    case runsAhead => rw [exec_replyDoorbell_ready hr hf, writeRrpi_ignored h]
    case ringReadOnly => exact exec_configWrite_ringReadOnly hr hf h
    case readOnly => exact exec_configWrite_readOnly hr h
  case reads =>
    refine ⟨?svnup, fun f hf => ?rrpi, ?cfgerr, ?klim, ?alarm, fun i => ?outcomes, fun i => ?perfSel, fun f hf => ?counts,
      fun q hq => ?queue⟩
    case svnup => exact (readRegister_bar0 hr (by decide)).trans (by rw [readBar0_svnup]; rfl)
    case rrpi => exact readRegister_ring hr hf 0x30 (by decide)
    case cfgerr =>
      rw [readRegister_bar0 hr (by decide), readBar0_cfgerr]
      cases s.hub.cfgerr <;> rfl
    case klim => rw [readRegister_bar0 hr (by decide), readBar0_klim, BitVec.ofNat_toNat]
    case alarm => rw [readRegister_bar0 hr (by decide), readBar0_alarm, ofNat_alarmWord]
    case outcomes => rw [readRegister_bar0 hr (by omega), readBar0_outcomes, BitVec.ofNat_toNat, BitVec.setWidth_eq]
    case perfSel => rw [readRegister_bar0 hr (by omega), readBar0_perfSel, BitVec.ofNat_toNat]
    case counts =>
      rw [← ofNat_counts]
      exact readRegister_ring hr hf 0x10 (by decide)
    case queue => exact ⟨_, by rw [readRegister_bar0 hr (by omega), readBar0_queueCtl hq], queueWord_fields _⟩

end Sys2Proof.Machine.Registers

/-! ## Modes, region marks and special registers (O5, O6) -/

namespace Sys2Proof.Machine.Control

-- one proof after another: side by side they take more threads than the check's memory limit has stacks for
set_option Elab.async false

section
variable {s : State} {v : View}

/-! ### The lookahead test -/

@[simp] theorem lookaheadHit_nil (ws : List Window) : lookaheadHit ws [] = false := by
  simp [lookaheadHit]

/-- Of names that are free, any part is. -/
theorem ready_mono {a b : List RegName} (h : Ready s v b) (hab : ∀ n ∈ a, n ∈ b) : Ready s v a :=
  ⟨h.1, lookaheadHit_mono hab h.2⟩

/-- An instruction with names alone that are free has its effect. -/
theorem instr_names {names : List RegName} {body : View → Except Flt State} {u : State} (h : Ready s v names)
    (hb : body v = .ok u) : instr s (fun _ => { names := names }) body = .next u :=
  instr_ok h.1 (Req.fault_none rfl rfl rfl rfl h.2) hb

/-! ### MODE, MDRD and RGN -/

/-- The bits that the layout of a context reserves in MD (R22): bit 25 for a matrix context, bits 25 to 17 else. -/
theorem mdLegal_eq (k : CtxKind) (i : BitVec 26) :
    mdLegal k i = !(if k = .matrix then i.getLsbD 25 else decide (i >>> 17 ≠ 0)) := by
  have hlow : (i >>> 17).toNat = i.toNat / 2 ^ 17 := by rw [BitVec.toNat_ushiftRight, Nat.shiftRight_eq_div_pow]
  have hshift : decide (i >>> 17 ≠ 0) = !decide (i.toNat < 2 ^ 17) := by
    rw [← decide_not, decide_eq_decide, Ne, ← BitVec.toNat_inj, hlow, show BitVec.toNat (0 : BitVec 26) = 0 from rfl]
    omega
  have htop : i.getLsbD 25 = !decide (i.toNat < 2 ^ 25) := by
    rw [BitVec.getLsbD, Nat.testBit_eq_decide_div_mod_eq, ← decide_not, decide_eq_decide]
    have := i.isLt
    omega
  rw [hshift, htop]
  cases k <;> simp [mdLegal]

theorem execMode_reserved {i : BitVec 26} (hv : s.view = some v) (h : mdLegal v.kind i = false) :
    execMode i s = .next (park s v { code := .illegalEncoding } 0 []) :=
  instr_fault hv (by simp [Req.fault, h])

theorem execMode_legal {i : BitVec 26} (hv : s.view = some v) (h : mdLegal v.kind i = true) :
    execMode i s = .next (s.retire v v.team { v.ctx.step4 with md := i }) :=
  instr_ok hv (Req.fault_none h rfl rfl rfl (lookaheadHit_nil _)) rfl

theorem execMdrd_ready {d : Fin 64} (h : Ready s v [.s d]) :
    execMdrd d s = .next (s.retire v v.team (v.ctx.setS d (v.ctx.md.zeroExtend 64)).step4) :=
  instr_names h rfl

theorem execRgn_view (hv : s.view = some v) (t : BitVec 16) :
    execRgn t s = .next (s.retire v v.team
      { v.ctx.step4 with rgnpc := v.ctx.pc, rgncnt := v.ctx.isc, impl := false, tag := t }) :=
  instr_names (names := []) ⟨hv, lookaheadHit_nil _⟩ rfl

/-! ### SRD: the scalar special registers (R23, R200) -/

theorem execSrd_scalar {d b : Fin 64} (h : Ready s v [.s d]) (hi : srdIndexOk b = true) (hb : isVectorSpecial b = false)
    (hw : b.val = 0x0F → flagsSettled s v = true) :
    execSrd d b s = .next (s.retire v v.team (v.ctx.setS d (specialValue s v b)).step4) := by
  refine instr_ok h.1 (Req.fault_none hi (by simp [hb]) (by simp [hb]) rfl (by simpa [hb] using h.2)) ?_
  by_cases h15 : b.val = 0x0F
  · simp [hb, hw h15]
  · simp [hb, h15]

theorem execSrd_fpfl_waits {d : Fin 64} (h : Ready s v [.s d]) (hw : flagsSettled s v = false) :
    execSrd d 0x0F s = .next s :=
  instr_ok h.1 (Req.fault_none rfl rfl rfl rfl h.2) (by simp [hw, isVectorSpecial])

/-- SRD of LANE and GROUP writes the lanes of E. -/
theorem execSrd_vector {d b : Fin 64} (h : LaneReady s v [.v d]) (hok : v.team.vOk false d = true)
    (hb : isVectorSpecial b = true) :
    execSrd d b s = .next (s.retire v
      (v.team.setElems false d v.eff (fun l => some (if b.val = 5 then l else l / 32))) v.ctx.step4) := by
  have hi : srdIndexOk b = true := by
    simp only [isVectorSpecial, Bool.or_eq_true, beq_iff_eq] at hb
    simp only [srdIndexOk, Bool.or_eq_true, decide_eq_true_eq]
    omega
  exact instr_ok h.1.1 (Req.fault_none hi (by simp [hb, teamOnly, h.2]) (by simp [hok]) rfl (by simpa [hb] using h.1.2))
    (by simp [hb])

/-- CORE names the core's place in the presented mesh, or some place of it. -/
theorem coreName_spec (x : Die) (core : Nat) :
    (∀ k, coreNow x core = some k → coreName x core = k) ∧
      (1 ≤ x.cols.length → x.cols.length ≤ 8 → 1 ≤ x.rows.length →
        coreName x core % 8 < x.cols.length ∧ coreName x core / 8 < x.rows.length) := by
  refine ⟨fun k hk => by simp [coreName, hk], fun hc hc8 hr => ?_⟩
  have place : ∀ row col, row < x.rows.length → col < x.cols.length →
      (row * 8 + col) % 8 < x.cols.length ∧ (row * 8 + col) / 8 < x.rows.length := by
    intro row col hrow hcol
    omega
  cases hk : coreNow x core with
  | none =>
    rw [coreName, hk, Option.getD_none, Nat.max_eq_right hr, Nat.max_eq_right hc]
    exact place _ _ (Nat.mod_lt _ hr) (Nat.mod_lt _ hc)
  | some k =>
    simp only [coreName, hk, Option.getD_some]
    simp only [coreNow] at hk
    split at hk
    next hin =>
      simp only [Bool.and_eq_true, decide_eq_true_eq] at hin
      exact Option.some.inj hk ▸ place _ _ hin.2 hin.1
    next => cases hk

theorem execSrd_perf {d : Fin 64} (h : Ready s v [.s d]) (i : Fin 8) :
    execSrd d (Fin.ofNat 64 (0x18 + i.val)) s = .next (s.retire v v.team (v.ctx.setS d (perfValue s v.team.ref i)).step4) := by
  have hw : (Fin.ofNat 64 (0x18 + i.val)).val = 0x0F → flagsSettled s v = true := fun he => by
    rw [Fin.val_ofNat] at he
    omega
  rw [execSrd_scalar h (by fin_cases i <;> rfl) (by fin_cases i <;> rfl) hw]
  fin_cases i <;> rfl

/-- A performance counter reads 0 without an event, and else its core's count (R23). -/
theorem perfValue_spec (r : TeamRef) (i : Fin 8) :
    (s.hub.perfSel[i] = 0 → perfValue s r i = 0) ∧
      (s.hub.perfSel[i] ≠ 0 → perfValue s r i = assoc s.perf (r.die, r.core, i.val) 0) := by
  simp only [perfValue, Fin.ofNat_val_eq_self]
  exact ⟨fun h => if_pos h, fun h => if_neg h⟩

/-! ### SWR and SLICEOF (R201, R202) -/

/-- A word has no bit above bit 5 exactly when its value is below 64. -/
theorem shiftRight_six_eq_zero_iff (x : Word) : x >>> 6 = 0 ↔ x.toNat < 64 := by
  have hlow : (x >>> 6).toNat = x.toNat / 2 ^ 6 := by rw [BitVec.toNat_ushiftRight, Nat.shiftRight_eq_div_pow]
  rw [← BitVec.toNat_inj, hlow, show BitVec.toNat (0 : Word) = 0 from rfl]
  omega

theorem execSwr_reserved {a b : Fin 64} (h : Ready s v [.s a]) (hx : b ≠ 0x0F ∨ v.ctx.getS a >>> 6 ≠ 0) :
    execSwr a b s = .next (park s v { code := .illegalEncoding } 0 []) := by
  by_cases hb : b = 0x0F
  · have hbits : 64 ≤ (v.ctx.getS a).toNat :=
      Nat.not_lt.1 fun hlt => (hx.resolve_left (not_not.2 hb)) ((shiftRight_six_eq_zero_iff _).2 hlt)
    exact instr_error h.1 (Req.fault_none (by simp [hb]) rfl rfl rfl h.2) (by simp [hbits])
  · have hval : ¬ b.val = 0x0F := fun e => hb (Fin.ext e)
    exact instr_fault h.1 (by simp [Req.fault, hval])

theorem execSwr_waits {a : Fin 64} (h : Ready s v [.s a]) (hx : v.ctx.getS a >>> 6 = 0) (hw : flagsSettled s v = false) :
    execSwr a 0x0F s = .next s :=
  instr_ok h.1 (Req.fault_none rfl rfl rfl rfl h.2)
    (by simp [Nat.not_le.2 ((shiftRight_six_eq_zero_iff _).1 hx), hw])

theorem execSwr_settled {a : Fin 64} (h : Ready s v [.s a]) (hx : v.ctx.getS a >>> 6 = 0) (hw : flagsSettled s v = true) :
    execSwr a 0x0F s = .next (s.retire v v.team { v.ctx.step4 with fpfl := (v.ctx.getS a).truncate 6 }) :=
  instr_ok h.1 (Req.fault_none rfl rfl rfl rfl h.2)
    (by simp [Nat.not_le.2 ((shiftRight_six_eq_zero_iff _).1 hx), hw])

theorem execSliceof_ready {d a : Fin 64} {l : Launch} (h : Ready s v [.s d, .s a]) (hl : s.launch? v.team.launch = some l) :
    execSliceof d a s = .next (s.retire v v.team (v.ctx.setS d (sliceWord s l.asid (v.ctx.getS a))).step4) :=
  instr_names h (by simp [State.asidOf, hl])

end

/-- Settles O5: each instruction's one effect, with the test of MODE read as bits of its operand (`mdLegal_eq`). -/
theorem modeAndRegionMarks : Obligations.ModeAndRegionMarks := by
  unfold Obligations.ModeAndRegionMarks
  refine ⟨fun s v i d h => ⟨?mode, execMdrd_ready h⟩, fun s v t hv => ?rgn⟩
  case mode =>
    have hlegal := mdLegal_eq v.kind i
    generalize (if v.kind = .matrix then i.getLsbD 25 else decide (i >>> 17 ≠ 0)) = reserved at hlegal ⊢
    cases reserved
    · exact execMode_legal h.1 hlegal
    · exact execMode_reserved h.1 hlegal
  case rgn =>
    exact ⟨_, _, execRgn_view hv t, State.view_retire hv rfl, rfl, rfl, rfl, rfl, rfl, rfl, rfl⟩

/-- Settles O6: a scalar register of the table reads `specialValue` at its index (`execSrd_scalar`), LANE and GROUP write the
lanes of E, and SWR and SLICEOF have their own rules. -/
theorem specialRegistersReadAndWritten : Obligations.SpecialRegistersReadAndWritten := by
  unfold Obligations.SpecialRegistersReadAndWritten
  refine ⟨fun s v d a l h hl => ?reads, fun s v a b h => ⟨execSwr_reserved h, ?_, ?_⟩⟩
  case reads =>
    have hd : Ready s v [.s d] := ready_mono h (by simp)
    refine ⟨?identity, ?core, ?mesh, fun i => ?perf, fun hw => ?fpfl, execSrd_fpfl_waits hd, fun hlane hok => ?lanes,
      execSliceof_ready h hl⟩
    case identity =>
      intro p hp
      simp only [List.mem_cons, List.not_mem_nil, or_false] at hp
      obtain rfl | rfl | rfl | rfl | rfl | rfl | rfl | rfl | rfl | rfl | rfl | rfl | rfl | rfl := hp
      all_goals
        rw [exec_srd, execSrd_scalar hd rfl rfl (by simp)]
        simp [specialValue, hl, LaunchRec.c, seedOf, State.recordOf]
    case core =>
      exact ⟨_, execSrd_scalar (b := 0x09) hd rfl rfl (by simp), coreName_spec _ _⟩
    case mesh =>
      rw [exec_srd, execSrd_scalar hd rfl rfl (by simp)]
      simp [specialValue, meshWord, Nat.mul_comm]
    case perf =>
      exact ⟨_, execSrd_perf hd i, perfValue_spec _ i⟩
    case fpfl =>
      rw [exec_srd, execSrd_scalar hd rfl rfl (fun _ => hw)]
      simp [specialValue]
    case lanes =>
      exact ⟨execSrd_vector hlane hok rfl, execSrd_vector hlane hok rfl⟩
  · rintro rfl
    exact execSwr_waits h
  · rintro rfl
    exact execSwr_settled h

end Sys2Proof.Machine.Control

/-! ## The ends of contexts and teams (O7) -/

namespace Sys2Proof.Machine.Control

-- one proof after another: side by side they take more threads than the check's memory limit has stacks for
set_option Elab.async false

section
variable {s : State} {v : View}

/-- No mapping entry that its ended team has left names that team (R104, R108). -/
theorem detachMaps_owner {r : TeamRef} {ms : List MapEntry} {m : MapEntry} (hm : m ∈ detachMaps r ms) : m.owner ≠ some r := by
  obtain ⟨x, -, rfl⟩ := List.mem_map.1 hm
  split
  · exact Option.some_ne_none r ∘ Eq.symm
  · assumption

/-- What a view shows does not depend on the mapping entries. -/
theorem view_with_maps (ms : List MapEntry) : ({ s with maps := ms } : State).view = s.view := rfl

/-- What the end of a team leaves: DRAINING, with LIVE and k0 empty and its queues closed, and of the package only its slot and the
mapping entries it has left (R41, R42). -/
structure TeamOver (s u : State) (v : View) : Prop where
  rest : u = { s with teams := u.teams, maps := detachMaps v.team.ref s.maps }
  seen : ∃ v', u.view = some v' ∧ v'.team.slot = .draining ∧ v'.team.live = 0 ∧ v'.team.k[0] = 0 ∧ v'.ctx.run = .ended ∧
    v'.ctx.isc = v.ctx.isc + 1 ∧ (∀ q ∈ v'.team.queues, q.closed = true) ∧ v'.team.v = v.team.v ∧ v'.team.vEnd = some v.team.v

/-- The end of a team whose LIVE and k0 the instruction may have changed before. -/
theorem endTeam_over {t : Team} (hv : s.view = some v) (hk : v.kind = .team) (ht : t.ref = v.team.ref) (htv : t.v = v.team.v) :
    TeamOver s (endTeam s { v with team := t }) v where
  rest := by simp only [endTeam, ht]; rfl
  seen := by
    have hview : (s.retire v t.ended { v.ctx.step4 with run := .ended }).view = _ := State.view_retire hv ht
    refine ⟨_, (view_with_maps _).trans hview, ?_⟩
    refine ⟨by simp [Team.ended], by simp [Team.ended], by simp [Team.ended], rfl, rfl, ?_, ?_, ?_⟩
    · intro q hq
      simp only [Team.setCtx_queues, Team.ended, List.mem_map] at hq
      obtain ⟨x, -, rfl⟩ := hq
      rfl
    · simp [Team.ended, htv]
    · simp [hk, Team.setCtx, Team.ended, htv]

theorem execExitLanes_lanesLeft (h : LaneReady s v [.k 0]) (hl : v.team.live &&& ~~~ v.eff ≠ 0) :
    execExitLanes s = .next (s.retire v
      { v.team with live := v.team.live &&& ~~~ v.eff, k := v.team.k.set 0 (v.team.k[0] &&& ~~~ v.eff) } v.ctx.step4) :=
  instr_ok h.1.1 (Req.fault_none rfl (by simp [teamOnly, h.2]) rfl rfl (lookaheadHit_mono (fun _ => List.mem_append_right _) h.1.2)) (if_neg hl)

theorem execExitLanes_noneLeft (h : LaneReady s v [.k 0]) (hl : v.team.live &&& ~~~ v.eff = 0) :
    ∃ u, execExitLanes s = .next u ∧ TeamOver s u v :=
  ⟨_, instr_ok h.1.1 (Req.fault_none rfl (by simp [teamOnly, h.2]) rfl rfl (lookaheadHit_mono (fun _ => List.mem_append_right _) h.1.2)) (if_pos hl),
    endTeam_over h.1.1 h.2 rfl rfl⟩

theorem execEndCtx_team (h : LaneReady s v [.k 0]) : ∃ u, execEndCtx s = .next u ∧ TeamOver s u v := by
  refine ⟨endTeam s v, instr_ok h.1.1 (Req.fault_none rfl rfl rfl rfl ?_) (by simp only [h.2]),
    endTeam_over (t := v.team) h.1.1 h.2 rfl rfl⟩
  rw [if_pos h.2]
  exact lookaheadHit_mono (by simp) h.1.2

theorem execEndCtx_bound (hv : s.view = some v) (hk : v.kind ≠ .team) :
    execEndCtx s = .next (s.retire v v.team { v.ctx.step4 with run := .ended }) := by
  refine instr_ok hv (Req.fault_none rfl rfl rfl rfl (by simp [hk])) ?_
  split
  next h => exact absurd h hk
  next => rfl

/-- A bound context's change leaves the team context (R13). -/
theorem setCtx_bound_team {t : Team} {k : CtxKind} {c : Ctx} (hk : k ≠ .team) : (t.setCtx k c).team = t.team := by
  cases k
  case team => exact absurd rfl hk
  all_goals rfl

end

/-- Settles O7: EXIT without lanes left and END both leave `TeamOver`; END of a bound context retires with that context ended. -/
theorem exitAndEnd : Obligations.ExitAndEnd := by
  unfold Obligations.ExitAndEnd
  refine ⟨fun s v h => ⟨fun hl => execExitLanes_lanesLeft h hl, fun i hi => ?ends⟩, fun s v hv hk => ⟨execEndCtx_bound hv hk, ?bound⟩⟩
  case ends =>
    have hover : ∃ u, exec i s = .next u ∧ TeamOver s u v := by
      split at hi
      next hl =>
        simp only [List.mem_cons, List.not_mem_nil, or_false] at hi
        obtain rfl | rfl := hi
        · exact execExitLanes_noneLeft h hl
        · exact execEndCtx_team h
      next =>
        obtain rfl := List.mem_singleton.1 hi
        exact execEndCtx_team h
    obtain ⟨u, hu, hrest, v', hv', hslot, hlive, hk0, hrun, hisc, hq, hvec, hend⟩ := hover
    refine ⟨u, v', hu, hv', hslot, hlive, hk0, hrun, hisc, hq, hvec, hend, by rw [hrest], by rw [hrest], fun m hm => ?_⟩
    rw [hrest] at hm
    exact detachMaps_owner hm
  case bound =>
    exact ⟨_, _, execEndCtx_bound hv hk, State.view_retire hv rfl, rfl, by simp, by simp, setCtx_bound_team hk⟩

end Sys2Proof.Machine.Control

/-! ## The mask instructions (O15, O16) -/

namespace Sys2Proof.Machine.Masks

open Sys2Proof.Machine.Control

-- one proof after another: side by side they take more threads than the check's memory limit has stacks for
set_option Elab.async false

section
variable {s : State} {v : View}

/-! ### The lanes of a mask -/

theorem inMask_eq_getLsbD (m : Mask) (l : Nat) : inMask m l = m.getLsbD l := BitVec.testBit_toNat m

@[simp] theorem inMask_and (a b : Mask) (l : Nat) : inMask (a &&& b) l = (inMask a l && inMask b l) := by
  simp [inMask_eq_getLsbD]

@[simp] theorem inMask_or (a b : Mask) (l : Nat) : inMask (a ||| b) l = (inMask a l || inMask b l) := by
  simp [inMask_eq_getLsbD]

@[simp] theorem inMask_xor (a b : Mask) (l : Nat) : inMask (a ^^^ b) l = (inMask a l ^^ inMask b l) := by
  simp [inMask_eq_getLsbD]

@[simp] theorem inMask_zero (l : Nat) : inMask 0 l = false := by simp [inMask_eq_getLsbD]

theorem inMask_not (a : Mask) {l : Nat} (h : l < 1024) : inMask (~~~ a) l = !inMask a l := by
  simp [inMask_eq_getLsbD, h]

theorem inMask_lanesBelow {nl l : Nat} (h : l < 1024) : inMask (lanesBelow nl) l = decide (l < nl) := by
  rw [inMask_eq_getLsbD, lanesBelow, BitVec.getLsbD_ofNat, Nat.testBit_two_pow_sub_one, decide_eq_true h, Bool.true_and]

/-- What a written mask register holds: lanes below NL, in k0 only those of LIVE (R17, R18). -/
theorem inMask_setK (t : Team) (d : Fin 16) (m : Mask) {l : Nat} (h : l < 1024) :
    inMask (t.setK d m).k[d] l = (decide (l < t.nl) && inMask m l && (decide (d ≠ 0) || inMask t.live l)) := by
  by_cases hd : d = 0
  · subst hd
    simp [Team.setK, inMask_lanesBelow h, Bool.and_comm]
  · simp [Team.setK, hd, inMask_lanesBelow h, Bool.and_comm]

/-! ### Group words (R17) -/

/-- The bits of a number made of a low part of `32 * i` bits, a word, and what stands above. -/
theorem testBit_word {i hi w lo : Nat} (hw : w < 2 ^ 32) (hlo : lo < 2 ^ (32 * i)) (l : Nat) :
    (2 ^ (32 * i) * (2 ^ 32 * hi + w) + lo).testBit l =
      if l < 32 * i then lo.testBit l
      else if l - 32 * i < 32 then w.testBit (l - 32 * i) else hi.testBit (l - 32 * i - 32) := by
  rw [Nat.testBit_two_pow_mul_add _ hlo, Nat.testBit_two_pow_mul_add _ hw]

/-- A number is its low part, the word at `32 * i`, and what stands above. -/
theorem word_split (n i : Nat) :
    n = 2 ^ (32 * i) * (2 ^ 32 * (n / 2 ^ (32 * i) / 2 ^ 32) + n / 2 ^ (32 * i) % 2 ^ 32) + n % 2 ^ (32 * i) := by
  rw [Nat.div_add_mod, Nat.div_add_mod]

/-- Replacing the word at `32 * i` leaves the other bits. -/
theorem testBit_replaceWord (n i w l : Nat) :
    (n - n / 2 ^ (32 * i) % 2 ^ 32 * 2 ^ (32 * i) + w % 2 ^ 32 * 2 ^ (32 * i)).testBit l =
      if l / 32 = i then w.testBit (l % 32) else n.testBit l := by
  have hlo : n % 2 ^ (32 * i) < 2 ^ (32 * i) := Nat.mod_lt _ (by positivity)
  have hg : n / 2 ^ (32 * i) % 2 ^ 32 < 2 ^ 32 := Nat.mod_lt _ (by decide)
  have hw : w % 2 ^ 32 < 2 ^ 32 := Nat.mod_lt _ (by decide)
  have hwbit : (w % 2 ^ 32).testBit (l % 32) = w.testBit (l % 32) := by
    rw [Nat.testBit_mod_two_pow, decide_eq_true (Nat.mod_lt _ (by decide)), Bool.true_and]
  have hsplit := word_split n i
  generalize n / 2 ^ (32 * i) / 2 ^ 32 = hi at hsplit
  generalize n / 2 ^ (32 * i) % 2 ^ 32 = g at hsplit hg ⊢
  generalize n % 2 ^ (32 * i) = lo at hsplit hlo
  generalize w % 2 ^ 32 = w' at hw hwbit ⊢
  subst hsplit
  have hnew : 2 ^ (32 * i) * (2 ^ 32 * hi + g) + lo - g * 2 ^ (32 * i) + w' * 2 ^ (32 * i) =
      2 ^ (32 * i) * (2 ^ 32 * hi + w') + lo := by
    have hle : g * 2 ^ (32 * i) ≤ 2 ^ (32 * i) * (2 ^ 32 * hi + g) + lo := by nlinarith [Nat.zero_le lo]
    zify [hle]
    ring
  rw [hnew, testBit_word hw hlo, testBit_word hg hlo]
  rcases lt_trichotomy (l / 32) i with hlt | rfl | hgt
  · have hl : l < 32 * i := by omega
    simp [hl, hlt.ne]
  · have hl : ¬ l < 32 * (l / 32) := by omega
    have hin : l - 32 * (l / 32) = l % 32 := by omega
    simp [hl, hin, Nat.mod_lt, hwbit]
  · have hl : ¬ l < 32 * i := by omega
    have hin : ¬ l - 32 * i < 32 := by omega
    simp [hl, hin, hgt.ne']

theorem groupWord_eq (m : Mask) (i : Nat) : groupWord m i = m.toNat / 2 ^ (32 * i) % 2 ^ 32 := by
  rw [groupWord, bits, show 32 * i + 31 + 1 - 32 * i = 32 by omega]

/-- Replacing a group word leaves the other lanes. -/
theorem inMask_setGroupWord (m : Mask) {i l : Nat} (w : Nat) (h : l < 1024) :
    inMask (setGroupWord m i w) l = if l / 32 = i then w.testBit (l % 32) else inMask m l := by
  rw [inMask_eq_getLsbD, setGroupWord, groupWord_eq, BitVec.getLsbD_ofNat, testBit_replaceWord, decide_eq_true h, Bool.true_and]
  rfl

/-! ### Writes of mask registers -/

theorem maskOp_ready {d : Fin 16} {reads : List RegName} (h : Ready s v (.k d :: reads)) (hk : v.kind = .team)
    (f : Team → Ctx → Mask) :
    maskOp s d reads f = .next (s.retire v (v.team.setK d (f v.team v.ctx)) v.ctx.step4) :=
  instr_ok h.1 (Req.fault_none rfl (by simp [teamOnly, hk]) rfl rfl h.2) rfl

/-- A mask instruction leaves in its destination the lanes below NL that its operation names, in k0 those of LIVE alone. -/
theorem maskOp_lanes {d : Fin 16} {reads : List RegName} (h : Ready s v (.k d :: reads)) (hk : v.kind = .team)
    {f : Team → Ctx → Mask} {p : Nat → Bool} (hf : ∀ l < 1024, inMask (f v.team v.ctx) l = p l) :
    ∃ u v', maskOp s d reads f = .next u ∧ u.view = some v' ∧ v'.ctx = v.ctx.step4 ∧
      ∀ l < 1024, inMask v'.team.k[d] l =
        (decide (l < v.team.nl) && p l && (decide (d ≠ 0) || inMask v.team.live l)) := by
  refine ⟨_, _, maskOp_ready h hk f, State.view_retire h.1 rfl, rfl, fun l hl => ?_⟩
  rw [Team.setCtx_k, ← hf l hl]
  exact inMask_setK v.team d _ hl

/-! ### Reads of mask registers -/

theorem maskToScalar_ready {d : Fin 64} {reads : List RegName} (h : Ready s v (.s d :: reads)) (hk : v.kind = .team)
    (f : Team → Ctx → Word) :
    maskToScalar s d reads f = .next (s.retire v v.team (v.ctx.setS d (f v.team v.ctx)).step4) :=
  instr_ok h.1 (Req.fault_none rfl (by simp [teamOnly, hk]) rfl rfl h.2) rfl

/-- Counting by a fold is counting. -/
theorem foldl_count {α : Type} (p : α → Bool) (l : List α) (n : Nat) :
    l.foldl (fun n x => if p x then n + 1 else n) n = n + l.countP p := by
  induction l generalizing n with
  | nil => rfl
  | cons x xs ih =>
    rw [List.foldl_cons, ih, List.countP_cons]
    split <;> omega

theorem maskCount_eq_countP (m : Mask) : maskCount m = (List.range 1024).countP (inMask m) := by
  rw [maskCount, foldl_count, Nat.zero_add]

end

/-- Settles O15: what each mask operation holds in a lane, under the rule for a written mask register (`inMask_setK`). -/
theorem maskWritesAndReads : Obligations.MaskWritesAndReads := by
  unfold Obligations.MaskWritesAndReads
  refine ⟨fun s v d a b x y h hk => ?writes, fun s v d b a h hk => ⟨?kpop, ?kfirst, ?ktos⟩⟩
  case writes =>
    intro ka kb group p hp
    simp only [List.mem_cons, List.not_mem_nil, or_false] at hp
    obtain rfl | rfl | rfl | rfl | rfl | rfl | rfl | rfl | rfl := hp
    · rw [exec_kand, execKand]
      exact maskOp_lanes (ready_mono h (by simp)) hk fun l _ => inMask_and ..
    · rw [exec_kor, execKor]
      exact maskOp_lanes (ready_mono h (by simp)) hk fun l _ => inMask_or ..
    · rw [exec_kxor, execKxor]
      exact maskOp_lanes (ready_mono h (by simp)) hk fun l _ => inMask_xor ..
    · rw [exec_kandn, execKandn]
      exact maskOp_lanes (ready_mono h (by simp)) hk fun l hl => by rw [inMask_and, inMask_not _ hl]
    · rw [exec_knot, execKnot]
      exact maskOp_lanes (ready_mono h (by simp)) hk fun l hl => inMask_not _ hl
    · rw [exec_kmov, execKmov]
      exact maskOp_lanes (ready_mono h (by simp)) hk fun l _ => rfl
    · rw [exec_kfroms, execKfroms]
      refine maskOp_lanes (ready_mono h (by simp)) hk fun l hl => ?_
      dsimp only
      split
      next hi => exact inMask_setGroupWord _ _ hl
      next hi => rw [if_neg (by omega)]
    · rw [exec_kclr, execKclr]
      exact maskOp_lanes (ready_mono h (by simp)) hk fun l _ => inMask_zero l
    · rw [exec_klive, execKlive]
      exact maskOp_lanes (ready_mono h (by simp)) hk fun l _ => rfl
  case kpop =>
    have hr : Ready s v [.s d, .k a] := ready_mono h (by simp)
    rw [exec_kpop, execKpop, maskToScalar_ready hr hk, maskCount_eq_countP]
  case kfirst =>
    have hr : Ready s v [.s d, .k a] := ready_mono h (by simp)
    cases hf : (List.range 1024).find? (inMask v.team.k[a]) <;>
      simp only [exec_kfirst, execKfirst, maskToScalar_ready hr hk, hf]
  case ktos =>
    have hlt : ∀ i : Nat, (i ≤ 31) = (i < 32) := fun i => propext Nat.lt_succ_iff.symm
    rw [exec_ktos, execKtos, maskToScalar_ready h hk]
    simp only [groupWord_eq, summary, hlt, apply_ite (BitVec.ofNat 64), BitVec.ofNat_eq_ofNat]

end Sys2Proof.Machine.Masks

/-! ## Frames of the instructions that write one register (O14, O16, O26) -/

namespace Sys2Proof.Machine.Frames

-- one proof after another: side by side they take more threads than the check's memory limit has stacks for
set_option Elab.async false

section
variable {s u : State} {v : View}

/-! ### What completion leaves -/

/-- The team with the executing context put back is the team that it was, but for what its time of progress says. -/
theorem setCtx_progress_back {t : Team} {k : CtxKind} {c c' : Ctx} {p : Word} (h : t.ctx? k = some c) :
    (({ t with progress := p } : Team).setCtx k c').setCtx k c = { t with progress := p } := by
  rw [Team.setCtx_setCtx]
  exact Team.setCtx_self (by cases k <;> exact h)

theorem ctxKeeps_advance (c : Ctx) (p : Word) (o : Option Window) : CtxKeeps c (c.advance p o) none :=
  ⟨fun n _ => Ctx.getS_advance c p o n, rfl⟩

theorem ctxKeeps_setS_advance (c : Ctx) (d : Fin 64) (x p : Word) (o : Option Window) :
    CtxKeeps c ((c.setS d x).advance p o) (some d.val) where
  scalars n hn := (Ctx.getS_advance ..).trans (Ctx.getS_setS_ne c d n x fun e => hn (by rw [e]))
  others := by unfold Ctx.setS; split <;> rfl

theorem scalarFrame_retire {d : Option Nat} {c : Ctx} (hv : s.view = some v) (hc : CtxKeeps v.ctx c d)
    (hisc : c.isc = v.ctx.isc + 1) : ScalarFrame s (s.retire v v.team c) v d :=
  ⟨State.retire_onlyTeam rfl, State.retire_sameBytes hv rfl rfl, _, State.view_retire hv rfl, hc, hisc,
    setCtx_progress_back (State.view_spec hv).2.1⟩

theorem maskFrame_retire (hv : s.view = some v) (d : Fin 16) (m : Mask) :
    MaskFrame s (s.retire v (v.team.setK d m) v.ctx.step4) v d := by
  refine ⟨State.retire_onlyTeam rfl, State.retire_sameBytes hv rfl rfl, _, State.view_retire hv rfl, ctxKeeps_advance ..,
    rfl, fun n hn => ?_, ?_⟩
  · rw [Team.setCtx_k]
    exact Vector.getElem_set_ne d.isLt n.isLt fun e => hn (Fin.ext e.symm)
  · have hback : ∀ (t : Team) (c c' : Ctx) (x : Vector Mask 16),
        ({ t.setCtx v.kind c with k := x } : Team).setCtx v.kind c' = (({ t with k := x } : Team).setCtx v.kind c).setCtx v.kind c' := by
      cases v.kind <;> intros <;> rfl
    rw [hback]
    exact setCtx_progress_back (State.view_spec hv).2.1

/-! ### Lanes of vector registers -/

theorem lane_setRow_ne {t : Team} {r r' l : Nat} {f : Nat → Option Lane} (h : r' ≠ r) : (t.setRow r f).lane r' l = t.lane r' l := by
  simp [Team.lane, Team.setRow, List.getD_eq_getElem?_getD, h.symm]

theorem lane_setRow_none {t : Team} {r r' l : Nat} {f : Nat → Option Lane} (h : f l = none) :
    (t.setRow r f).lane r' l = t.lane r' l := by
  by_cases hr : r = r'
  · subst hr
    simp only [Team.lane, Team.setRow, List.getD_eq_getElem?_getD, List.getElem?_modify, if_true]
    cases t.v[r]? with
    | none => rfl
    | some row =>
      rw [Option.map_eq_map, Option.map_some, Option.getD_some, Option.getD_some, List.getElem?_map, List.getElem?_zipIdx]
      cases row[l]? <;> simp [h]
  · exact lane_setRow_ne fun e => hr e.symm

/-- A write of lanes `e` of a register, or of a pair, leaves the other lanes and the other registers. -/
theorem lane_setElems {t : Team} {w : Bool} {d r l : Nat} {e : Mask} {f : Nat → Option Nat}
    (h : (r ≠ d ∧ (w = true → r ≠ d + 1)) ∨ inMask e l = false) : (t.setElems w d e f).lane r l = t.lane r l := by
  cases w <;> simp only [Team.setElems, Bool.false_eq_true, if_false, if_true]
  · rcases h with ⟨hd, -⟩ | he
    · exact lane_setRow_ne hd
    · exact lane_setRow_none (by simp [he])
  · rcases h with ⟨hd, hw⟩ | he
    · rw [lane_setRow_ne (hw rfl), lane_setRow_ne hd]
    · rw [lane_setRow_none (by simp [he]), lane_setRow_none (by simp [he])]

/-- A write of vector lanes changes nothing else of its team. -/
theorem setElems_eq (t : Team) (w : Bool) (d : Nat) (e : Mask) (f : Nat → Option Nat) :
    t.setElems w d e f = { t with v := (t.setElems w d e f).v } := by
  cases w <;> rfl

theorem setElems_ref (t : Team) (w : Bool) (d : Nat) (e : Mask) (f : Nat → Option Nat) : (t.setElems w d e f).ref = t.ref := by
  rw [setElems_eq]

theorem setElems_stash (t : Team) (w : Bool) (d : Nat) (e : Mask) (f : Nat → Option Nat) :
    (t.setElems w d e f).stash = t.stash := by
  rw [setElems_eq]

theorem vectorFrame_retire (hv : s.view = some v) {w : Bool} {d : Nat} {f : Nat → Option Nat} {c : Ctx}
    (hc : CtxKeeps v.ctx { c with fpfl := v.ctx.fpfl } none) (hisc : c.isc = v.ctx.isc + 1) :
    VectorFrame s (s.retire v (v.team.setElems w d v.eff f) c) v w d v.eff := by
  have href := setElems_ref v.team w d v.eff f
  refine ⟨State.retire_onlyTeam href, State.retire_sameBytes hv href (setElems_stash ..), _, State.view_retire hv href, hc, hisc,
    fun r l hrl => ?_, ?_⟩
  · have hlane : ∀ (t : Team), (({ t with progress := s.time } : Team).setCtx v.kind c).lane r l = t.lane r l := fun t => by
      rw [Team.lane, Team.setCtx_v]
      rfl
    exact (hlane _).trans (lane_setElems hrl)
  · have hback : ∀ (t : Team) (c c' : Ctx) (x : List (List Lane)),
        ({ t.setCtx v.kind c with v := x } : Team).setCtx v.kind c' = (({ t with v := x } : Team).setCtx v.kind c).setCtx v.kind c' := by
      cases v.kind <;> intros <;> rfl
    rw [hback, setElems_eq]
    exact setCtx_progress_back (State.view_spec hv).2.1

/-- Flags raised are the one change of a context beside its completion. -/
theorem ctxKeeps_advance_raise (c : Ctx) (p : Word) (o : Option Window) (f : Flags) :
    CtxKeeps c { (c.advance p o).raise f with fpfl := c.fpfl } none :=
  ⟨fun _ _ => rfl, rfl⟩

/-! ### The scalar instructions (R203 to R207, R241, R277, R287) -/

/-- What an instruction with scalar destination `d` comes to: a fault, a wait, or the frame. -/
def ScalarEnd (s u : State) (v : View) (d : Option Nat) : Prop := (∃ f, u = park s v f 0 []) ∨ u = s ∨ ScalarFrame s u v d

/-- An instruction whose effect is the completion of its context, changed in scalar register `d` alone, ends so. -/
theorem scalarEnd_of_instr {req : View → Req} {body : View → Except Flt State} {d : Option Nat} (hv : s.view = some v)
    (hb : ∀ u, body v = .ok u → u = s ∨ ∃ c, u = s.retire v v.team c ∧ CtxKeeps v.ctx c d ∧ c.isc = v.ctx.isc + 1)
    (h : instr s req body = .next u) : ScalarEnd s u v d := by
  rcases instr_cases hv h with hf | ⟨-, hu⟩
  · exact .inl hf
  · rcases hb u hu with rfl | ⟨c, rfl, hc, hisc⟩
    · exact .inr (.inl rfl)
    · exact .inr (.inr (scalarFrame_retire hv hc hisc))

/-- An instruction that always writes scalar register `d` and goes on. -/
theorem scalarEnd_of_setS {req : View → Req} {d : Fin 64} {x p : View → Word} {o : View → Option Window} (hv : s.view = some v)
    (h : instr s req (fun v => .ok (s.retire v v.team ((v.ctx.setS d (x v)).advance (p v) (o v)))) = .next u) :
    ScalarEnd s u v (some d.val) :=
  scalarEnd_of_instr hv (fun _ hu => .inr ⟨_, (Except.ok.inj hu).symm, ctxKeeps_setS_advance .., by simp⟩) h

/-- An instruction that always goes on, with no register written. -/
theorem scalarEnd_of_advance {req : View → Req} {p : View → Word} (hv : s.view = some v)
    (h : instr s req (fun v => .ok (s.retire v v.team (v.ctx.advance (p v) none))) = .next u) : ScalarEnd s u v none :=
  scalarEnd_of_instr hv (fun _ hu => .inr ⟨_, (Except.ok.inj hu).symm, ctxKeeps_advance .., rfl⟩) h

theorem step4_eq_advance (c : Ctx) (d : Fin 64) (x : Word) : (c.setS d x).step4 = (c.setS d x).advance (c.pc + 4) none := by
  rw [Ctx.step4, Ctx.setS_pc]

theorem scalarOp_frame {d : Fin 64} {reads : List (Fin 64)} {f : Ctx → Word} (hv : s.view = some v)
    (h : scalarOp s d reads f = .next u) : ScalarEnd s u v (some d.val) := by
  simp only [scalarOp, step4_eq_advance] at h
  exact scalarEnd_of_setS hv h

theorem scalar3_frame {d a b : Fin 64} {f : Word → Word → Word} (hv : s.view = some v) (h : scalar3 s d a b f = .next u) :
    ScalarEnd s u v (some d.val) :=
  scalarOp_frame hv h

theorem scalar2_frame {d a : Fin 64} {f : Word → Word} (hv : s.view = some v) (h : scalar2 s d a f = .next u) :
    ScalarEnd s u v (some d.val) :=
  scalarOp_frame hv h

theorem literalOp_frame {d : Fin 64} {reads : List (Fin 64)} {f : Ctx → Word} (hv : s.view = some v)
    (h : literalOp s d reads f = .next u) : ScalarEnd s u v (some d.val) :=
  scalarEnd_of_setS hv h

theorem maskToScalar_frame {d : Fin 64} {reads : List RegName} {f : Team → Ctx → Word} (hv : s.view = some v)
    (h : maskToScalar s d reads f = .next u) : ScalarEnd s u v (some d.val) := by
  simp only [maskToScalar, step4_eq_advance] at h
  exact scalarEnd_of_setS hv h

theorem execSbfx_frame {d w p : Fin 64} (hv : s.view = some v) (h : execSbfx d w p s = .next u) :
    ScalarEnd s u v (some d.val) := by
  simp only [execSbfx, step4_eq_advance] at h
  exact scalarEnd_of_setS hv h

theorem execSliceof_frame {d a : Fin 64} (hv : s.view = some v) (h : execSliceof d a s = .next u) :
    ScalarEnd s u v (some d.val) := by
  simp only [execSliceof, step4_eq_advance] at h
  exact scalarEnd_of_setS hv h

theorem execMdrd_frame {d : Fin 64} (hv : s.view = some v) (h : execMdrd d s = .next u) : ScalarEnd s u v (some d.val) := by
  simp only [execMdrd, step4_eq_advance] at h
  exact scalarEnd_of_setS hv h

theorem execStqry_frame {d n : Fin 64} (hv : s.view = some v) (h : execStqry d n s = .next u) :
    ScalarEnd s u v (some d.val) := by
  simp only [execStqry, step4_eq_advance] at h
  exact scalarEnd_of_setS hv h

theorem execQstat_frame {d : Fin 64} {a : Fin 4} (hv : s.view = some v) (h : execQstat d a s = .next u) :
    ScalarEnd s u v (some d.val) := by
  simp only [execQstat, step4_eq_advance] at h
  exact scalarEnd_of_setS hv h

theorem execMstat_frame {d : Fin 64} {a : Fin 4} {l : Fin 16} (hv : s.view = some v) (h : execMstat d a l s = .next u) :
    ScalarEnd s u v (some d.val) := by
  simp only [execMstat, mtxRetire] at h
  exact scalarEnd_of_setS hv h

/-- SRD of a scalar special register; FPFL may wait (R25). -/
theorem execSrd_scalar_frame {d b : Fin 64} (hb : isVectorSpecial b = false) (hv : s.view = some v)
    (h : execSrd d b s = .next u) : ScalarEnd s u v (some d.val) := by
  refine scalarEnd_of_instr hv (fun u hu => ?_) h
  simp only [hb, Bool.false_eq_true, if_false] at hu
  split at hu
  · exact .inl (Except.ok.inj hu).symm
  · exact .inr ⟨_, (Except.ok.inj hu).symm, ctxKeeps_setS_advance .., by simp⟩

theorem execRet_frame {a : Fin 64} (hv : s.view = some v) (h : execRet a s = .next u) : ScalarEnd s u v none := by
  refine scalarEnd_of_instr hv (fun u hu => ?_) h
  dsimp only at hu
  split at hu
  · exact .inr ⟨_, (Except.ok.inj hu).symm, ctxKeeps_advance .., rfl⟩
  · cases hu

/-- A branch on a condition of its context or its team. -/
theorem branchIf_frame {req : View → Req} {o : BitVec 20} {taken : View → Bool} (hv : s.view = some v)
    (h : instr s req (fun v => .ok (branchIf s v o (taken v))) = .next u) : ScalarEnd s u v none :=
  scalarEnd_of_advance hv h

/-! ### The mask instructions (R207, R215, R219) -/

/-- An instruction whose effect is a write of mask register `d` takes a fault or has the frame. -/
theorem maskFrame_of_instr {req : View → Req} {d : Fin 16} {m : View → Mask} (hv : s.view = some v)
    (h : instr s req (fun v => .ok (s.retire v (v.team.setK d (m v)) v.ctx.step4)) = .next u) :
    (∃ f, u = park s v f 0 []) ∨ MaskFrame s u v d := by
  rcases instr_cases hv h with hf | ⟨-, hu⟩
  · exact .inl hf
  · obtain rfl := Except.ok.inj hu
    exact .inr (maskFrame_retire hv d _)

theorem maskOp_frame {d : Fin 16} {reads : List RegName} {f : Team → Ctx → Mask} (hv : s.view = some v)
    (h : maskOp s d reads f = .next u) : (∃ f, u = park s v f 0 []) ∨ MaskFrame s u v d :=
  maskFrame_of_instr hv h

theorem intCompare_frame {d : Fin 16} {a b : Fin 64} {f : Int → Int → Bool} (hv : s.view = some v)
    (h : intCompare s d a b f = .next u) : (∃ f, u = park s v f 0 []) ∨ MaskFrame s u v d :=
  maskFrame_of_instr hv h

theorem floatCompare_frame {d : Fin 16} {a b : Fin 64} {f : Option Ordering → Bool} (hv : s.view = some v)
    (h : floatCompare s d a b f = .next u) : (∃ f, u = park s v f 0 []) ∨ MaskFrame s u v d :=
  maskFrame_of_instr hv h

/-! ### The per-lane instructions (R213 to R228) -/

/-- What an instruction that writes lanes of vector register `d`, or of the pair at `d`, comes to. -/
def VectorEnd (s u : State) (v : View) (w : Bool) (d : Nat) : Prop :=
  (∃ f, u = park s v f 0 []) ∨ u = s ∨ VectorFrame s u v w d v.eff

/-- An instruction whose effect is a write of lanes of E, with a completion that may raise flags. -/
theorem vectorEnd_of_instr {req : View → Req} {w : View → Bool} {d : Nat} {f : View → Nat → Option Nat} {p : View → Word}
    {o : View → Option Window} {fl : View → Flags} (hv : s.view = some v)
    (h : instr s req (fun v => .ok (s.retire v (v.team.setElems (w v) d v.eff (f v))
      ((v.ctx.advance (p v) (o v)).raise (fl v)))) = .next u) : VectorEnd s u v (w v) d := by
  rcases instr_cases hv h with hf | ⟨-, hu⟩
  · exact .inl hf
  · obtain rfl := Except.ok.inj hu
    exact .inr (.inr (vectorFrame_retire hv (ctxKeeps_advance_raise ..) rfl))

/-- The short forms: their completion is `laneResult`. -/
theorem laneResult_frame {req : View → Req} {w : View → Bool} {d : Nat} {f : View → Nat → Option (Nat × Flags)}
    (hv : s.view = some v) (h : instr s req (fun v => .ok (laneResult s v (w v) d (f v))) = .next u) :
    VectorEnd s u v (w v) d :=
  vectorEnd_of_instr hv h

theorem intOp_frame {d : Nat} {srcs : List Nat} {extra : List RegName} {f : View → Nat → Nat → Option (Nat × Flags)}
    (hv : s.view = some v) (h : intOp s d srcs extra f = .next u) : VectorEnd s u v (isWide v.ty) d :=
  laneResult_frame (w := fun v => isWide v.ty) hv h

theorem satOp_frame {d : Nat} {srcs : List Nat} {extra : List RegName} {f : View → Nat → Nat → Int}
    (hv : s.view = some v) (h : satOp s d srcs extra f = .next u) : VectorEnd s u v (isWide v.ty) d :=
  intOp_frame hv h

theorem plainOp_frame {d : Nat} {srcs : List Nat} {f : View → Nat → Nat → Nat}
    (hv : s.view = some v) (h : plainOp s d srcs f = .next u) : VectorEnd s u v (isWide v.ty) d :=
  intOp_frame hv h

theorem rawOp_frame {d : Nat} {srcs : List Nat} {extra : List RegName} {f : View → Bool → Nat → Option Nat}
    (hv : s.view = some v) (h : rawOp s d srcs extra f = .next u) : VectorEnd s u v (isWide v.ty) d :=
  laneResult_frame (w := fun v => isWide v.ty) hv h

theorem floatOp_frame {allowed : List Layout} {rounds : Bool} {d : Nat} {srcs : List FSrc} {f : Nat → List FVal → FVal × Flags}
    (hv : s.view = some v) (h : floatOp s allowed rounds d srcs f = .next u) : VectorEnd s u v (isWide v.ty) d :=
  laneResult_frame (w := fun v => isWide v.ty) hv h

theorem execVcvt_frame {d a : Fin 64} (hv : s.view = some v) (h : execVcvt d a s = .next u) :
    VectorEnd s u v (isWide v.ty) d :=
  laneResult_frame (w := fun v => isWide v.ty) hv h

theorem execVunpk_frame {d a : Fin 64} (hv : s.view = some v) (h : execVunpk d a s = .next u) :
    VectorEnd s u v (isWide v.ty) d :=
  laneResult_frame (w := fun v => isWide v.ty) hv h

theorem execVfclass_frame {d a : Fin 64} (hv : s.view = some v) (h : execVfclass d a s = .next u) : VectorEnd s u v false d :=
  laneResult_frame (w := fun _ => false) hv h

theorem execViota_frame {d : Fin 64} (hv : s.view = some v) (h : execViota d s = .next u) : VectorEnd s u v false d :=
  laneResult_frame (w := fun _ => false) hv h

theorem sfuOp_frame {fn : Nat} {d a : Fin 64} {b : Option (Fin 64)} {la : Fin 16} (hv : s.view = some v)
    (h : sfuOp s fn d a b la = .next u) : VectorEnd s u v (isWide v.ty) d :=
  vectorEnd_of_instr (w := fun v => isWide v.ty) hv h

theorem xlMove_frame {d a : Fin 64} {idx : List Nat} {extra : List RegName} {la : Fin 16} {f : View → Nat → Option Nat}
    (hv : s.view = some v) (h : xlMove s d a idx extra la f = .next u) : VectorEnd s u v (isWide v.ty) d :=
  vectorEnd_of_instr (w := fun v => isWide v.ty) hv h

theorem scanOp_frame {d a : Fin 64} {o : Fin 6} {la : Fin 16} {sel : Nat → Nat → Bool} (hv : s.view = some v)
    (h : scanOp s d a o la sel = .next u) : VectorEnd s u v (isWide v.ty) d :=
  vectorEnd_of_instr (w := fun v => isWide v.ty) hv h

theorem execLbal_frame {d a b : Fin 64} {l : Fin 16} (hv : s.view = some v) (h : execLbal d a b l s = .next u) :
    VectorEnd s u v true d :=
  vectorEnd_of_instr (w := fun _ => true) hv h

/-- SRD of LANE or GROUP. -/
theorem execSrd_vector_frame {d b : Fin 64} (hb : isVectorSpecial b = true) (hv : s.view = some v)
    (h : execSrd d b s = .next u) : VectorEnd s u v false d := by
  rcases instr_cases hv h with hf | ⟨-, hu⟩
  · exact .inl hf
  · simp only [hb, if_true] at hu
    obtain rfl := Except.ok.inj hu
    exact .inr (.inr (vectorFrame_retire hv (ctxKeeps_advance ..) rfl))

end

/-- Settles O14: every instruction of the family completes with one scalar register written, or none, or takes a fault or waits. -/
theorem scalarInstructionsFrame : Obligations.ScalarInstructionsFrame := by
  unfold Obligations.ScalarInstructionsFrame
  rintro s u v i d hv (⟨rfl, hd⟩ | ⟨hflow, rfl⟩) hu
  · cases i <;> dsimp only [exec] at hu
    case sadd | ssub | smul | smulhi | smulhn | sand | sor | sxor | sandn | sshl | sshr | ssra | smin | smax | sminn | smaxn |
        sseq | sslt | ssltn =>
      exact scalar3_frame hv hu
    case spop | sclz | sctz | smov | sshli | sshri | ssrai | saddi | sandi | sori | sxori | sslti => exact scalar2_frame hv hu
    case smovl | smovlSigned | smovlHigh => exact literalOp_frame hv hu
    case call => exact scalarEnd_of_setS hv hu
    case kpop | kfirst | ktos => exact maskToScalar_frame hv hu
    case sbfx => exact execSbfx_frame hv hu
    case sliceof => exact execSliceof_frame hv hu
    case mdrd => exact execMdrd_frame hv hu
    case stqry => exact execStqry_frame hv hu
    case qstat => exact execQstat_frame hv hu
    case mstat => exact execMstat_frame hv hu
    case srd d b =>
      cases hb : isVectorSpecial b
      · rw [show (Instr.srd d b).scalarDest = some d.val by simp [Instr.scalarDest, hb]]
        exact execSrd_scalar_frame hb hv hu
      · simp [Instr.scalarDest, hb] at hd
    all_goals cases hd
  · cases i <;> dsimp only [exec] at hu
    case nop | bra => exact scalarEnd_of_advance hv hu
    case ret => exact execRet_frame hv hu
    case bsz | bsnz | bkz | bknz | bkall => exact branchIf_frame hv hu
    all_goals cases hflow

/-- Settles O16: every instruction of the family completes with one mask register written, or takes a fault. -/
theorem maskInstructionsFrame : Obligations.MaskInstructionsFrame := by
  unfold Obligations.MaskInstructionsFrame
  intro s u v i d hv hd hu
  cases i <;> dsimp only [exec] at hu <;> cases hd
  case kand | kor | kxor | kandn | knot | kmov | kfroms | kclr | klive => exact maskOp_frame hv hu
  case vceq | vcne | vclt | vcle => exact intCompare_frame hv hu
  case vfceq | vfclt | vfcle | vfcun => exact floatCompare_frame hv hu

/-- Settles O26: every instruction of the family completes with lanes of E of one register, or pair, written, or takes a fault. -/
theorem vectorInstructionsFrame : Obligations.VectorInstructionsFrame := by
  unfold Obligations.VectorInstructionsFrame
  intro s u v i w d hv hd hu
  cases i <;> dsimp only [exec] at hu
  case srd d' b =>
    cases hb : isVectorSpecial b
    · simp [Instr.laneDest, hb] at hd
    · rw [show (Instr.srd d' b).laneDest v.ty = some (false, d'.val) by simp [Instr.laneDest, hb]] at hd
      obtain ⟨rfl, rfl⟩ := Prod.mk.inj (Option.some.inj hd)
      exact execSrd_vector_frame hb hv hu
  all_goals cases hd
  case vadd | vsub | vmul | vabs | vneg | vadds | vmuls | vaddi | vmad | vmsb => exact satOp_frame hv hu
  case vmulh | vshl | vshr | vsra | vmin | vmax | vpopc | vclz | vbfx => exact plainOp_frame hv hu
  case vand | vor | vxor | vandn | vmov | vsel => exact rawOp_frame hv hu
  case vmovs | vbfi => exact intOp_frame hv hu
  case vfadd | vfsub | vfmul | vfmin | vfmax | vfabs | vfneg | vfadds | vfmuls | vfma | vfms | vfnma | vfnms => exact floatOp_frame hv hu
  case vfdiv | vfsqrt | vfrcp | vfrsq | vfexp2 | vflog2 | vfsinpi | vfcospi | vftanh => exact sfuOp_frame hv hu
  case vperm | vshup | vshdn | vshx | vbcast => exact xlMove_frame hv hu
  case vscan | vscanx | vred => exact scanOp_frame hv hu
  case vcvt => exact execVcvt_frame hv hu
  case vunpk => exact execVunpk_frame hv hu
  case viota => exact execViota_frame hv hu
  case vfclass => exact execVfclass_frame hv hu
  case lbal => exact execLbal_frame hv hu

end Sys2Proof.Machine.Frames

/-! ## Words and instructions that fault before their effect (O10) -/

namespace Sys2Proof.Machine.Illegal

-- one proof after another: side by side they take more threads than the check's memory limit has stacks for
set_option Elab.async false

section
variable {s : State} {v : View}

/-! ### The order of the tests (R163) -/

theorem fault_context {r : Req} (he : r.enc = true) (hc : r.ctxs v.kind = false) : r.fault v = some .illegalContext := by
  simp [Req.fault, he, hc]

theorem fault_register {r : Req} (he : r.enc = true) (hc : r.ctxs v.kind = true) (hr : r.regs = false) :
    r.fault v = some .illegalRegister := by
  simp [Req.fault, he, hc, hr]

theorem fault_mode {r : Req} (he : r.enc = true) (hc : r.ctxs v.kind = true) (hr : r.regs = true) (hm : r.mode = false) :
    r.fault v = some .illegalMode := by
  simp [Req.fault, he, hc, hr, hm]

theorem fault_lookahead {r : Req} (he : r.enc = true) (hc : r.ctxs v.kind = true) (hr : r.regs = true) (hm : r.mode = true)
    (hn : lookaheadHit v.ctx.windows r.names = true) : r.fault v = some .illegalLookahead := by
  simp [Req.fault, he, hc, hr, hm, hn]

/-! ### Undecodable words (R162) -/

/-- The same teams stand in the same slots, and the same context executes. -/
def SameTeams (s u : State) : Prop := u.teams = s.teams ∧ u.cur = s.cur

theorem SameTeams.trans {a b c : State} (h : SameTeams a b) (h' : SameTeams b c) : SameTeams a c :=
  ⟨h'.1.trans h.1, h'.2.trans h.2⟩

theorem SameTeams.view {a b : State} (h : SameTeams a b) : b.view = a.view := by
  simp only [State.view, State.team?, h.1, h.2]

theorem ringPut_sameTeams (s : State) (r : ParkRec) : SameTeams s (s.ringPut r) := by
  simp only [SameTeams, State.ringPut, State.setFunc_teams, State.hostPut_teams, State.setFunc_cur, State.hostPut_cur, and_self]

theorem raiseRecord_sameTeams (s : State) (r : ParkRec) : SameTeams s (s.raiseRecord r) := by
  have hsvc : SameTeams s (if r.svc then { s with hub := { s.hub with parks := s.hub.parks ++ [r] } } else s) := by
    split <;> exact ⟨rfl, rfl⟩
  refine hsvc.trans ?_
  unfold State.raiseRecord
  generalize (if r.svc then _ else s) = s'
  dsimp only
  split_ifs
  · exact ringPut_sameTeams s' r
  all_goals exact ⟨rfl, rfl⟩

theorem foldl_raiseRecord_sameTeams (rs : List ParkRec) (s : State) : SameTeams s (rs.foldl State.raiseRecord s) := by
  induction rs generalizing s with
  | nil => exact ⟨rfl, rfl⟩
  | cons r rs ih => exact (raiseRecord_sameTeams s r).trans (ih _)

theorem reportAlarms_sameTeams (s : State) : SameTeams s s.reportAlarms := by
  unfold State.reportAlarms
  split
  · exact ⟨rfl, rfl⟩
  · exact (foldl_raiseRecord_sameTeams s.alarm.due s).trans ⟨rfl, rfl⟩

theorem raiseAlarm_sameTeams (s : State) (source : Nat) : SameTeams s (s.raiseAlarm source) := by
  unfold State.raiseAlarm
  dsimp only
  split_ifs
  · exact ⟨rfl, rfl⟩
  all_goals first
    | exact SameTeams.trans ⟨rfl, rfl⟩ (reportAlarms_sameTeams _)
    | exact SameTeams.trans ⟨rfl, rfl⟩ (raiseRecord_sameTeams _ _)

theorem requestAbort_sameTeams (s : State) (sid status : Nat) : SameTeams s (s.requestAbort sid status) := by
  unfold State.requestAbort
  split
  · exact ⟨rfl, rfl⟩
  · split <;> exact ⟨rfl, rfl⟩

theorem deny_sameTeams (s : State) (code : FaultCode) (sid : Nat) (lost : Option Nat) : SameTeams s (s.deny code sid lost) := by
  unfold State.deny
  dsimp only
  split
  · exact (requestAbort_sameTeams ..).trans (raiseAlarm_sameTeams ..)
  · exact requestAbort_sameTeams ..

/-- The team of the executing context after a fault: its context parked, and a team context's slot with it (R49, R249). -/
def parkedTeam (v : View) (f : Flt) : Team :=
  let t := v.team.setCtx v.kind { v.ctx with run := parkState f.code }
  let t := if v.kind = .team then { t with slot := .parked, bag := [] } else t
  if v.kind = .team || f.code = .trap then t.closeRegions 4 else t

theorem park_sameTeams (f : Flt) (tcode : BitVec 16) (ss : List Word) :
    SameTeams (s.putTeam (parkedTeam v f)) (park s v f tcode ss) := by
  unfold park
  dsimp only
  split
  · exact raiseRecord_sameTeams ..
  · exact (raiseRecord_sameTeams ..).trans (deny_sameTeams ..)

theorem parkedTeam_ref (f : Flt) : (parkedTeam v f).ref = v.team.ref := by
  unfold parkedTeam
  dsimp only
  split_ifs <;> exact Team.setCtx_ref ..

theorem parkedTeam_ctx (f : Flt) : (parkedTeam v f).ctx? v.kind = some { v.ctx with run := parkState f.code } := by
  unfold parkedTeam
  cases hk : v.kind <;> cases f.code <;> rfl

/-- A context that takes a fault keeps all its state but that it is parked (R162, R163). -/
theorem view_park (hv : s.view = some v) (f : Flt) (tcode : BitVec 16) (ss : List Word) :
    (park s v f tcode ss).view =
      some { team := parkedTeam v f, ctx := { v.ctx with run := parkState f.code }, kind := v.kind } := by
  obtain ⟨hteam, -, hkind, href⟩ := State.view_spec hv
  have hput : (s.putTeam (parkedTeam v f)).team? s.cur.ref = some (parkedTeam v f) := by
    rw [← href, ← parkedTeam_ref f] at hteam ⊢
    exact State.team?_putTeam_self hteam
  rw [(park_sameTeams f tcode ss).view, State.view, State.putTeam_cur, hput]
  simp only [← hkind, parkedTeam_ctx, Option.map_some]

theorem execIllegalInstruction_view (hv : s.view = some v) (opcode : Bool) :
    execIllegalInstruction opcode s =
      .next (park s v { code := if opcode then .illegalOpcode else .illegalEncoding } 0 []) := by
  simp only [execIllegalInstruction, hv]

/-! ### Foreign contexts (R13) -/

/-- An instruction of the contexts that `allowed` names, in another one. -/
theorem instr_foreign {req : View → Req} {body : View → Except Flt State} {allowed : CtxKind → Bool} (hv : s.view = some v)
    (he : (req v).enc = true) (hc : (req v).ctxs = allowed) (hk : allowed v.kind = false) :
    instr s req body = .next (park s v { code := .illegalContext } 0 []) :=
  instr_fault hv (fault_context he (by rw [hc, hk]))

section
variable (hv : s.view = some v) (hk : teamOnly v.kind = false)
include hv hk

theorem maskOp_foreign {d : Fin 16} {reads : List RegName} {f : Team → Ctx → Mask} :
    maskOp s d reads f = .next (park s v { code := .illegalContext } 0 []) :=
  instr_foreign hv rfl rfl hk

theorem maskToScalar_foreign {d : Fin 64} {reads : List RegName} {f : Team → Ctx → Word} :
    maskToScalar s d reads f = .next (park s v { code := .illegalContext } 0 []) :=
  instr_foreign hv rfl rfl hk

theorem intOp_foreign {d : Nat} {srcs : List Nat} {extra : List RegName} {f : View → Nat → Nat → Option (Nat × Flags)} :
    intOp s d srcs extra f = .next (park s v { code := .illegalContext } 0 []) :=
  instr_foreign hv rfl rfl hk

theorem satOp_foreign {d : Nat} {srcs : List Nat} {extra : List RegName} {f : View → Nat → Nat → Int} :
    satOp s d srcs extra f = .next (park s v { code := .illegalContext } 0 []) :=
  intOp_foreign hv hk

theorem plainOp_foreign {d : Nat} {srcs : List Nat} {f : View → Nat → Nat → Nat} :
    plainOp s d srcs f = .next (park s v { code := .illegalContext } 0 []) :=
  intOp_foreign hv hk

theorem rawOp_foreign {d : Nat} {srcs : List Nat} {extra : List RegName} {f : View → Bool → Nat → Option Nat} :
    rawOp s d srcs extra f = .next (park s v { code := .illegalContext } 0 []) :=
  instr_foreign hv rfl rfl hk

theorem intCompare_foreign {d : Fin 16} {a b : Fin 64} {f : Int → Int → Bool} :
    intCompare s d a b f = .next (park s v { code := .illegalContext } 0 []) :=
  instr_foreign hv rfl rfl hk

theorem floatOp_foreign {allowed : List Layout} {rounds : Bool} {d : Nat} {srcs : List FSrc}
    {f : Nat → List FVal → FVal × Flags} :
    floatOp s allowed rounds d srcs f = .next (park s v { code := .illegalContext } 0 []) :=
  instr_foreign hv rfl rfl hk

theorem floatCompare_foreign {d : Fin 16} {a b : Fin 64} {f : Option Ordering → Bool} :
    floatCompare s d a b f = .next (park s v { code := .illegalContext } 0 []) :=
  instr_foreign hv rfl rfl hk

theorem sfuOp_foreign {fn : Nat} {d a : Fin 64} {b : Option (Fin 64)} {la : Fin 16} :
    sfuOp s fn d a b la = .next (park s v { code := .illegalContext } 0 []) :=
  instr_foreign hv rfl rfl hk

theorem xlMove_foreign {d a : Fin 64} {idx : List Nat} {extra : List RegName} {la : Fin 16} {f : View → Nat → Option Nat} :
    xlMove s d a idx extra la f = .next (park s v { code := .illegalContext } 0 []) :=
  instr_foreign hv rfl rfl hk

theorem scanOp_foreign {d a : Fin 64} {o : Fin 6} {la : Fin 16} {sel : Nat → Nat → Bool} :
    scanOp s d a o la sel = .next (park s v { code := .illegalContext } 0 []) :=
  instr_foreign hv rfl rfl hk

theorem atomOp_foreign {sub : Nat} {d a b : Fin 64} {l : Fin 16} :
    atomOp sub d a b l s = .next (park s v { code := .illegalContext } 0 []) :=
  instr_foreign hv rfl rfl hk

theorem redOp_foreign {sub : Nat} {d a b : Fin 64} :
    redOp sub d a b s = .next (park s v { code := .illegalContext } 0 []) :=
  instr_foreign hv rfl rfl hk

end

/-- SRD of LANE or GROUP in a bound context. -/
theorem execSrd_foreign {d b : Fin 64} (hv : s.view = some v) (hi : srdIndexOk b = true)
    (hk : (v.kind == .team || !isVectorSpecial b) = false) :
    execSrd d b s = .next (park s v { code := .illegalContext } 0 []) := by
  rw [Bool.or_eq_false_iff, Bool.not_eq_false'] at hk
  exact instr_foreign (allowed := teamOnly) hv hi (by simp [hk.2]) hk.1

/-- An instruction that its context may not run faults with ILLEGAL_CONTEXT: those of a shared shape by its lemma, every other by the
context that it asks for. -/
theorem exec_foreign {i : Instr} (hv : s.view = some v) (hwf : i.wf = true)
    (hr : i.runsIn v.kind = false) : exec i s = .next (park s v { code := .illegalContext } 0 []) := by
  cases i <;> dsimp only [exec]
  case kand | kor | kxor | kandn | knot | kmov | kfroms | kclr | klive => exact maskOp_foreign hv hr
  case kpop | kfirst | ktos => exact maskToScalar_foreign hv hr
  case vadd | vsub | vmul | vabs | vneg | vadds | vmuls | vaddi | vmad | vmsb => exact satOp_foreign hv hr
  case vmulh | vshl | vshr | vsra | vmin | vmax | vpopc | vclz | vbfx => exact plainOp_foreign hv hr
  case vand | vor | vxor | vandn | vmov | vsel => exact rawOp_foreign hv hr
  case vmovs | vbfi => exact intOp_foreign hv hr
  case vceq | vcne | vclt | vcle => exact intCompare_foreign hv hr
  case vfadd | vfsub | vfmul | vfmin | vfmax | vfabs | vfneg | vfadds | vfmuls | vfma | vfms | vfnma | vfnms => exact floatOp_foreign hv hr
  case vfceq | vfclt | vfcle | vfcun => exact floatCompare_foreign hv hr
  case vfdiv | vfsqrt | vfrcp | vfrsq | vfexp2 | vflog2 | vfsinpi | vfcospi | vftanh => exact sfuOp_foreign hv hr
  case vperm | vshup | vshdn | vshx | vbcast => exact xlMove_foreign hv hr
  case vscan | vscanx | vred => exact scanOp_foreign hv hr
  case atomAdd | atomMin | atomMax | atomMinn | atomMaxn | atomAnd | atomOr | atomXor | atomExch | atomCas | atomIncw |
      atomAddb | atomExchq =>
    exact atomOp_foreign hv hr
  case redAdd | redMin | redMax | redMinn | redMaxn | redAnd | redOr | redXor | redFadd | redFmin | redFmax =>
    exact redOp_foreign hv hr
  case exitLanes | bkz | bknz | bkall | kld | kst | viota | vfclass | vcvt | vpack | vunpk | vcmpr | lbal | lds | sts | ldg | stg |
      ldgs | stunmap | stflush | stinv | pref | stqry | xbegin | xend | xabort | waitc | barc | cbara | cbarw | vpop | qstat |
      fetch | route =>
    exact instr_foreign (allowed := teamOnly) hv rfl rfl hr
  case mzero | mma | msplit | mmas | mdrain | mxport | mxload | mstat =>
    exact instr_foreign (allowed := matrixOnly) hv rfl rfl hr
  case aqwait => exact instr_foreign (allowed := accessOnly) hv rfl rfl hr
  case astr => exact instr_foreign (allowed := accessOnly) hv hwf rfl hr
  case stmap | hdef | epool => exact instr_foreign (allowed := teamOnly) hv hwf rfl hr
  case srd => exact execSrd_foreign hv hwf hr
  all_goals cases hr

/-! ### Integer instructions with an operand or a mode that they may not have (R16, R211) -/

/-- Each register exists, as a pair where pairs are asked for (R16). -/
theorem all_vOk_iff (t : Team) (w : Bool) (rs : List Nat) :
    (rs.map (fun r => (w, r))).all (fun p => t.vOk p.1 p.2) = true ↔
      ∀ r ∈ rs, r < t.nv ∧ (w = true → r % 2 = 0 ∧ r + 1 < t.nv) := by
  rw [List.all_map, List.all_eq_true]
  refine forall₂_congr fun r _ => ?_
  cases w <;> simp [Team.vOk]

section
variable {d : Nat} {srcs : List Nat} {extra : List RegName} {f : View → Nat → Nat → Option (Nat × Flags)}

/-- What an integer instruction does before its effect: registers that do not exist, then a type that is none, then a pending name. -/
structure IntFaults (s : State) (v : View) (d : Nat) (srcs : List Nat) (extra : List RegName)
    (o : Host.Outcome State Fault Refusal) : Prop where
  register : ¬ (∀ r ∈ d :: srcs, r < v.team.nv ∧ (v.wide = true → r % 2 = 0 ∧ r + 1 < v.team.nv)) →
    o = .next (park s v { code := .illegalRegister } 0 [])
  mode : (∀ r ∈ d :: srcs, r < v.team.nv ∧ (v.wide = true → r % 2 = 0 ∧ r + 1 < v.team.nv)) → 7 < v.ty →
    o = .next (park s v { code := .illegalMode } 0 [])
  lookahead : (∀ r ∈ d :: srcs, r < v.team.nv ∧ (v.wide = true → r % 2 = 0 ∧ r + 1 < v.team.nv)) → v.ty ≤ 7 →
    lookaheadHit v.ctx.windows ((d :: srcs).flatMap (vNames v.wide) ++ extra ++ v.maskNames) = true →
    o = .next (park s v { code := .illegalLookahead } 0 [])

theorem intOp_faults (hv : s.view = some v) (hk : v.kind = .team) : IntFaults s v d srcs extra (intOp s d srcs extra f) where
  register h := by
    refine instr_fault hv (fault_register rfl (by simp [vreq, teamOnly, hk]) ?_)
    rwa [← all_vOk_iff, Bool.not_eq_true] at h
  mode h hty := by
    refine instr_fault hv (fault_mode rfl (by simp [vreq, teamOnly, hk]) ((all_vOk_iff ..).2 h) ?_)
    exact decide_eq_false (Nat.not_le.2 hty)
  lookahead h hty hn := by
    refine instr_fault hv (fault_lookahead rfl (by simp [vreq, teamOnly, hk]) ((all_vOk_iff ..).2 h) (decide_eq_true hty) ?_)
    have hflat : (((d :: srcs).map (fun r => (v.wide, r))).map (fun p => vNames p.1 p.2)).flatten =
        (d :: srcs).flatMap (vNames v.wide) := by
      rw [List.map_map, List.flatMap_def]
      rfl
    rw [← hflat] at hn
    exact hn

theorem satOp_faults {f : View → Nat → Nat → Int} (hv : s.view = some v) (hk : v.kind = .team) :
    IntFaults s v d srcs extra (satOp s d srcs extra f) :=
  intOp_faults hv hk

theorem plainOp_faults {f : View → Nat → Nat → Nat} (hv : s.view = some v) (hk : v.kind = .team) :
    IntFaults s v d srcs [] (plainOp s d srcs f) :=
  intOp_faults hv hk

end

end

/-- Settles O10: the fault of an undecodable word parks its context (`view_park`), a foreign context faults (`exec_foreign`), and the
integer instructions of two sources fault in the order of R163 (`intOp_faults`). -/
theorem illegalInstructionsFault : Obligations.IllegalInstructionsFault := by
  unfold Obligations.IllegalInstructionsFault
  refine ⟨fun s v opcode hv => ⟨execIllegalInstruction_view hv opcode, ?context⟩, fun s v i hv _ hwf hr => exec_foreign hv hwf hr,
    fun s v d a b hv hk => ?integer⟩
  case context =>
    intro u v' hu hv'
    rw [exec_illegalInstruction, execIllegalInstruction_view hv] at hu
    obtain rfl := Host.Outcome.next.inj hu
    rw [view_park hv] at hv'
    obtain rfl := Option.some.inj hv'
    cases opcode <;> rfl
  case integer =>
    have hfaults : ∀ i ∈ ([.vadd d a b, .vsub d a b, .vmul d a b, .vmulh d a b, .vshl d a b, .vshr d a b, .vsra d a b,
        .vmin d a b, .vmax d a b] : List Instr), IntFaults s v d [a.val, b.val] [] (exec i s) := by
      intro i hi
      simp only [List.mem_cons, List.not_mem_nil, or_false] at hi
      obtain rfl | rfl | rfl | rfl | rfl | rfl | rfl | rfl | rfl := hi <;> dsimp only [exec]
      case inl | inr.inl | inr.inr.inl => exact satOp_faults hv hk
      all_goals exact plainOp_faults hv hk
    intro ok names i hi
    obtain ⟨hregister, hmode, hlookahead⟩ := hfaults i hi
    refine ⟨hregister, hmode, fun hok hty hn => hlookahead hok hty ?_⟩
    rw [List.append_nil]
    exact hn

end Sys2Proof.Machine.Illegal

/-! ## Slots: waking, entering, rotating, leaving (O42, second part) -/

namespace Sys2Proof.Machine.Slots

-- one proof after another: side by side they take more threads than the check's memory limit has stacks for
set_option Elab.async false

section
variable {s : State} {t : Team} {r : TeamRef}

/-! ### Finding teams -/

theorem ref_of_team? (h : s.team? r = some t) : t.ref = r := by simpa using List.find?_some h

theorem mem_of_team? (h : s.team? r = some t) : t ∈ s.teams := List.mem_of_find?_eq_some h

theorem team?_eq_none_iff : s.team? r = none ↔ ∀ x ∈ s.teams, x.ref ≠ r := by simp [State.team?]

/-- Teams without those of one slot. -/
theorem find?_removed (ts : List Team) (r x : TeamRef) :
    (ts.filter (fun t => t.ref ≠ r)).find? (fun t => t.ref = x) = if x = r then none else ts.find? (fun t => t.ref = x) := by
  split
  next h =>
    subst h
    exact List.find?_eq_none.2 fun t ht => by simpa using (List.mem_filter.1 ht).2
  next h =>
    rw [List.find?_filter]
    congr 1
    funext t
    by_cases ht : t.ref = x
    · simp [ht, h]
    · simp [ht]

/-! ### Becoming READY (R49, R50) -/

theorem makeReady_of_team (h : s.team? r = some t) :
    s.makeReady r = { s.putTeam { t with slot := .ready } with readyQ := s.readyQ ++ [r] } := by
  simp only [State.makeReady, h]

variable {die core slot : Nat}

theorem execTeamWake_over (h : s.team? { die := die, core := core, slot := slot } = some t) {w : Wait}
    (hw : t.slot = .waiting w) (ho : waitOver s t w = true) :
    execTeamWake die core slot s = .next { s.putTeam { t with slot := .ready } with
      readyQ := s.readyQ ++ [{ die := die, core := core, slot := slot }] } := by
  simp only [execTeamWake, h, hw, ho, if_true, makeReady_of_team h]

theorem execTeamWake_waits (h : s.team? { die := die, core := core, slot := slot } = some t) {w : Wait}
    (hw : t.slot = .waiting w) (ho : waitOver s t w = false) : execTeamWake die core slot s = .next s := by
  simp [execTeamWake, h, hw, ho]

/-! ### The active set (R50) -/

theorem activeCount_eq (s : State) (die core : Nat) :
    s.activeCount die core =
      s.teams.countP (fun x => x.ref.die == die && x.ref.core == core && x.slot == .active) := by
  rw [State.activeCount, State.residents, ← List.countP_eq_length_filter, List.countP_filter]
  refine List.countP_congr fun x _ => ?_
  simp [and_comm, and_assoc]

theorem execActiveEntry_head (h : s.team? r = some t) (hq : s.readyQ.find? (fun x => x.die = die && x.core = core) = some r) :
    execActiveEntry die core s =
      if s.activeCount die core < 8 then .next { s.putTeam { t with slot := .active } with readyQ := s.readyQ.erase r }
      else .next s := by
  simp only [execActiveEntry, hq, h]

theorem execRotation_active (h : s.team? { die := die, core := core, slot := slot } = some t) (ha : t.slot = .active) :
    execRotation die core slot s =
      if s.readyQ.any (fun x => x.die = die && x.core = core) then .next { s.putTeam { t with slot := .ready } with
        readyQ := s.readyQ ++ [{ die := die, core := core, slot := slot }] }
      else .next s := by
  simp only [execRotation, h, ha, decide_true, Bool.true_and, makeReady_of_team h]

/-! ### Leaving DRAINING (R42, R43) -/

/-- All six counters read zero exactly when the team has no counted operation in flight. -/
theorem countersZero_iff (s : State) (r : TeamRef) :
    countersZero s r = true ↔ ∀ o ∈ s.ops, o.own.ref = r → o.path = none := by
  have hcount : ∀ p, (s.counter r p == 0) = true ↔ ∀ o ∈ s.ops, o.own.ref = r → o.path ≠ some p := by
    intro p
    simp [State.counter, List.filter_eq_nil_iff]
  simp only [countersZero, List.all_cons, List.all_nil, Bool.and_true, Bool.and_eq_true, hcount]
  constructor
  · rintro ⟨hload, hstore, hfill, hengine, hatom, hred⟩ o ho hr
    cases hp : o.path with
    | none => rfl
    | some p => cases p <;> simp_all
  · intro h
    refine ⟨?_, ?_, ?_, ?_, ?_, ?_⟩ <;> intro o ho hr <;> simp [h o ho hr]

theorem ctxOver_of_ended {c : Option Ctx} (h : ∀ x, c = some x → x.run = .ended) : ctxOver c = true := by
  cases c with
  | none => rfl
  | some x => simp [ctxOver, h x rfl]

/-- With its bound contexts ended and no arrival left, a DRAINING team waits for its counters alone. -/
theorem mayLeave_eq_countersZero (hd : t.slot = .draining)
    (hctx : ∀ c, t.matrix = some c ∨ t.access = some c → c.run = .ended) (hcbar : t.cbar.pending = none)
    (harr : ∀ a ∈ s.arrivals, a.owner ≠ t.ref ∧ a.by_.ref ≠ t.ref) : mayLeave s t = countersZero s t.ref := by
  have hm := ctxOver_of_ended fun c hc => hctx c (.inl hc)
  have ha := ctxOver_of_ended fun c hc => hctx c (.inr hc)
  have hr : s.arrivals.all (fun a => a.owner != t.ref && a.by_.ref != t.ref) = true :=
    List.all_eq_true.2 fun a h => by simpa using harr a h
  rw [mayLeave, hd, hm, ha, hcbar, hr]
  simp

/-- A note of progress changes the hub alone. -/
theorem foldProgress_eq (s : State) (t : Team) : foldProgress s t = { s with hub := (foldProgress s t).hub } := by
  unfold foldProgress
  split <;> rfl

theorem leaveWindows_eq (s : State) (r : TeamRef) : s.leaveWindows r = { s with ops := (s.leaveWindows r).ops } := rfl

theorem execDrainingExit_leaves (h : s.team? { die := die, core := core, slot := slot } = some t) (hl : mayLeave s t = true) :
    ∃ u, execDrainingExit die core slot s = .next u ∧ u.teams = s.teams.filter (fun x => x.ref ≠ t.ref) ∧ u.mem = s.mem ∧
      u.sectors = s.sectors ∧ u.maps = s.maps ∧ u.readyQ = s.readyQ := by
  simp only [execDrainingExit, h, hl, Bool.not_true, Bool.false_eq_true, if_false]
  refine ⟨_, rfl, ?_⟩
  rw [leaveWindows_eq, foldProgress_eq]
  exact ⟨rfl, rfl, rfl, rfl, rfl⟩

theorem execDrainingExit_stays (h : s.team? { die := die, core := core, slot := slot } = some t) (hl : mayLeave s t = false) :
    execDrainingExit die core slot s = .next s := by
  simp only [execDrainingExit, h, hl, Bool.not_false, if_true]

end

end Sys2Proof.Machine.Slots

/-! ## Placement of clusters (O42) -/

namespace Sys2Proof.Machine.Placement

open Sys2Proof.Machine.Slots
open Sys2Proof.Machine.Canonical (placeMembers_cons placeMembers_nil)

-- one proof after another: side by side they take more threads than the check's memory limit has stacks for
set_option Elab.async false

section
variable {s u : State} {t : Team} {die core : Nat}

/-! ### What a core has room for (R34) -/

theorem sumNat_eq_sum (l : List Nat) : sumNat l = l.sum := List.sum_eq_foldl.symm

/-- The lowest free slot. -/
theorem freeSlot_eq {i : Nat} (hi : i < 16) (hfree : s.team? { die := die, core := core, slot := i } = none)
    (hlow : ∀ j < i, s.team? { die := die, core := core, slot := j } ≠ none) : freeSlot s die core = some i := by
  rw [freeSlot, List.find?_range_eq_some]
  refine ⟨by simp [hfree], List.mem_range.2 hi, fun j hj => ?_⟩
  simpa [Option.ne_none_iff_isSome] using hlow j hj

theorem team?_of_freeSlot {i : Nat} (h : freeSlot s die core = some i) :
    s.team? { die := die, core := core, slot := i } = none := by
  simpa using List.find?_some h

/-- What is asked of the residents and the windows of a core before a team of a launch goes there. -/
structure CoreRoom (s : State) (die core : Nat) (r : LaunchRec) : Prop where
  slot : (freeSlot s die core).isSome = true
  vrf : ((s.residents die core).map (fun t => t.nl * t.nv * 4)).sum + r.nl * r.nv * 4 ≤ 1048576
  stash : ((s.residents die core).map Team.footprint).sum +
    ((s.maps.filter (fun m => m.die = die && m.core = core && strayWindow s m)).map MapEntry.len).sum + r.footprint ≤ 786432
  nacc : ((s.residents die core).map (·.nacc)).sum + r.nacc ≤ 4
  matrix : r.mctx = true → (s.residents die core).countP (fun t => t.matrix.isSome) < 4
  access : r.actx = true → (s.residents die core).countP (fun t => t.access.isSome) < 8

/-- A core with that room fits, with the windows of teams that have left counted or not. -/
theorem CoreRoom.coreFits {r : LaunchRec} (h : CoreRoom s die core r) {taken : Nat} (ht : taken ≤ stashTaken s die core) :
    coreFits s die core r taken = true := by
  have hstash := h.stash
  rw [stashTaken, sumNat_eq_sum, sumNat_eq_sum] at ht
  have hm : (!r.mctx || decide (((s.residents die core).filter (fun t => t.matrix.isSome)).length < 4)) = true := by
    cases hx : r.mctx
    · rfl
    · simpa [← List.countP_eq_length_filter] using h.matrix hx
  have ha : (!r.actx || decide (((s.residents die core).filter (fun t => t.access.isSome)).length < 8)) = true := by
    cases hx : r.actx
    · rfl
    · simpa [← List.countP_eq_length_filter] using h.access hx
  simp only [Machine.coreFits, sumNat_eq_sum, h.slot, hm, ha, Bool.and_true, Bool.true_and, Bool.and_eq_true, decide_eq_true_eq]
  exact ⟨⟨h.vrf, by simp only [Config.stashBytes]; omega⟩, h.nacc⟩

theorem CoreRoom.coreCanFit {r : LaunchRec} (h : CoreRoom s die core r) : coreCanFit s die core r = true :=
  h.coreFits (Nat.le_add_right ..)

theorem makeRoom_of_fits {r : LaunchRec} (h : Machine.coreFits s die core r (stashTaken s die core) = true) :
    makeRoom s die core r = s := by
  unfold makeRoom
  generalize List.range 64 = l
  induction l with
  | nil => rfl
  | cons _ l ih => rw [List.foldl_cons, if_pos h, ih]

/-! ### A core that nothing has changed -/

/-- What placement asks of a core is as it was. -/
structure SameCore (die core : Nat) (s u : State) : Prop where
  residents : u.residents die core = s.residents die core
  slots : ∀ i, u.team? { die := die, core := core, slot := i } = s.team? { die := die, core := core, slot := i }
  stray : ((u.maps.filter (fun m => m.die = die && m.core = core && strayWindow u m)).map MapEntry.len) =
    ((s.maps.filter (fun m => m.die = die && m.core = core && strayWindow s m)).map MapEntry.len)

theorem SameCore.freeSlot (h : SameCore die core s u) : freeSlot u die core = freeSlot s die core := by
  simp only [Machine.freeSlot, h.slots]

theorem SameCore.coreRoom {r : LaunchRec} (h : SameCore die core s u) (hr : CoreRoom s die core r) : CoreRoom u die core r where
  slot := h.freeSlot ▸ hr.slot
  vrf := h.residents ▸ hr.vrf
  stash := by rw [h.residents, h.stray]; exact hr.stash
  nacc := h.residents ▸ hr.nacc
  matrix := h.residents ▸ hr.matrix
  access := h.residents ▸ hr.access

/-! ### A team put into a slot -/

theorem seat_teams (s : State) (t : Team) : (seat s t).teams = s.teams ++ [t] := by
  unfold seat; split <;> rfl

theorem seat_maps (s : State) (t : Team) :
    (seat s t).maps = s.maps.map (fun m => if m.home = some t.ref then { m with home := none } else m) := by
  unfold seat; split <;> rfl

theorem seat_hub (s : State) (t : Team) : (seat s t).hub = s.hub := by
  unfold seat; split <;> rfl

theorem seat_mem (s : State) (t : Team) : (seat s t).mem = s.mem := by
  unfold seat; split <;> rfl

theorem seat_sectors (s : State) (t : Team) : (seat s t).sectors = s.sectors := by
  unfold seat; split <;> rfl

theorem seat_readyQ (s : State) (t : Team) : (seat s t).readyQ = s.readyQ := by
  unfold seat; split <;> rfl

theorem seat_ops (t : Team) (h : s.former = []) : (seat s t).former = [] ∧ (seat s t).ops = (s.forgetObserver t.ref).ops := by
  unfold seat
  rw [if_pos (by rw [h]; rfl)]
  exact ⟨h, rfl⟩

/-- Of teams in distinct slots each is found by its slot. -/
theorem find?_of_refs_nodup {ts : List Team} (h : (ts.map (·.ref)).Nodup) {i : Nat} (hi : ts[i]? = some t) :
    ts.find? (fun x => x.ref = t.ref) = some t := by
  obtain ⟨hlt, rfl⟩ := List.getElem?_eq_some_iff.1 hi
  refine List.find?_eq_some_iff_getElem.2 ⟨decide_eq_true rfl, i, hlt, rfl, fun j hj => ?_⟩
  have hne : ts[j].ref ≠ ts[i].ref := fun e => by
    have := (h.getElem_inj_iff (i := j) (j := i) (hi := by rw [List.length_map]; omega) (hj := by rw [List.length_map]; omega)).1
      (by rw [List.getElem_map, List.getElem_map]; exact e)
    omega
  simpa using hne

theorem team?_append {ts : List Team} {r : TeamRef} (hu : u.teams = s.teams ++ ts) (h : s.team? r = none) :
    u.team? r = ts.find? (fun t => t.ref = r) := by
  rw [State.team?, hu, List.find?_append]
  simp only [State.team?] at h
  rw [h, Option.none_or]

theorem team?_append_ne {ts : List Team} {r : TeamRef} (hu : u.teams = s.teams ++ ts) (h : ∀ t ∈ ts, t.ref ≠ r) :
    u.team? r = s.team? r := by
  have hnone : ts.find? (fun t => t.ref = r) = none := List.find?_eq_none.2 (by simpa using h)
  rw [State.team?, hu, List.find?_append, hnone, Option.or_none]
  rfl

/-- A replaced team that stands alone in its slot as it is leaves the teams as they are. -/
theorem putTeam_self (h : ∀ x ∈ s.teams, x.ref = t.ref → x = t) : s.putTeam t = s := by
  have hmap : s.teams.map (fun x => if x.ref = t.ref then t else x) = s.teams := by
    refine (List.map_congr_left fun x hx => ?_).trans (List.map_id _)
    split
    next hr => exact (h x hx hr).symm
    next => rfl
  rw [State.putTeam, hmap]

/-- A new team that is READY joins the ready queue (R49). -/
theorem occupy_eq (hfree : s.team? t.ref = none) (hready : t.slot = .ready) :
    occupy s t = { seat s t with readyQ := s.readyQ ++ [t.ref] } := by
  have hteam : (seat s t).team? t.ref = some t := by
    rw [team?_append (seat_teams s t) hfree]
    simp
  have hsame : ({ t with slot := .ready } : Team) = t := by rw [← hready]
  have hput : (seat s t).putTeam t = seat s t := by
    refine putTeam_self fun x hx hr => ?_
    rw [seat_teams, List.mem_append, List.mem_singleton] at hx
    exact hx.resolve_left fun hx => team?_eq_none_iff.1 hfree x hx hr
  rw [occupy, makeReady_of_team hteam, hsame, hput, seat_readyQ]

/-- A team seated on another core leaves a core as it was. -/
theorem sameCore_seat (hfree : s.team? t.ref = none) (hne : ¬ (t.ref.die = die ∧ t.ref.core = core)) :
    SameCore die core s (seat s t) where
  residents := by
    have hne' : (decide (t.ref.die = die) && decide (t.ref.core = core)) = false := by simpa using hne
    simp [State.residents, seat_teams, hne']
  slots i := by
    refine team?_append_ne (seat_teams s t) fun x hx hr => hne ?_
    rw [List.mem_singleton.1 hx] at hr
    rw [hr]
    exact ⟨rfl, rfl⟩
  stray := by
    have hstray : ∀ m : MapEntry,
        strayWindow (seat s t) (if m.home = some t.ref then { m with home := none } else m) = strayWindow s m := by
      intro m
      by_cases hm : m.home = some t.ref
      · simp [strayWindow, hm, hfree]
      · rw [if_neg hm]
        unfold strayWindow
        cases hh : m.home with
        | none => rfl
        | some r =>
          have hr : ∀ x ∈ [t], x.ref ≠ r := fun x hx e => hm (by rw [hh, ← e, List.mem_singleton.1 hx])
          simp only [team?_append_ne (seat_teams s t) hr]
    rw [seat_maps, List.filter_map, List.map_map]
    have hkeep : ∀ m : MapEntry, MapEntry.len (if m.home = some t.ref then { m with home := none } else m) = m.len := by
      intro m; split <;> rfl
    have hpred : (fun m : MapEntry => m.die = die && m.core = core && strayWindow (seat s t) m) ∘
        (fun m => if m.home = some t.ref then { m with home := none } else m) =
        fun m : MapEntry => m.die = die && m.core = core && strayWindow s m := by
      funext m
      simp only [Function.comp, hstray]
      split <;> rfl
    rw [hpred]
    exact List.map_congr_left fun m _ => hkeep m

/-! ### The members of a cluster, one after another -/

/-- What placement of the teams `ts` comes to. -/
structure Placed (s u : State) (ts : List Team) : Prop where
  teams : u.teams = s.teams ++ ts
  readyQ : u.readyQ = s.readyQ ++ ts.map (·.ref)
  hub : u.hub = s.hub
  mem : u.mem = s.mem
  sectors : u.sectors = s.sectors
  ops : s.former = [] → u.ops = (ts.foldl (fun s t => s.forgetObserver t.ref) s).ops

/-- What is forgotten depends on the operations alone. -/
theorem forgetObserver_ops {a b : State} (h : a.ops = b.ops) (r : TeamRef) :
    (a.forgetObserver r).ops = (b.forgetObserver r).ops := by
  simp only [State.forgetObserver, h]

theorem foldl_forgetObserver_ops {ts : List Team} {a b : State} (h : a.ops = b.ops) :
    (ts.foldl (fun s t => s.forgetObserver t.ref) a).ops = (ts.foldl (fun s t => s.forgetObserver t.ref) b).ops := by
  induction ts generalizing a b with
  | nil => exact h
  | cons t ts ih => exact ih (forgetObserver_ops h t.ref)

theorem Placed.cons {ts : List Team} (hfree : s.team? t.ref = none) (hready : t.slot = .ready)
    (h : Placed (occupy s t) u ts) : Placed s u (t :: ts) := by
  have ho := occupy_eq hfree hready
  refine ⟨?_, ?_, ?_, ?_, ?_, fun hf => ?_⟩
  · rw [h.teams, ho, show _ = (seat s t).teams ++ ts from rfl, seat_teams, List.append_assoc]
    rfl
  · rw [h.readyQ, ho, List.append_assoc]
    rfl
  · rw [h.hub, ho]; exact seat_hub s t
  · rw [h.mem, ho]; exact seat_mem s t
  · rw [h.sectors, ho]; exact seat_sectors s t
  · obtain ⟨hformer, hops⟩ := seat_ops t hf
    rw [h.ops (by rw [ho]; exact hformer), List.foldl_cons]
    refine foldl_forgetObserver_ops ?_
    rw [ho]
    exact hops

/-- Members go to distinct cores that have room for one each, each into the lowest free slot there. -/
theorem placeMembers_placed {r : LaunchRec} {mk : TeamRef → Nat → Team} {slot : Nat → Nat}
    (href : ∀ ref n, (mk ref n).ref = ref) (hready : ∀ ref n, (mk ref n).slot = .ready) (cs : List (Nat × Nat)) (s : State)
    (hnodup : (cs.map Prod.fst).Nodup)
    (hroom : ∀ p ∈ cs, CoreRoom s die p.1 r ∧ freeSlot s die p.1 = some (slot p.1)) :
    ∃ u, placeMembers die r mk s cs = some u ∧
      Placed s u (cs.map (fun p => mk { die := die, core := p.1, slot := slot p.1 } p.2)) := by
  induction cs generalizing s with
  | nil => exact ⟨s, placeMembers_nil .., by simp, by simp, rfl, rfl, rfl, fun _ => rfl⟩
  | cons p cs ih =>
    obtain ⟨core, n⟩ := p
    rw [List.map_cons, List.nodup_cons] at hnodup
    obtain ⟨hcore, hslot⟩ := hroom (core, n) List.mem_cons_self
    have hfits := hcore.coreFits (le_refl _)
    have hfree := team?_of_freeSlot hslot
    generalize ht : mk { die := die, core := core, slot := slot core } n = t
    have htref : t.ref = { die := die, core := core, slot := slot core } := by rw [← ht, href]
    have htready : t.slot = .ready := by rw [← ht, hready]
    rw [← htref] at hfree
    have hrest : ∀ q ∈ cs, CoreRoom (occupy s t) die q.1 r ∧ freeSlot (occupy s t) die q.1 = some (slot q.1) := by
      intro q hq
      have hne : ¬ (t.ref.die = die ∧ t.ref.core = q.1) := by
        rintro ⟨-, hc⟩
        rw [htref] at hc
        exact hnodup.1 (List.mem_map.2 ⟨q, hq, hc.symm⟩)
      have hsame : SameCore die q.1 s (occupy s t) := by
        have := sameCore_seat hfree hne
        rw [occupy_eq hfree htready]
        exact ⟨this.residents, this.slots, this.stray⟩
      obtain ⟨hc, hs⟩ := hroom q (List.mem_cons_of_mem _ hq)
      exact ⟨hsame.coreRoom hc, hsame.freeSlot.trans hs⟩
    obtain ⟨u, hu, hplaced⟩ := ih (occupy s t) hnodup.2 hrest
    refine ⟨u, ?_, ?_⟩
    · rw [placeMembers_cons, makeRoom_of_fits hfits, hslot]
      simp only [hfits, if_true, ht]
      exact hu
    · rw [List.map_cons, ht]
      exact hplaced.cons hfree htready

/-! ### The state a team starts in (R15 to R18, R137) -/

/-- Scalar registers set from consecutive words: each numbered one holds its word, and nothing else of the context has changed. -/
theorem foldl_setSN (ws : List Word) (k : Nat) (c : Ctx) (hk : k + ws.length < 64) :
    (∃ x, (ws.zipIdx k).foldl (fun (c : Ctx) p => c.setSN (p.2 + 1) p.1) c = { c with s := x }) ∧
    ∀ n : Fin 64, n ≠ 0 → ((ws.zipIdx k).foldl (fun (c : Ctx) p => c.setSN (p.2 + 1) p.1) c).getS n =
      if k < n.val ∧ n.val ≤ k + ws.length then ws.getD (n.val - 1 - k) 0 else c.getS n := by
  induction ws generalizing k c with
  | nil => exact ⟨⟨c.s, rfl⟩, fun n _ => (if_neg (by rw [List.length_nil]; omega)).symm⟩
  | cons w ws ih =>
    rw [List.length_cons] at hk
    obtain ⟨⟨x, hx⟩, hget⟩ := ih (k + 1) (c.setSN (k + 1) w) (by omega)
    rw [List.zipIdx_cons, List.foldl_cons]
    have hd : (Fin.ofNat 64 (k + 1)).val = k + 1 := Nat.mod_eq_of_lt (by omega)
    have hd0 : Fin.ofNat 64 (k + 1) ≠ 0 := fun e => by
      rw [e] at hd
      exact absurd hd (Nat.succ_ne_zero k).symm
    refine ⟨⟨x, hx.trans ?_⟩, fun n hn => (hget n hn).trans ?_⟩
    · rw [Ctx.setSN, Ctx.setS_of_ne _ _ _ hd0]
    · rw [List.length_cons]
      by_cases hkn : n.val = k + 1
      · have hnd : n = Fin.ofNat 64 (k + 1) := Fin.ext (hkn.trans hd.symm)
        rw [if_neg (by omega), if_pos (by omega), hnd, Ctx.setSN, Ctx.getS_setS_self _ _ _ hd0, hd]
        simp
      · have hnd : n ≠ Fin.ofNat 64 (k + 1) := fun e => hkn (by rw [e, hd])
        rw [Ctx.setSN, Ctx.getS_setS_ne _ _ _ _ hnd]
        by_cases hin : k + 1 < n.val ∧ n.val ≤ k + 1 + ws.length
        · rw [if_pos hin, if_pos (by omega), show n.val - 1 - k = n.val - 1 - (k + 1) + 1 by omega, List.getD_cons_succ]
        · rw [if_neg hin, if_neg (by omega)]

/-- A context of a placed team: at its entry, with the arguments from s1 on, STASH in s63 and zeros else (R137). -/
structure Started (l : Launch) (pc : Word) (c : Ctx) : Prop where
  pc_eq : c.pc = pc
  rgnpc_eq : c.rgnpc = c.pc
  isc_eq : c.isc = 0
  rgncnt_eq : c.rgncnt = 0
  run_eq : c.run = .running
  windows_eq : c.windows = []
  getS_eq : ∀ n : Fin 64, c.getS n =
    if n = 63 then BitVec.ofNat 64 l.lrec.stash else if n = 0 then 0 else l.args.getD (n.val - 1) 0

theorem startCtx_started (l : Launch) (pc : Word) (hargs : l.args.length ≤ 32) : Started l pc (startCtx l pc) := by
  obtain ⟨⟨x, hx⟩, hget⟩ := foldl_setSN l.args 0 Ctx.fresh (by omega)
  have h63 : ∀ c : Ctx, c.setSN 63 (BitVec.ofNat 64 l.lrec.stash) = c.setS 63 (BitVec.ofNat 64 l.lrec.stash) := fun _ => rfl
  have hstart : ∀ n : Fin 64, (startCtx l pc).getS n =
      ((l.args.zipIdx.foldl (fun (c : Ctx) p => c.setSN (p.2 + 1) p.1) Ctx.fresh).setS 63 (BitVec.ofNat 64 l.lrec.stash)).getS n :=
    fun _ => rfl
  have hfields : startCtx l pc = { Ctx.fresh with s := (startCtx l pc).s, pc := pc, rgnpc := pc } := by
    rw [startCtx]
    simp only [hx, h63, Ctx.setS_of_ne _ 63 _ (by decide : (63 : Fin 64) ≠ 0)]
  refine ⟨rfl, rfl, by rw [hfields]; rfl, by rw [hfields]; rfl, by rw [hfields]; rfl, by rw [hfields]; rfl, fun n => ?_⟩
  rw [hstart]
  by_cases hn : n = 63
  · rw [hn, Ctx.getS_setS_self _ _ _ (by decide), if_pos rfl]
  · rw [Ctx.getS_setS_ne _ _ _ _ hn, if_neg hn]
    by_cases h0 : n = 0
    · rw [h0, Ctx.getS_zero, if_pos rfl]
    · rw [hget n h0, if_neg h0]
      have hpos : 0 < n.val := Nat.pos_of_ne_zero fun e => h0 (Fin.ext e)
      split
      · rfl
      next hout =>
        rw [List.getD_eq_default _ _ (by omega)]
        simp [Ctx.getS, Ctx.fresh]

/-! ### The placement of a cluster (R34, R140) -/

section
variable {l : Launch} {launch cluster col row : Nat} {cores : List Nat}

/-- The members of a cluster in rank order, each on its core. -/
def clusterTeams (l : Launch) (cluster die : Nat) (slot : Nat → Nat) (cores : List Nat) : List Team :=
  cores.zipIdx.map (fun p => startTeam l { die := die, core := p.1, slot := slot p.1 } (cluster * l.lrec.c + p.2))

theorem clusterTeams_refs (l : Launch) (cluster die : Nat) (slot : Nat → Nat) (cores : List Nat) :
    (clusterTeams l cluster die slot cores).map (·.ref) =
      cores.map (fun core => { die := die, core := core, slot := slot core }) := by
  rw [clusterTeams, List.map_map]
  conv_rhs => rw [← List.zipIdx_map_fst 0 cores, List.map_map]
  rfl

theorem launch?_sid {launch : Nat} (h : s.launch? launch = some l) : l.sid = launch := by simpa using List.find?_some h

/-- A change of launches that keeps their numbers is seen in the launch of each number. -/
theorem find?_map_launch {f : Launch → Launch} (hf : ∀ x, (f x).sid = x.sid) (ls : List Launch) (sid : Nat) :
    (ls.map f).find? (fun x => x.sid = sid) = (ls.find? (fun x => x.sid = sid)).map f := by
  rw [List.find?_map]
  congr 2
  funext x
  simp only [Function.comp, hf]

theorem launch?_putLaunch {launch : Nat} {k : Launch} (h : s.launch? launch = some l) (hk : k.sid = launch) :
    (s.putLaunch k).launch? launch = some k := by
  rw [State.launch?, State.putLaunch]
  refine (find?_map_launch (fun x => ?_) _ _).trans ?_
  · split
    next hx => exact hx.symm
    next => rfl
  · rw [State.launch?] at h
    rw [h, Option.map_some, if_pos (by rw [launch?_sid h, hk])]

theorem launch?_releaseHeld {launch : Nat} (h : s.launch? launch = some l) (sid die : Nat) :
    (s.releaseHeld sid die).launch? launch =
      some { l with held := l.held.filter (fun h => !(h.1 == die && h.2 == sid)) } := by
  rw [State.launch?, State.releaseHeld]
  refine (find?_map_launch (fun x => ?_) _ _).trans ?_
  · rfl
  · rw [State.launch?] at h
    rw [h, Option.map_some]

theorem not_mem_held_releaseHeld {sid : Nat} : ∀ x ∈ (s.releaseHeld sid die).hub.launches, (die, sid) ∉ x.held := by
  intro x hx hmem
  simp only [State.releaseHeld, List.mem_map] at hx
  obtain ⟨k, -, rfl⟩ := hx
  simpa using (List.mem_filter.1 hmem).2

/-- With the tests passed, a placement seats the members of the cluster and sees to its launch. -/
theorem execTeamPlacement_placed (hl : s.launch? launch = some l) (hrun : l.st = .running) (hcl : cluster ∈ l.unplaced)
    (hdie : l.lrec.dieOf cluster = some die) (hstart : mayStart s l = true) (hheld : heldBack s l die = false)
    (hserves : dieServes s die = true)
    (hrect : rectangle (s.die die) (l.coreSet die) l.lrec.cw l.lrec.ch col row = some cores) (hnodup : cores.Nodup)
    {slot : Nat → Nat} (hroom : ∀ core ∈ cores, CoreRoom s die core l.lrec ∧ freeSlot s die core = some (slot core)) :
    ∃ u, Placed s u (clusterTeams l cluster die slot cores) ∧ execTeamPlacement launch cluster col row s =
      .next ((u.putLaunch { l.watched s with unplaced := l.unplaced.filter (· ≠ cluster) }).releaseHeld launch die) := by
  have hfirst : (cores.zipIdx.map (fun p => (p.1, cluster * l.lrec.c + p.2))).map Prod.fst = cores := by
    rw [List.map_map]
    exact List.zipIdx_map_fst 0 cores
  obtain ⟨u, hu, hplaced⟩ := placeMembers_placed (die := die) (r := l.lrec) (mk := fun r t => startTeam l r t) (slot := slot)
    (fun _ _ => rfl) (fun _ _ => rfl) (cores.zipIdx.map (fun p => (p.1, cluster * l.lrec.c + p.2))) s
    (by rw [hfirst]; exact hnodup) (fun p hp => hroom _ (hfirst ▸ List.mem_map_of_mem hp))
  refine ⟨u, by rw [List.map_map] at hplaced; exact hplaced, ?_⟩
  have htests : (decide (l.st ≠ .running) || !l.unplaced.contains cluster || !mayStart s l || heldBack s l die ||
      !dieServes s die) = false := by
    simp [hrun, hcl, hstart, hheld, hserves]
  have hfit : (!cores.all (fun c => coreCanFit s die c l.lrec)) = false := by
    simpa using fun core hcore => (hroom core hcore).1.coreCanFit
  have hlaunch : u.launch? launch = some l := by rw [State.launch?, hplaced.hub]; exact hl
  simp only [execTeamPlacement, hl, hdie, htests, hrect, hfit, hu, hlaunch, Bool.false_eq_true, if_false]

/-- The team of each rank stands in the slot found on the core of that rank. -/
theorem team?_of_placed {slot : Nat → Nat} (h : Placed s u (clusterTeams l cluster die slot cores)) (hnodup : cores.Nodup)
    (hfree : ∀ core ∈ cores, s.team? { die := die, core := core, slot := slot core } = none) {rank : Nat}
    (hrank : rank < cores.length) :
    (clusterTeams l cluster die slot cores)[rank]? =
      some (startTeam l { die := die, core := cores[rank], slot := slot cores[rank] } (cluster * l.lrec.c + rank)) ∧
    u.team? { die := die, core := cores[rank], slot := slot cores[rank] } =
      some (startTeam l { die := die, core := cores[rank], slot := slot cores[rank] } (cluster * l.lrec.c + rank)) := by
  have hget : (clusterTeams l cluster die slot cores)[rank]? =
      some (startTeam l { die := die, core := cores[rank], slot := slot cores[rank] } (cluster * l.lrec.c + rank)) := by
    simp [clusterTeams, hrank]
  refine ⟨hget, ?_⟩
  rw [team?_append h.teams (hfree _ (List.getElem_mem hrank))]
  have hrefs : ((clusterTeams l cluster die slot cores).map (·.ref)).Nodup := by
    rw [clusterTeams_refs]
    exact hnodup.map fun a b hab => (TeamRef.mk.inj hab).2.1
  exact find?_of_refs_nodup hrefs hget

end

end

/-- Settles O42: a placement seats the members one by one (`placeMembers_placed`) in the state of R137 (`startCtx_started`), and each
event of a slot has its rule. -/
theorem placementAndSlots : Obligations.PlacementAndSlots := by
  unfold Obligations.PlacementAndSlots
  refine ⟨?placement, ?slots⟩
  case placement =>
    intro s launch cluster col row die cores l hl hrun hcl hdie hstart hheld hserves hrect hnodup there total stray hneeds hargs slot ref
      hslot started
    have hroom : ∀ core ∈ cores, CoreRoom s die core l.lrec ∧ freeSlot s die core = some (slot core) := by
      intro core hcore
      obtain ⟨-, hvrf, hstash, hnacc, hm, ha⟩ := hneeds core hcore
      obtain ⟨hlt, hfree, hlow⟩ := hslot core hcore
      have hfirst := freeSlot_eq hlt hfree hlow
      exact ⟨⟨by rw [hfirst]; rfl, hvrf, hstash, hnacc, hm, ha⟩, hfirst⟩
    obtain ⟨u, hplaced, hexec⟩ := execTeamPlacement_placed hl hrun hcl hdie hstart hheld hserves hrect hnodup hroom
    have hlaunch : u.launch? launch = some l := by rw [State.launch?, hplaced.hub]; exact hl
    have hsid := launch?_sid hl
    have hput := launch?_putLaunch (k := { l.watched s with unplaced := l.unplaced.filter (· ≠ cluster) }) hlaunch hsid
    refine ⟨_, clusterTeams l cluster die slot cores, _, hexec, launch?_releaseHeld hput launch die, by simp [clusterTeams],
      hplaced.teams, ?_, fun rank hrank => ?_, rfl, not_mem_held_releaseHeld, hplaced.mem, hplaced.sectors, fun hf => ?_⟩
    · rw [← clusterTeams_refs]
      exact hplaced.readyQ
    · obtain ⟨hget, hteam⟩ := team?_of_placed hplaced hnodup (fun core hcore => (hslot core hcore).2.1) hrank
      have hstarted : ∀ off, started (startCtx l (l.lrec.kdesc + BitVec.ofNat 64 off)) off := fun off => by
        obtain ⟨hpc, hrgn, hisc, hcnt, hr, hw, hs⟩ := startCtx_started l (l.lrec.kdesc + BitVec.ofNat 64 off) hargs
        exact ⟨hpc, hrgn, hisc, hcnt, hr, hw, hs⟩
      refine ⟨_, hget, hteam, rfl, rfl, hsid, rfl, rfl, rfl, rfl, ?_, fun n hn => ?_, rfl, rfl, hstarted _,
        fun hm => ⟨_, ?_, hstarted _⟩, fun hm => ?_, fun ha => ⟨_, ?_, hstarted _⟩, fun ha => ?_⟩
      · simp [startTeam]
      · have hn0 : (0 : Fin 16).val ≠ n.val := fun e => hn (Fin.ext e.symm)
        exact (Vector.getElem_set_ne (by decide) n.isLt hn0).trans (Vector.getElem_replicate n.isLt)
      · simp [startTeam, hm]
      · simp [startTeam, hm]
      · simp [startTeam, ha]
      · simp [startTeam, ha]
    · refine (hplaced.ops hf).trans ?_
      rw [← List.foldl_map (f := Team.ref) (g := State.forgetObserver), clusterTeams_refs, List.foldl_map]
  case slots =>
    intro s die core slot t ht r readied active come
    have href := ref_of_team? ht
    have hactive : s.activeCount die core = active := activeCount_eq s die core
    refine ⟨?wakes, ?waits, fun hq => ⟨fun hlt => ?_, fun hle => ?_⟩, fun ha hq => ?_, fun ha hq => ?_,
      fun hd hctx hcbar harr => ?leaves⟩
    case wakes =>
      rintro (⟨p, n, hw, hn⟩ | ⟨op, hw, hn⟩ | ⟨q, hw, hn⟩ | ⟨e, hw, hn⟩ | ⟨b, off, p, hw, hn⟩ | ⟨hw, hn⟩) <;>
        refine execTeamWake_over ht hw ?_
      · simpa only [waitOver, href, decide_eq_true_eq] using hn
      · exact hn
      · simp [waitOver, hn]
      · simpa only [waitOver, href, decide_eq_true_eq] using hn
      · exact hn
      · exact hn
    case waits =>
      intro p n hw hn
      exact execTeamWake_waits ht hw (by simpa only [waitOver, href, decide_eq_false_iff_not, Nat.not_le] using hn)
    case leaves =>
      have hleave : mayLeave s t = countersZero s r :=
        (mayLeave_eq_countersZero hd hctx hcbar (href ▸ harr)).trans (by rw [href])
      refine ⟨fun hops => ?_, fun ⟨o, ho, hown, hpath⟩ => execDrainingExit_stays ht ?_⟩
      · obtain ⟨u, hu, hteams, hmem, hsec, hmaps, hready⟩ :=
          execDrainingExit_leaves ht (hleave.trans ((countersZero_iff s r).2 hops))
        have hfind : ∀ x, u.team? x = if x = r then none else s.team? x := fun x => by
          rw [State.team?, hteams, href]
          exact find?_removed s.teams r x
        exact ⟨u, hu, (hfind r).trans (if_pos rfl), fun x hx => (hfind x).trans (if_neg hx), hmem, hsec, hmaps, hready⟩
      · rw [hleave]
        exact Bool.eq_false_iff.2 fun h => hpath ((countersZero_iff s r).1 h o ho hown)
    · rw [exec_activeEntry, execActiveEntry_head ht hq, hactive, if_pos hlt]
    · rw [exec_activeEntry, execActiveEntry_head ht hq, hactive, if_neg (Nat.not_lt.2 hle)]
    · rw [exec_rotation, execRotation_active ht ha, if_pos (by simpa using hq)]
    · rw [exec_rotation, execRotation_active ht ha, if_neg (by simpa using hq)]

end Sys2Proof.Machine.Placement

/-! ## What an access leaves of the save pool and the mapping entries (O50)

Every step of a walk or a write-back at the homes keeps the saved teams, and keeps each mapping entry's place, number, launch and owner;
it may change the sectors of an entry (`shareAll`). -/

namespace Sys2Proof.Machine.Saves

-- one proof after another: side by side they take more threads than the check's memory limit has stacks for
set_option Elab.async false

/-- Which entry an entry is (R104), and whose: what `MapEntry.same` compares, and the team it is attached to. -/
def entryKey (m : MapEntry) : (Nat × Nat × BitVec 16 × Nat) × Option TeamRef := ((m.die, m.core, m.lv, m.n), m.owner)

/-- The save pool and the keys of the mapping entries. -/
def kept (s : State) : List SavedTeam × List ((Nat × Nat × BitVec 16 × Nat) × Option TeamRef) := (s.hub.saved, s.maps.map entryKey)

/-- Both outcomes of an access keep them. -/
def BothKeep (s : State) : Except State State → Prop
  | .ok u | .error u => kept u = kept s

section
variable (s : State)

theorem kept_foldl {α : Type} {f : State → α → State} (hf : ∀ s x, kept (f s x) = kept s) (l : List α) :
    kept (l.foldl f s) = kept s :=
  List.foldlRecOn (motive := fun u => kept u = kept s) l f rfl fun u hu x _ => (hf u x).trans hu

theorem kept_foldl_fst {α β : Type} {f : State × β → α → State × β} (hf : ∀ a x, kept (f a x).1 = kept a.1) (l : List α)
    (a : State × β) : kept (l.foldl f a).1 = kept a.1 :=
  List.foldlRecOn (motive := fun u => kept u.1 = kept a.1) l f rfl fun u hu x _ => (hf u x).trans hu

/-! ### The state's own operations -/

@[simp] theorem kept_setRec (r : SectorRec) : kept (s.setRec r) = kept s := rfl
@[simp] theorem kept_setFunc (f : Nat) (r : FuncRegs) : kept (s.setFunc f r) = kept s := rfl
@[simp] theorem kept_hostPut (a : Nat) (bs : List Byte) : kept (s.hostPut a bs) = kept s := rfl
@[simp] theorem kept_putLaunch (l : Launch) : kept (s.putLaunch l) = kept s := rfl
@[simp] theorem kept_zeroise : kept s.zeroise = kept s := rfl
@[simp] theorem kept_stopAll : kept s.stopAll = kept s := rfl
@[simp] theorem kept_putOp (o : Op) : kept (s.putOp o) = kept s := rfl
@[simp] theorem kept_finishOp (id : Nat) : kept (s.finishOp id) = kept s := rfl
@[simp] theorem kept_bumpTag (line : Nat) : kept (s.bumpTag line) = kept s := rfl
@[simp] theorem kept_dropCopies (x : Nat) (p : Copy → Bool) : kept (s.dropCopies x p) = kept s := rfl
@[simp] theorem kept_cleanProxy (die : Nat) (xs : List Nat) : kept (s.cleanProxy die xs) = kept s := rfl
@[simp] theorem kept_showEntry (e : ExactEntry) : kept (s.showEntry e) = kept s := rfl
@[simp] theorem kept_putRaw (pa : Nat) (bs : List Byte) : kept (s.putRaw pa bs) = kept s := rfl

theorem kept_setMem (m : Memory) : kept { s with mem := m } = kept s := rfl

@[simp] theorem kept_shareAll (x : Nat) : kept (s.shareAll x) = kept s := by
  simp [kept, State.shareAll, entryKey, Function.comp_def]

/-! ### Aborts and alarms -/

@[simp] theorem kept_ringPut (r : ParkRec) : kept (s.ringPut r) = kept s := by
  grind [State.ringPut, kept, kept_hostPut, kept_setFunc]

@[simp] theorem kept_raiseRecord (r : ParkRec) : kept (s.raiseRecord r) = kept s := by
  grind [State.raiseRecord, kept, kept_setFunc, kept_ringPut]

@[simp] theorem kept_reportAlarms : kept s.reportAlarms = kept s := by
  unfold State.reportAlarms
  split_ifs
  · rfl
  · exact kept_foldl s kept_raiseRecord _

@[simp] theorem kept_raiseAlarm (source : Nat) : kept (s.raiseAlarm source) = kept s := by
  grind [State.raiseAlarm, kept, kept_raiseRecord, kept_stopAll, kept_reportAlarms, kept_zeroise]

@[simp] theorem kept_requestAbort (sid status : Nat) : kept (s.requestAbort sid status) = kept s := by
  grind [State.requestAbort, kept, kept_putLaunch]

@[simp] theorem kept_deny (code : FaultCode) (sid : Nat) (lost : Option Nat) : kept (s.deny code sid lost) = kept s := by
  grind [State.deny, kept_requestAbort, kept_raiseAlarm]

/-! ### Sectors and copies at their homes -/

@[simp] theorem kept_settle (x : Nat) : kept (s.settle x) = kept s := by
  unfold State.settle
  dsimp only
  split
  · rw [kept_setRec, kept_setMem]
  · rfl

@[simp] theorem kept_cisternEvict (x : Nat) : kept (s.cisternEvict x) = kept s := by
  grind [State.cisternEvict, kept_requestAbort, kept_setRec]

@[simp] theorem kept_sliceRoom (die x : Nat) : kept (s.sliceRoom die x) = kept s := by
  grind [State.sliceRoom, kept_dropCopies, kept_cisternEvict]

@[simp] theorem kept_makeTentative (lv : BitVec 16) (x : Nat) : kept (s.makeTentative lv x) = kept s := by
  grind [State.makeTentative, kept_sliceRoom, kept_settle, kept_setRec]

@[simp] theorem kept_showCells (x : Nat) : kept (s.showCells x) = kept s := by
  grind [State.showCells, kept_showEntry]

@[simp] theorem kept_putHome (pa : Nat) (bs : List Byte) : kept (s.putHome pa bs) = kept s := by
  rw [State.putHome, kept_showCells, kept_putRaw]

@[simp] theorem kept_putCells (cs : List Host.Cell) : kept (s.putCells cs) = kept s :=
  (kept_foldl _ kept_showCells _).trans (kept_foldl s (fun s (c : Host.Cell) => kept_putRaw s c.1 [c.2]) cs)

@[simp] theorem kept_addCopy (c : Copy) : kept (s.addCopy c) = kept s := by
  grind [State.addCopy, kept, kept_dropCopies, kept_sliceRoom]

@[simp] theorem kept_addProxy (die x : Nat) (st : CState) : kept (s.addProxy die x st) = kept s := by
  grind [State.addProxy, kept_addCopy]

@[simp] theorem kept_addCore (die core x : Nat) (st : CState) (fetch : Bool) : kept (s.addCore die core x st fetch) = kept s := by
  rw [State.addCore, kept_addProxy, kept_addCopy]

/-! ### Contributions that merge (R93) -/

@[simp] theorem kept_foldEntry (e : ExactEntry) : kept (s.foldEntry e) = kept s := by
  grind [State.foldEntry, kept, kept_putLaunch, kept_setRec]

@[simp] theorem kept_exactRoom (x : Nat) : kept (s.exactRoom x) = kept s := by
  grind [State.exactRoom, kept_foldEntry]

@[simp] theorem kept_exactEntry (lv : BitVec 16) (x ty va rnd : Nat) (seed : Word) :
    kept (s.exactEntry lv x ty va rnd seed) = kept s := by
  grind [State.exactEntry, kept, kept_exactRoom]

@[simp] theorem kept_mergeExact (lv : BitVec 16) (va pa ty rnd : Nat) (seed : Word) (x : Nat) :
    kept (s.mergeExact lv va pa ty rnd seed x) = kept s := by
  grind [State.mergeExact, kept, kept_showEntry, kept_exactEntry]

@[simp] theorem kept_applyRed (lv : BitVec 16) (sub ty rnd : Nat) (seed : Word) (va pa : Nat) (x : Word) :
    kept (s.applyRed lv sub ty rnd seed va pa x) = kept s := by
  grind [State.applyRed, kept_mergeExact, kept_putHome]

theorem bothKeep_admitWrite (l : Launch) (x : Nat) : BothKeep s (s.admitWrite l x) := by
  grind [State.admitWrite, BothKeep, State.abortYounger, kept_requestAbort]

theorem bothKeep_mergeLane (o : Op) (sub ty rnd : Nat) (seed : Word) (x : RedLane) :
    BothKeep s (s.mergeLane o sub ty rnd seed x) := by
  grind [State.mergeLane, BothKeep, kept_applyRed, bothKeep_admitWrite, kept_makeTentative]

@[simp] theorem kept_leaveReds (o : Op) (sub ty rnd : Nat) (seed : Word) (left : List RedLane) :
    kept (s.leaveReds o sub ty rnd seed left) = kept s := by
  grind [State.leaveReds, kept_putOp, kept_finishOp]

theorem kept_mergeOp (o : Op) (x : Nat) : kept (s.mergeOp o x).1 = kept s := by
  unfold State.mergeOp
  split
  · split_ifs
    · rfl
    · refine (kept_leaveReds ..).trans (kept_foldl_fst (fun a l => ?_) _ _)
      grind [BothKeep, bothKeep_mergeLane]
  · rfl

theorem kept_mergeU (die core x : Nat) : kept (s.mergeU die core x).1 = kept s := by
  unfold State.mergeU
  extract_lets place r
  have hr : kept r.1 = kept s := by
    refine kept_foldl_fst (fun a o => ?_) _ _
    exact kept_mergeOp a.1 o x
  grind [kept_addCore, kept_dropCopies, kept_bumpTag]

theorem bothKeep_gather (w : Who) (x : Nat) : BothKeep s (s.gather w x) := by
  unfold State.gather State.gatherIf
  extract_lets r
  have hr : kept r.1 = kept s := kept_foldl_fst (fun a k => by grind [kept_mergeU]) _ _
  split <;> exact hr

@[simp] theorem kept_gathered (xs : List Nat) : kept (s.gathered xs) = kept s := by
  refine kept_foldl s (fun s x => ?_) xs
  grind [BothKeep, bothKeep_gather]

/-! ### Walks and write-backs -/

@[simp] theorem kept_shareWalk (x : Nat) : kept (s.shareWalk x) = kept s := by
  grind [State.shareWalk, kept_gathered, kept_shareAll]

@[simp] theorem kept_noteRead (l : Launch) (x : Nat) : kept (s.noteRead l x) = kept s := by
  grind [State.noteRead, kept_putLaunch]

@[simp] theorem kept_noteWalk (l : Launch) (die : Nat) (core : Option Nat) (vas : List Nat) :
    kept (s.noteWalk l die core vas) = kept s := by
  unfold State.noteWalk
  extract_lets secs caches new s1 s2
  have h1 : kept s1 = kept s := kept_foldl s (fun s x => kept_foldl s (fun s i => kept_shareWalk s (4 * x + i)) _) _
  have h2 : kept s2 = kept s := (kept_foldl _ (fun s x => kept_noteRead s l x) _).trans h1
  split
  · rw [kept_requestAbort, h2]
  · exact h2

@[simp] theorem kept_writeBack (m : MapEntry) (x : WinSector) : kept (s.writeBack m x) = kept s := by
  have tentative : ∀ (s : State) (gs : List Nat), kept (gs.foldl (fun s g => s.makeTentative m.lv g) s) = kept s :=
    fun s gs => kept_foldl s (fun s g => kept_makeTentative s m.lv g) gs
  unfold State.writeBack
  grind [kept_noteWalk, kept_deny, kept_requestAbort, kept_putCells, kept_cleanProxy]

@[simp] theorem kept_writeBackAll (m : MapEntry) : kept (writeBackAll s m) = kept s :=
  kept_foldl s (fun s x => kept_writeBack s m x) _

end

end Sys2Proof.Machine.Saves

/-! ## Dirty bytes written back at their homes (O50, R107) -/

namespace Sys2Proof.Machine.Homes

-- one proof after another: side by side they take more threads than the check's memory limit has stacks for
set_option Elab.async false

section
variable {s u : State} {A : Nat → Prop}

/-! ### Sector records -/

theorem sectorRec_sector (s : State) (x : Nat) : (s.sectorRec x).sector = x := by
  unfold State.sectorRec
  split
  next h => simpa using List.find?_some h
  next => rfl

/-- A record set is read at its sector alone, whether or not it is listed. -/
theorem sectorRec_setRec (s : State) (r : SectorRec) (x : Nat) :
    (s.setRec r).sectorRec x = if x = r.sector then r else s.sectorRec x := by
  have hrest : ∀ y, y ≠ r.sector →
      (s.sectors.filter (fun x => x.sector ≠ r.sector)).find? (fun x => x.sector = y) = s.sectors.find? (fun x => x.sector = y) := by
    intro y hy
    rw [List.find?_filter]
    congr 1
    funext z
    by_cases hz : z.sector = y
    · simp [hz, hy]
    · simp [hz]
  have hself : (s.sectors.filter (fun x => x.sector ≠ r.sector)).find? (fun x => x.sector = r.sector) = none :=
    List.find?_eq_none.2 fun z hz => by simpa using (List.mem_filter.1 hz).2
  by_cases hx : x = r.sector
  · subst hx
    rw [if_pos rfl]
    by_cases hr : r = SectorRec.reset r.sector
    · simp only [State.sectorRec, State.setRec, if_pos hr, hself]
      exact hr.symm
    · simp only [State.sectorRec, State.setRec, if_neg hr, List.find?_append, hself, Option.none_or]
      simp
  · rw [if_neg hx]
    have hne : ¬ r.sector = x := fun e => hx e.symm
    by_cases hr : r = SectorRec.reset r.sector
    · simp only [State.sectorRec, State.setRec, if_pos hr, hrest x hx]
    · simp only [State.sectorRec, State.setRec, if_neg hr, List.find?_append, hrest x hx]
      simp [hne]

/-! ### Tentative sectors -/

/-- The sectors that `A` names are tentative; every record's bytes are canonical, and no exact entry shows through (R79). -/
structure Tentative (A : Nat → Prop) (s : State) : Prop where
  exact : s.exact = []
  wf : ∀ x, (s.sectorRec x).tbytes.wf = true
  tent : ∀ x, A x → (s.sectorRec x).tent = true

theorem Tentative.congr (h : Tentative A s) (hs : u.sectors = s.sectors) (he : u.exact = s.exact) : Tentative A u where
  exact := he.trans h.exact
  wf x := by rw [State.sectorRec, hs]; exact h.wf x
  tent x hx := by rw [State.sectorRec, hs]; exact h.tent x hx

theorem Tentative.setMem (h : Tentative A s) (m : Memory) : Tentative A { s with mem := m } := h.congr rfl rfl

theorem tentative_of_wf (he : s.exact = []) (hw : ∀ r ∈ s.sectors, r.tbytes.wf = true) : Tentative (fun _ => False) s where
  exact := he
  wf x := by
    unfold State.sectorRec
    split
    next h => exact hw _ (List.mem_of_find?_eq_some h)
    next => rfl
  tent _ hx := hx.elim

theorem Tentative.setRec (h : Tentative A s) {r : SectorRec} (hw : r.tbytes.wf = true) (ht : A r.sector → r.tent = true) :
    Tentative A (s.setRec r) where
  exact := h.exact
  wf x := by
    rw [sectorRec_setRec]
    split
    · exact hw
    · exact h.wf x
  tent x hx := by
    rw [sectorRec_setRec]
    split
    next e => exact ht (e ▸ hx)
    next => exact h.tent x hx

/-- A record of the state changed in what makes it no less tentative. -/
theorem Tentative.setRec_of_eq (h : Tentative A s) {r : SectorRec} {x : Nat} (hx : r.sector = x)
    (hb : r.tbytes = (s.sectorRec x).tbytes) (ht : r.tent = (s.sectorRec x).tent) : Tentative A (s.setRec r) :=
  h.setRec (hb ▸ h.wf x) fun hA => ht ▸ h.tent x (hx ▸ hA)

theorem Tentative.requestAbort (h : Tentative A s) (sid status : Nat) : Tentative A (s.requestAbort sid status) := by
  unfold State.requestAbort
  split
  · exact h
  · split
    · exact h.congr rfl rfl
    · exact h.congr rfl rfl
    · exact h.congr rfl rfl
    · exact h

theorem Tentative.cisternEvict (h : Tentative A s) (x : Nat) : Tentative A (s.cisternEvict x) := by
  unfold State.cisternEvict
  dsimp only
  split
  · exact h
  split
  · exact h
  split_ifs
  · exact h.requestAbort ..
  · split
    · exact h.requestAbort ..
    · exact h
  · exact h.setRec_of_eq (sectorRec_sector s x) rfl rfl

theorem Tentative.sliceRoom (h : Tentative A s) (die x : Nat) : Tentative A (s.sliceRoom die x) := by
  unfold State.sliceRoom
  dsimp only
  split_ifs
  · exact h
  · exact h
  · split
    · exact h.congr rfl rfl
    · exact h.cisternEvict _
    · exact h

theorem Tentative.settle (h : Tentative A s) (x : Nat) : Tentative A (s.settle x) := by
  unfold State.settle
  dsimp only
  split
  · exact (h.setMem _).setRec (h.wf x) fun hA => h.tent x (sectorRec_sector s x ▸ hA)
  · exact h

/-- The sector made tentative joins those that are (R143). -/
theorem Tentative.makeTentative (h : Tentative A s) (lv : BitVec 16) (g : Nat) :
    Tentative (fun x => x = g ∨ A x) (s.makeTentative lv g) := by
  have hs := h.settle g
  have of_tent : ∀ {v : State}, Tentative A v → (v.sectorRec g).tent = true → Tentative (fun x => x = g ∨ A x) v := fun hv hg =>
    ⟨hv.exact, hv.wf, fun x hx => hx.elim (fun e => e ▸ hg) (hv.tent x)⟩
  unfold State.makeTentative
  dsimp only
  split_ifs with htent hcis
  · have hroom := Tentative.sliceRoom (of_tent hs htent) (dieOf (64 * g)) g
    exact hroom.setRec_of_eq (sectorRec_sector _ g) rfl rfl
  · exact of_tent hs htent
  · have hroom := hs.sliceRoom (dieOf (64 * g)) g
    have hnew : ∀ {v : State} {r : SectorRec}, Tentative A v → r.sector = g → r.tbytes.wf = true → r.tent = true →
        Tentative (fun x => x = g ∨ A x) (v.setRec r) := fun {v r} hv hr hw ht =>
      of_tent (hv.setRec hw fun _ => ht) (by rw [sectorRec_setRec, if_pos hr.symm, ht])
    refine hnew hroom (sectorRec_sector _ g) ?_ rfl
    dsimp only
    exact Memory.setN_wf (m := []) _ _ rfl

theorem Tentative.foldl_makeTentative (h : Tentative A s) (lv : BitVec 16) (gs : List Nat) :
    Tentative (fun x => x ∈ gs ∨ A x) (gs.foldl (fun s g => s.makeTentative lv g) s) := by
  induction gs generalizing s A with
  | nil => exact ⟨h.exact, h.wf, fun x hx => h.tent x (hx.resolve_left List.not_mem_nil)⟩
  | cons g gs ih =>
    obtain ⟨he, hw, ht⟩ := ih (h.makeTentative lv g)
    refine ⟨he, hw, fun x hx => ht x ?_⟩
    rw [List.mem_cons] at hx
    tauto

/-! ### Bytes written at their homes -/

theorem sectorRec_putRaw (h : s.exact = []) (a : Nat) (bs : List Byte) (x : Nat) :
    (s.putRaw a bs).exact = [] ∧ (s.putRaw a bs).sectorRec x =
      if x = a / 64 then { s.sectorRec (a / 64) with tbytes := (s.sectorRec (a / 64)).tbytes.setN a bs } else s.sectorRec x := by
  refine ⟨by simp [State.putRaw, h], ?_⟩
  refine (sectorRec_setRec s _ x).trans ?_
  simp only [sectorRec_sector]

theorem Tentative.putRaw (h : Tentative A s) (a : Nat) (bs : List Byte) : Tentative A (s.putRaw a bs) where
  exact := (sectorRec_putRaw h.exact a bs 0).1
  wf x := by
    rw [(sectorRec_putRaw h.exact a bs x).2]
    split
    · exact Memory.setN_wf _ _ (h.wf _)
    · exact h.wf x
  tent x hx := by
    rw [(sectorRec_putRaw h.exact a bs x).2]
    split
    next e => exact h.tent _ (e ▸ hx)
    next => exact h.tent x hx

theorem get_putRaw (h : Tentative A s) (a : Nat) (b : Byte) (pa : Nat) :
    ((s.putRaw a [b]).sectorRec (pa / 64)).tbytes.get pa = if pa = a then b else (s.sectorRec (pa / 64)).tbytes.get pa := by
  rw [(sectorRec_putRaw h.exact a [b] (pa / 64)).2]
  split
  next e =>
    rw [e]
    exact Memory.get_set a b pa (h.wf _)
  next e => rw [if_neg fun e' => e (by rw [e'])]

/-- Of cells at distinct addresses each byte is read back. -/
theorem get_foldl_putRaw (cs : List Host.Cell) (hn : (cs.map Prod.fst).Nodup) (h : Tentative A s) :
    Tentative A (cs.foldl (fun s c => s.putRaw c.1 [c.2]) s) ∧ ∀ pa,
      ((cs.foldl (fun s c => s.putRaw c.1 [c.2]) s).sectorRec (pa / 64)).tbytes.get pa =
        ((cs.find? (fun c => c.1 = pa)).map Prod.snd).getD ((s.sectorRec (pa / 64)).tbytes.get pa) := by
  induction cs generalizing s with
  | nil => exact ⟨h, fun _ => rfl⟩
  | cons c cs ih =>
    rw [List.map_cons, List.nodup_cons] at hn
    obtain ⟨ht, hget⟩ := ih hn.2 (h.putRaw c.1 [c.2])
    refine ⟨ht, fun pa => (hget pa).trans ?_⟩
    rw [get_putRaw h]
    by_cases hc : c.1 = pa
    · have hnone : cs.find? (fun c => c.1 = pa) = none :=
        List.find?_eq_none.2 fun d hd => by
          simpa using fun e : d.1 = pa => hn.1 (List.mem_map.2 ⟨d, hd, e.trans hc.symm⟩)
      simp [hnone, hc]
    · simp [hc, Ne.symm hc]

theorem showCells_of_nil (h : s.exact = []) (x : Nat) : s.showCells x = s := by
  rw [State.showCells, h]
  rfl

theorem foldl_showCells_of_nil (h : s.exact = []) (xs : List Nat) : xs.foldl State.showCells s = s := by
  induction xs with
  | nil => rfl
  | cons x xs ih => rw [List.foldl_cons, showCells_of_nil h, ih]

/-- A cell that one write brings is read back at its home. -/
theorem get_putCells {cs : List Host.Cell} (hn : (cs.map Prod.fst).Nodup) (h : Tentative A s) {pa : Nat} {b : Byte}
    (hc : (pa, b) ∈ cs) (hA : A (pa / 64)) :
    ((s.putCells cs).sectorRec (pa / 64)).tent = true ∧ ((s.putCells cs).sectorRec (pa / 64)).tbytes.get pa = b := by
  obtain ⟨ht, hget⟩ := get_foldl_putRaw cs hn h
  have hfind : cs.find? (fun c => c.1 = pa) = some (pa, b) := by
    obtain ⟨c, hf⟩ := Option.isSome_iff_exists.1 (List.find?_isSome.2 ⟨(pa, b), hc, by simp⟩ :
      (cs.find? (fun c => c.1 = pa)).isSome = true)
    have hpa : c.1 = pa := by simpa using List.find?_some hf
    rw [hf, List.inj_on_of_nodup_map hn (List.mem_of_find?_eq_some hf) hc hpa]
  rw [State.putCells, foldl_showCells_of_nil ht.exact]
  refine ⟨ht.tent _ hA, (hget pa).trans ?_⟩
  rw [hfind]
  rfl

/-! ### The write-back of a window sector (R107) -/

/-- The dirty bytes of a window sector, each at its home. -/
def dirtyCells (x : WinSector) : List Host.Cell :=
  (List.range 64).filterMap (fun i =>
    match x.pas[i]? with
    | some pa => if x.dirty.getLsbD i then some (pa, x.bytes.getD i 0) else none
    | none => none)

theorem mem_dirtyCells {x : WinSector} {c : Host.Cell} :
    c ∈ dirtyCells x ↔ ∃ i < 64, x.pas[i]? = some c.1 ∧ x.dirty.getLsbD i = true ∧ x.bytes.getD i 0 = c.2 := by
  simp only [dirtyCells, List.mem_filterMap, List.mem_range]
  refine exists_congr fun i => and_congr_right fun _ => ?_
  cases x.pas[i]? with
  | none => simp
  | some pa =>
    dsimp only
    split
    next h => simp [h, Prod.ext_iff]
    next h => simp [h]

theorem dirtyCells_nodup {x : WinSector} (h : x.pas.Nodup) : ((dirtyCells x).map Prod.fst).Nodup := by
  rw [dirtyCells, List.map_filterMap]
  refine List.nodup_range.filterMap fun i j p hi hj => ?_
  have hat : ∀ k, p ∈ Option.map Prod.fst (match x.pas[k]? with
      | some pa => if x.dirty.getLsbD k then some (pa, x.bytes.getD k 0) else none
      | none => none) → x.pas[k]? = some p := by
    intro k hk
    cases hp : x.pas[k]? with
    | none => simp [hp] at hk
    | some pa =>
      rw [hp] at hk
      dsimp only at hk
      split at hk
      · simpa using hk
      · simp at hk
  have hi' := hat i hi
  have hlt : i < x.pas.length := (List.getElem?_eq_some_iff.1 hi').1
  exact (List.getElem?_inj hlt h).1 (hi'.trans (hat j hj).symm)

/-- A dirty sector whose walk finds no fault and no lost home is written at its homes. -/
theorem writeBack_eq {m : MapEntry} {x : WinSector} {k : Launch} (hk : s.holder m.lv = some k) (hd : x.dirty ≠ 0)
    (hfault : backFault (s.noteWalk k m.die (some m.core) (m.dirtyVas x)) m x = none)
    (hhome : ∀ p ∈ x.pas, (s.noteWalk k m.die (some m.core) (m.dirtyVas x)).lostHome (p / 64) = none) :
    s.writeBack m x =
      (((((dirtyCells x).map (fun c => c.1 / 64)).dedup).foldl (fun s g => s.makeTentative m.lv g)
        (s.noteWalk k m.die (some m.core) (m.dirtyVas x))).putCells (dirtyCells x)).cleanProxy m.die
        (if x.owns then x.pas.map (· / 64) else []) := by
  have hlost : (((dirtyCells x).map (fun c => c.1 / 64)).dedup).findSome?
      (s.noteWalk k m.die (some m.core) (m.dirtyVas x)).lostHome = none := by
    refine List.findSome?_eq_none_iff.2 fun g hg => ?_
    obtain ⟨c, hc, rfl⟩ := List.mem_map.1 (List.mem_dedup.1 hg)
    obtain ⟨i, -, hi, -⟩ := mem_dirtyCells.1 hc
    exact hhome _ (List.mem_of_getElem? hi)
  simp only [State.writeBack, hk, if_neg hd, hfault]
  generalize hcs : (List.range 64).filterMap (_ : Nat → Option Host.Cell) = cs
  have hcells : cs = dirtyCells x := by
    rw [← hcs]
    refine List.filterMap_congr fun i _ => ?_
    cases x.pas[i]? <;> rfl
  simp only [hcells, hlost]

/-- A dirty byte written back is tentative data of its home. -/
theorem get_writeBack {m : MapEntry} {x : WinSector} {k : Launch} {i pa : Nat} (hk : s.holder m.lv = some k)
    (hi : x.dirty.getLsbD i = true) (hpa : x.pas[i]? = some pa) (hn : x.pas.Nodup)
    (hfault : backFault (s.noteWalk k m.die (some m.core) (m.dirtyVas x)) m x = none)
    (hhome : ∀ p ∈ x.pas, (s.noteWalk k m.die (some m.core) (m.dirtyVas x)).lostHome (p / 64) = none)
    (hexact : (s.noteWalk k m.die (some m.core) (m.dirtyVas x)).exact = [])
    (hwf : ∀ r ∈ (s.noteWalk k m.die (some m.core) (m.dirtyVas x)).sectors, r.tbytes.wf = true) :
    ((s.writeBack m x).sectorRec (pa / 64)).tent = true ∧
      ((s.writeBack m x).sectorRec (pa / 64)).tbytes.get pa = x.bytes.getD i 0 := by
  have hlt : i < 64 := by
    by_contra h
    rw [BitVec.getLsbD_of_ge _ _ (Nat.le_of_not_lt h)] at hi
    exact absurd hi (by decide)
  have hd : x.dirty ≠ 0 := fun e => by simp [e] at hi
  have hc : (pa, x.bytes.getD i 0) ∈ dirtyCells x := mem_dirtyCells.2 ⟨i, hlt, hpa, hi, rfl⟩
  have ht := (tentative_of_wf hexact hwf).foldl_makeTentative m.lv ((dirtyCells x).map (fun c => c.1 / 64)).dedup
  rw [writeBack_eq hk hd hfault hhome]
  exact get_putCells (dirtyCells_nodup hn) ht hc (.inl (List.mem_dedup.2 (List.mem_map_of_mem hc)))

end

end Sys2Proof.Machine.Homes

/-! ## Saved and flushed teams (O50, R305 to R307) -/

namespace Sys2Proof.Machine.Saves

open Sys2Proof.Machine.Slots Sys2Proof.Machine.Placement Sys2Proof.Machine.Homes

-- one proof after another: side by side they take more threads than the check's memory limit has stacks for
set_option Elab.async false

section
variable {s : State} {t : Team} {die core slot : Nat}

/-! ### Windows freed (R107) -/

theorem same_iff (a b : MapEntry) : a.same b = true ↔ (entryKey a).1 = (entryKey b).1 := by
  simp [MapEntry.same, entryKey, and_assoc]

theorem freeMap_maps (s : State) (m : MapEntry) : (freeMap s m).maps = s.maps.filter (fun x => !x.same m) := rfl

theorem bareWindow_hub (s : State) (m : MapEntry) : (bareWindow s m).hub = s.hub := by
  unfold bareWindow
  split <;> rfl

theorem bareWindow_sectors (s : State) (m : MapEntry) : (bareWindow s m).sectors = s.sectors := by
  unfold bareWindow
  split <;> rfl

theorem freeMap_hub (s : State) (m : MapEntry) : (freeMap s m).hub = s.hub := bareWindow_hub (releaseHomes s m) m

theorem freeMap_sectors (s : State) (m : MapEntry) : (freeMap s m).sectors = s.sectors := bareWindow_sectors (releaseHomes s m) m

/-- A reclaim keeps the save pool, and of the entries all but those of its own place, number and launch. -/
theorem kept_reclaimMap (s : State) (m : MapEntry) :
    kept (reclaimMap s m) = ((kept s).1, (kept s).2.filter (fun k => k.1 ≠ (entryKey m).1)) := by
  have hback := kept_writeBackAll s m
  have hpred : ((fun k : (Nat × Nat × BitVec 16 × Nat) × Option TeamRef => decide (k.1 ≠ (entryKey m).1)) ∘ entryKey) =
      fun x : MapEntry => !x.same m := by
    funext x
    rw [Function.comp_apply, decide_not]
    exact congrArg (!·) (Bool.eq_iff_iff.2 (decide_eq_true_iff.trans (same_iff x m).symm))
  rw [← hback]
  simp only [kept, reclaimMap, freeMap_hub, freeMap_maps, List.filter_map, hpred]

theorem kept_foldl_reclaimMap (ms : List MapEntry) (s : State) :
    kept (ms.foldl reclaimMap s) = ((kept s).1, (kept s).2.filter (fun k => ms.all (fun m => k.1 ≠ (entryKey m).1))) := by
  induction ms generalizing s with
  | nil => simp
  | cons m ms ih =>
    rw [List.foldl_cons, ih, kept_reclaimMap, List.filter_filter]
    simp only [List.all_cons, Bool.and_comm]

/-- With its attached entries reclaimed, none is attached to a team. -/
theorem owner_ne_of_reclaimed {r : TeamRef} {m : MapEntry} (h : m ∈ ((s.attached r).foldl reclaimMap s).maps) : m.owner ≠ some r := by
  intro ho
  have hk : entryKey m ∈ (kept ((s.attached r).foldl reclaimMap s)).2 := List.mem_map_of_mem h
  rw [kept_foldl_reclaimMap] at hk
  obtain ⟨hs, hall⟩ := List.mem_filter.1 hk
  obtain ⟨m', hm', he⟩ := List.mem_map.1 hs
  have howner : m'.owner = some r := (congrArg Prod.snd he).trans ho
  have hatt : m' ∈ s.attached r := List.mem_filter.2 ⟨hm', decide_eq_true howner⟩
  simpa [he] using List.all_eq_true.1 hall m' hatt

/-! ### A team that leaves its slot -/

theorem foldProgress_saved (s : State) (t : Team) : (foldProgress s t).hub.saved = s.hub.saved := by
  unfold foldProgress
  split <;> rfl

theorem removeTeam_teams (s : State) (t : Team) : (s.removeTeam t).teams = s.teams.filter (fun x => x.ref ≠ t.ref) := by
  rw [State.removeTeam, foldProgress_eq]

theorem removeTeam_maps (s : State) (t : Team) :
    (s.removeTeam t).maps = s.maps.map (fun m => if m.home = some t.ref then { m with home := none } else m) := by
  rw [State.removeTeam, foldProgress_eq]

theorem removeTeam_mem (s : State) (t : Team) : (s.removeTeam t).mem = s.mem := by
  rw [State.removeTeam, foldProgress_eq]

theorem removeTeam_sectors (s : State) (t : Team) : (s.removeTeam t).sectors = s.sectors := by
  rw [State.removeTeam, foldProgress_eq]

theorem removeTeam_hub (s : State) (t : Team) : (s.removeTeam t).hub = (foldProgress s t).hub := rfl

theorem team?_removeTeam (s : State) (t : Team) : (s.removeTeam t).team? t.ref = none := by
  rw [State.team?, removeTeam_teams, find?_removed, if_pos rfl]

theorem owner_ne_removeTeam {r : TeamRef} (h : ∀ m ∈ s.maps, m.owner ≠ some r) : ∀ m ∈ (s.removeTeam t).maps, m.owner ≠ some r := by
  intro m hm
  rw [removeTeam_maps] at hm
  obtain ⟨m', hm', rfl⟩ := List.mem_map.1 hm
  have := h m' hm'
  split <;> exact this

/-! ### CONTEXT_SAVE (R306) -/

/-- What the save pool keeps of a team. -/
def savedAs (s : State) (t : Team) (die : Nat) (byReply : Bool) : SavedTeam :=
  { launch := t.launch, cluster := t.cluster, die := die, team := t.forImage
    entries := (s.attached t.ref).map (fun m => (m.n, [m.m0, m.m1, m.m2, m.m3])), byReply := byReply }

/-- The state without a team, its windows written back and freed. -/
def withoutTeam (s : State) (t : Team) : State := ((s.attached t.ref).foldl reclaimMap s).removeTeam t

/-- The image of a saved team in the buffer of a SAVE reply, if there is one (R302). -/
def imageShown (s : State) (x : SavedTeam) : Option Word → State
  | some a => s.hostPut a.toNat (imageBytes s x)
  | none => s

/-- A saved team put into the pool. -/
def pooled (s : State) (x : SavedTeam) : State := { s with hub := { s.hub with saved := s.hub.saved ++ [x] } }

theorem execContextSave_saves (h : s.team? { die := die, core := core, slot := slot } = some t) {byReply : Bool}
    {buffer : Option Word} (hstop : t.stop = some (.save byReply buffer)) (hstill : stoppedStill s t = true)
    (hout : fencedOut s t = true) :
    execContextSave die core slot s =
      .next (pooled (imageShown (withoutTeam s t) (savedAs s t die byReply) buffer) (savedAs s t die byReply)) := by
  simp only [execContextSave, h, hstop, hstill, hout, Bool.not_true, Bool.or_self, Bool.false_eq_true, if_false]
  cases buffer <;> rfl

theorem imageShown_hub (s : State) (x : SavedTeam) (b : Option Word) : (imageShown s x b).hub = s.hub := by
  cases b <;> rfl

theorem imageShown_teams (s : State) (x : SavedTeam) (b : Option Word) : (imageShown s x b).teams = s.teams := by
  cases b <;> rfl

theorem imageShown_maps (s : State) (x : SavedTeam) (b : Option Word) : (imageShown s x b).maps = s.maps := by
  cases b <;> rfl

theorem imageShown_sectors (s : State) (x : SavedTeam) (b : Option Word) : (imageShown s x b).sectors = s.sectors := by
  cases b <;> rfl

theorem withoutTeam_saved (s : State) (t : Team) : (withoutTeam s t).hub.saved = s.hub.saved := by
  rw [withoutTeam, removeTeam_hub, foldProgress_saved]
  exact congrArg Prod.fst (kept_foldl_reclaimMap (s.attached t.ref) s)

theorem withoutTeam_of_unattached (h : ∀ m ∈ s.maps, m.owner ≠ some t.ref) : withoutTeam s t = s.removeTeam t := by
  have hnil : s.attached t.ref = [] := List.filter_eq_nil_iff.2 fun m hm => by simpa using h m hm
  rw [withoutTeam, hnil]
  rfl

/-- The one sector of a team's one window is at its homes once the team has left. -/
theorem withoutTeam_sectors {m : MapEntry} {y : WinSector} (hm : s.attached t.ref = [m]) (hy : m.secs = [y]) :
    (withoutTeam s t).sectors = (s.writeBack m y).sectors := by
  rw [withoutTeam, removeTeam_sectors, hm, List.foldl_cons, List.foldl_nil, reclaimMap, freeMap_sectors, writeBackAll, hy]
  rfl

/-- The team context of an image stands at its region entry where a running context has an open region (R29). -/
theorem forImage_team (t : Team) :
    t.forImage.team.s = t.team.s ∧ t.forImage.team.md = t.team.md ∧ t.forImage.team.run = t.team.run ∧
      if (∃ r ∈ t.regions, r.code = 0) ∧ t.team.run = .running then
        t.forImage.team.pc = t.team.rgnpc ∧ t.forImage.team.isc = t.team.rgncnt
      else t.forImage.team.pc = t.team.pc ∧ t.forImage.team.isc = t.team.isc := by
  have hopen : (t.regions.any (fun r => r.code = 0) && decide (t.team.settled.run = .running)) =
      decide ((∃ r ∈ t.regions, r.code = 0) ∧ t.team.run = .running) := by
    rw [Bool.eq_iff_iff]
    simp only [Ctx.settled, Bool.and_eq_true, List.any_eq_true, decide_eq_true_eq]
    exact and_congr_right fun _ => decide_eq_true_iff
  by_cases ho : (∃ r ∈ t.regions, r.code = 0) ∧ t.team.run = .running
  · have hteam : t.forImage.team = { t.team.settled with pc := t.team.settled.rgnpc, isc := t.team.settled.rgncnt } := by
      rw [Team.forImage]
      dsimp only
      rw [hopen, decide_eq_true ho, if_pos rfl]
    rw [hteam, if_pos ho]
    exact ⟨rfl, rfl, rfl, rfl, rfl⟩
  · have hteam : t.forImage.team = t.team.settled := by
      rw [Team.forImage]
      dsimp only
      rw [hopen, decide_eq_false ho, if_neg Bool.false_ne_true]
    rw [hteam, if_neg ho]
    exact ⟨rfl, rfl, rfl, rfl, rfl⟩

theorem forImage_queues (t : Team) :
    t.forImage.queues.map (fun q => (q.entries, q.closed)) = t.queues.map (fun q => (q.entries, q.closed)) := by
  rw [Team.forImage, List.map_map]
  rfl

/-! ### FLUSH_AND_RESTART (R307) -/

/-- A team alone in its cluster is its cluster's one kind of member. -/
theorem members_all_of_alone (ht : t ∈ s.teams) (halone : ∀ x ∈ s.teams, x.launch = t.launch → x.cluster = t.cluster → x = t)
    (p : Team → Bool) : (s.members t.launch t.cluster).all p = p t := by
  rw [Bool.eq_iff_iff, List.all_eq_true]
  refine ⟨fun h => h t (List.mem_filter.2 ⟨ht, by simp⟩), fun h x hx => ?_⟩
  obtain ⟨hx, hc⟩ := List.mem_filter.1 hx
  obtain ⟨hl, hc⟩ := by simpa using hc
  rw [halone x hx hl hc, h]

theorem execFlushAndRestart_anew (h : s.team? { die := die, core := core, slot := slot } = some t) {l : Launch} {waiter : Nat}
    (hstop : t.stop = some (.flush waiter)) (hruns : runsOn s t = false) (hl : s.launch? t.launch = some l)
    (halone : ∀ x ∈ s.teams, x.launch = t.launch → x.cluster = t.cluster → x = t) (hno : t.mayRestart = false) :
    execFlushAndRestart die core slot s = .next (preemptCluster s l die t.cluster waiter) := by
  have hall := members_all_of_alone (mem_of_team? h) halone Team.mayRestart
  simp only [execFlushAndRestart, h, hstop, hruns, hall, hno, hl, Bool.not_false, if_true, Bool.false_eq_true, if_false]

/-- The state without a team, its windows detached. -/
def flushed (s : State) (t : Team) : State :=
  ({ s with maps := s.maps.map (fun m => if m.owner = some t.ref then { m with owner := none } else m) } : State).removeTeam t

theorem launch?_removeTeam {l : Launch} (hl : s.launch? t.launch = some l) : (s.removeTeam t).launch? t.launch =
    some { l with lastProgress := if l.lastProgress.toNat < t.progress.toNat then t.progress else l.lastProgress } := by
  have hput : foldProgress s t = s.putLaunch
      { l with lastProgress := if l.lastProgress.toNat < t.progress.toNat then t.progress else l.lastProgress } := by
    rw [foldProgress, hl]
  have hsid : l.sid = t.launch := launch?_sid hl
  rw [State.launch?, removeTeam_hub, hput]
  exact launch?_putLaunch hl hsid

theorem execFlushAndRestart_flushed (h : s.team? { die := die, core := core, slot := slot } = some t) {l : Launch} {waiter : Nat}
    (hstop : t.stop = some (.flush waiter)) (hruns : runsOn s t = false) (hl : s.launch? t.launch = some l)
    (halone : ∀ x ∈ s.teams, x.launch = t.launch → x.cluster = t.cluster → x = t) (hmay : t.mayRestart = true)
    (hstill : stoppedStill s t = true) :
    ∃ k, (flushed s t).launch? t.launch = some k ∧ k.unplaced = l.unplaced ∧
      execFlushAndRestart die core slot s = .next ((flushed s t).putLaunch { k with unplaced := l.unplaced ++ [t.cluster] }) := by
  have hall := members_all_of_alone (mem_of_team? h) halone Team.mayRestart
  have hk : (flushed s t).launch? t.launch = _ :=
    launch?_removeTeam (s := { s with maps := s.maps.map (fun m => if m.owner = some t.ref then { m with owner := none } else m) }) hl
  have hgone : (flushed s t).members t.launch t.cluster = [] := by
    refine List.filter_eq_nil_iff.2 fun x hx hc => ?_
    rw [flushed, removeTeam_teams] at hx
    obtain ⟨hx, hr⟩ := List.mem_filter.1 hx
    obtain ⟨hxl, hxc⟩ := by simpa using hc
    rw [halone x hx hxl hxc] at hr
    simp at hr
  refine ⟨_, hk, rfl, ?_⟩
  rw [flushed] at hk hgone
  simp only [execFlushAndRestart, h, hstop, hruns, hall, hmay, hstill, Bool.not_true, Bool.false_eq_true, if_false, hk, hgone,
    List.isEmpty_nil, if_true]
  rfl

theorem flushed_owner (s : State) (t : Team) : ∀ m ∈ (flushed s t).maps, m.owner ≠ some t.ref := by
  refine owner_ne_removeTeam fun m hm => ?_
  obtain ⟨m', -, rfl⟩ := List.mem_map.1 hm
  split
  · exact nofun
  next h => exact h

end

end Sys2Proof.Machine.Saves

/-! ## Restored clusters (O50, R312) -/

namespace Sys2Proof.Machine.Restores

open Sys2Proof.Machine.Slots Sys2Proof.Machine.Placement

-- one proof after another: side by side they take more threads than the check's memory limit has stacks for
set_option Elab.async false

section
variable {s u : State} {die core : Nat}

/-! ### Empty cores -/

/-- No team is resident on a core, and no mapping entry names it. -/
structure EmptyCore (s : State) (die core : Nat) : Prop where
  teams : ∀ t ∈ s.teams, t.ref.die = die → t.ref.core ≠ core
  maps : ∀ m ∈ s.maps, m.die = die → m.core ≠ core

theorem EmptyCore.residents (h : EmptyCore s die core) : s.residents die core = [] :=
  List.filter_eq_nil_iff.2 fun t ht => by simpa using h.teams t ht

theorem EmptyCore.team? (h : EmptyCore s die core) (i : Nat) : s.team? { die := die, core := core, slot := i } = none :=
  team?_eq_none_iff.2 fun t ht e => h.teams t ht (by rw [e]) (by rw [e])

theorem EmptyCore.entries (h : EmptyCore s die core) : s.maps.filter (fun m => m.die = die && m.core = core) = [] :=
  List.filter_eq_nil_iff.2 fun m hm => by simpa using h.maps m hm

theorem EmptyCore.map? (h : EmptyCore s die core) (lv : BitVec 16) (n : Nat) : s.map? die core lv n = none := by
  rw [State.map?, List.find?_eq_none]
  intro m hm
  simpa [and_assoc] using fun hd hc => absurd hc (h.maps m hm hd)

theorem EmptyCore.freeSlot (h : EmptyCore s die core) : freeSlot s die core = some 0 :=
  freeSlot_eq (by decide) (h.team? 0) fun _ hj => absurd hj (Nat.not_lt_zero _)

theorem EmptyCore.coreRoom (h : EmptyCore s die core) {r : LaunchRec} (hvrf : r.nl * r.nv * 4 ≤ 1048576)
    (hstash : r.footprint ≤ 786432) (hnacc : r.nacc ≤ 4) : CoreRoom s die core r where
  slot := by rw [h.freeSlot]; rfl
  vrf := by simpa [h.residents] using hvrf
  stash := by
    have hstray : s.maps.filter (fun m => m.die = die && m.core = core && strayWindow s m) = [] :=
      List.filter_eq_nil_iff.2 fun m hm => by simpa using fun hd hc => absurd hc (h.maps m hm hd)
    simpa [h.residents, hstray] using hstash
  nacc := by simpa [h.residents] using hnacc
  matrix _ := by simp [h.residents]
  access _ := by simp [h.residents]

theorem EmptyCore.coreTakes (h : EmptyCore s die core) {r : LaunchRec} (hr : CoreRoom s die core r) (x : SavedTeam) :
    coreTakes s die core r x = true := by
  have hmaps : s.maps.all (fun m => m.die ≠ die || m.core ≠ core || m.owner.isSome || !homeBusy s m) = true := by
    refine List.all_eq_true.2 fun m hm => ?_
    by_cases hd : m.die = die
    · simp [h.maps m hm hd]
    · simp [hd]
  rw [Machine.coreTakes, hr.coreCanFit, hmaps, Bool.true_and, Bool.true_and]
  refine List.all_eq_true.2 fun e _ => ?_
  rw [h.map?]

/-! ### Mapping entries attached anew -/

/-- The entry of a restored team that an image records: invalid, with the recorded parameters. -/
def entryOf (ref : TeamRef) (lv : BitVec 16) (e : Nat × List Word) (age : Nat) : MapEntry :=
  { die := ref.die, core := ref.core, n := e.1, lv := lv, owner := some ref, home := some ref, age := age
    m0 := e.2.getD 0 0, m1 := e.2.getD 1 0, m2 := e.2.getD 2 0, m3 := e.2.getD 3 0, secs := [] }

/-- The entries of a core. -/
def entriesOn (s : State) (ref : TeamRef) : List MapEntry := s.maps.filter (fun m => m.die = ref.die && m.core = ref.core)

theorem attachEntry_new {t : Team} {e : Nat × List Word} (hnew : ∀ m ∈ entriesOn s t.ref, m.n ≠ e.1)
    (hroom : (entriesOn s t.ref).length < 64) :
    attachEntry s t e = { s with maps := s.maps ++ [entryOf t.ref t.lv e s.serial], serial := s.serial + 1 } := by
  have hnone : s.map? t.ref.die t.ref.core t.lv e.1 = none := by
    rw [State.map?, List.find?_eq_none]
    intro m hm
    have := hnew m
    simp only [entriesOn, List.mem_filter] at this
    simpa [and_assoc] using fun hd hc _ => this ⟨hm, by simp [hd, hc]⟩
  have hfull : ¬ 64 ≤ (s.maps.filter (fun x => x.die = t.ref.die && x.core = t.ref.core)).length := Nat.not_le.2 hroom
  simp only [attachEntry, hnone, hfull, if_false]
  rfl

/-- An image of no more entries than a core has, each number once, is mapped whole on a core with none. -/
theorem foldl_attachEntry (t : Team) (es : List (Nat × List Word)) (s : State) (hn : (es.map (·.1)).Nodup)
    (hnew : ∀ m ∈ entriesOn s t.ref, m.n ∉ es.map (·.1)) (hroom : (entriesOn s t.ref).length + es.length ≤ 64) :
    ∃ ms n, es.foldl (fun s e => attachEntry s t e) s = { s with maps := s.maps ++ ms, serial := n } ∧
      (∀ e ∈ es, ∃ a, entryOf t.ref t.lv e a ∈ ms) ∧ ∀ m ∈ ms, ∃ e a, m = entryOf t.ref t.lv e a := by
  induction es generalizing s with
  | nil => exact ⟨[], s.serial, by simp, by simp, by simp⟩
  | cons e es ih =>
    rw [List.map_cons, List.nodup_cons] at hn
    rw [List.length_cons] at hroom
    have hon : entriesOn { s with maps := s.maps ++ [entryOf t.ref t.lv e s.serial], serial := s.serial + 1 } t.ref =
        entriesOn s t.ref ++ [entryOf t.ref t.lv e s.serial] := by
      simp [entriesOn, entryOf]
    have hattach := attachEntry_new (t := t) (e := e) (s := s) (fun m hm h => hnew m hm (by simp [h])) (by omega)
    obtain ⟨ms, n, hfold, hall, hown⟩ := ih _ hn.2 (fun m hm => by
        rw [hon, List.mem_append, List.mem_singleton] at hm
        rcases hm with hm | rfl
        · exact fun h => hnew m hm (List.mem_cons_of_mem _ h)
        · exact hn.1) (by rw [hon, List.length_append, List.length_singleton]; omega)
    refine ⟨entryOf t.ref t.lv e s.serial :: ms, n, ?_, fun e' he' => ?_, fun m hm => ?_⟩
    · rw [List.foldl_cons, hattach, hfold]
      simp
    · rcases List.mem_cons.1 he' with rfl | he'
      · exact ⟨_, List.mem_cons_self⟩
      · obtain ⟨a, ha⟩ := hall e' he'
        exact ⟨a, List.mem_cons_of_mem _ ha⟩
    · rcases List.mem_cons.1 hm with rfl | hm
      · exact ⟨_, _, rfl⟩
      · exact hown m hm

/-! ### One member restored -/

/-- A saved team in its slot again; what is free of its regions goes by the number `n` (R29; log 30). -/
def restoredTeam (x : SavedTeam) (ref : TeamRef) (n : Nat) : Team :=
  { x.team with
    ref := ref, slot := restoredSlot x.team, regions := x.team.restoredRegions n
    vEnd := if x.team.team.run = RunState.ended then some x.team.v else none
    team := x.team.team.reentered n, matrix := x.team.matrix.map (·.reentered n), access := x.team.access.map (·.reentered n) }

theorem restoredSlot_ready_iff (t : Team) : restoredSlot t = .ready ↔ t.team.run = .running := by
  unfold restoredSlot
  cases t.team.run <;> simp

/-- The held replies to a saved team. -/
def heldFor (s : State) (x : SavedTeam) : List HeldReply :=
  s.hub.heldReplies.filter (fun h => h.sid = x.launch && h.team = x.team.t)

/-- A member restored to a slot, before the replies that the hub holds for it act. -/
structure Restored (s u : State) (x : SavedTeam) (ref : TeamRef) : Prop where
  teams : u.teams = s.teams ++ [restoredTeam x ref s.serial]
  readyQ : u.readyQ = s.readyQ ++ if x.team.team.run = .running then [ref] else []
  maps : ∃ ms, u.maps = s.maps.map (fun m => if m.home = some ref then { m with home := none } else m) ++ ms ∧
    (∀ e ∈ x.entries, ∃ a, entryOf ref x.team.lv e a ∈ ms) ∧ ∀ m ∈ ms, ∃ e a, m = entryOf ref x.team.lv e a
  hub : u.hub =
    { s.hub with heldReplies := s.hub.heldReplies.filter (fun h => !(h.sid == x.launch && h.team == x.team.t)) }
  mem : u.mem = s.mem

/-- The restored team in its slot, on the ready queue when it runs. -/
def reseated (s : State) (x : SavedTeam) (ref : TeamRef) : State :=
  { seat { s with serial := s.serial + 1 } (restoredTeam x ref s.serial) with
    readyQ := s.readyQ ++ if x.team.team.run = .running then [ref] else [] }

theorem reseated_maps (s : State) (x : SavedTeam) (ref : TeamRef) :
    (reseated s x ref).maps = s.maps.map (fun m => if m.home = some ref then { m with home := none } else m) := seat_maps _ _

theorem reseated_hub (s : State) (x : SavedTeam) (ref : TeamRef) : (reseated s x ref).hub = s.hub := seat_hub _ _

theorem eq_of_readyQ {q : List TeamRef} (h : u.readyQ = q) : u = { u with readyQ := q } := by
  rw [← h]

theorem reseated_eq (x : SavedTeam) {ref : TeamRef} (hfree : s.team? ref = none) :
    (if (restoredTeam x ref s.serial).slot = .ready then
        (seat { s with serial := s.serial + 1 } (restoredTeam x ref s.serial)).makeReady ref
      else seat { s with serial := s.serial + 1 } (restoredTeam x ref s.serial)) = reseated s x ref := by
  have hslot : (restoredTeam x ref s.serial).slot = .ready ↔ x.team.team.run = .running := restoredSlot_ready_iff x.team
  by_cases hr : x.team.team.run = .running
  · rw [if_pos (hslot.2 hr), reseated, if_pos hr]
    exact occupy_eq (s := { s with serial := s.serial + 1 }) hfree (hslot.2 hr)
  · rw [if_neg fun h => hr (hslot.1 h), reseated, if_neg hr, List.append_nil]
    exact eq_of_readyQ (seat_readyQ { s with serial := s.serial + 1 } (restoredTeam x ref s.serial))

/-- An empty core has no entry once a team is seated there. -/
theorem EmptyCore.entriesOn_reseated (h : EmptyCore s die core) (x : SavedTeam) {ref : TeamRef} (hd : ref.die = die)
    (hc : ref.core = core) : entriesOn (reseated s x ref) ref = [] := by
  refine List.filter_eq_nil_iff.2 fun m hm => ?_
  rw [reseated_maps] at hm
  obtain ⟨m', hm', rfl⟩ := List.mem_map.1 hm
  have hne := h.maps m' hm'
  rw [hd, hc]
  split <;> simpa using hne

/-- A saved team goes to a slot of an empty core, and the replies held for it then act (R306). -/
theorem restoreTeam_eq (x : SavedTeam) (h : EmptyCore s die core) (hlen : x.entries.length ≤ 64)
    (hn : (x.entries.map (·.1)).Nodup) (slot : Nat) :
    ∃ u, Restored s u x { die := die, core := core, slot := slot } ∧
      restoreTeam s x { die := die, core := core, slot := slot } =
        (heldFor s x).foldl (fun s h => applyHeld s h { die := die, core := core, slot := slot }) u := by
  generalize href : ({ die := die, core := core, slot := slot } : TeamRef) = ref
  have hdie : ref.die = die := by rw [← href]
  have hcore : ref.core = core := by rw [← href]
  have hfree : s.team? ref = none := href ▸ h.team? slot
  have hon := h.entriesOn_reseated x hdie hcore
  obtain ⟨ms, n, hfold, hall, hown⟩ := foldl_attachEntry (restoredTeam x ref s.serial) x.entries (reseated s x ref) hn
    (by rw [show (restoredTeam x ref s.serial).ref = ref from rfl, hon]; simp)
    (by rw [show (restoredTeam x ref s.serial).ref = ref from rfl, hon]; simpa using hlen)
  refine ⟨{ reseated s x ref with
    maps := (reseated s x ref).maps ++ ms, serial := n
    hub := { s.hub with heldReplies := s.hub.heldReplies.filter (fun h => !(h.sid == x.launch && h.team == x.team.t)) } },
    ⟨seat_teams _ _, rfl, ⟨ms, congrArg (· ++ ms) (reseated_maps s x ref), hall, hown⟩, rfl, seat_mem _ _⟩, ?_⟩
  unfold restoreTeam
  extract_lets _ _ _ _ _ seated attached mine _ answered
  have hseated : seated = reseated s x ref := reseated_eq x hfree
  have hattached : attached = { reseated s x ref with maps := (reseated s x ref).maps ++ ms, serial := n } := by
    rw [← hfold, ← hseated]
    rfl
  have hhub : attached.hub = s.hub := by
    rw [hattached]
    exact reseated_hub s x ref
  have hmine : mine = heldFor s x := by
    show attached.hub.heldReplies.filter _ = _
    rw [hhub]
    rfl
  have hanswered : answered = { attached with hub := { s.hub with heldReplies := s.hub.heldReplies.filter (fun h =>
      !(h.sid == x.launch && h.team == x.team.t)) } } := by
    rw [← hhub]
  rw [hmine, hanswered, hattached]

end

end Sys2Proof.Machine.Restores

/-! ## TEAM_RESTORE, and O50 -/

namespace Sys2Proof.Machine.Restores

open Sys2Proof.Machine.Slots Sys2Proof.Machine.Placement Sys2Proof.Machine.Homes Sys2Proof.Machine.Saves
open Sys2Proof.Machine.Canonical (restoreMembers_cons restoreMembers_nil)

-- one proof after another: side by side they take more threads than the check's memory limit has stacks for
set_option Elab.async false

section
variable {s u : State} {die core : Nat}

/-! ### The members of a cluster restored, none with a held reply -/

theorem Restored.emptyCore {x : SavedTeam} {ref : TeamRef} (h : Restored s u x ref) (hne : ¬ (ref.die = die ∧ ref.core = core))
    (he : EmptyCore s die core) : EmptyCore u die core where
  teams t ht hd hc := by
    rw [h.teams, List.mem_append, List.mem_singleton] at ht
    rcases ht with ht | rfl
    · exact he.teams t ht hd hc
    · exact hne ⟨hd, hc⟩
  maps m hm hd hc := by
    obtain ⟨ms, hmaps, -, hown⟩ := h.maps
    rw [hmaps, List.mem_append] at hm
    rcases hm with hm | hm
    · obtain ⟨m', hm', rfl⟩ := List.mem_map.1 hm
      have hd' : m'.die = die := by revert hd; split <;> exact id
      have hc' : m'.core = core := by revert hc; split <;> exact id
      exact he.maps m' hm' hd' hc'
    · obtain ⟨e, a, rfl⟩ := hown m hm
      exact hne ⟨hd, hc⟩

theorem Restored.mem_maps {x : SavedTeam} {ref : TeamRef} (h : Restored s u x ref) {m : MapEntry} (hm : m ∈ s.maps)
    (hne : m.home ≠ some ref) : m ∈ u.maps := by
  obtain ⟨ms, hmaps, -, -⟩ := h.maps
  rw [hmaps]
  exact List.mem_append_left _ (List.mem_map.2 ⟨m, hm, if_neg hne⟩)

/-- The hub is as it was when it holds no reply to the team. -/
theorem Restored.hub_eq {x : SavedTeam} {ref : TeamRef} (h : Restored s u x ref) (hheld : ∀ r ∈ s.hub.heldReplies, r.sid ≠ x.launch) :
    u.hub = s.hub := by
  have hall : s.hub.heldReplies.filter (fun h => !(h.sid == x.launch && h.team == x.team.t)) = s.hub.heldReplies :=
    List.filter_eq_self.2 fun r hr => by simp [hheld r hr]
  rw [h.hub, hall]

/-- The slot of a restored member on its core, which is empty. -/
def seatOn (die core : Nat) : TeamRef := { die := die, core := core, slot := 0 }

/-- Members, each with the core it goes to, restored to a state. -/
structure AllRestored (die : Nat) (s u : State) (ps : List (Nat × SavedTeam)) : Prop where
  hub : u.hub = s.hub
  mem : u.mem = s.mem
  team : ∀ p ∈ ps, ∃ n, u.team? (seatOn die p.1) = some (restoredTeam p.2 (seatOn die p.1) n)
  others : ∀ r, (∀ p ∈ ps, r ≠ seatOn die p.1) → u.team? r = s.team? r
  readyQ : ∀ r, r ∈ u.readyQ ↔ r ∈ s.readyQ ∨ ∃ p ∈ ps, r = seatOn die p.1 ∧ p.2.team.team.run = .running
  maps : ∀ m ∈ s.maps, (∀ p ∈ ps, m.home ≠ some (seatOn die p.1)) → m ∈ u.maps
  entries : ∀ p ∈ ps, ∀ e ∈ p.2.entries, ∃ a, entryOf (seatOn die p.1) p.2.team.lv e a ∈ u.maps

theorem AllRestored.nil : AllRestored die s s [] where
  hub := rfl
  mem := rfl
  team := by simp
  others _ _ := rfl
  readyQ := by simp
  maps m hm _ := hm
  entries := by simp

theorem AllRestored.cons {v : State} {x : SavedTeam} {ps : List (Nat × SavedTeam)} (hfree : s.team? (seatOn die core) = none)
    (hx : Restored s v x (seatOn die core)) (hhub : v.hub = s.hub) (hne : ∀ p ∈ ps, seatOn die core ≠ seatOn die p.1)
    (h : AllRestored die v u ps) : AllRestored die s u ((core, x) :: ps) where
  hub := h.hub.trans hhub
  mem := h.mem.trans hx.mem
  team p hp := by
    rcases List.mem_cons.1 hp with rfl | hp
    · refine ⟨s.serial, (h.others _ hne).trans ?_⟩
      rw [team?_append hx.teams hfree]
      exact List.find?_cons_of_pos (decide_eq_true rfl)
    · exact h.team p hp
  others r hr := by
    refine (h.others r fun p hp => hr p (List.mem_cons_of_mem _ hp)).trans (team?_append_ne hx.teams fun t ht e => ?_)
    rw [List.mem_singleton.1 ht] at e
    exact hr (core, x) List.mem_cons_self e.symm
  readyQ r := by
    rw [h.readyQ, hx.readyQ, List.mem_append, or_assoc, List.exists_mem_cons_iff]
    refine or_congr_right (or_congr_left ?_)
    by_cases hr : x.team.team.run = .running <;> simp [hr]
  maps m hm hne' := by
    refine h.maps m (hx.mem_maps hm (hne' _ List.mem_cons_self)) fun p hp => hne' p (List.mem_cons_of_mem _ hp)
  entries p hp e he := by
    rcases List.mem_cons.1 hp with rfl | hp
    · obtain ⟨ms, hmaps, hall, -⟩ := hx.maps
      obtain ⟨a, ha⟩ := hall e he
      refine ⟨a, h.maps _ (by rw [hmaps]; exact List.mem_append_right _ ha) fun p hp e => hne p hp ?_⟩
      exact Option.some.inj e
    · exact h.entries p hp e he

/-- What a restore asks of the image of a member: its entries fit a core, each number once. -/
structure EntriesFit (x : SavedTeam) : Prop where
  length : x.entries.length ≤ 64
  nodup : (x.entries.map (·.1)).Nodup

section
variable {r : LaunchRec} (hvrf : r.nl * r.nv * 4 ≤ 1048576) (hstash : r.footprint ≤ 786432) (hnacc : r.nacc ≤ 4)
include hvrf hstash hnacc

/-- A member goes to slot 0 of its empty core. -/
theorem restoreMembers_step (h : EmptyCore s die core) (x : SavedTeam) (ps : List (Nat × SavedTeam)) :
    restoreMembers die r s ((core, x) :: ps) = restoreMembers die r (restoreTeam s x (seatOn die core)) ps := by
  have hfits := (h.coreRoom hvrf hstash hnacc).coreFits (le_refl _)
  rw [restoreMembers_cons, makeRoom_of_fits hfits, h.freeSlot]
  simp only [hfits, if_true]
  rfl

theorem restoreMembers_restored (ps : List (Nat × SavedTeam)) (s : State) (hcores : (ps.map (·.1)).Nodup)
    (hempty : ∀ p ∈ ps, EmptyCore s die p.1) (hfit : ∀ p ∈ ps, EntriesFit p.2)
    (hheld : ∀ p ∈ ps, ∀ h ∈ s.hub.heldReplies, h.sid ≠ p.2.launch) :
    ∃ u, restoreMembers die r s ps = some u ∧ AllRestored die s u ps := by
  induction ps generalizing s with
  | nil => exact ⟨s, restoreMembers_nil die r, .nil⟩
  | cons p ps ih =>
    obtain ⟨core, x⟩ := p
    rw [List.map_cons, List.nodup_cons] at hcores
    have he := hempty _ List.mem_cons_self
    have hx := hheld _ List.mem_cons_self
    obtain ⟨hlen, hn⟩ := hfit _ List.mem_cons_self
    obtain ⟨v, hv, heq⟩ := restoreTeam_eq x he hlen hn 0
    have hnone : heldFor s x = [] := List.filter_eq_nil_iff.2 fun h hh => by simp [hx h hh]
    rw [hnone, List.foldl_nil] at heq
    have hhub := hv.hub_eq hx
    have hne : ∀ p ∈ ps, core ≠ p.1 := fun p hp e => hcores.1 (List.mem_map.2 ⟨p, hp, e.symm⟩)
    obtain ⟨u, hu, hall⟩ := ih v hcores.2
      (fun p hp => hv.emptyCore (fun e => hne p hp e.2) (hempty p (List.mem_cons_of_mem _ hp)))
      (fun p hp => hfit p (List.mem_cons_of_mem _ hp))
      (fun p hp h hh => hheld p (List.mem_cons_of_mem _ hp) h (by rwa [hhub] at hh))
    refine ⟨u, ?_, hall.cons (he.team? 0) hv hhub fun p hp e => hne p hp (congrArg TeamRef.core e)⟩
    rw [restoreMembers_step hvrf hstash hnacc he]
    exact (congrArg (fun v => restoreMembers die r v ps) heq).trans hu

end

/-! ### A held reply acts (R306) -/

theorem applyHeld_resumes {x : SavedTeam} {n : Nat} {h : HeldReply} {ref : TeamRef} (hctx : h.ctx = 0) (habort : h.abort = false)
    (ht : u.team? ref = some (restoredTeam x ref n)) :
    ∃ t, (applyHeld u h ref).team? ref = some t ∧ t.slot = .ready ∧ ref ∈ (applyHeld u h ref).readyQ ∧
      t.team = (x.team.team.reentered n).resume h.rv1 h.rv2 ∧ t.v = x.team.v ∧ t.k = x.team.k ∧ (applyHeld u h ref).hub = u.hub := by
  generalize hy : (restoredTeam x ref n).resumeCtx .team (restoredTeam x ref n).team h.rv1 h.rv2 = y
  have hfields : y.ref = ref ∧ y.team = (x.team.team.reentered n).resume h.rv1 h.rv2 ∧ y.v = x.team.v ∧ y.k = x.team.k := by
    rw [← hy, Team.resumeCtx]
    split <;> exact ⟨rfl, rfl, rfl, rfl⟩
  obtain ⟨href, hteam, hv, hk⟩ := hfields
  have hput : (u.putTeam y).team? ref = some y := by
    rw [← href] at ht ⊢
    exact State.team?_putTeam_self ht
  have heq : applyHeld u h ref =
      { (u.putTeam y).putTeam { y with slot := .ready } with readyQ := u.readyQ ++ [ref] } := by
    simp only [applyHeld, habort, ht, hctx, Bool.false_eq_true, if_false, if_true, Team.ctx?, hy]
    exact makeReady_of_team hput
  rw [heq]
  refine ⟨{ y with slot := .ready }, ?_, rfl, by simp, hteam, hv, hk, rfl⟩
  rw [← href] at hput ⊢
  exact State.team?_putTeam_self (t := { y with slot := .ready }) hput

/-! ### TEAM_RESTORE -/

section
variable {launch cluster col row : Nat} {l : Launch} {x0 : SavedTeam} {xs : List SavedTeam} {cores : List Nat}

/-- The state without the saved members of a cluster in its pool. -/
def unpooled (s : State) (launch cluster : Nat) : State :=
  { s with hub := { s.hub with saved := s.hub.saved.filter (fun x => !(x.launch == launch && x.cluster == cluster)) } }

/-- The saved members of a cluster, each with the core of its rank. -/
def seats (l : Launch) (cores : List Nat) (xs : List SavedTeam) : List (Nat × SavedTeam) :=
  xs.map (fun x => (cores.getD (clrank l.lrec x.team.t) 0, x))

theorem seats_cores_nodup (hranks : (xs.map (fun x => clrank l.lrec x.team.t)).Nodup) (hcores : cores.Nodup)
    (hlt : ∀ x ∈ xs, clrank l.lrec x.team.t < cores.length) : ((seats l cores xs).map (·.1)).Nodup := by
  have hmap : (seats l cores xs).map (·.1) = (xs.map (fun x => clrank l.lrec x.team.t)).map (fun i => cores.getD i 0) := by
    simp [seats]
  rw [hmap]
  refine hranks.map_on fun i hi j hj e => ?_
  obtain ⟨x, hx, rfl⟩ := List.mem_map.1 hi
  obtain ⟨y, hy, rfl⟩ := List.mem_map.1 hj
  rw [List.getD_eq_getElem _ _ (hlt x hx), List.getD_eq_getElem _ _ (hlt y hy)] at e
  exact (hcores.getElem_inj_iff).1 e

theorem execTeamRestore_restores (hl : s.launch? launch = some l) (hrun : l.st = .running)
    (hsaved : s.hub.saved.filter (fun y => y.launch = launch && y.cluster = cluster) = x0 :: xs)
    (hreply : ∀ x ∈ x0 :: xs, x.byReply = false) (hout : ∀ t ∈ s.teams, t.launch ≠ launch) (hserves : dieServes s x0.die = true)
    (hrect : rectangle (s.die x0.die) (l.coreSet x0.die) l.lrec.cw l.lrec.ch col row = some cores)
    (htakes : ∀ p ∈ seats l cores (x0 :: xs), coreTakes s x0.die p.1 l.lrec p.2 = true) {k : Launch}
    (hu : restoreMembers x0.die l.lrec (unpooled s launch cluster) (seats l cores (x0 :: xs)) = some u)
    (hk : u.launch? launch = some k) :
    execTeamRestore launch cluster col row s = .next (u.putLaunch (k.watched s)) := by
  have hmembers : s.members launch cluster = [] := List.filter_eq_nil_iff.2 fun t ht => by simp [hout t ht]
  have hany : (x0 :: xs).any (·.byReply) = false := List.any_eq_false.2 fun x hx => by simp [hreply x hx]
  have hall : (seats l cores (x0 :: xs)).all (fun p => coreTakes s x0.die p.1 l.lrec p.2) = true := List.all_eq_true.2 htakes
  rw [seats] at hall hu
  rw [unpooled] at hu
  simp only [execTeamRestore, hl, hsaved, List.head?_cons, hrun, hmembers, List.any_nil, hany, hserves, hrect, hall, hu, hk,
    ne_eq, not_true_eq_false, decide_false, Bool.or_self, Bool.not_true, Bool.false_eq_true, if_false]

/-- What O50 asks of the rectangle and of the images that go there. -/
structure CanReturn (s : State) (l : Launch) (launch : Nat) (die : Nat) (cores : List Nat) (xs : List SavedTeam) : Prop where
  images : ∀ x ∈ xs, x.launch = launch ∧ EntriesFit x ∧ clrank l.lrec x.team.t < cores.length
  ranks : (xs.map (fun x => clrank l.lrec x.team.t)).Nodup
  distinct : cores.Nodup
  empty : ∀ core ∈ cores, EmptyCore s die core
  vrf : l.lrec.nl * l.lrec.nv * 4 ≤ 1048576
  stash : l.lrec.footprint ≤ 786432
  nacc : l.lrec.nacc ≤ 4

theorem CanReturn.emptyCore (h : CanReturn s l launch die cores xs) : ∀ p ∈ seats l cores xs, EmptyCore s die p.1 := by
  intro p hp
  obtain ⟨x, hx, rfl⟩ := List.mem_map.1 hp
  obtain ⟨-, -, hlt⟩ := h.images x hx
  exact h.empty _ (by dsimp only; rw [List.getD_eq_getElem _ _ hlt]; exact List.getElem_mem hlt)

theorem CanReturn.coreTakes (h : CanReturn s l launch die cores xs) :
    ∀ p ∈ seats l cores xs, coreTakes s die p.1 l.lrec p.2 = true := fun p hp =>
  have he := h.emptyCore p hp
  he.coreTakes (he.coreRoom h.vrf h.stash h.nacc) p.2

theorem CanReturn.nodup (h : CanReturn s l launch die cores xs) : ((seats l cores xs).map (·.1)).Nodup :=
  seats_cores_nodup h.ranks h.distinct fun x hx => (h.images x hx).2.2

/-- Without held replies the whole cluster is restored. -/
theorem CanReturn.restored (h : CanReturn s l launch die cores xs) (hheld : ∀ h ∈ s.hub.heldReplies, h.sid ≠ launch) (cluster : Nat) :
    ∃ u, restoreMembers die l.lrec (unpooled s launch cluster) (seats l cores xs) = some u ∧
      AllRestored die (unpooled s launch cluster) u (seats l cores xs) := by
  refine restoreMembers_restored h.vrf h.stash h.nacc _ _ h.nodup (fun p hp => ?_) (fun p hp => ?_) fun p hp r hr => ?_
  · obtain ⟨hteams, hmaps⟩ := h.emptyCore p hp
    exact ⟨hteams, hmaps⟩
  · obtain ⟨x, hx, rfl⟩ := List.mem_map.1 hp
    exact (h.images x hx).2.1
  · obtain ⟨x, hx, rfl⟩ := List.mem_map.1 hp
    rw [(h.images x hx).1]
    exact hheld r hr

/-- A cluster of one that the hub holds one RESUME for: its member is restored, and the reply acts on it. -/
theorem CanReturn.resumed {x : SavedTeam} (h : CanReturn s l launch die cores [x]) {r : HeldReply} (hheld : s.hub.heldReplies = [r])
    (hsid : r.sid = launch) (hteam : r.team = x.team.t) (hctx : r.ctx = 0) (habort : r.abort = false) (cluster : Nat) :
    ∃ u n t, restoreMembers die l.lrec (unpooled s launch cluster) (seats l cores [x]) = some u ∧
      u.hub = { (unpooled s launch cluster).hub with heldReplies := [] } ∧
      u.team? (seatOn die (cores.getD (clrank l.lrec x.team.t) 0)) = some t ∧ t.slot = .ready ∧
      seatOn die (cores.getD (clrank l.lrec x.team.t) 0) ∈ u.readyQ ∧
      t.team = (x.team.team.reentered n).resume r.rv1 r.rv2 ∧ t.v = x.team.v ∧ t.k = x.team.k := by
  obtain ⟨hlaunch, ⟨hlen, hn⟩, -⟩ := h.images x (List.mem_singleton_self x)
  obtain ⟨hteams, hmaps⟩ := h.emptyCore _ (List.mem_singleton_self _)
  have he : EmptyCore (unpooled s launch cluster) die (cores.getD (clrank l.lrec x.team.t) 0) := ⟨hteams, hmaps⟩
  obtain ⟨v, hv, heq⟩ := restoreTeam_eq x he hlen hn 0
  have hfor : heldFor (unpooled s launch cluster) x = [r] := by
    show s.hub.heldReplies.filter _ = _
    rw [hheld]
    simp [hsid, hlaunch, hteam]
  have hnone : v.hub = { (unpooled s launch cluster).hub with heldReplies := [] } := by
    rw [hv.hub]
    have : (unpooled s launch cluster).hub.heldReplies.filter (fun h => !(h.sid == x.launch && h.team == x.team.t)) = [] := by
      show s.hub.heldReplies.filter _ = _
      rw [hheld]
      simp [hsid, hlaunch, hteam]
    rw [this]
  have hat : v.team? (seatOn die (cores.getD (clrank l.lrec x.team.t) 0)) = some _ :=
    (team?_append hv.teams (he.team? 0)).trans (List.find?_cons_of_pos (decide_eq_true rfl))
  obtain ⟨t, ht, hready, hq, hresumed, hvv, hk, hhub⟩ := applyHeld_resumes hctx habort hat
  refine ⟨_, _, t, ?_, hhub.trans hnone, ht, hready, hq, hresumed, hvv, hk⟩
  refine (restoreMembers_step h.vrf h.stash h.nacc he x []).trans ?_
  rw [hfor] at heq
  rw [restoreMembers_nil]
  exact congrArg some heq

end

end

/-- Settles O50: CONTEXT_SAVE gives `pooled` after `withoutTeam`, whose write-back leaves the dirty bytes tentative at their homes
(`get_writeBack`); FLUSH_AND_RESTART gives `flushed`; TEAM_RESTORE restores the members one by one (`restoreMembers_restored`). -/
theorem teamsSavedAndRestored : Obligations.TeamsSavedAndRestored := by
  unfold Obligations.TeamsSavedAndRestored
  refine ⟨fun s die core slot t ht => ⟨?saved, ?flushed⟩, ?restored⟩
  case saved =>
    intro byReply buffer hstop hstill hout
    obtain ⟨hs, hmd, hrun, hpoint⟩ := forImage_team t
    have hexec := execContextSave_saves ht hstop hstill hout
    refine ⟨_, savedAs s t die byReply, hexec, ?_, ?_, rfl, rfl, rfl, rfl, rfl, rfl, rfl, rfl, rfl, rfl, forImage_queues t, rfl, hs, hmd,
      hrun, hpoint, rfl, ?_, ?_, ?_⟩
    · rw [State.team?, pooled, imageShown_teams]
      exact team?_removeTeam _ t
    · rw [pooled, imageShown_hub, withoutTeam_saved]
    · rw [pooled, imageShown_maps]
      exact owner_ne_removeTeam fun m hm => owner_ne_of_reclaimed hm
    · intro m y k i pa hm hy hk hi hpa hn n hfault hhome hexact hwf
      have hsec : ∀ x, (pooled (imageShown (withoutTeam s t) (savedAs s t die byReply) buffer) (savedAs s t die byReply)).sectorRec x =
          (s.writeBack m y).sectorRec x := fun x => by
        rw [State.sectorRec, pooled, imageShown_sectors, withoutTeam_sectors hm hy]
        rfl
      rw [hsec]
      exact get_writeBack hk hi hpa hn hfault hhome hexact hwf
    · rintro hno a rfl
      rw [withoutTeam_of_unattached hno, pooled]
      show (s.removeTeam t).mem.setN _ _ = _
      rw [removeTeam_mem]
      rfl
  case flushed =>
    intro l waiter hstop hruns hl halone
    refine ⟨fun hmay hstill => ?_, fun hno => execFlushAndRestart_anew ht hstop hruns hl halone hno⟩
    obtain ⟨k, hk, hun, hexec⟩ := execFlushAndRestart_flushed ht hstop hruns hl halone hmay hstill
    have hsid : k.sid = t.launch := launch?_sid hk
    refine ⟨_, _, hexec, team?_removeTeam _ t, launch?_putLaunch hk hsid, rfl, removeTeam_mem _ t, removeTeam_sectors _ t, ?_,
      flushed_owner s t⟩
    exact foldProgress_saved _ t
  case restored =>
    intro s launch cluster col row l x0 xs cores hl hrun hsaved himages hranks hcores hout hserves hrect hteams hmaps hvrf hstash hnacc
      refOf restored
    have hmem : ∀ x ∈ x0 :: xs, x.launch = launch := fun x hx => by
      rw [← hsaved] at hx
      exact of_decide_eq_true (Bool.and_eq_true_iff.1 (List.mem_filter.1 hx).2).1
    have hreturn : CanReturn s l launch x0.die cores (x0 :: xs) :=
      { images := fun x hx => ⟨hmem x hx, ⟨(himages x hx).2.1, (himages x hx).2.2.1⟩, (himages x hx).2.2.2⟩
        ranks := hranks, distinct := hcores
        empty := fun core hcore => ⟨fun t ht hd hc => hteams t ht hd (hc ▸ hcore), fun m hm hd hc => hmaps m hm hd (hc ▸ hcore)⟩
        vrf := hvrf, stash := hstash, nacc := hnacc }
    have hexec := fun {u k} => execTeamRestore_restores (u := u) (k := k) hl hrun hsaved (fun x hx => (himages x hx).1) hout hserves hrect
      hreturn.coreTakes
    refine ⟨fun hheld => ?_, fun r hxs hheld hsid hteam hctx habort => ?_, ?_⟩
    · obtain ⟨u, hu, hall⟩ := hreturn.restored hheld cluster
      have hk : u.launch? launch = some l := by rw [State.launch?, hall.hub]; exact hl
      refine ⟨_, hexec hu hk, hall.mem, congrArg Hub.saved hall.hub, fun x hx => ?_⟩
      have hp : (cores.getD (clrank l.lrec x.team.t) 0, x) ∈ seats l cores (x0 :: xs) := List.mem_map_of_mem hx
      refine ⟨hall.team _ hp, (hall.readyQ _).trans (or_congr_right ⟨?_, fun h => ⟨_, hp, rfl, h⟩⟩), fun e he => ?_⟩
      · rintro ⟨q, hq, href, hq'⟩
        have hsame := List.inj_on_of_nodup_map hreturn.nodup hp hq (congrArg TeamRef.core href)
        rwa [← hsame] at hq'
      · obtain ⟨a, ha⟩ := hall.entries _ hp e he
        exact ⟨_, ha, rfl, rfl, rfl, rfl, rfl, rfl, rfl, rfl, rfl⟩
    · subst hxs
      obtain ⟨u, n, t, hu, hhub, ht, hready, hq, hresumed, hv, hk⟩ := hreturn.resumed hheld hsid hteam hctx habort cluster
      have hl' : u.launch? launch = some l := by rw [State.launch?, hhub]; exact hl
      exact ⟨_, n, t, hexec hu hl', congrArg Hub.heldReplies hhub, ht, hready, hq, hresumed, hv, hk⟩
    · rintro slot rfl
      unfold restoredSlot
      cases x0.team.team.run <;> simp

end Sys2Proof.Machine.Restores

/-! ## What accesses are tested for, in general (R163, R231) -/

namespace Sys2Proof.Machine.AccessTests

section

/-- When every one of some tests passes, so do all of them, with their results in order. -/
theorem testAll_map_ok {α β : Type} {l : List α} {f : α → Except Flt β} {g : α → β} (h : ∀ x ∈ l, f x = .ok (g x)) :
    testAll (l.map f) = .ok (l.map g) := by
  have hmap : l.map f = l.map (fun x => .ok (g x)) := List.map_congr_left h
  simp [testAll, hmap, List.filterMap_map, worstFlt]

end

end Sys2Proof.Machine.AccessTests

/-! ## One step around the meaning of its instruction (O59) -/

namespace Sys2Proof.Machine.Steps

-- one proof after another: side by side they take more threads than the check's memory limit has stacks for
set_option Elab.async false

open AccessTests

section
variable {s : State}

/-! ### The bytes at the PC (R157, R161) -/

/-- The two spellings of the number that bytes stand for. -/
theorem leNat_eq_natOfBytes (bs : List Byte) : leNat bs = natOfBytes bs := by
  induction bs with
  | nil => rfl
  | cons b r ih => simp [leNat, natOfBytes, ih]

/-- The fetch of four bytes whose pages and sectors hold nothing against it. -/
structure Fetchable (s : State) (t : Team) (l : Launch) (a : Word) (pa : Nat → Nat) : Prop where
  launch : s.launch? t.launch = some l
  tables : ∀ x ∈ s.tablesFor l [a.toNat], s.lostHome x = none
  resolves : ∀ i < 4, s.resolveFor t { x := true } (a + BitVec.ofNat 64 i) = .ok (pa i)
  homes : ∀ i < 4, s.lostHome (pa i / 64) = none
  committed : ∀ i < 4, (s.sectorRec (pa i / 64)).prep = false

theorem Fetchable.fetchAt_eq {t : Team} {l : Launch} {a : Word} {pa : Nat → Nat} (h : Fetchable s t l a pa) :
    fetchAt s t a = .word (natOfBytes ((List.range 4).map (fun i => s.codeByte l.adm (pa i)))) ((List.range 4).map (fun i => pa i / 4096)) := by
  have htab : (s.tablesFor l [a.toNat]).findSome? s.lostHome = none := List.findSome?_eq_none_iff.2 h.tables
  have hhome : ((List.range 4).map pa).findSome? (fun pa => s.lostHome (pa / 64)) = none := by
    simpa [List.findSome?_eq_none_iff] using h.homes
  have hprep : ((List.range 4).map pa).any (fun pa => (s.sectorRec (pa / 64)).prep) = false := by
    simpa [List.any_eq_false] using h.committed
  simp only [fetchAt, h.launch, Option.map_some, Option.getD_some, htab]
  rw [testAll_map_ok (g := pa) fun i hi => by rw [h.resolves i (List.mem_range.1 hi)]]
  simp only [hhome, hprep, Bool.false_eq_true, if_false, List.map_map]
  rfl

/-- Bytes from an index on are the bytes that a function lists, when it lists them one by one. -/
theorem map_range_eq_take {bs : List Byte} {f : Nat → Byte} {k : Nat} (hk : k + 4 ≤ bs.length)
    (h : ∀ i < 4, f i = bs.getD (k + i) 0) : (List.range 4).map f = (bs.drop k).take 4 := by
  refine List.ext_getElem (by simp; omega) fun i hi _ => ?_
  have hi4 : i < 4 := by simpa using hi
  rw [List.getElem_map, List.getElem_range, h i hi4, List.getElem_take, List.getElem_drop, List.getD_eq_getElem]

/-- What a list of bytes decodes to, or the event of a word that decodes to nothing (R162). -/
def Runs (bs : List Byte) (i : Instr) : Prop :=
  decode bs = .ok (i, []) ∨ (bs.length = (if hasLiteral (natOfBytes (bs.take 4)) then 8 else 4) ∧
    ∃ e, e ≠ .truncated ∧ decode bs = .error e ∧ i = .illegalInstruction (decide (e = .illegalOpcode)))

/-- The instruction that a first word and a literal word come to. -/
def runsWord (w : Nat) (lit : BitVec 32) : Instr :=
  match decodeWord w lit with
  | .ok i => i
  | .error r => illegalOf r

theorem Runs.four_le {bs : List Byte} {i : Instr} (h : Runs bs i) : 4 ≤ bs.length := by
  obtain h | ⟨h, -⟩ := h
  · by_contra hlt
    simp [decode, Nat.lt_of_not_le hlt] at h
  · split at h <;> omega

/-- Bytes that run are a word, or SMOVL's word and its literal, and nothing more. -/
theorem Runs.length_eq {bs : List Byte} {i : Instr} (h : Runs bs i) :
    bs.length = if hasLiteral (natOfBytes (bs.take 4)) then 8 else 4 := by
  have h4 : ¬ bs.length < 4 := Nat.not_lt.2 h.four_le
  obtain h | ⟨h, -⟩ := h
  · simp only [decode, if_neg h4, leNat_eq_natOfBytes] at h
    split_ifs at h ⊢ with hlit h8
    · split at h
      · have := congrArg List.length (Prod.mk.inj (Except.ok.inj h)).2
        simp at this; omega
      · cases h
    · split at h
      · have := congrArg List.length (Prod.mk.inj (Except.ok.inj h)).2
        simp at this; omega
      · cases h
  · exact h

theorem Runs.eq_runsWord {bs : List Byte} {i : Instr} (h : Runs bs i) :
    i = runsWord (natOfBytes (bs.take 4))
      (if hasLiteral (natOfBytes (bs.take 4)) then BitVec.ofNat 32 (natOfBytes ((bs.drop 4).take 4)) else 0) := by
  have hlen := h.length_eq
  have h4 : ¬ bs.length < 4 := Nat.not_lt.2 h.four_le
  obtain ⟨lit, hlit⟩ : ∃ lit, lit = (if hasLiteral (natOfBytes (bs.take 4)) then BitVec.ofNat 32 (natOfBytes ((bs.drop 4).take 4)) else 0) :=
    ⟨_, rfl⟩
  have hdec : decode bs = (decodeWord (natOfBytes (bs.take 4)) lit).map (fun i => (i, bs.drop bs.length)) := by
    rw [decode, if_neg h4]
    simp only [leNat_eq_natOfBytes, hlit]
    by_cases hl : hasLiteral (natOfBytes (bs.take 4))
    · rw [if_pos hl] at hlen
      simp only [hl, if_true, hlen, lt_irrefl, if_false]
      cases decodeWord (natOfBytes (bs.take 4)) (BitVec.ofNat 32 (natOfBytes ((bs.drop 4).take 4))) <;> rfl
    · rw [if_neg hl] at hlen
      simp only [hl, Bool.false_eq_true, if_false, hlen]
      cases decodeWord (natOfBytes (bs.take 4)) 0 <;> rfl
  rw [← hlit, runsWord]
  cases hw : decodeWord (natOfBytes (bs.take 4)) lit with
  | ok j =>
    rw [hw] at hdec
    obtain h | ⟨-, e, -, h, -⟩ := h
    · exact ((Prod.mk.inj (Except.ok.inj (hdec.symm.trans h))).1).symm
    · cases hdec.symm.trans h
  | error r =>
    rw [hw] at hdec
    obtain h | ⟨-, e, -, h, rfl⟩ := h
    · cases hdec.symm.trans h
    · obtain rfl : r = e := Except.error.inj (hdec.symm.trans h)
      rfl

/-- The context whose turn it is, `v`, runs `i`: the bytes at its PC are there, and `i` is what they come to. -/
theorem fetchMove_eq {v : View} {l : Launch} {bs : List Byte} {i : Instr} {pa : Nat → Nat} (hruns : Runs bs i)
    (hlaunch : s.launch? v.team.launch = some l)
    (htables : ∀ a ∈ [v.ctx.pc, v.ctx.pc + 4], ∀ x ∈ s.tablesFor l [a.toNat], s.lostHome x = none)
    (hbytes : ∀ j < bs.length, s.resolveFor v.team { x := true } (v.ctx.pc + BitVec.ofNat 64 j) = .ok (pa j) ∧
      s.lostHome (pa j / 64) = none ∧ (s.sectorRec (pa j / 64)).prep = false ∧ s.codeByte l.adm (pa j) = bs.getD j 0) :
    fetchMove s v = .run i ((s.noteFrames v.team.launch ((List.range bs.length).map (fun j => pa j / 4096))).noteTeam v.team
      (v.ctx.pc.toNat :: if bs.length = 8 then [(v.ctx.pc + 4).toNat] else [])) := by
  have hlen := hruns.length_eq
  have hfetch : ∀ k a, a = v.ctx.pc + BitVec.ofNat 64 k → a ∈ [v.ctx.pc, v.ctx.pc + 4] → k + 4 ≤ bs.length →
      fetchAt s v.team a = .word (natOfBytes ((bs.drop k).take 4)) ((List.range 4).map (fun i => pa (k + i) / 4096)) := by
    intro k a ha hmem hk
    have hj : ∀ i < 4, k + i < bs.length := fun i hi => by omega
    rw [Fetchable.fetchAt_eq (pa := fun i => pa (k + i)) ⟨hlaunch, htables a hmem, fun i hi => ?_, fun i hi => (hbytes _ (hj i hi)).2.1,
      fun i hi => (hbytes _ (hj i hi)).2.2.1⟩, map_range_eq_take hk fun i hi => (hbytes _ (hj i hi)).2.2.2]
    rw [ha, BitVec.add_assoc, ← BitVec.ofNat_add]
    exact (hbytes _ (hj i hi)).1
  have hfirst := hfetch 0 v.ctx.pc (by simp) (by simp) (by have := hruns.four_le; omega)
  rw [List.drop_zero] at hfirst
  have hrun := hruns.eq_runsWord
  simp only [fetchMove, hfirst, literalOf]
  by_cases hl : hasLiteral (natOfBytes (bs.take 4))
  · rw [if_pos hl] at hlen hrun
    simp only [hl, if_true, hfetch 4 (v.ctx.pc + 4) rfl (by simp) (by omega), hlen, hrun, runsWord]
    cases decodeWord (natOfBytes (bs.take 4)) (BitVec.ofNat 32 (natOfBytes ((bs.drop 4).take 4))) <;> rfl
  · rw [if_neg hl] at hlen hrun
    simp only [hl, Bool.false_eq_true, if_false, hlen, hrun, runsWord, List.append_nil]
    have hzero : BitVec.ofNat 32 0 = 0 := rfl
    rw [hzero]
    cases decodeWord (natOfBytes (bs.take 4)) 0 <;> simp

/-! ### The move, and what follows it (R45, R384, R390) -/

/-- The first turn of the agenda is taken when no loan is overdue and the hub is there. -/
theorem nextMove_of_agenda {t : Turn} {turns : List Turn} (ha : s.agenda = t :: turns) (hhub : s.hubLost = false)
    (hloan : s.clock.overdue = none) : nextMove s = moveOf { s.clock with agenda := turns } (some t) := by
  have hagenda : s.clock.agenda = t :: turns := (State.clock_agenda s).trans ha
  have hlost : s.clock.hubLost = false := (State.clock_hubLost s).trans hhub
  simp only [nextMove, hlost, hloan, nextTurn, hagenda, Bool.false_eq_true, if_false, Bool.false_and]

/-- A context that may issue, and stands at no boundary, fetches. -/
theorem issueMove_eq_fetchMove {r : CtxRef} {v : View} (hv : State.view { s with cur := r } = some v)
    (hmay : mayIssue { s with cur := r } v = true) (hbound : boundaryOf { s with cur := r } v.ctx = none) :
    issueMove s r = fetchMove { s with cur := r } v := by
  simp only [issueMove, hv, hmay, hbound, Bool.not_true, Bool.false_eq_true, if_false]

/-- What a step comes to whose move is to run an instruction. -/
theorem step_of_run {i : Instr} {s1 : State} (h : nextMove s = .run i s1) :
    (∀ u, exec i s1 = .next u → step s = .next (counted i s1 (s1.walked i u))) ∧
    (∀ f, exec i s1 = .fault f → step s = .fault f) ∧ (∀ f, exec i s1 = .refused f → step s = .refused f) := by
  refine ⟨fun u hu => ?_, fun f hf => ?_, fun f hf => ?_⟩ <;> simp only [step, *]

theorem mayComeAbout_of_isEvent {i : Instr} (hev : i.isEvent = true) (hi : ∀ b, i ≠ .illegalInstruction b) :
    mayComeAbout i = true := by
  unfold mayComeAbout
  split
  · exact absurd rfl (hi _)
  · exact hev

/-- No open launch fetches an older byte than the committed one. -/
theorem codeByte_of_unchanged {adm pa : Nat} (h : ∀ x ∈ s.codeLog, x.sector = pa / 64 → x.adm < adm) :
    s.codeByte adm pa = committed s pa := by
  have hnone : s.codeLog.find? (fun x => x.sector = pa / 64 && adm ≤ x.adm) = none := by
    simpa [List.find?_eq_none] using h
  rw [State.codeByte, hnone]

/-- Nothing is counted while no counter selects an event. -/
theorem counted_of_unselected {i : Instr} {u : State} (h : ∀ k : Fin 8, u.hub.perfSel[k] = 0) : counted i s u = u := by
  have hall : u.hub.perfSel.toList.all (· == 0) = true := by
    simp only [List.all_eq_true, beq_iff_eq, Vector.mem_toList_iff, Vector.mem_iff_getElem]
    rintro x ⟨k, hk, rfl⟩
    exact h ⟨k, hk⟩
  rw [counted, if_pos hall]

end

/-- Settles O59: the turn of the agenda comes (`nextMove_of_agenda`), a context's is a fetch of the bytes at its PC (`fetchMove_eq`), and
the step adds the walks and the counts (`step_of_run`). -/
theorem stepRunsTheDecodedInstruction : Obligations.StepRunsTheDecodedInstruction := by
  unfold Obligations.StepRunsTheDecodedInstruction
  refine ⟨?_, ?_, fun s l pa h => codeByte_of_unchanged h, fun i s u h => counted_of_unselected h⟩
  · intro s r turns v l ha hhub hloan s1 hv hmay hbound hl htab bs hbytes i hruns frames words s2
    choose! pa hpa using hbytes
    have hframes : frames = (List.range bs.length).map (fun j => pa j / 4096) := by
      rw [← List.filterMap_eq_map]
      refine List.filterMap_congr fun j hj => ?_
      rw [(hpa j (List.mem_range.1 hj)).1]
      rfl
    refine step_of_run ((nextMove_of_agenda ha hhub hloan).trans ?_)
    refine (issueMove_eq_fetchMove (s := { s.clock with agenda := turns }) hv hmay hbound).trans ?_
    exact (fetchMove_eq hruns hl htab hpa).trans (by rw [← hframes])
  · intro s i turns ha hhub hloan hev hi s1
    refine step_of_run ((nextMove_of_agenda ha hhub hloan).trans ?_)
    rw [moveOf, if_pos (mayComeAbout_of_isEvent hev hi)]

end Sys2Proof.Machine.Steps

/-! ## Instructions that are ready pass the tests of R163 -/

namespace Sys2Proof.Machine.Readiness

section
variable {s u : State} {v : View}

/-- A per-lane instruction whose names are free is tested for its registers and its mode alone. -/
theorem fault_none_of_laneReady {names : List RegName} {r : Req} (h : LaneReady s v names) (he : r.enc = true) (hc : r.ctxs = teamOnly)
    (hr : r.regs = true) (hm : r.mode = true) (hn : ∀ n ∈ r.names, n ∈ names ++ v.maskNames) : r.fault v = none :=
  Req.fault_none he (by simp [hc, teamOnly, h.2]) hr hm (lookaheadHit_mono hn h.1.2)

/-- A per-lane vector instruction that is ready and accepts its mode has its effect. -/
theorem instr_vreq {regs : List (Bool × Nat)} {extra : List RegName} {req : View → Req} {body : View → Except Flt State} {mode : Bool}
    (h : VectorReady s v regs extra) (hreq : req v = vreq v mode regs extra) (hm : mode = true) (hb : body v = .ok u) :
    instr s req body = .next u := by
  refine instr_ok h.1.1.1 ?_ hb
  rw [hreq]
  exact fault_none_of_laneReady h.1 rfl rfl (List.all_eq_true.2 h.2) hm fun _ hn => hn

/-- The window over a vector destination (R44). -/
theorem openWindow_vNames (op la : Nat) (w : Bool) (d : Nat) :
    openWindow op la (vNames w d) = some { op := op, left := la, names := vNames w d } := by
  cases w <;> rfl

end

end Sys2Proof.Machine.Readiness

/-! ## Moves across lanes (O24) -/

namespace Sys2Proof.Machine.CrossLane

-- one proof after another: side by side they take more threads than the check's memory limit has stacks for
set_option Elab.async false

open Readiness

section
variable {s : State} {v : View} {d a b : Fin 64} {la : Fin 16}

/-- What completion makes of a result of the cross-lane unit without flags. -/
def moved (s : State) (v : View) (d : Fin 64) (la : Fin 16) (t : Team) : State :=
  s.retire v t ((v.ctx.advance (v.ctx.pc + 4) (some { op := 0, left := la, names := vNames v.wide d })).raise 0)

theorem xlDone_eq_moved (t : Team) : xlDone s v t 0 la (vNames v.wide d) = moved s v d la t := by
  rw [xlDone, openWindow_vNames, moved]

/-- A move delivers the element of the lane that its rule names (R225). -/
theorem xlMove_ready {idx : List Nat} {extra : List RegName} {f : View → Nat → Option Nat} {g : Nat → Option Nat} (hty : v.ty ≤ 14)
    (h : VectorReady s v ((v.wide, d.val) :: (v.wide, a.val) :: idx.map (fun r => (false, r))) extra) (hfg : ∀ l, f v l = g l) :
    xlMove s d a idx extra la f =
      .next (moved s v d la (v.team.setElems v.wide d v.eff (fun l => (g l).map (fun j => v.team.elem v.wide a j)))) := by
  refine instr_vreq h rfl (decide_eq_true hty) ?_
  rw [← xlDone_eq_moved, ← funext hfg]
  rfl

theorem groupBase_eq (l : Nat) : groupBase l = 32 * (l / 32) := Nat.mul_comm ..

/-- Exchanging within a group changes the place in the group alone: the other bits of the lane's number stay. -/
theorem groupBase_xor (l : Nat) {x : Nat} (hx : x < 32) : groupBase l + l % 32 ^^^ x = 32 * (l / 32) + Nat.xor (l % 32) x := by
  have hl : l % 32 < 2 ^ 5 := Nat.mod_lt _ (by decide)
  have hxor : Nat.xor (l % 32) x < 2 ^ 5 := Nat.xor_lt_two_pow hl hx
  rw [groupBase_eq]
  refine Nat.eq_of_testBit_eq fun i => ?_
  rw [show 32 * (l / 32) = 2 ^ 5 * (l / 32) from rfl, Nat.testBit_xor, Nat.testBit_two_pow_mul_add _ hl, Nat.testBit_two_pow_mul_add _ hxor]
  split
  · exact (Nat.testBit_xor ..).symm
  · rw [Nat.testBit_lt_two_pow (hx.trans_le (Nat.pow_le_pow_right (n := 2) (i := 5) (by decide) (by omega))), Bool.xor_false]

/-- VCMPR packs the lanes of E into the lowest lanes (R227). -/
theorem execVcmpr_ready (hty : v.ty ≤ 14) (h : VectorReady s v [(v.wide, d.val), (v.wide, a.val)] []) :
    execVcmpr d a la s = .next (moved s v d la (v.team.setElems v.wide d (lanesBelow v.lanes.length)
      (fun j => (v.lanes[j]?).map (fun i => v.team.elem v.wide a i)))) := by
  refine instr_vreq h rfl (decide_eq_true hty) ?_
  rw [← xlDone_eq_moved]
  rfl

end

/-- Settles O24: each move names the lane of its rule (`xlMove_ready`), within the group by its base. -/
theorem crossLaneMoves : Obligations.CrossLaneMoves := by
  unfold Obligations.CrossLaneMoves
  intro s v d a b la w hty n idx done
  refine ⟨?_, fun h => ?_⟩
  · simp only [List.forall_mem_cons, List.not_mem_nil, IsEmpty.forall_iff, implies_true, and_true]
    refine ⟨fun h => ?_, fun h => ?_, fun h => ?_, fun h => ?_, fun h => ?_⟩
    case refine_1 => exact xlMove_ready (idx := [b.val]) hty h fun l => by rw [groupBase_eq]
    case refine_2 => exact xlMove_ready (idx := []) hty h fun l => (if_congr Nat.not_lt.symm rfl rfl).trans (ite_not ..)
    case refine_3 => exact xlMove_ready (idx := []) hty h fun l => (if_congr Nat.not_le.symm rfl rfl).trans (ite_not ..)
    case refine_4 => exact xlMove_ready (idx := [b.val]) hty h fun l => congrArg some (groupBase_xor l (Nat.mod_lt _ (by decide)))
    case refine_5 => exact xlMove_ready (idx := []) hty h fun l => rfl
  · exact execVcmpr_ready hty h

end Sys2Proof.Machine.CrossLane

/-! ## Operand queues (O37) -/

namespace Sys2Proof.Machine.Queues

-- one proof after another: side by side they take more threads than the check's memory limit has stacks for
set_option Elab.async false

open Control Readiness

section
variable {s : State} {v : View} {d : Fin 64} {q : Fin 4}

/-- A team whose access context has ended, or that has none (R287). -/
def AccessEnded (t : Team) : Prop := t.access = none ∨ ∃ c, t.access = some c ∧ c.run = .ended

theorem accessOver_iff (t : Team) : t.accessOver = true ↔ AccessEnded t := by
  cases h : t.access <;> simp [Team.accessOver, AccessEnded, h]

/-! ### VPOP (R286) -/

/-- VPOP of an entry writes its words as elements of one word. -/
theorem setRow_eq_setElems (t : Team) (m : Mask) (e : List Lane) (r : Nat) :
    t.setRow r (fun l => if inMask m l then e[l]? else none) = t.setElems false r m (fun l => (e[l]?).map (·.toNat)) := by
  have hword : ∀ l : Nat, (e[l]?).map (fun x : Lane => BitVec.ofNat 32 (x.toNat / 2 ^ 0)) = e[l]? := fun l => by
    cases e[l]? <;> simp
  simp only [Team.setElems, Bool.false_eq_true, if_false, Option.map_map, Function.comp_def, hword]

section
variable (h : LaneReady s v [.v d]) (hq : q.val < v.team.nq) (hd : v.team.vOk false d = true)
include h hq hd

theorem execVpop_noLane (he : v.eff = 0) : execVpop d q s = .next (s.retireEnding v v.team v.ctx.step4) :=
  instr_ok h.1.1 (fault_none_of_laneReady h rfl rfl (by simp [hq, hd]) rfl fun _ hn => hn) (if_pos he)

theorem execVpop_entry (he : v.eff ≠ 0) {e : List Lane} {rest : List (List Lane)} (hent : (v.team.queue q).entries = e :: rest) :
    execVpop d q s = .next (s.retireEnding v ((v.team.setElems false d v.eff (fun l => (e[l]?).map (·.toNat))).setQueue q
      { v.team.queue q with entries := rest }) v.ctx.step4) := by
  refine instr_ok h.1.1 (fault_none_of_laneReady h rfl rfl (by simp [hq, hd]) rfl fun _ hn => hn) ?_
  simp only [if_neg he, hent, setRow_eq_setElems]

theorem execVpop_waits (he : v.eff ≠ 0) (hent : (v.team.queue q).entries = [])
    (hmore : (v.team.queue q).stream ≠ none ∨ ¬ AccessEnded v.team) :
    execVpop d q s = .next (s.putTeam { v.team with slot := .waiting (.vpop q) }) := by
  have hmay : ((v.team.queue q).stream.isSome || !v.team.accessOver) = true := by
    simpa [← accessOver_iff, Option.isSome_iff_ne_none] using hmore
  refine instr_ok h.1.1 (fault_none_of_laneReady h rfl rfl (by simp [hq, hd]) rfl fun _ hn => hn) ?_
  simp only [if_neg he, hent, hmay, if_true, State.await, h.2]

theorem execVpop_misuse (he : v.eff ≠ 0) (hent : (v.team.queue q).entries = []) (hs : (v.team.queue q).stream = none)
    (hover : AccessEnded v.team) : execVpop d q s = .next (park s v { code := .queueMisuse } 0 []) := by
  refine instr_error h.1.1 (fault_none_of_laneReady h rfl rfl (by simp [hq, hd]) rfl fun _ hn => hn) ?_
  simp only [if_neg he, hent, hs, (accessOver_iff _).2 hover, Option.isSome_none, Bool.not_true, Bool.or_self, Bool.false_eq_true, if_false]

end

/-! ### QSTAT (R287) -/

theorem execQstat_ready (h : Ready s v [.s d]) (hk : v.kind = .team) (hq : q.val < v.team.nq) {e active : Nat}
    (he : e = if v.team.accessOver then 1 else 0) (ha : active = if (v.team.queue q).stream = none then 0 else 1) :
    execQstat d q s = .next (s.retire v v.team (v.ctx.setS d (BitVec.ofNat 64
      (e * 2 ^ 33 + active * 2 ^ 32 + v.team.qdepth * 2 ^ 16 + (v.team.queue q).entries.length))).step4) := by
  refine instr_ok h.1 (Req.fault_none rfl (by simp [teamOnly, hk]) (decide_eq_true hq) rfl h.2) ?_
  cases hover : v.team.accessOver <;> cases hstr : (v.team.queue q).stream <;> simp [he, ha, hover, hstr, at_]

/-! ### ASTR and AQWAIT (R283, R285) -/

/-- The number of entries of a stream is the product of its three counts. -/
theorem streamLen_eq (desc : List Word) : streamLen desc =
    (desc.getD 5 0).toNat % 2 ^ 32 * ((desc.getD 5 0).toNat / 2 ^ 32) * ((desc.getD 6 0).toNat % 2 ^ 32) := by
  have hhigh : (desc.getD 5 0).toNat / 2 ^ 32 % 2 ^ 32 = (desc.getD 5 0).toNat / 2 ^ 32 :=
    Nat.mod_eq_of_lt (by have := (desc.getD 5 0).isLt; omega)
  simp only [streamLen, streamCounts, qa, bits, Nat.reduceAdd, Nat.reduceSub, Nat.pow_zero, Nat.div_one, hhigh]
  ring

theorem execAstr_ready (h : Ready s v ((List.range 8).map (fun i => .s (d.val + i)))) (hk : v.kind = .access) (hd : d.val ≤ 56)
    (hq : q.val < v.team.nq) (hf : streamFault v.team ((List.range 8).map (fun i => v.ctx.getSN (d.val + i))) = none) :
    execAstr q d s = .next (if (v.team.queue q).stream ≠ none then s
      else s.retireEnding v
        (if streamLen ((List.range 8).map (fun i => v.ctx.getSN (d.val + i))) = 0 then v.team else v.team.setQueue q
          { v.team.queue q with stream := some { desc := (List.range 8).map (fun i => v.ctx.getSN (d.val + i))
                                                 i0 := 0, i1 := 0, i2 := 0, upto := s.serial, paused := false } }) v.ctx.step4) := by
  refine instr_ok h.1 (Req.fault_none (decide_eq_true hd) (by simp [accessOnly, hk]) (decide_eq_true hq) rfl h.2) ?_
  simp only [hf]
  cases (v.team.queue q).stream <;> simp

theorem execAqwait_ready (hv : s.view = some v) (hk : v.kind = .access) (hq : q.val < v.team.nq) :
    execAqwait q s = .next (if (v.team.queue q).stream = none ∨ (v.team.queue q).closed = true
      then s.retire v v.team v.ctx.step4 else s) := by
  refine instr_ok hv (Req.fault_none rfl (by simp [accessOnly, hk]) (decide_eq_true hq) rfl (lookaheadHit_nil _)) ?_
  cases hs : (v.team.queue q).stream <;> cases hc : (v.team.queue q).closed <;> simp [hs, hc]

end

/-- Settles O37: one lemma per instruction, and for VPOP one per case of its queue. -/
theorem queueInstructions : Obligations.QueueInstructions := by
  unfold Obligations.QueueInstructions
  intro s v d q hq oq ended
  refine ⟨fun h hd => ⟨execVpop_noLane h hq hd, execVpop_waits h hq hd, execVpop_misuse h hq hd,
    fun e rest he hent => execVpop_entry h hq hd he hent⟩, ?_, ?_, ?_⟩
  · intro h hk e active he ha
    exact execQstat_ready h hk hq (he.trans (if_congr (accessOver_iff _).symm rfl rfl)) ha
  · intro h hk hd desc hf
    refine ⟨fun hs => ?_, fun hs => ?_⟩
    · exact (execAstr_ready h hk hd hq hf).trans (congrArg _ (if_pos hs))
    · intro cnt
      rw [exec_astr, execAstr_ready h hk hd hq hf, if_neg (not_not.2 hs), streamLen_eq]
  · exact fun hv hk => execAqwait_ready hv hk hq

end Sys2Proof.Machine.Queues

/-! ## ATOM and RED (O32) -/

namespace Sys2Proof.Machine.AccessTests

section
variable {s : State} {v : View}

/-- The address of a lane, spelled as a zero-extension (R230). -/
theorem laneAddr_eq (v : View) (a b : Fin 64) (l : Nat) : laneAddr v a b l = v.ctx.getS a + (v.team.lane b l).zeroExtend 64 := by
  rw [laneAddr, BitVec.ofNat_toNat]

/-- A counter that is not full has room for an entry. -/
theorem room_of_room {ps : List Path} (h : Room s v ps) : s.room v.team.ref ps = true := by
  rw [State.room, List.all_eq_true]
  exact fun p hp => decide_eq_true (h p hp)

/-- An operation that touches no window is the one that its instruction begins. -/
theorem addOp_eq_began (path : Path) (kind : OpKind) :
    s.addOp v.ref v.team.lv (some path) kind = s.began v [] path kind := by
  simp [State.addOp, State.began]

end

end Sys2Proof.Machine.AccessTests

namespace Sys2Proof.Machine.Atomics

-- one proof after another: side by side they take more threads than the check's memory limit has stacks for
set_option Elab.async false

open Readiness AccessTests

section
variable {s : State} {v : View} {sub : Nat} {d a b : Fin 64} {la : Fin 16} {pa : Nat → Nat}

/-- The ATOM words with the numbers of their operations. -/
def atomForms (d a b : Fin 64) (la : Fin 16) : List (Instr × Nat) :=
  [(.atomAdd d a b la, 0), (.atomMin d a b la, 1), (.atomMax d a b la, 2), (.atomMinn d a b la, 3), (.atomMaxn d a b la, 4),
    (.atomAnd d a b la, 5), (.atomOr d a b la, 6), (.atomXor d a b la, 7), (.atomExch d a b la, 8), (.atomCas d a b la, 9),
    (.atomIncw d a b la, 10), (.atomAddb d a b la, 11), (.atomExchq d a b la, 12)]

/-- The RED words with the numbers of their operations. -/
def redForms (d a b : Fin 64) (la : Fin 16) : List (Instr × Nat) :=
  [(.redAdd d a b la, 0), (.redMin d a b la, 1), (.redMax d a b la, 2), (.redMinn d a b la, 3), (.redMaxn d a b la, 4),
    (.redAnd d a b la, 5), (.redOr d a b la, 6), (.redXor d a b la, 7), (.redFadd d a b la, 8), (.redFmin d a b la, 9),
    (.redFmax d a b la, 10)]

theorem exec_atomForms {p : Instr × Nat} (hp : p ∈ atomForms d a b la) : exec p.1 s = atomOp p.2 d a b la s := by
  revert p
  simp only [atomForms, List.forall_mem_cons, List.not_mem_nil, IsEmpty.forall_iff, implies_true, and_true]
  exact ⟨rfl, rfl, rfl, rfl, rfl, rfl, rfl, rfl, rfl, rfl, rfl, rfl, rfl⟩

theorem exec_redForms {p : Instr × Nat} (hp : p ∈ redForms d a b la) : exec p.1 s = redOp p.2 d a b s := by
  revert p
  simp only [redForms, List.forall_mem_cons, List.not_mem_nil, IsEmpty.forall_iff, implies_true, and_true]
  exact ⟨rfl, rfl, rfl, rfl, rfl, rfl, rfl, rfl, rfl, rfl, rfl⟩

/-! ### ATOM (R243, R244) -/

/-- The register of operand b, and of EXCHQ's tag. -/
def second (v : View) (d : Fin 64) : Nat := if v.wide then d.val + 2 else d.val + 1

theorem atomOp_register (hv : s.view = some v) (hk : v.kind = .team)
    (hr : (v.team.vOk v.wide d && v.team.vOk v.wide (second v d) && v.team.vOk false b) = false) :
    atomOp sub d a b la s = .next (park s v { code := .illegalRegister } 0 []) :=
  instr_fault hv (Illegal.fault_register rfl (by simp [teamOnly, hk]) hr)

theorem atomOp_mode (hv : s.view = some v) (hk : v.kind = .team)
    (hr : (v.team.vOk v.wide d && v.team.vOk v.wide (second v d) && v.team.vOk false b) = true) (hm : atomModeOk v.ctx.md = false) :
    atomOp sub d a b la s = .next (park s v { code := .illegalMode } 0 []) :=
  instr_fault hv (Illegal.fault_mode rfl (by simp [teamOnly, hk]) hr hm)

/-- The accesses of an ATOM, one for each lane of E. -/
def atomLanesOf (v : View) (d a b : Fin 64) (pa : Nat → Nat) : List AtomLane :=
  v.lanes.map (fun i => { lane := i, va := (laneAddr v a b i).toNat, pa := pa i, a := BitVec.ofNat 64 (v.team.elem v.wide d i)
                          b := BitVec.ofNat 64 (v.team.elem v.wide (second v d) i), res := none })

/-- A window over vector registers alone has all of them pending. -/
theorem openWindow_atomDst (op la : Nat) (sub : Nat) (w : Bool) (d : Nat) :
    openWindow op la (atomDst sub w d) = some { op := op, left := la, names := atomDst sub w d } := by
  by_cases h : sub = 12 <;> cases w <;> simp [openWindow, pendingNames, atomDst, vNames, h]

theorem isEmpty_atomLanesOf : (atomLanesOf v d a b pa).isEmpty = v.lanes.isEmpty := by simp [atomLanesOf]

/-- An ATOM whose lanes pass their tests goes on without an access, puts one operation in flight, or waits for its counter. -/
theorem atomOp_tested (hr : (v.team.vOk v.wide d && v.team.vOk v.wide (second v d) && v.team.vOk false b) = true)
    (hm : atomModeOk v.ctx.md = true) (h : LaneReady s v (atomDst sub v.wide d ++ atomSrc sub v.wide d ++ [.s a.val, .v b.val]))
    (hok : ∀ i ∈ v.lanes, globTest s v.team (some i) (laneAddr v a b i) (if v.wide then 8 else 4) { r := true, w := true } =
      .ok (.glob (laneAddr v a b i).toNat (pa i))) :
    let next := fun op => v.ctx.advance (v.ctx.pc + 4) (some { op := op, left := la, names := atomDst sub v.wide d })
    atomOp sub d a b la s = .next (
      if v.lanes.isEmpty then s.retireEnding v v.team (next 0)
      else if s.room v.team.ref [.atom] then
        (s.began v [] .atom (.atom sub v.wide d (atomLanesOf v d a b pa))).retireEnding v v.team (next s.serial)
      else s) := by
  have hfree : ∀ n ∈ atomDst sub v.wide d ++ atomSrc sub v.wide d ++ [.s a.val] ++ vNames false b ++ v.maskNames,
      n ∈ atomDst sub v.wide d ++ atomSrc sub v.wide d ++ [.s a.val, .v b.val] ++ v.maskNames :=
    fun _ hn => by simpa [vNames, or_assoc] using hn
  refine instr_ok h.1.1 (fault_none_of_laneReady h rfl rfl hr hm hfree) ?_
  dsimp only
  rw [testAll_map_ok (g := fun i => { lane := i, va := (laneAddr v a b i).toNat, pa := pa i, a := BitVec.ofNat 64 (v.team.elem v.wide d i)
                                      b := BitVec.ofNat 64 (v.team.elem v.wide (second v d) i), res := none })
    fun i hi => by exact congrArg _ (hok i hi)]
  simp only [← atomLanesOf.eq_1, isEmpty_atomLanesOf, openWindow_atomDst, ← addOp_eq_began, ← View.wide.eq_1]
  cases v.lanes.isEmpty <;> cases s.room v.team.ref [.atom] <;> rfl

/-! ### RED (R246) -/

theorem redOp_mode (h : VectorReady s v [(v.wide, d.val), (false, b.val)] [.s a]) (hm : redModeOk sub v.ctx.md = false) :
    redOp sub d a b s = .next (park s v { code := .illegalMode } 0 []) := by
  have hregs : (v.team.vOk v.wide d && v.team.vOk false b) = true := by simpa using h.2
  exact instr_fault h.1.1.1 (Illegal.fault_mode rfl (by simp [teamOnly, h.1.2]) hregs hm)

/-- The contributions of a RED, one for each lane of E. -/
def redLanesOf (v : View) (d a b : Fin 64) (pa : Nat → Nat) : List RedLane :=
  v.lanes.map (fun i => { lane := i, va := (laneAddr v a b i).toNat, pa := pa i, bits := BitVec.ofNat 64 (v.team.elem v.wide d i) })

theorem isEmpty_redLanesOf : (redLanesOf v d a b pa).isEmpty = v.lanes.isEmpty := by simp [redLanesOf]

/-- A RED whose lanes pass their tests goes on without an access, puts one operation in flight, or waits for its counter. -/
theorem redOp_tested (h : VectorReady s v [(v.wide, d.val), (false, b.val)] [.s a]) (hm : redModeOk sub v.ctx.md = true)
    (hok : ∀ i ∈ v.lanes, globTest s v.team (some i) (laneAddr v a b i) (typeBits v.ty / 8) { w := true } =
      .ok (.glob (laneAddr v a b i).toNat (pa i))) :
    redOp sub d a b s = .next (
      if v.lanes.isEmpty then s.retireEnding v v.team v.ctx.step4
      else if s.room v.team.ref [.red] then
        (s.began v [] .red (.red sub v.ty (mdRnd v.ctx.md) (seedOf s v.team) (redLanesOf v d a b pa))).retireEnding v v.team v.ctx.step4
      else s) := by
  have hregs : (v.team.vOk v.wide d && v.team.vOk false b) = true := by simpa using h.2
  have hfree : ∀ n ∈ vNames v.wide d ++ [.s a.val] ++ vNames false b ++ v.maskNames,
      n ∈ [vNames v.wide d, vNames false b].flatten ++ [.s a.val] ++ v.maskNames :=
    fun _ hn => by simp only [List.flatten_cons, List.flatten_nil, List.mem_append, List.append_nil] at hn ⊢; tauto
  refine instr_ok h.1.1.1 (fault_none_of_laneReady h.1 rfl rfl hregs hm hfree) ?_
  dsimp only
  rw [testAll_map_ok (g := fun i => { lane := i, va := (laneAddr v a b i).toNat, pa := pa i
                                      bits := BitVec.ofNat 64 (v.team.elem v.wide d i) })
    fun i hi => by exact congrArg _ (hok i hi)]
  simp only [← redLanesOf.eq_1, isEmpty_redLanesOf, ← addOp_eq_began]
  cases v.lanes.isEmpty <;> cases s.room v.team.ref [.red] <;> rfl

/-! ### The values (R244, R246) -/

/-- Of a number that fits its width, the two readings as signed agree. -/
theorem signedOf_eq_toInt {w n : Nat} (hw : 0 < w) (hn : n < 2 ^ w) : signedOf w n = (BitVec.ofNat w n).toInt := by
  obtain ⟨k, rfl⟩ := Nat.exists_eq_add_of_lt hw
  rw [Nat.zero_add] at hn ⊢
  have hpow : 2 ^ (k + 1) = 2 * 2 ^ k := Nat.pow_succ'
  rw [signedOf, BitVec.toInt_eq_toNat_cond, BitVec.toNat_ofNat, Nat.mod_eq_of_lt hn, Nat.add_sub_cancel]
  split_ifs <;> omega

theorem atomModeOk_eq (md : BitVec 26) : atomModeOk md = decide (4 ≤ mdType md ∧ mdType md ≤ 7) := (Bool.decide_and ..).symm

theorem atomSrc_eq (sub : Nat) (w : Bool) (d : Nat) :
    atomSrc sub w d = if sub ∈ [9, 10, 11] then vNames w (if w then d + 2 else d + 1) else [] := by
  simp [atomSrc, or_assoc]

/-- The types that a RED operation takes (R246). -/
theorem redModeOk_iff (sub : Nat) (md : BitVec 26) : redModeOk sub md = true ↔
    if sub ≤ 7 then 4 ≤ mdType md ∧ mdType md ≤ 7 else 8 ≤ mdType md ∧ mdType md ≤ 10 ∧ (sub = 8 → rndOk md = true) := by
  unfold redModeOk
  split_ifs <;> simp [imp_iff_not_or, and_assoc]

section
variable {w old a b : Nat} (hw : 0 < w) (ho : old < 2 ^ w) (ha : a < 2 ^ w)
include hw ho ha

theorem atomValue_values :
    ∀ p ∈ ([(0, (old + a) % 2 ^ w), (1, if (BitVec.ofNat w old).toInt ≤ (BitVec.ofNat w a).toInt then old else a),
        (2, if (BitVec.ofNat w old).toInt ≤ (BitVec.ofNat w a).toInt then a else old), (3, if old ≤ a then old else a),
        (4, if old ≤ a then a else old), (5, old &&& a), (6, old ||| a), (7, old ^^^ a), (8, a), (9, if old = a then b else old),
        (10, if b = 0 then (old + a) % 2 ^ w else (old + a) % b), (11, if b ≤ old then old else min (old + a) b), (12, a)] :
          List (Nat × Nat)), atomValue p.1 w old a b = p.2 := by
  simp only [List.forall_mem_cons, List.not_mem_nil, IsEmpty.forall_iff, implies_true, atomValue,
    signedOf_eq_toInt hw ho, signedOf_eq_toInt hw ha, Nat.min_def, Nat.max_def, and_self]

theorem redValue_values {ty : Nat} (hty : typeBits ty = w) :
    ∀ p ∈ ([(0, (old + a) % 2 ^ w), (1, if (BitVec.ofNat w old).toInt ≤ (BitVec.ofNat w a).toInt then old else a),
        (2, if (BitVec.ofNat w old).toInt ≤ (BitVec.ofNat w a).toInt then a else old), (3, if old ≤ a then old else a),
        (4, if old ≤ a then a else old), (5, old &&& a), (6, old ||| a), (7, old ^^^ a)] : List (Nat × Nat)),
      redValue p.1 ty old a = p.2 := by
  simp only [List.forall_mem_cons, List.not_mem_nil, IsEmpty.forall_iff, implies_true, redValue, hty,
    Nat.mod_eq_of_lt ho, Nat.mod_eq_of_lt ha, signedOf_eq_toInt hw ho, signedOf_eq_toInt hw ha, Nat.min_def, Nat.max_def, and_self]

end

end

/-- Settles O32: an ATOM or RED whose lanes pass comes to `atomOp_tested` or `redOp_tested`, and the values follow their tables. -/
theorem atomicInstructions : Obligations.AtomicInstructions := by
  unfold Obligations.AtomicInstructions
  refine ⟨?_, ?_⟩
  · intro s v d a b la pa w ty d2 x atoms reds redType
    have hx : x = laneAddr v a b := (funext (laneAddr_eq v a b)).symm
    clear_value x
    subst hx
    refine ⟨fun hv hk hr p hp => (exec_atomForms hp).trans (atomOp_register hv hk hr), fun hv hk hd hd2 hb => ?_, fun h p hp => ?_⟩
    · have hregs : (v.team.vOk v.wide d && v.team.vOk v.wide (second v d) && v.team.vOk false b) = true :=
        Bool.and_eq_true_iff.2 ⟨Bool.and_eq_true_iff.2 ⟨hd, hd2⟩, hb⟩
      refine ⟨fun hty p hp => (exec_atomForms hp).trans (atomOp_mode hv hk hregs ?_), ?_⟩
      · rw [atomModeOk_eq, decide_eq_false_iff_not]
        exact fun hc => hty.elim (Nat.not_lt.2 hc.1) (Nat.not_lt.2 hc.2)
      · intro h4 h7 hok p hp names read h next each
        have hread : read = atomSrc p.2 w d := (atomSrc_eq ..).symm
        rw [hread] at h
        have hissue := (exec_atomForms hp).trans
          (atomOp_tested (sub := p.2) (la := la) hregs ((atomModeOk_eq _).trans (decide_eq_true ⟨h4, h7⟩)) h hok)
        refine ⟨fun hnone => hissue.trans ?_, fun hsome hroom => hissue.trans ?_⟩
        · rw [if_pos (List.isEmpty_iff.2 hnone)]
          rfl
        · rw [if_neg (mt List.isEmpty_iff.1 hsome), if_pos (room_of_room hroom)]
          rfl
    · refine ⟨fun hty => (exec_redForms hp).trans (redOp_mode h (Bool.not_eq_true _ ▸ mt (redModeOk_iff ..).1 hty)), ?_⟩
      intro hty hok each
      have hissue := (exec_redForms hp).trans (redOp_tested h ((redModeOk_iff ..).2 hty) hok)
      refine ⟨fun hnone => hissue.trans ?_, fun hsome hroom => hissue.trans ?_⟩
      · rw [if_pos (List.isEmpty_iff.2 hnone)]
      · rw [if_neg (mt List.isEmpty_iff.1 hsome), if_pos (room_of_room hroom)]
        rfl
  · intro x old a b w signed ho ha hb low high
    have hw : 0 < w := by cases x <;> decide
    exact ⟨atomValue_values hw ho ha, redValue_values hw ho ha (by cases x <;> rfl)⟩

end Sys2Proof.Machine.Atomics

/-! ## Windows that accesses touch (R105, R106) -/

namespace Sys2Proof.Machine.Touching

-- one proof after another: side by side they take more threads than the check's memory limit has stacks for
set_option Elab.async false

section
variable {s t u : State} {v : View} {pre pre' : List Op}

/-! ### Operations of windows, put in flight one after another -/

/-- From `s` the fills and takings of ownership `pre` of a context have been put in flight, and nothing else has happened. -/
structure Touches (s u : State) (v : View) (pre : List Op) : Prop where
  eq : u = { s with ops := s.ops ++ pre, serial := s.serial + pre.length }
  ops : WindowOps s v pre

theorem windowOps_iff : WindowOps s v pre ↔ ∀ i o, pre[i]? = some o → o.id = s.serial + i ∧ o.own = v.ref ∧ o.done = false ∧
    ∃ die core n ix, (o.path = some .fill ∧ ∃ pas, o.kind = .fill die core n ix pas) ∨
      (o.path = some .store ∧ o.kind = .own die core n ix []) := by
  simp only [WindowOps, Prod.forall, List.mem_zipIdx_iff_getElem?]
  exact forall_comm

theorem Touches.refl : Touches s s v [] where
  eq := by simp
  ops := windowOps_iff.2 (by simp)

theorem Touches.trans (h : Touches s t v pre) (h' : Touches t u v pre') : Touches s u v (pre ++ pre') where
  eq := by rw [h'.eq, h.eq]; simp [Nat.add_assoc]
  ops := by
    refine windowOps_iff.2 fun i o hi => ?_
    rw [List.getElem?_append] at hi
    split at hi
    · exact windowOps_iff.1 h.ops i o hi
    · have hlate := windowOps_iff.1 h'.ops _ o hi
      rw [h.eq] at hlate
      exact ⟨hlate.1.trans (by dsimp only; omega), hlate.2⟩

theorem touches_addFill (lv : BitVec 16) (die core n ix : Nat) (pas : List Nat) :
    ∃ o, Touches s (s.addOp v.ref lv (some .fill) (.fill die core n ix pas)) v [o] :=
  ⟨_, rfl, by simp [WindowOps]⟩

theorem touches_addOwn (lv : BitVec 16) (die core n ix : Nat) :
    ∃ o, Touches s (s.addOp v.ref lv (some .store) (.own die core n ix [])) v [o] :=
  ⟨_, rfl, by simp [WindowOps]⟩

/-- The touch of one window sector starts a fill, takes ownership, does both or neither. -/
theorem startSector_touches (m : MapEntry) (ix : Nat) (write : Bool) (need : Need) :
    ∃ pre, Touches s (s.startSector v.ref m ix write need) v pre := by
  have hfill : ∃ pre, Touches s (if s.startsFill (m, ix) then
      match windowPas s m ix need with
      | .ok pas => s.addOp v.ref m.lv (some .fill) (.fill m.die m.core m.n ix pas)
      | .error _ => s
    else s) v pre := by
    split
    · split
      · obtain ⟨o, ho⟩ := touches_addFill (v := v) m.lv m.die m.core m.n ix _
        exact ⟨[o], ho⟩
      · exact ⟨[], .refl⟩
    · exact ⟨[], .refl⟩
  obtain ⟨pre, hpre⟩ := hfill
  unfold State.startSector
  dsimp only
  split
  · obtain ⟨o, ho⟩ := touches_addOwn (v := v) m.lv m.die m.core m.n ix
    exact ⟨_, hpre.trans ho⟩
  · exact ⟨_, hpre⟩

theorem foldl_touches {α : Type} {f : State → α → State} (hf : ∀ s x, ∃ pre, Touches s (f s x) v pre) (l : List α) (s : State) :
    ∃ pre, Touches s (l.foldl f s) v pre := by
  induction l generalizing s with
  | nil => exact ⟨[], .refl⟩
  | cons x r ih =>
    obtain ⟨_, h⟩ := hf s x
    obtain ⟨_, h'⟩ := ih (f s x)
    exact ⟨_, h.trans h'⟩

theorem startTouch_touches (p : Place) (n : Nat) (write : Bool) : ∃ pre, Touches s (s.startTouch v.ref p n write) v pre := by
  cases p with
  | glob va pa => exact ⟨[], .refl⟩
  | stash r off => exact foldl_touches (fun s (q : MapEntry × Nat) => startSector_touches q.1 q.2 write _) _ s

/-! ### Accesses outside every window -/

/-- A range outside every window has no byte in one. -/
theorem windowOf_of_plain {r : TeamRef} {off n i : Nat} (h : s.inWindow r off n = false) (hi : i < n) :
    s.windowOf r (off + i) = none := by
  unfold State.windowOf
  split
  next hsome =>
    rw [State.inWindow, hsome, Bool.true_and, List.any_eq_false] at h
    refine List.find?_eq_none.2 fun m hm hc => h m hm ?_
    simp only [Bool.and_eq_true, decide_eq_true_eq] at hc ⊢
    exact ⟨⟨hc.1.1, by omega⟩, by omega⟩
  next => rfl

/-- A part of a range outside every window lies outside every window. -/
theorem inWindow_part {r : TeamRef} {off n off' n' : Nat} (h : s.inWindow r off n = false) (hlo : off ≤ off') (hhi : off' + n' ≤ off + n) :
    s.inWindow r off' n' = false := by
  rw [State.inWindow, Bool.and_eq_false_iff] at h ⊢
  refine h.imp_right fun hm => ?_
  rw [List.any_eq_false] at hm ⊢
  refine fun m hmem hc => hm m hmem ?_
  simp only [Bool.and_eq_true, decide_eq_true_eq] at hc ⊢
  exact ⟨⟨hc.1.1, by omega⟩, by omega⟩

theorem touched_of_plain {r : TeamRef} {off n : Nat} (h : s.inWindow r off n = false) : s.touched r off n = [] := by
  have hnone : (List.range n).filterMap (fun i => (s.windowOf r (off + i)).map (fun m => (m, (off + i - m.woff) / 64))) = [] := by
    simp only [List.filterMap_eq_nil_iff, List.mem_range, Option.map_eq_none_iff]
    exact fun i hi => windowOf_of_plain h hi
  rw [State.touched, hnone, List.dedup_nil]

theorem startTouch_of_plain {p : Place} {n : Nat} (h : Plain s p n) (c : CtxRef) (write : Bool) : s.startTouch c p n write = s := by
  cases p with
  | glob va pa => rfl
  | stash r off => rw [State.startTouch, touched_of_plain h, List.foldl_nil]

theorem foldl_startTouch_of_plain {ps : List (Place × Nat)} (h : ∀ p ∈ ps, Plain s p.1 p.2) (c : CtxRef) (write : Bool) :
    ps.foldl (fun s p => s.startTouch c p.1 p.2 write) s = s := by
  induction ps with
  | nil => rfl
  | cons p r ih =>
    rw [List.foldl_cons, startTouch_of_plain (h p (by simp))]
    exact ih fun q hq => h q (by simp [hq])

/-- What accesses set in motion for the windows they touch, and nothing when they touch none. -/
theorem foldl_startTouch_touches (ps : List (Place × Nat)) (write : Bool) :
    ∃ pre, Touches s (ps.foldl (fun s p => s.startTouch v.ref p.1 p.2 write) s) v pre ∧ ((∀ p ∈ ps, Plain s p.1 p.2) → pre = []) := by
  by_cases h : ∀ p ∈ ps, Plain s p.1 p.2
  · rw [foldl_startTouch_of_plain h]
    exact ⟨[], .refl, fun _ => rfl⟩
  · obtain ⟨pre, hpre⟩ := foldl_touches (v := v) (fun s (p : Place × Nat) => startTouch_touches p.1 p.2 write) ps s
    exact ⟨pre, hpre, fun hp => absurd hp h⟩

/-! ### Pieces that are atomic apart (R109) -/

theorem isWhole_of_plain {p : Place} {n : Nat} (h : Plain s p n) (hn : 0 < n) : s.isWhole p n = true := by
  cases p with
  | glob va pa => rfl
  | stash r off => simp only [State.isWhole, show s.windowOf r off = none from windowOf_of_plain (i := 0) h hn]

theorem splitLoad_of_plain {x : LoadLane} (h : Plain s x.place x.n) (hn : 0 < x.n) : splitLoad s x = [x] := by
  rw [splitLoad, if_pos (isWhole_of_plain h hn)]

theorem splitStore_of_plain {x : StoreLane} (h : Plain s x.place x.bytes.length) (hn : x.bytes ≠ []) : splitStore s x = [x] := by
  rw [splitStore, if_pos (isWhole_of_plain h (List.length_pos_iff.2 hn))]

/-- An access in a window is whole when it lies in one field and one aligned unit of global memory (R109). -/
theorem isWhole_iff {r : TeamRef} {off n : Nat} {m : MapEntry} (h : s.windowOf r off = some m) : s.isWhole (.stash r off) n = true ↔
    (off - m.woff) / m.w = (off - m.woff + n - 1) / m.w ∧ (m.g (off - m.woff)).toNat % 8 + n ≤ 8 := by
  simp [State.isWhole, h]

/-! ### Loads and stores that have been tested -/

/-- A load with accesses puts one operation in flight after those of the windows it touches. -/
theorem issueLoad_begins {dst : LoadDst} {names : List RegName} {la : Nat} {na : Bool} {lanes : List LoadLane} (hne : lanes ≠ []) :
    ∃ pre, WindowOps s v pre ∧ ((∀ l ∈ lanes, Plain s l.place l.n) → pre = []) ∧
      issueLoad s v dst names la na lanes = (s.began v pre .load (.load dst (lanes.flatMap (splitLoad s)) na)).retire v v.team
        (v.ctx.advance (v.ctx.pc + 4) (openWindow (s.serial + pre.length) la names)) := by
  obtain ⟨pre, ⟨heq, hops⟩, hplain⟩ := foldl_startTouch_touches (s := s) (v := v) (lanes.map (fun l => (l.place, l.n))) false
  refine ⟨pre, hops, fun h => hplain (by simpa using h), ?_⟩
  rw [List.foldl_map] at heq
  rw [issueLoad, if_neg (mt List.isEmpty_iff.1 hne)]
  simp only [heq]
  rfl

/-- A store with accesses puts one operation in flight after those of the windows it touches. -/
theorem issueStore_begins {na : Bool} {lanes : List StoreLane} (hne : lanes ≠ []) :
    ∃ pre, WindowOps s v pre ∧ ((∀ l ∈ lanes, Plain s l.place l.bytes.length) → pre = []) ∧
      issueStore s v na lanes = (s.began v pre .store (.store (lanes.flatMap (splitStore s)) na [])).retire v v.team v.ctx.step4 := by
  obtain ⟨pre, ⟨heq, hops⟩, hplain⟩ := foldl_startTouch_touches (s := s) (v := v) (lanes.map (fun l => (l.place, l.bytes.length))) true
  refine ⟨pre, hops, fun h => hplain (by simpa using h), ?_⟩
  rw [List.foldl_map] at heq
  rw [issueStore, if_neg (mt List.isEmpty_iff.1 hne)]
  simp only [heq]
  rfl

/-! ### Counters (R172) -/

theorem roomTouch_of_le {r : TeamRef} {qs : List (MapEntry × Nat)} {write : Bool} {more : Nat}
    (hf : s.counter r .fill + qs.length ≤ 65535)
    (hs : (write = false ∧ more = 0) ∨ s.counter r .store + qs.length + more ≤ 65535) : s.roomTouch r qs write more = true := by
  have hfill : s.counter r .fill + qs.countP s.startsFill ≤ 65535 := (Nat.add_le_add_left List.countP_le_length _).trans hf
  have hown : qs.countP s.startsOwn ≤ qs.length := List.countP_le_length
  rw [State.roomTouch, Bool.and_eq_true]
  refine ⟨by simp [State.roomN, hfill], ?_⟩
  rcases hs with ⟨hw, hm⟩ | hs
  · simp [hw, hm]
  · simp only [State.roomN, Bool.or_eq_true, decide_eq_true_eq]
    right
    split <;> omega

theorem roomFor_load {ps : List (Place × Nat)} (h : RoomFor s v .load ps) : s.roomFor v.team.ref .load ps = true := by
  obtain ⟨hl, hf, -⟩ := h
  rw [State.roomFor, show (Path.load == Path.store) = false from rfl, roomTouch_of_le hf (.inl ⟨rfl, by simp⟩)]
  simpa [State.room, State.roomN] using .inr hl

theorem roomFor_store {ps : List (Place × Nat)} (h : RoomFor s v .store ps) : s.roomFor v.team.ref .store ps = true := by
  obtain ⟨-, hf, hs⟩ := h
  simp [State.roomFor, roomTouch_of_le hf (.inr (hs rfl))]

/-- Global accesses touch no window. -/
theorem touchedBy_of_glob {ps : List (Place × Nat)} (h : ∀ p ∈ ps, ∃ va pa, p.1 = .glob va pa) : s.touchedBy ps = [] := by
  rw [State.touchedBy, List.flatMap_eq_nil_iff.2, List.dedup_nil]
  intro p hp
  obtain ⟨va, pa, hva⟩ := h p hp
  rw [hva]

end

end Sys2Proof.Machine.Touching

/-! ## Loads and stores begin (O28) -/

namespace Sys2Proof.Machine.Accesses

-- one proof after another: side by side they take more threads than the check's memory limit has stacks for
set_option Elab.async false

open Readiness AccessTests Touching

section
variable {s : State} {v : View} {d a b : Fin 64} {k : Fin 16} {c e na : Bool} {sp z : Fin 4} {la : Fin 16} {place : Nat → Place}

/-! ### The data of accesses -/

/-- The low bytes of a number, one by one. -/
theorem bytesOfNat_eq (n x : Nat) : bytesOfNat n x = (List.range n).map (fun j => BitVec.ofNat 8 (x / 256 ^ j)) := by
  induction n generalizing x with
  | zero => rfl
  | succ n ih =>
    rw [bytesOfNat, ih, List.range_succ_eq_map, List.map_cons, List.map_map, pow_zero, Nat.div_one]
    simp [Function.comp_def, Nat.pow_succ', Nat.div_div_eq_div_mul]

theorem length_bytesOfNat (n x : Nat) : (bytesOfNat n x).length = n := by simp [bytesOfNat_eq]

theorem length_mkStore (i : Nat) (p : Place) (n x : Nat) : (mkStore i p n x).bytes.length = n := length_bytesOfNat n x

theorem mkStore_eq (i : Nat) (p : Place) (n x : Nat) : mkStore i p n x =
    { lane := i, place := p, bytes := (List.range n).map (fun j => BitVec.ofNat 8 (x / 256 ^ j)), stage := .issued } := by
  rw [mkStore, bytesOfNat_eq]

/-- The window over a scalar destination, none over s0 (R44). -/
theorem openWindow_s (op la : Nat) (d : Fin 64) :
    v.ctx.advance (v.ctx.pc + 4) (openWindow op la [.s d]) =
      if d = 0 then v.ctx.step4 else v.ctx.advance (v.ctx.pc + 4) (some { op := op, left := la, names := [.s d] }) := by
  by_cases hd : d = 0
  · subst hd
    rfl
  · have hval : d.val ≠ 0 := fun h => hd (Fin.ext h)
    simp [openWindow, pendingNames, hd, hval]

/-- The accesses of a vector load, one for each lane of E. -/
def loadsOf (v : View) (place : Nat → Place) (n : Nat) : List LoadLane :=
  v.lanes.map (fun i => { lane := i, place := place i, n := n, val := none })

/-- The accesses of a vector store, with the low bytes of its data register. -/
def storesOf (v : View) (place : Nat → Place) (n : Nat) (d : Nat) : List StoreLane :=
  v.lanes.map (fun i => mkStore i (place i) n (v.team.elem (n == 8) d i))

theorem storesOf_eq (n : Nat) (d : Nat) : storesOf v place n d = v.lanes.map (fun i =>
    { lane := i, place := place i
      bytes := (List.range n).map (fun j => BitVec.ofNat 8 (v.team.elem (n == 8) d i / 256 ^ j)), stage := .issued }) := by
  simp only [storesOf, mkStore_eq]

/-- The places of the accesses of a vector form. -/
def placesOf (v : View) (place : Nat → Place) (n : Nat) : List (Place × Nat) := v.lanes.map (fun i => (place i, n))

theorem places_loadsOf (n : Nat) : (loadsOf v place n).map (fun l => (l.place, l.n)) = placesOf v place n := by
  simp [loadsOf, placesOf]

theorem places_storesOf (n d : Nat) : (storesOf v place n d).map (fun l => (l.place, l.bytes.length)) = placesOf v place n := by
  simp only [storesOf, placesOf, List.map_map, Function.comp_def, length_mkStore]
  rfl

theorem loadsOf_ne_nil {n : Nat} (h : v.lanes ≠ []) : loadsOf v place n ≠ [] := by simpa [loadsOf] using h

theorem storesOf_ne_nil {n d : Nat} (h : v.lanes ≠ []) : storesOf v place n d ≠ [] := by simpa [storesOf] using h

/-! ### Tested accesses -/

/-- What a vector memory form is tested for holds when its registers exist and are free (R163). -/
theorem vmemReq_fault {w : Bool} (h : VectorReady s v [(w, d.val), (false, b.val)] [.s a]) : (vmemReq v w d b a).fault v = none := by
  have hregs : (v.team.vOk w d && v.team.vOk false b) = true := by simpa using h.2
  refine fault_none_of_laneReady h.1 rfl rfl hregs rfl fun n hn => ?_
  simp only [vmemReq, List.map_cons, List.map_nil, List.flatten_cons, List.flatten_nil, List.mem_append, List.append_nil] at hn ⊢
  tauto

/-- LDS of which every lane passes its tests (R233). -/
theorem execLds_tested (h : VectorReady s v [(sizeBytes z == 8, d.val), (false, b.val)] [.s a])
    (hok : ∀ i ∈ v.lanes, stashTest s v.team (some i) c (laneAddr v a b i) (sizeBytes z) (sizeBytes z) false = .ok (place i)) :
    execLds d a b c e z la s = .next (if !s.roomFor v.team.ref .load (placesOf v place (sizeBytes z)) then s
      else issueLoad s v (.vec d (sizeBytes z == 8) e) (vNames (sizeBytes z == 8) d) la false (loadsOf v place (sizeBytes z))) := by
  refine instr_ok h.1.1.1 (vmemReq_fault h) ?_
  rw [testAll_map_ok (g := fun i => { lane := i, place := place i, n := sizeBytes z, val := none })
    fun i hi => by exact congrArg _ (hok i hi)]
  simp only [← loadsOf.eq_1, places_loadsOf]
  split <;> rfl

/-- STS of which every lane passes its tests (R233). -/
theorem execSts_tested (h : VectorReady s v [(sizeBytes z == 8, d.val), (false, b.val)] [.s a])
    (hok : ∀ i ∈ v.lanes, stashTest s v.team (some i) c (laneAddr v a b i) (sizeBytes z) (sizeBytes z) true = .ok (place i)) :
    execSts d a b c z la s = .next (if !s.roomFor v.team.ref .store (placesOf v place (sizeBytes z)) then s
      else issueStore s v false (storesOf v place (sizeBytes z) d)) := by
  refine instr_ok h.1.1.1 (vmemReq_fault h) ?_
  rw [testAll_map_ok (g := fun i => mkStore i (place i) (sizeBytes z) (v.team.elem (sizeBytes z == 8) d i))
    fun i hi => by exact congrArg _ (hok i hi)]
  simp only [← storesOf.eq_1, places_storesOf]
  split <;> rfl

/-! ### Without open regions (R247) -/

theorem region?_none (h : v.team.regions = []) (i : Nat) : v.team.region? i = none := by simp [Team.region?, h]

theorem regionNeed_none (h : v.team.regions = []) (i : Nat) (n : Need) : v.team.regionNeed i n = n := by
  simp [Team.regionNeed, region?_none h]

theorem regionLoads_none {n : Nat} (h : v.team.regions = []) (ps : List (Nat × Place)) :
    regionLoads v n s v.team ps = .ok (s, v.team, ps.map (fun p => { lane := p.1, place := p.2, n := n, val := none })) := by
  induction ps with
  | nil => rfl
  | cons p r ih => simp [regionLoads, region?_none h, ih]

theorem regionStores_none (h : v.team.regions = []) (xs : List StoreLane) : regionStores v.team xs = (v.team, xs) := by
  induction xs with
  | nil => rfl
  | cons x r ih => simp [regionStores, region?_none h, ih]

/-- LDG of a team without open regions of which every lane passes its tests (R233). -/
theorem execLdg_tested (h : VectorReady s v [(sizeBytes z == 8, d.val), (false, b.val)] [.s a]) (hr : v.team.regions = [])
    (hok : ∀ i ∈ v.lanes, globTest s v.team (some i) (laneAddr v a b i) (sizeBytes z) { r := true } = .ok (place i)) :
    execLdg d a b na e z la s = .next (if !s.roomFor v.team.ref .load (placesOf v place (sizeBytes z)) then s
      else issueLoad s v (.vec d (sizeBytes z == 8) e) (vNames (sizeBytes z == 8) d) la na (loadsOf v place (sizeBytes z))) := by
  refine instr_ok h.1.1.1 (vmemReq_fault h) ?_
  rw [testAll_map_ok (g := fun i => (i, place i)) fun i hi => by rw [regionNeed_none hr, hok i hi]; rfl]
  simp only [regionLoads_none hr, List.map_map, Function.comp_def, ← loadsOf.eq_1, ← placesOf.eq_1]
  split <;> rfl

/-- STG of a team without open regions of which every lane passes its tests (R233). -/
theorem execStg_tested (h : VectorReady s v [(sizeBytes z == 8, d.val), (false, b.val)] [.s a]) (hr : v.team.regions = [])
    (hok : ∀ i ∈ v.lanes, globTest s v.team (some i) (laneAddr v a b i) (sizeBytes z) { w := true } = .ok (place i)) :
    execStg d a b na z la s = .next (if !s.roomFor v.team.ref .store (placesOf v place (sizeBytes z)) then s
      else issueStore s v na (storesOf v place (sizeBytes z) d)) := by
  refine instr_ok h.1.1.1 (vmemReq_fault h) ?_
  rw [testAll_map_ok (g := fun i => mkStore i (place i) (sizeBytes z) (v.team.elem (sizeBytes z == 8) d i))
    fun i hi => by rw [regionNeed_none hr, hok i hi]; rfl]
  simp only [← storesOf.eq_1, places_storesOf, regionStores_none hr]
  split <;> rfl

/-! ### With an empty E (R38) -/

/-- A vector form with an empty E makes no access and goes on. -/
theorem execLds_none (h : VectorReady s v [(sizeBytes z == 8, d.val), (false, b.val)] [.s a]) (hnone : v.lanes = []) :
    execLds d a b c e z la s = .next (s.retire v v.team
      (v.ctx.advance (v.ctx.pc + 4) (some { op := 0, left := la, names := vNames (sizeBytes z == 8) d }))) := by
  rw [execLds_tested (place := fun _ => .glob 0 0) h (by simp [hnone]), ← openWindow_vNames]
  simp [placesOf, loadsOf, hnone, State.roomFor, issueLoad]

theorem execLdg_none (h : VectorReady s v [(sizeBytes z == 8, d.val), (false, b.val)] [.s a]) (hnone : v.lanes = []) :
    execLdg d a b na e z la s = .next (s.retire v v.team
      (v.ctx.advance (v.ctx.pc + 4) (some { op := 0, left := la, names := vNames (sizeBytes z == 8) d }))) := by
  refine instr_ok h.1.1.1 (vmemReq_fault h) ?_
  rw [← openWindow_vNames]
  simp [hnone, testAll, worstFlt, regionLoads, State.roomFor, issueLoad]

theorem execSts_none (h : VectorReady s v [(sizeBytes z == 8, d.val), (false, b.val)] [.s a]) (hnone : v.lanes = []) :
    execSts d a b c z la s = .next (s.retire v v.team v.ctx.step4) := by
  rw [execSts_tested (place := fun _ => .glob 0 0) h (by simp [hnone])]
  simp [placesOf, storesOf, hnone, State.roomFor, issueStore]

theorem execStg_none (h : VectorReady s v [(sizeBytes z == 8, d.val), (false, b.val)] [.s a]) (hnone : v.lanes = []) :
    execStg d a b na z la s = .next (s.retire v v.team v.ctx.step4) := by
  refine instr_ok h.1.1.1 (vmemReq_fault h) ?_
  simp [hnone, testAll, worstFlt, regionStores, State.roomFor, issueStore]

/-! ### The other forms, tested (R208, R235, R236) -/

/-- KLD whose image passes its test (R208). -/
theorem execKld_tested (h : Ready s v [.k k, .s a, .s b]) (hk : v.kind = .team) {r : TeamRef} {off : Nat}
    (hok : stashTest s v.team none false (scalarAddr v a b) 128 8 false = .ok (.stash r off)) :
    execKld k a b la s = .next (if !s.roomFor v.team.ref .load [(.stash r off, 128)] then s
      else issueLoad s v (.mask k) [.k k] la false
        ((List.range 16).map (fun i => { lane := i, place := .stash r (off + 8 * i), n := 8, val := none }))) := by
  refine instr_ok h.1 (Req.fault_none rfl (by simp [teamOnly, hk]) rfl rfl h.2) ?_
  simp only [hok, imageUnits, List.map_map, Function.comp_def]
  split <;> rfl

/-- KST whose image passes its test (R208). -/
theorem execKst_tested (h : Ready s v [.k k, .s a, .s b]) (hk : v.kind = .team) {r : TeamRef} {off : Nat}
    (hok : stashTest s v.team none false (scalarAddr v a b) 128 8 true = .ok (.stash r off)) :
    execKst k a b la s = .next (if !s.roomFor v.team.ref .store [(.stash r off, 128)] then s
      else issueStore s v false
        ((List.range 16).map (fun i => mkStore i (.stash r (off + 8 * i)) 8 (v.team.k[k].toNat / 2 ^ (64 * i))))) := by
  refine instr_ok h.1 (Req.fault_none rfl (by simp [teamOnly, hk]) rfl rfl h.2) ?_
  simp only [hok, imageUnits, List.map_map, Function.comp_def]
  split <;> rfl

/-- LDSC outside the engine window whose access passes its test (R235). -/
theorem execLdsc_tested (h : Ready s v [.s d, .s a, .s b]) (hsp : sp ≠ 3) {p : Place}
    (hok : scalarPlace s v sp (scalarAddr v a b) (sizeBytes z) false = .ok p) :
    execLdsc d a b sp z la s = .next (if !s.roomFor v.team.ref .load [(p, sizeBytes z)] then s
      else issueLoad s v (.sca d) [.s d] la false [{ lane := 0, place := p, n := sizeBytes z, val := none }]) := by
  refine instr_ok h.1 (Req.fault_none (by simp [hsp]) rfl rfl rfl h.2) ?_
  simp only [hok, if_neg hsp]
  split <;> rfl

/-- STSC outside the engine window whose access passes its test (R235). -/
theorem execStsc_tested (h : Ready s v [.s d, .s a, .s b]) (hsp : sp ≠ 3) {p : Place}
    (hok : scalarPlace s v sp (scalarAddr v a b) (sizeBytes z) true = .ok p) :
    execStsc d a b sp z la s = .next (if !s.roomFor v.team.ref .store [(p, sizeBytes z)] then s
      else issueStore s v false [mkStore 0 p (sizeBytes z) (v.ctx.getS d).toNat]) := by
  refine instr_ok h.1 (Req.fault_none (by simp [hsp]) rfl rfl rfl h.2) ?_
  simp only [hok, if_neg hsp]
  split <;> rfl

/-! ### What they begin -/

/-- A load with accesses and room for them begins. -/
theorem begins_of_issueLoad {i : Instr} {dst : LoadDst} {names : List RegName} {lanes : List LoadLane} {places : List (Place × Nat)}
    {next : Nat → Ctx}
    (hex : exec i s = .next (if !s.roomFor v.team.ref .load places then s else issueLoad s v dst names la na lanes))
    (hroom : s.roomFor v.team.ref .load places = true) (hne : lanes ≠ [])
    (hplain : (∀ p ∈ places, Plain s p.1 p.2) → ∀ l ∈ lanes, Plain s l.place l.n)
    (hnext : ∀ op, v.ctx.advance (v.ctx.pc + 4) (openWindow op la names) = next op) :
    Begins s v i .load (.load dst (lanes.flatMap (splitLoad s)) na) places next := by
  obtain ⟨pre, hops, hpre, heq⟩ := issueLoad_begins (s := s) (v := v) (dst := dst) (names := names) (la := la) (na := na) hne
  refine ⟨pre, hops, fun h => hpre (hplain h), ?_⟩
  rw [hex, hroom, ← hnext, ← heq]
  rfl

/-- A store with accesses and room for them begins. -/
theorem begins_of_issueStore {i : Instr} {lanes : List StoreLane} {places : List (Place × Nat)}
    (hex : exec i s = .next (if !s.roomFor v.team.ref .store places then s else issueStore s v na lanes))
    (hroom : s.roomFor v.team.ref .store places = true) (hne : lanes ≠ [])
    (hplain : (∀ p ∈ places, Plain s p.1 p.2) → ∀ l ∈ lanes, Plain s l.place l.bytes.length) :
    Begins s v i .store (.store (lanes.flatMap (splitStore s)) na []) places (fun _ => v.ctx.step4) := by
  obtain ⟨pre, hops, hpre, heq⟩ := issueStore_begins (s := s) (v := v) (na := na) hne
  refine ⟨pre, hops, fun h => hpre (hplain h), ?_⟩
  rw [hex, hroom, ← heq]
  rfl

/-- The tests of a global access find a global place. -/
theorem glob_of_globTest {t : Team} {lane : Option Nat} {x : Word} {n : Nat} {need : Need} {p : Place}
    (h : globTest s t lane x n need = .ok p) : ∃ va pa, p = .glob va pa := by
  unfold globTest at h
  split at h
  · cases h
  · split at h
    · exact ⟨_, _, (Except.ok.inj h).symm⟩
    · cases h

theorem roomFor_load_glob {ps : List (Place × Nat)} (h : Room s v [.load]) (hg : ∀ p ∈ ps, ∃ va pa, p.1 = .glob va pa) :
    s.roomFor v.team.ref .load ps = true := by
  rw [State.roomFor, touchedBy_of_glob hg, room_of_room h]
  simp [State.roomTouch]

theorem roomFor_store_glob {ps : List (Place × Nat)} (h : Room s v [.store]) (hg : ∀ p ∈ ps, ∃ va pa, p.1 = .glob va pa) :
    s.roomFor v.team.ref .store ps = true := by
  have hone : s.counter v.team.ref .store + 1 ≤ 65535 := h .store (by simp)
  rw [State.roomFor, touchedBy_of_glob hg]
  simp [State.roomTouch, State.roomN, hone]

theorem glob_of_placesOf {n : Nat} (h : ∀ i ∈ v.lanes, ∃ va pa, place i = .glob va pa) :
    ∀ p ∈ placesOf v place n, ∃ va pa, p.1 = .glob va pa := by
  simpa [placesOf] using h

theorem plain_loadsOf {n : Nat} (h : ∀ p ∈ placesOf v place n, Plain s p.1 p.2) : ∀ l ∈ loadsOf v place n, Plain s l.place l.n := by
  simpa [placesOf, loadsOf] using h

theorem plain_storesOf {n d : Nat} (h : ∀ p ∈ placesOf v place n, Plain s p.1 p.2) :
    ∀ l ∈ storesOf v place n d, Plain s l.place l.bytes.length := by
  simpa [placesOf, storesOf, length_bytesOfNat, mkStore] using h

theorem splitLoad_of_glob {xs : List LoadLane} (h : ∀ x ∈ xs, ∃ va pa, x.place = .glob va pa) : xs.flatMap (splitLoad s) = xs := by
  induction xs with
  | nil => rfl
  | cons x r ih =>
    obtain ⟨va, pa, hx⟩ := h x (by simp)
    rw [List.flatMap_cons, ih fun y hy => h y (by simp [hy])]
    simp [splitLoad, State.isWhole, hx]

theorem splitStore_of_glob {xs : List StoreLane} (h : ∀ x ∈ xs, ∃ va pa, x.place = .glob va pa) : xs.flatMap (splitStore s) = xs := by
  induction xs with
  | nil => rfl
  | cons x r ih =>
    obtain ⟨va, pa, hx⟩ := h x (by simp)
    rw [List.flatMap_cons, ih fun y hy => h y (by simp [hy])]
    simp [splitStore, State.isWhole, hx]

/-- The units of an image outside every window lie outside every window. -/
theorem plain_unit {r : TeamRef} {off i : Nat} (h : Plain s (.stash r off) 128) (hi : i < 16) : Plain s (.stash r (off + 8 * i)) 8 :=
  inWindow_part h (by omega) (by omega)

/-! ### LDGS (R236) -/

/-- A lane's copy of an LDGS that passes its tests. -/
theorem ldgsTest_ok {n i pa : Nat} (hx : (laneAddr v a b i).toNat % n = 0) (ho : (v.team.lane d i).toNat % n = 0)
    (hlow : (v.team.lane d i).toNat < 2 ^ 31) (hlen : (v.team.lane d i).toNat + n ≤ v.team.stashLen)
    (hw : s.inWindow v.team.ref (v.team.lane d i).toNat n = false) (hpa : s.resolveFor v.team { r := true } (laneAddr v a b i) = .ok pa) :
    ldgsTest s v d a b n i =
      .ok { lane := i, va := (laneAddr v a b i).toNat, pa := pa, off := (v.team.lane d i).toNat, n := n } := by
  have hoff : ((v.team.lane d i).zeroExtend 64).toNat = (v.team.lane d i).toNat :=
    BitVec.toNat_setWidth_of_le (by decide)
  have hplace : stashPlace s v.team i false ((v.team.lane d i).zeroExtend 64) n = .ok (v.team.ref, (v.team.lane d i).toNat) := by
    have hword : ¬ 2 ^ 32 ≤ (v.team.lane d i).toNat := Nat.not_le.2 (hlow.trans (by decide))
    simp only [stashPlace, hoff, if_neg hword, hlow, hlen]
    rfl
  simp [ldgsTest, aligned, hx, hoff, ho, hplace, hw, hpa]

/-- Operations put in flight one after another are numbered from the next number on. -/
theorem foldl_addOp {α : Type} (path : Option Path) (kind : α → OpKind) (xs : List α) (s : State) :
    xs.foldl (fun s x => s.addOp v.ref v.team.lv path (kind x)) s =
      { s with ops := s.ops ++ xs.zipIdx.map (fun p =>
                 { id := s.serial + p.2, own := v.ref, lv := v.team.lv, path := path, kind := kind p.1, done := false })
               serial := s.serial + xs.length } := by
  induction xs generalizing s with
  | nil => simp
  | cons x r ih =>
    rw [List.foldl_cons, ih]
    simp [State.addOp, List.zipIdx_cons, List.zipIdx_succ, Nat.add_assoc, Nat.add_comm 1]

/-- LDGS whose every lane passes its tests (R236). -/
theorem execLdgs_tested {lane : Nat → LdgsLane} (h : VectorReady s v [(false, d.val), (false, b.val)] [.s a])
    (hok : ∀ i ∈ v.lanes, ldgsTest s v d a b (sizeBytes z) i = .ok (lane i)) (hroom : s.counter v.team.ref .fill + v.lanes.length ≤ 65535) :
    execLdgs d a b z la s = .next (({ s with
      ops := s.ops ++ v.lanes.zipIdx.map (fun p =>
        { id := s.serial + p.2, own := v.ref, lv := v.team.lv, path := some .fill, done := false, kind := .ldgs (lane p.1) })
      serial := s.serial + v.lanes.length } : State).retire v (v.team.closeRegions 4) v.ctx.step4) := by
  have hregs : (v.team.vOk false d && v.team.vOk false b) = true := by simpa using h.2
  refine instr_ok h.1.1.1 (fault_none_of_laneReady h.1 rfl rfl hregs rfl fun n hn => ?_) ?_
  · simp only [List.map_cons, List.map_nil, List.flatten_cons, List.flatten_nil, List.mem_append, List.append_nil] at hn ⊢
    tauto
  · rw [testAll_map_ok hok]
    simp only [foldl_addOp, List.length_map, List.zipIdx_map, List.map_map, Function.comp_def, Prod.map, id]
    rw [show s.roomN v.team.ref .fill v.lanes.length = true from decide_eq_true hroom, Bool.not_true, Bool.and_false]
    rfl

end

/-- Settles O28: each form, its tests passed, comes to `issueLoad` or `issueStore` (LDGS to its copies), which begin one operation. -/
theorem loadsAndStoresBegin : Obligations.LoadsAndStoresBegin := by
  unfold Obligations.LoadsAndStoresBegin
  refine ⟨?_, ?_, ?_⟩
  · intro s v d a b k c e na sp z la place pa n w x y dst opened each places
    have hx : x = laneAddr v a b := (funext (laneAddr_eq v a b)).symm
    clear_value x
    subst hx
    refine ⟨fun h => ⟨fun hne hroom hok => ?_, fun hne hroom hr hok => ?_, fun hnone => ?_⟩, fun h hk r off hroom hok => ?_,
      fun h hsp p hroom hok => ?_, fun h hok hroom => ?_⟩
    case refine_1 =>
      exact begins_of_issueLoad (i := .lds d a b c e z la) (execLds_tested h hok) (roomFor_load hroom) (loadsOf_ne_nil hne)
        plain_loadsOf fun op => by rw [openWindow_vNames]; rfl
    case refine_2 =>
      have hglob : ∀ i ∈ v.lanes, ∃ va pa, place i = .glob va pa := fun i hi => glob_of_globTest (hok i hi)
      have hbegins := begins_of_issueLoad (i := .ldg d a b na e z la) (execLdg_tested h hr hok)
        (roomFor_load_glob hroom (glob_of_placesOf hglob)) (loadsOf_ne_nil hne) plain_loadsOf
        fun op => by rw [openWindow_vNames]
      rw [splitLoad_of_glob (by simpa [loadsOf] using hglob)] at hbegins
      exact hbegins
    case refine_3 =>
      simp only [List.forall_mem_cons, List.not_mem_nil, IsEmpty.forall_iff, implies_true, and_true]
      exact ⟨execLds_none h hnone, execLdg_none h hnone⟩
    case refine_4 =>
      exact begins_of_issueLoad (i := .kld k a b la) (execKld_tested h hk hok) (roomFor_load hroom) (by simp)
        (fun hp => by simpa using fun i hi => plain_unit (hp (.stash r off, 128) (by simp)) hi) fun op => rfl
    case refine_5 =>
      have hbegins := begins_of_issueLoad (i := .ldsc d a b sp z la) (execLdsc_tested h hsp hok) (roomFor_load hroom) (by simp)
        (fun hp => by simpa using hp) fun op => openWindow_s ..
      rw [List.flatMap_singleton] at hbegins
      exact hbegins
    case refine_6 =>
      exact execLdgs_tested (la := la) h (fun i hi => by
        obtain ⟨hal, hoff, hlow, hlen, hw, hpa⟩ := hok i hi
        exact ldgsTest_ok hal hoff hlow hlen hw hpa) hroom
  · intro s v d a b k c na sp z la place n w x y low value each places on
    have hx : x = laneAddr v a b := (funext (laneAddr_eq v a b)).symm
    clear_value x
    subst hx
    refine ⟨fun h => ⟨fun hne hroom hok => ?_, fun hne hroom hr hok => ?_, fun hnone => ?_⟩, fun h hk r off hroom hok => ?_,
      fun h hsp p hroom hok => ?_⟩
    case refine_1 =>
      have hbegins := begins_of_issueStore (i := .sts d a b c z la) (execSts_tested (la := la) h hok) (roomFor_store hroom) (storesOf_ne_nil hne)
        plain_storesOf
      rw [storesOf_eq] at hbegins
      exact hbegins
    case refine_2 =>
      have hglob : ∀ i ∈ v.lanes, ∃ va pa, place i = .glob va pa := fun i hi => glob_of_globTest (hok i hi)
      have hbegins := begins_of_issueStore (i := .stg d a b na z la) (execStg_tested (la := la) h hr hok)
        (roomFor_store_glob hroom (glob_of_placesOf hglob)) (storesOf_ne_nil hne) plain_storesOf
      rw [splitStore_of_glob (by simpa [storesOf, mkStore] using hglob), storesOf_eq] at hbegins
      exact hbegins
    case refine_3 =>
      simp only [List.forall_mem_cons, List.not_mem_nil, IsEmpty.forall_iff, implies_true, and_true]
      exact ⟨execSts_none (la := la) h hnone, execStg_none (la := la) h hnone⟩
    case refine_4 =>
      have hbegins := begins_of_issueStore (i := .kst k a b la) (execKst_tested (la := la) h hk hok) (roomFor_store hroom) (by simp)
        (fun hp => by simpa [mkStore, length_bytesOfNat] using fun i hi => plain_unit (hp (.stash r off, 128) (by simp)) hi)
      simp only [mkStore_eq] at hbegins
      exact hbegins
    case refine_5 =>
      have hbegins := begins_of_issueStore (i := .stsc d a b sp z la) (execStsc_tested (la := la) h hsp hok) (roomFor_store hroom) (by simp)
        (fun hp => by simpa [mkStore, length_bytesOfNat] using hp)
      rw [List.flatMap_singleton, mkStore_eq] at hbegins
      exact hbegins
  · intro s x y
    refine ⟨splitLoad_of_plain, splitStore_of_plain, ?_⟩
    intro r off m hm whole
    refine ⟨fun hx => ?_, fun hy => ?_⟩
    · simp only [splitLoad, hx, isWhole_iff hm]
      rfl
    · simp only [splitStore, hy, isWhole_iff hm]
      rfl

end Sys2Proof.Machine.Accesses

/-! ## What loads and stores leave unchanged (O29) -/

namespace Sys2Proof.Machine.AccessFrames

-- one proof after another: side by side they take more threads than the check's memory limit has stacks for
set_option Elab.async false

open AccessTests Touching Accesses

section
variable {s u : State} {v : View} {w : Who}

/-! ### The pending writes that a party sees, operation by operation -/

/-- The stores among some operations that a party may see, with their accesses. -/
def visibleStores (s : State) (w : Who) (ops : List Op) : List (Op × List StoreLane) :=
  ops.filterMap (fun o =>
    match o.kind with
    | .store lanes _ _ => if o.done || !s.sees w o.lv then none else some (o, lanes)
    | _ => none)

/-- Of some stores, the accesses that the party's die has accepted, with the order of their acceptance. -/
def acceptedOf (w : Who) (stores : List (Op × List StoreLane)) : List (Nat × StoreLane) :=
  stores.flatMap (fun p => p.2.filterMap (fun l =>
    match l.stage with
    | .die q => if w.die = some p.1.own.ref.die then some (q, l) else none
    | _ => none))

/-- Of some stores, the accesses that the party's core has issued. -/
def issuedOf (w : Who) (stores : List (Op × List StoreLane)) : List StoreLane :=
  stores.flatMap (fun p => p.2.filter (fun l =>
    l.stage == .issued && w.die == some p.1.own.ref.die && w.core == some p.1.own.ref.core && w.issuedBefore p.1.id))

theorem pendingSeen_eq (s : State) (w : Who) : s.pendingSeen w =
    (sortBy (·.1) (acceptedOf w (visibleStores s w s.ops))).map (·.2) ++ issuedOf w (visibleStores s w s.ops) := rfl

/-- An operation that stores only to some locations, and no access of which has left its core. -/
def StoresWithin (s : State) (stored : List Loc) (o : Op) : Prop :=
  ∀ lanes na rel, o.kind = .store lanes na rel → ∀ l ∈ lanes, l.stage = .issued ∧ ∀ x ∈ s.locs l.place l.bytes.length, x ∈ stored

theorem of_mem_visibleStores {ops : List Op} {p : Op × List StoreLane} (h : p ∈ visibleStores s w ops) :
    p.1 ∈ ops ∧ ∃ na rel, p.1.kind = .store p.2 na rel := by
  obtain ⟨o, ho, hp⟩ := List.mem_filterMap.1 h
  split at hp
  next hk =>
    split at hp
    · cases hp
    · cases hp
      exact ⟨ho, _, _, hk⟩
  next => cases hp

/-- No die has accepted what has just been issued. -/
theorem acceptedOf_nil {stored : List Loc} {more : List Op} (h : ∀ o ∈ more, StoresWithin s stored o) :
    acceptedOf w (visibleStores s w more) = [] := by
  refine List.flatMap_eq_nil_iff.2 fun p hp => List.filterMap_eq_nil_iff.2 fun l hl => ?_
  obtain ⟨ho, na, rel, hk⟩ := of_mem_visibleStores hp
  rw [(h _ ho _ _ _ hk l hl).1]

/-- Operations that store within some locations add pending writes within them alone, the latest ones. -/
theorem pendingSeen_append {stored : List Loc} {more : List Op} (hb : SameBase s u) (ho : u.ops = s.ops ++ more)
    (h : ∀ o ∈ more, StoresWithin s stored o) :
    ∃ new, u.pendingSeen w = s.pendingSeen w ++ new ∧ ∀ l ∈ new, ∀ x ∈ s.locs l.place l.bytes.length, x ∈ stored := by
  have hvis : visibleStores u w u.ops = visibleStores s w s.ops ++ visibleStores s w more := by
    rw [ho, visibleStores, List.filterMap_append]
    simp only [hb.sees]
    rfl
  have hacc : acceptedOf w (visibleStores s w s.ops ++ visibleStores s w more) = acceptedOf w (visibleStores s w s.ops) := by
    rw [acceptedOf, List.flatMap_append, ← acceptedOf.eq_1, ← acceptedOf.eq_1, acceptedOf_nil h, List.append_nil]
  refine ⟨issuedOf w (visibleStores s w more), ?_, fun l hl => ?_⟩
  · rw [pendingSeen_eq, pendingSeen_eq, hvis, hacc, List.append_assoc, issuedOf, issuedOf, issuedOf, List.flatMap_append]
  · obtain ⟨p, hp, hmem⟩ := List.mem_flatMap.1 hl
    obtain ⟨ho, na, rel, hk⟩ := of_mem_visibleStores hp
    exact (h _ ho _ _ _ hk l (List.mem_of_mem_filter hmem)).2

/-- At a location that no new store covers, the latest pending write is the one of before. -/
theorem pendingByte_append {stored : List Loc} {new : List StoreLane} {x : Loc} (hb : SameBase s u)
    (hp : u.pendingSeen w = s.pendingSeen w ++ new) (hnew : ∀ l ∈ new, ∀ y ∈ s.locs l.place l.bytes.length, y ∈ stored)
    (hx : x ∉ stored) : u.pendingByte w x = s.pendingByte w x := by
  have hlane : u.laneBytes = s.laneBytes := funext hb.laneBytes
  have hnone : (new.flatMap s.laneBytes).reverse.find? (fun p => p.1 = x) = none := by
    refine List.find?_eq_none.2 fun p hmem hpx => ?_
    obtain ⟨l, hl, hzip⟩ := List.mem_flatMap.1 (List.mem_reverse.1 hmem)
    exact hx (of_decide_eq_true hpx ▸ hnew l hl _ (List.of_mem_zip hzip).1)
  rw [State.pendingByte, State.pendingByte, hp, hlane, List.flatMap_append, List.reverse_append, List.find?_append, hnone,
    Option.none_or]

/-! ### Putting accesses in flight -/

/-- The state with more operations in flight. -/
def withOps (s : State) (more : List Op) (n : Nat) : State := { s with ops := s.ops ++ more, serial := n }

theorem sameBase_withOps (s : State) (more : List Op) (n : Nat) : SameBase s (withOps s more n) :=
  ⟨rfl, rfl, rfl, rfl, rfl, fun _ => rfl⟩

/-- Every party reads every byte as before but those stored to. -/
theorem withOps_reads {stored : List Loc} {more : List Op} (h : ∀ o ∈ more, StoresWithin s stored o) (n : Nat) :
    (∀ w x, .g x ∉ stored → (withOps s more n).seenByte w x = s.seenByte w x) ∧
    (∀ w r off,
      (match s.windowOf r off with
       | none => Loc.s r off ∉ stored
       | some m => ∀ y pa, m.sec? ((off - m.woff) / 64) = some y → y.pas[(off - m.woff) % 64]? = some pa → Loc.g pa ∉ stored) →
      stashSeen (withOps s more n) w r off = stashSeen s w r off) := by
  have hb := sameBase_withOps s more n
  have hpend : ∀ (w : Who) (x : Loc), x ∉ stored → (withOps s more n).pendingByte w x = s.pendingByte w x := by
    intro w x hx
    obtain ⟨new, hp, hnew⟩ := pendingSeen_append (w := w) hb rfl h
    exact pendingByte_append hb hp hnew hx
  refine ⟨fun w x hx => ?_, fun w r off hoff => ?_⟩
  · rw [State.seenByte, State.seenByte, hpend w _ hx, hb.homeByte]
  · rw [stashSeen, stashSeen, hb.windowOf]
    split
    next hnone =>
      rw [hnone] at hoff
      rw [State.seenStash, State.seenStash, hpend w _ hoff]
      rfl
    next m hsome =>
      rw [hsome] at hoff
      rw [windowByte, windowByte]
      split
      next => rfl
      next y hy =>
        exact congrArg (fun o => Option.getD o _) (Option.bind_congr fun pa hpa => hpend w _ (hoff y pa hy hpa))

/-- The context goes on with operations put in flight that store within some locations. -/
def Issued (s u : State) (v : View) (stored : List Loc) : Prop :=
  ∃ more n win, (∀ o ∈ more, StoresWithin s stored o) ∧
    u = (withOps s more n).retire v v.team (v.ctx.advance (v.ctx.pc + 4) win)

theorem Issued.issueFrame {stored : List Loc} (h : Issued s u v stored) (hv : s.view = some v) : IssueFrame s u v := by
  obtain ⟨more, n, win, -, rfl⟩ := h
  have hregions : ∀ (t : Team) (x : Ctx), ({ t.setCtx v.kind x with regions := t.regions } : Team) = t.setCtx v.kind x := by
    intro t x
    cases v.kind <;> rfl
  refine ⟨rfl, ⟨more, rfl⟩, (State.retire_onlyTeam rfl).others, _, State.view_retire (s := withOps s more n) hv rfl,
    Frames.ctxKeeps_advance .., rfl, rfl, ?_⟩
  exact (congrArg (fun t => t.setCtx v.kind v.ctx) (hregions _ _)).trans (Frames.setCtx_progress_back (State.view_spec hv).2.1)

theorem Issued.reads {stored : List Loc} (h : Issued s u v stored) (hv : s.view = some v) :
    (∀ w x, .g x ∉ stored → u.seenByte w x = s.seenByte w x) ∧
    (∀ w r off,
      (match s.windowOf r off with
       | none => Loc.s r off ∉ stored
       | some m => ∀ y pa, m.sec? ((off - m.woff) / 64) = some y → y.pas[(off - m.woff) % 64]? = some pa → Loc.g pa ∉ stored) →
      stashSeen u w r off = stashSeen s w r off) := by
  obtain ⟨more, n, win, hmore, rfl⟩ := h
  have hsame := State.retire_sameBytes (s := withOps s more n) (t := v.team) (c := v.ctx.advance (v.ctx.pc + 4) win) hv rfl rfl
  obtain ⟨hglob, hstash⟩ := withOps_reads hmore n
  exact ⟨fun w x hx => (hsame.1 w x).trans (hglob w x hx), fun w r off hoff => (hsame.2 w r off).trans (hstash w r off hoff)⟩

/-! ### What each form puts in flight -/

theorem began_eq_withOps (pre : List Op) (path : Path) (kind : OpKind) : s.began v pre path kind = withOps s (pre ++
    [{ id := s.serial + pre.length, own := v.ref, lv := v.team.lv, path := some path, kind := kind, done := false }])
      (s.serial + pre.length + 1) := by
  rw [State.began, withOps, List.append_assoc]

/-- Fills and takings of ownership store nothing. -/
theorem storesWithin_of_windowOps {pre : List Op} (h : WindowOps s v pre) (stored : List Loc) : ∀ o ∈ pre, StoresWithin s stored o := by
  intro o ho lanes na rel hk
  obtain ⟨i, hi, rfl⟩ := List.getElem_of_mem ho
  obtain ⟨-, -, -, die, core, n, ix, ⟨-, pas, hfill⟩ | ⟨-, hown⟩⟩ := windowOps_iff.1 h i _ (List.getElem?_eq_getElem hi)
  · rw [hfill] at hk
    cases hk
  · rw [hown] at hk
    cases hk

/-- An operation begun after those of the windows it touches. -/
theorem issued_of_began {stored : List Loc} {pre : List Op} {path : Path} {kind : OpKind} {win : Option Window} (h : WindowOps s v pre)
    (hk : ∀ id, StoresWithin s stored { id := id, own := v.ref, lv := v.team.lv, path := some path, kind := kind, done := false }) :
    Issued s ((s.began v pre path kind).retire v v.team (v.ctx.advance (v.ctx.pc + 4) win)) v stored := by
  refine ⟨_, _, win, fun o ho => ?_, by rw [began_eq_withOps]⟩
  rcases List.mem_append.1 ho with hpre | hnew
  · exact storesWithin_of_windowOps h stored o hpre
  · exact List.mem_singleton.1 hnew ▸ hk _

theorem issued_nothing {stored : List Loc} (win : Option Window) :
    Issued s (s.retire v v.team (v.ctx.advance (v.ctx.pc + 4) win)) v stored :=
  ⟨[], s.serial, win, fun o ho => absurd ho List.not_mem_nil, by rw [withOps, List.append_nil]⟩

theorem issueLoad_issued (stored : List Loc) (dst : LoadDst) (names : List RegName) (la : Nat) (na : Bool) (lanes : List LoadLane) :
    Issued s (issueLoad s v dst names la na lanes) v stored := by
  by_cases hne : lanes = []
  · rw [hne]
    exact issued_nothing _
  · obtain ⟨pre, hops, -, heq⟩ := issueLoad_begins (s := s) (v := v) (dst := dst) (names := names) (la := la) (na := na) hne
    rw [heq]
    exact issued_of_began hops fun _ _ _ _ hk => by cases hk

/-- The pieces of a store are issued as it is, each within its bytes. -/
theorem splitStore_within {l x : StoreLane} (h : x ∈ splitStore s l) :
    x.stage = l.stage ∧ ∀ y ∈ s.locs x.place x.bytes.length, y ∈ s.locs l.place l.bytes.length := by
  unfold splitStore at h
  split at h
  · rw [List.mem_singleton.1 h]
    exact ⟨rfl, fun _ hy => hy⟩
  · obtain ⟨p, hp, rfl⟩ := List.mem_map.1 h
    have hlt : p.2 < l.bytes.length := List.snd_lt_of_mem_zipIdx hp
    refine ⟨rfl, fun y hy => ?_⟩
    cases hplace : l.place with
    | glob va pa => simp_all [Place.byte, State.locs]
    | stash r off =>
      simp only [hplace, Place.byte, State.locs, List.length_singleton, List.range_one, List.map_singleton, Nat.add_zero,
        List.mem_singleton] at hy ⊢
      exact List.mem_map.2 ⟨p.2, List.mem_range.2 hlt, hy.symm⟩

theorem issueStore_issued {stored : List Loc} (na : Bool) {lanes : List StoreLane}
    (h : ∀ l ∈ lanes, l.stage = .issued ∧ ∀ x ∈ s.locs l.place l.bytes.length, x ∈ stored) :
    Issued s (issueStore s v na lanes) v stored := by
  by_cases hne : lanes = []
  · rw [hne]
    exact issued_nothing _
  · obtain ⟨pre, hops, -, heq⟩ := issueStore_begins (s := s) (v := v) (na := na) hne
    rw [heq]
    refine issued_of_began hops fun _ _ _ _ hk l hl => ?_
    cases hk
    obtain ⟨x, hx, hlx⟩ := List.mem_flatMap.1 hl
    obtain ⟨hstage, hlocs⟩ := splitStore_within hlx
    exact ⟨hstage.trans (h x hx).1, fun y hy => (h x hx).2 y (hlocs y hy)⟩

/-! ### The end of a load or store -/

/-- The tests of a stash access find a stash place. -/
theorem stash_of_stashTest {t : Team} {lane : Option Nat} {cluster write : Bool} {x : Word} {n align : Nat} {p : Place}
    (h : stashTest s t lane cluster x n align write = .ok p) : ∃ r off, p = .stash r off := by
  unfold stashTest at h
  split at h
  · cases h
  · split at h
    · cases h
    · split at h
      · cases h
      · exact ⟨_, _, (Except.ok.inj h).symm⟩

/-- The bytes of a part of a range of stash. -/
theorem locs_part {r : TeamRef} {off n off' n' : Nat} (hlo : off ≤ off') (hhi : off' + n' ≤ off + n) {x : Loc}
    (hx : x ∈ s.locs (.stash r off') n') : x ∈ s.locs (.stash r off) n := by
  obtain ⟨i, hi, rfl⟩ := List.mem_map.1 hx
  have hlt : i < n' := List.mem_range.1 hi
  exact List.mem_map.2 ⟨off' + i - off, List.mem_range.2 (by omega), by rw [show off + (off' + i - off) = off' + i by omega]⟩

/-- A team without open regions has none to close. -/
theorem closeRegions_none {t : Team} (h : t.regions = []) (code : Nat) : t.closeRegions code = t := by
  cases t
  subst h
  rfl

/-- What a load or store comes to: a fault, a wait, or accesses in flight. -/
def AccessEnd (s u : State) (v : View) (stored : List Loc) : Prop := (∃ f, u = park s v f 0 []) ∨ u = s ∨ Issued s u v stored

theorem accessEnd_of_instr {req : View → Req} {body : View → Except Flt State} {stored : List Loc} (hv : s.view = some v)
    (h : instr s req body = .next u) (hb : body v = .ok u → u = s ∨ Issued s u v stored) : AccessEnd s u v stored := by
  rcases instr_cases hv h with hf | ⟨-, hu⟩
  · exact .inl hf
  · exact .inr (hb hu)

/-- An instruction that waits while its counters have no room, and else issues. -/
theorem end_of_room {room : Bool} {x : State} {stored : List Loc} (h : (if !room then .ok s else .ok x : Except Flt State) = .ok u)
    (hx : Issued s x v stored) : u = s ∨ Issued s u v stored := by
  cases room
  · exact .inl (Except.ok.inj h).symm
  · exact .inr (Except.ok.inj h ▸ hx)

/-- Tests that all pass give their results in order. -/
theorem eq_of_testAll {α : Type} {l : List (Except Flt α)} {ys : List α} (h : testAll l = .ok ys) : ys = l.filterMap Except.toOption := by
  unfold testAll at h
  split at h
  · cases h
  · rw [← Except.ok.inj h]
    congr 1
    funext x
    cases x <;> rfl

/-- The accesses of the lanes that a vector store has tested are within its places. -/
theorem tested_within {test : Nat → Except Flt Place} {n : Nat} {value : Nat → Nat} {lanes : List StoreLane}
    (h : testAll (v.lanes.map (fun i => (test i).map (fun p => mkStore i p n (value i)))) = .ok lanes) :
    ∀ l ∈ lanes, l.stage = .issued ∧ ∀ x ∈ s.locs l.place l.bytes.length,
      x ∈ (v.lanes.filterMap (fun i => (test i).toOption.map (·, n))).flatMap (fun p => s.locs p.1 p.2) := by
  rw [eq_of_testAll h]
  intro l hl
  simp only [List.filterMap_map, List.mem_filterMap, Function.comp_apply] at hl
  obtain ⟨i, hi, hl⟩ := hl
  cases hp : test i with
  | error f =>
    rw [hp] at hl
    cases hl
  | ok p =>
    rw [hp] at hl
    cases hl
    refine ⟨rfl, fun x hx => List.mem_flatMap.2 ⟨(p, n), List.mem_filterMap.2 ⟨i, hi, by rw [hp]; rfl⟩, ?_⟩⟩
    rwa [length_mkStore] at hx

variable {d a b : Fin 64} {k : Fin 16} {c e na : Bool} {sp z : Fin 4} {la : Fin 16}

theorem execLds_end (hv : s.view = some v) (h : execLds d a b c e z la s = .next u) (stored : List Loc) : AccessEnd s u v stored := by
  refine accessEnd_of_instr hv h fun hu => ?_
  split at hu
  · cases hu
  · exact end_of_room hu (issueLoad_issued ..)

theorem execLdg_end (hv : s.view = some v) (hr : v.team.regions = []) (h : execLdg d a b na e z la s = .next u) (stored : List Loc) :
    AccessEnd s u v stored := by
  refine accessEnd_of_instr hv h fun hu => ?_
  split at hu
  · cases hu
  · simp only [regionLoads_none hr] at hu
    exact end_of_room hu (issueLoad_issued ..)

theorem execKld_end (hv : s.view = some v) (h : execKld k a b la s = .next u) (stored : List Loc) : AccessEnd s u v stored := by
  refine accessEnd_of_instr hv h fun hu => ?_
  split at hu
  · cases hu
  · exact end_of_room hu (issueLoad_issued ..)

theorem execLdsc_end (hv : s.view = some v) (hsp : sp ≠ 3) (h : execLdsc d a b sp z la s = .next u) (stored : List Loc) :
    AccessEnd s u v stored := by
  refine accessEnd_of_instr hv h fun hu => ?_
  simp only [if_neg hsp] at hu
  split at hu
  · cases hu
  · exact end_of_room hu (issueLoad_issued ..)

theorem execLdgs_end (hv : s.view = some v) (hr : v.team.regions = []) (h : execLdgs d a b z la s = .next u) (stored : List Loc) :
    AccessEnd s u v stored := by
  refine accessEnd_of_instr hv h fun hu => ?_
  split at hu
  · cases hu
  next lanes _ =>
    simp only [closeRegions_none hr, foldl_addOp] at hu
    split at hu
    · exact .inl (Except.ok.inj hu).symm
    · refine .inr ⟨_, _, none, fun o ho => ?_, (Except.ok.inj hu).symm⟩
      obtain ⟨p, -, rfl⟩ := List.mem_map.1 ho
      exact fun _ _ _ hk => by cases hk

theorem execSts_end (hv : s.view = some v) (h : execSts d a b c z la s = .next u) :
    AccessEnd s u v ((View.laneStore s v (.sts d a b c z la)).flatMap (fun p => s.locs p.1 p.2)) := by
  refine accessEnd_of_instr hv h fun hu => ?_
  split at hu
  · cases hu
  next hlanes => exact end_of_room hu (issueStore_issued _ (tested_within hlanes))

theorem execStg_end (hv : s.view = some v) (hr : v.team.regions = []) (h : execStg d a b na z la s = .next u) :
    AccessEnd s u v ((View.laneStore s v (.stg d a b na z la)).flatMap (fun p => s.locs p.1 p.2)) := by
  refine accessEnd_of_instr hv h fun hu => ?_
  simp only [regionNeed_none hr] at hu
  split at hu
  · cases hu
  next hlanes =>
    simp only [regionStores_none hr] at hu
    exact end_of_room hu (issueStore_issued _ (tested_within hlanes))

theorem execKst_end (hv : s.view = some v) (h : execKst k a b la s = .next u) :
    AccessEnd s u v ((View.laneStore s v (.kst k a b la)).flatMap (fun p => s.locs p.1 p.2)) := by
  refine accessEnd_of_instr hv h fun hu => ?_
  split at hu
  · cases hu
  next p hp =>
    refine end_of_room hu (issueStore_issued _ fun l hl => ?_)
    obtain ⟨r, off, rfl⟩ := stash_of_stashTest hp
    obtain ⟨i, hi, rfl⟩ : ∃ i < 16, mkStore i (.stash r (off + 8 * i)) 8 (v.team.k[k].toNat / 2 ^ (64 * i)) = l := by
      simpa [imageUnits] using hl
    rw [length_mkStore]
    exact ⟨rfl, fun x hx => List.mem_flatMap.2
      ⟨(.stash r off, 128), by simp [View.laneStore, hp, Except.toOption], locs_part (by omega) (by omega) hx⟩⟩

theorem execStsc_end (hv : s.view = some v) (hsp : sp ≠ 3) (h : execStsc d a b sp z la s = .next u) :
    AccessEnd s u v ((View.laneStore s v (.stsc d a b sp z la)).flatMap (fun p => s.locs p.1 p.2)) := by
  refine accessEnd_of_instr hv h fun hu => ?_
  simp only [if_neg hsp] at hu
  split at hu
  · cases hu
  next p hp =>
    refine end_of_room hu (issueStore_issued _ fun l hl => ?_)
    rw [List.mem_singleton.1 hl, length_mkStore]
    exact ⟨rfl, fun x hx => List.mem_flatMap.2 ⟨(p, sizeBytes z), by simp [View.laneStore, hp, Except.toOption], hx⟩⟩

end

/-- Settles O29: each form ends in a fault, a wait or accesses in flight (`AccessEnd`), whose reads `Issued.reads` gives. -/
theorem memoryInstructionsFrame : Obligations.MemoryInstructionsFrame := by
  unfold Obligations.MemoryInstructionsFrame
  intro s u v d a b k c e na sp z la hv hr hsp i hi hex stored
  have hend : AccessEnd s u v stored := by
    simp only [List.mem_cons, List.not_mem_nil, or_false] at hi
    rcases hi with rfl | rfl | rfl | rfl | rfl | rfl | rfl | rfl | rfl
    · exact execLds_end hv hex _
    · exact execLdg_end hv hr hex _
    · exact execKld_end hv hex _
    · exact execLdsc_end hv hsp hex _
    · exact execLdgs_end (la := la) hv hr hex _
    · exact execSts_end hv hex
    · exact execStg_end hv hr hex
    · exact execKst_end hv hex
    · exact execStsc_end hv hsp hex
  exact hend.imp_right (Or.imp_right fun h => ⟨h.issueFrame hv, h.reads hv⟩)

end Sys2Proof.Machine.AccessFrames

/-! ## Barrier objects and the cluster barrier (O35) -/

namespace Sys2Proof.Machine.BarrierObjects

-- one proof after another: side by side they take more threads than the check's memory limit has stacks for
set_option Elab.async false

section
variable {s : State} {v : View} {a b : Fin 64} {p : Fin 6} {x : Word}

/-! ### Where the object stands (R252) -/

theorem barrierPlace_badValue (write : Bool) : barrierPlace s v x false write = .error { code := .barrierMisuse } := by
  simp [barrierPlace]

/-- An own-stash address has bit 31 clear. -/
theorem bitAt_own (hlow : x.toNat < 2 ^ 31) : bitAt x.toNat 31 = false := by
  simp only [bitAt, Nat.div_eq_of_lt hlow]
  rfl

theorem stashPlace_own {n : Nat} (hlow : x.toNat < 2 ^ 31) (hlen : x.toNat + n ≤ v.team.stashLen) :
    stashPlace s v.team 0 false x n = .ok (v.team.ref, x.toNat) := by
  have hword : ¬ 2 ^ 32 ≤ x.toNat := Nat.not_le.2 (hlow.trans (by decide))
  simp only [stashPlace, if_neg hword, hlow, hlen]
  rfl

theorem barrierPlace_window {write : Bool} (hlow : x.toNat < 2 ^ 31) (hlen : x.toNat < v.team.stashLen)
    (hw : s.inWindow v.team.ref x.toNat 1 = true) : barrierPlace s v x true write = .error { code := .barrierMisuse, addr := x, w := write } := by
  have hone : stashPlace s v.team 0 false x 1 = .ok (v.team.ref, x.toNat) := stashPlace_own hlow hlen
  simp [barrierPlace, bitAt_own hlow, hone, hw]

theorem barrierPlace_ok {write : Bool} (hal : x.toNat % 8 = 0) (hlow : x.toNat < 2 ^ 31) (hlen : x.toNat + 8 ≤ v.team.stashLen)
    (hw : s.inWindow v.team.ref x.toNat 1 = false) : barrierPlace s v x true write = .ok (v.team.ref, x.toNat) := by
  have hone : stashPlace s v.team 0 false x 1 = .ok (v.team.ref, x.toNat) := stashPlace_own hlow (by omega)
  simp [barrierPlace, bitAt_own hlow, hone, hw, aligned, hal, stashPlace_own hlow hlen]

/-! ### The barrier instructions (R252 to R254) -/

theorem fault_none_of_ready {names : List RegName} {r : Req} (h : Ready s v names) (he : r.enc = true) (hc : r.ctxs v.kind = true)
    (hr : r.regs = true) (hm : r.mode = true) (hn : ∀ n ∈ r.names, n ∈ names) : r.fault v = none :=
  Req.fault_none he hc hr hm (lookaheadHit_mono hn h.2)

/-- A write of a team's stash changes that team alone, and of it the stash alone. -/
theorem team?_setStash (r y : TeamRef) (off : Nat) (bytes : List Byte) : (s.setStash r off bytes).team? y =
    (s.team? y).map (fun t => if t.ref = r then { t with stash := t.stash.setN off bytes } else t) := by
  rw [State.team?, State.setStash, List.find?_map, State.team?]
  congr 2
  funext t
  by_cases h : t.ref = r <;> simp [h]

theorem team?_setStash_self {r : TeamRef} {t : Team} (off : Nat) (bytes : List Byte) (h : s.team? r = some t) :
    (s.setStash r off bytes).team? r = some { t with stash := t.stash.setN off bytes } := by
  rw [team?_setStash, h, Option.map_some, if_pos (Slots.ref_of_team? h)]

theorem team?_setStash_ne {r y : TeamRef} (off : Nat) (bytes : List Byte) (h : y ≠ r) :
    (s.setStash r off bytes).team? y = s.team? y := by
  rw [team?_setStash]
  cases ht : s.team? y with
  | none => rfl
  | some t => rw [Option.map_some, if_neg (Slots.ref_of_team? ht ▸ h)]

/-- BINIT of an object that nothing of its context covers writes it at once (R252). -/
theorem execBinit_ok (h : Ready s v [.s a, .s b]) (hn : (decide ((v.ctx.getS b).toNat ≠ 0) && decide ((v.ctx.getS b).toNat < 65536)) = true)
    (hplace : barrierPlace s v (v.ctx.getS a) true true = .ok (v.team.ref, (v.ctx.getS a).toNat))
    (hheld : s.held v.ref s.serial (objectLocs v.team.ref (v.ctx.getS a).toNat) = false) :
    let bytes := bytesOfNat 8 ((v.ctx.getS b).toNat * 2 ^ 16 + (v.ctx.getS b).toNat)
    execBinit a b s = .next ((s.setStash v.team.ref (v.ctx.getS a).toNat bytes).retire v
      { v.team with stash := v.team.stash.setN (v.ctx.getS a).toNat bytes } v.ctx.step4) := by
  obtain ⟨hteam, -, -, href⟩ := State.view_spec h.1
  rw [← href] at hteam
  refine instr_ok h.1 (fault_none_of_ready h rfl rfl rfl rfl fun _ hm => hm) ?_
  simp only [hn, hplace, hheld, team?_setStash_self _ _ hteam]
  rfl

/-- BINIT of an object that the tests refuse (R252). -/
theorem execBinit_refused (h : Ready s v [.s a, .s b]) {f : Flt}
    (hplace : barrierPlace s v (v.ctx.getS a) (decide ((v.ctx.getS b).toNat ≠ 0) && decide ((v.ctx.getS b).toNat < 65536)) true = .error f) :
    execBinit a b s = .next (park s v f 0 []) := by
  refine instr_error h.1 (fault_none_of_ready h rfl rfl rfl rfl fun _ hm => hm) ?_
  simp only [hplace]

/-- BWAIT with a bad phase is refused (R254). -/
theorem execBwait_refused (h : Ready s v [.s a, .s b]) (hn : 1 < (v.ctx.getS b).toNat) :
    execBwait a b s = .next (park s v { code := .barrierMisuse } 0 []) := by
  refine instr_error h.1 (fault_none_of_ready h rfl rfl rfl rfl fun _ hm => hm) ?_
  simp only [decide_eq_false (Nat.not_le.2 hn), barrierPlace_badValue]

/-- A count that an object can hold. -/
theorem countOk {n : Nat} (h0 : 0 < n) (hn : n ≤ 65535) : (decide (n ≠ 0) && decide (n < 65536)) = true := by
  simpa using ⟨h0.ne', Nat.lt_succ_of_le hn⟩

theorem countBad {n : Nat} (hn : n = 0 ∨ 65535 < n) : (decide (n ≠ 0) && decide (n < 65536)) = false := by
  rw [Bool.and_eq_false_iff, decide_eq_false_iff_not, decide_eq_false_iff_not, not_not, Nat.not_lt]
  exact hn

/-- The executing context after a write of its team's stash. -/
theorem view_setStash {off : Nat} {bytes : List Byte} (hv : s.view = some v) : (s.setStash v.team.ref off bytes).view =
    some { v with team := { v.team with stash := v.team.stash.setN off bytes } } := by
  obtain ⟨hteam, hctx, hkind, href⟩ := State.view_spec hv
  have hctx' : ({ v.team with stash := v.team.stash.setN off bytes } : Team).ctx? s.cur.kind = some v.ctx := hkind ▸ hctx
  rw [State.view, State.setStash_cur, ← href, team?_setStash_self _ _ (href ▸ hteam)]
  simp only [hctx', hkind, Option.map_some]

/-- What BINIT leaves of its team, and of the rest. -/
theorem binit_frame {off : Nat} {bytes : List Byte} {t : Team} (hv : s.view = some v)
    (ht : t = { v.team with stash := v.team.stash.setN off bytes }) :
    let u := (s.setStash v.team.ref off bytes).retire v t v.ctx.step4
    ∃ v', u.view = some v' ∧ v'.ctx = v.ctx.step4 ∧ v'.team.stash = v.team.stash.setN off bytes ∧
      ({ v'.team with stash := v.team.stash }).setCtx v.kind v.ctx = { v.team with progress := s.time } ∧
      u.mem = s.mem ∧ u.ops = s.ops ∧ ∀ y, y ≠ v.team.ref → u.team? y = s.team? y := by
  intro u
  obtain ⟨hteam, hctx, hkind, href⟩ := State.view_spec hv
  subst ht
  have hview := view_setStash (off := off) (bytes := bytes) hv
  have hstash : ∀ (t : Team) (c c' : Ctx) (m : Memory), ({ t.setCtx v.kind c with stash := m } : Team).setCtx v.kind c' =
      ({ t with stash := m } : Team).setCtx v.kind c' := by
    intro t c c' m
    cases v.kind <;> rfl
  refine ⟨_, State.view_retire (v := { v with team := { v.team with stash := v.team.stash.setN off bytes } }) hview rfl, rfl, by simp, ?_, rfl, rfl, fun y hy => ?_⟩
  · refine (hstash ..).trans (Team.setCtx_self ?_)
    cases hk : v.kind <;> exact hk ▸ hctx
  · exact (State.team?_putTeam_ne (by simpa using hy)).trans (team?_setStash_ne _ _ hy)

/-- Only a team context waits off the issue; another tries again (R254). -/
theorem await_eq (w : Wait) : s.await v w = if v.kind = .team then s.putTeam { v.team with slot := .waiting w } else s := by
  unfold State.await
  cases v.kind <;> rfl

/-- BWAIT on an object that nothing of its context covers acquires when the phase is over, and else waits (R254). -/
theorem execBwait_ok (h : Ready s v [.s a, .s b]) (hn : (v.ctx.getS b).toNat ≤ 1)
    (hplace : barrierPlace s v (v.ctx.getS a) true false = .ok (v.team.ref, (v.ctx.getS a).toNat))
    (hheld : s.held v.ref s.serial (objectLocs v.team.ref (v.ctx.getS a).toNat) = false) :
    execBwait a b s = .next (
      if phaseOver s v.team.ref (v.ctx.getS a).toNat ((v.ctx.getS b).toNat == 1) then
        s.retire v v.team { v.ctx.step4 with hold := some (.fence true false .cluster s.serial) }
      else s.await v (.bwait v.team.ref (v.ctx.getS a).toNat ((v.ctx.getS b).toNat == 1))) := by
  refine instr_ok h.1 (fault_none_of_ready h rfl rfl rfl rfl fun _ hm => hm) ?_
  simp only [decide_eq_true hn, hplace, hheld, Bool.false_eq_true, if_false]
  split <;> rfl

/-- The phase of an object differs from the expected one, as numbers. -/
theorem phaseOver_iff {r : TeamRef} {off n : Nat} (hn : n ≤ 1) :
    phaseOver s r off (n == 1) = true ↔ objectWord s r off / 2 ^ 32 % 2 ≠ n := by
  unfold phaseOver bitAt
  obtain hbit | hbit := Nat.mod_two_eq_zero_or_one (objectWord s r off / 2 ^ 32) <;> rw [hbit] <;> interval_cases n <;> decide

/-- BARV and BARC leave an arrival behind (R253). -/
theorem arriveOp_ok {path : Option Path}
    (hplace : barrierPlace s v (v.ctx.getS a) true true = .ok (v.team.ref, (v.ctx.getS a).toNat)) :
    arriveOp s v a path = .ok (({ s with
      arrivals := s.arrivals ++
        [{ id := s.serial, by_ := v.ref, owner := v.team.ref, off := (v.ctx.getS a).toNat, path := path, upto := s.serial }]
      serial := s.serial + 1 } : State).retireEnding v v.team v.ctx.step4) := by
  rw [arriveOp, hplace]

theorem pathOf_eq (p : Fin 6) : pathOf p = ([.load, .store, .fill, .engine, .atom, .red] : List Path).getD p .load := by
  revert p
  decide

/-! ### Arrivals (R124, R253) -/

/-- The fields of a word put together of them. -/
theorem wordFields {w q e n : Nat} (he : e < 65536) (hn : n < 65536) (hw : w = q * 4294967296 + e * 65536 + n) :
    w % 2 ^ 16 = n ∧ w / 2 ^ 16 % 2 ^ 16 = e ∧ w / 2 ^ 32 = q := by omega

/-- The word of an object after an arrival, field by field. -/
theorem arriveWord_fields (w : Nat) :
    let expected := w / 2 ^ 16 % 2 ^ 16
    (expected = 0 → arriveWord w = w) ∧
    (expected ≠ 0 → arriveWord w / 2 ^ 16 % 2 ^ 16 = expected ∧
      (w % 2 ^ 16 ≤ 1 → arriveWord w % 2 ^ 16 = expected ∧ arriveWord w / 2 ^ 32 % 2 = 1 - w / 2 ^ 32 % 2) ∧
      (1 < w % 2 ^ 16 → arriveWord w % 2 ^ 16 = w % 2 ^ 16 - 1 ∧ arriveWord w / 2 ^ 32 % 2 = w / 2 ^ 32 % 2)) := by
  obtain ⟨q, e, n, he, hn, hw⟩ : ∃ q e n, e < 65536 ∧ n < 65536 ∧ w = q * 4294967296 + e * 65536 + n :=
    ⟨w / 4294967296, w / 65536 % 65536, w % 65536, by omega, by omega, by omega⟩
  obtain ⟨hlow, hmid, hhigh⟩ := wordFields he hn hw
  have hexp : bits w 31 16 = e := hmid
  have hpend : bits w 15 0 = n := by simpa [bits] using hlow
  have hphase : bits w 32 32 = q % 2 := congrArg (· % 2) hhigh
  simp only [arriveWord, hexp, hpend, hphase, at_, hlow, hmid, hhigh]
  refine ⟨fun h => if_pos h, fun h => ?_⟩
  rw [if_neg h]
  by_cases hlast : n ≤ 1
  · rw [if_pos hlast]
    obtain ⟨hlow', hmid', hhigh'⟩ := wordFields (q := q + (1 - q % 2) - q % 2) he he
      (w := w - n + e - q % 2 * 2 ^ 32 + (1 - q % 2) * 2 ^ 32) (by omega)
    rw [hlow', hmid', hhigh']
    omega
  · rw [if_neg hlast]
    obtain ⟨hlow', hmid', hhigh'⟩ := wordFields (w := w - 1) (q := q) (n := n - 1) he (by omega) (by omega)
    rw [hlow', hmid', hhigh']
    omega

/-- Whether two numbers differ in a bit. -/
theorem bitAt_bne (x y i : Nat) : (bitAt x i != bitAt y i) = decide (x / 2 ^ i % 2 ≠ y / 2 ^ i % 2) := by
  unfold bitAt
  obtain hx | hx := Nat.mod_two_eq_zero_or_one (x / 2 ^ i) <;> obtain hy | hy := Nat.mod_two_eq_zero_or_one (y / 2 ^ i) <;>
    rw [hx, hy] <;> rfl

/-- An arrival ends, at an object of a former allocation, a phase that someone may wait on (log 10). -/
def EndsAWait (s : State) (r : TeamRef) (off : Nat) : Prop :=
  s.team? r = none ∧ arriveWord (objectWord s r off) / 2 ^ 32 % 2 ≠ objectWord s r off / 2 ^ 32 % 2 ∧
    ∃ f ∈ s.former, f.ref = r ∧ s.waitedOn f off = true

theorem lost_iff (r : TeamRef) (off : Nat) : ((s.team? r).isNone && s.former.any (fun f =>
    f.ref == r && bitAt (arriveWord (objectWord s r off)) 32 != bitAt (objectWord s r off) 32 && s.waitedOn f off)) = true ↔
    EndsAWait s r off := by
  generalize hold : objectWord s r off = old
  rw [EndsAWait, hold, bitAt_bne]
  simp only [Bool.and_eq_true, List.any_eq_true, Option.isNone_iff_eq_none, beq_iff_eq, decide_eq_true_eq]
  exact and_congr_right fun _ => ⟨fun ⟨f, hf, ⟨hr, hx⟩, hw⟩ => ⟨hx, f, hf, hr, hw⟩, fun ⟨hx, f, hf, hr, hw⟩ => ⟨f, hf, ⟨hr, hx⟩, hw⟩⟩

theorem arrived_of_not_ends {r : TeamRef} {off : Nat} (h : ¬ EndsAWait s r off) : arrived s r off = arriveWord (objectWord s r off) :=
  if_neg (mt (lost_iff r off).1 h)

theorem arrived_of_ends {r : TeamRef} {off : Nat} (h : EndsAWait s r off) : arrived s r off = objectWord s r off :=
  if_pos ((lost_iff r off).2 h)

/-- An arrival is applied once what it waits for is done (R124). -/
theorem execBarrierArrival_ready {y : Arrival} {t : Team} (hy : s.arrivals.find? (fun z => z.id == y.id) = some y)
    (ht : s.team? y.by_.ref = some t) (hready : releaseReady s y.by_ .cluster y.upto = true)
    (hdrained : ∀ o ∈ s.ops, o.own.ref = t.ref → y.path ≠ none → o.path = y.path → y.upto ≤ o.id) :
    execBarrierArrival y.id s = .next { s.setStash y.owner y.off (bytesOfNat 8 (arrived s y.owner y.off)) with
      arrivals := s.arrivals.filter (fun z => z.id ≠ y.id) } := by
  have hfind : s.arrivals.find? (fun z => decide (z.id = y.id)) = some y := hy
  unfold execBarrierArrival
  simp only [hfind, ht, hready, Bool.true_and]
  cases hp : y.path with
  | none => rfl
  | some p =>
    have hpath : pathDrained s t.ref p y.upto = true := by
      simp only [pathDrained, List.all_eq_true, Bool.or_eq_true, decide_eq_true_eq]
      intro o ho
      by_contra hc
      simp only [not_or, not_not] at hc
      exact hc.1.1 (hdrained o ho hc.1.2 (by simp [hp]) (hp ▸ hc.2))
    simp only [hpath]
    rfl

/-! ### The cluster barrier (R125, R255) -/

/-- CLUSTER_ARRIVAL of a pending arrival (R125). -/
theorem execClusterArrival_pending {t : Team} {upto : Nat} (ht : s.team? t.ref = some t) (hp : t.cbar.pending = some upto) :
    execClusterArrival t.ref.die t.ref.core t.ref.slot s = .next (
      if releaseReady s { ref := t.ref, kind := .team } .cluster upto then
        s.putTeam { t with cbar := { t.cbar with pending := none, arrived := t.cbar.arrived + 1 } }
      else s) := by
  unfold execClusterArrival
  rw [show s.team? { die := t.ref.die, core := t.ref.core, slot := t.ref.slot } = some t from ht]
  simp only [hp]
  split <;> rfl

/-- A member that holds back no phase. -/
theorem arrivedFor_iff {m t : Team} : m.arrivedFor t = true ↔
    t.cbar.passed < m.cbar.arrived ∨ (m.team.run = .ended ∧ m.cbar.pending = none) := by
  rw [Team.arrivedFor, Bool.or_eq_true, Bool.and_eq_true, decide_eq_true_eq, beq_iff_eq, Option.isNone_iff_eq_none, or_comm]

theorem clusterMet_iff {t : Team} : clusterMet s t = true ↔
    (∀ m ∈ s.teams, m.launch = t.launch → m.cluster = t.cluster → m.arrivedFor t = true) ∧
    (∀ x ∈ s.hub.saved, x.launch = t.launch → x.cluster = t.cluster → x.team.arrivedFor t = true) := by
  simp only [clusterMet, Bool.and_eq_true, List.all_eq_true, Bool.or_eq_true, decide_eq_true_eq]
  refine and_congr (forall₂_congr fun m _ => ?_) (forall₂_congr fun x _ => ?_) <;> tauto

/-- CBARW of an open part passes or waits (R255). -/
theorem execCbarw_open (hv : s.view = some v) (hk : v.kind = .team) (ho : v.team.cbar.isOpen = true) : execCbarw s = .next (
    if clusterMet s v.team then (s.observeAll (s.whoOf v.team) v.ref s.serial).retire v
      { v.team with cbar := { v.team.cbar with isOpen := false, passed := v.team.cbar.passed + 1 } } v.ctx.step4
    else s.putTeam { v.team with slot := .waiting .cbarw }) := by
  refine instr_ok hv (Req.fault_none rfl (by simp [teamOnly, hk]) rfl rfl (Control.lookaheadHit_nil _)) ?_
  rw [ho, Bool.not_true, if_neg Bool.false_ne_true]
  split
  · rfl
  · rw [State.await, hk]

end

/-- Settles O35: the object's place is found (`barrierPlace_ok`) or refused, and each instruction and event then has its one effect. -/
theorem barriers : Obligations.Barriers := by
  unfold Obligations.Barriers
  refine ⟨?_, ?_⟩
  · intro s v a b p h x n r path word
    refine ⟨fun hn => ?_, fun hn => ?_, fun h0 hn hlow hlen hw => ?_, fun hal hlow hlen hw hheld => ⟨fun h0 hn => ?_, ?_,
      fun hn hover => ?_, fun hn hover => ?_⟩, ?_⟩
    case refine_1 => exact execBinit_refused h (by rw [countBad hn, barrierPlace_badValue])
    case refine_2 => exact execBwait_refused h hn
    case refine_3 => exact execBinit_refused h (by rw [countOk h0 hn, barrierPlace_window hlow hlen hw])
    case refine_4 =>
      obtain ⟨v', hframe⟩ := binit_frame (off := x) (bytes := bytesOfNat 8 (n * 2 ^ 16 + n)) h.1 rfl
      exact ⟨_, v', execBinit_ok h (countOk h0 hn) (barrierPlace_ok hal hlow hlen hw) hheld, hframe⟩
    case refine_5 =>
      have hplace := barrierPlace_ok (s := s) (v := v) (x := v.ctx.getS a) (write := true) hal hlow hlen hw
      intro q hq issued
      rcases List.mem_cons.1 hq with rfl | hbarc
      · exact instr_ok h.1 (fault_none_of_ready h rfl rfl rfl rfl (by simp)) (arriveOp_ok hplace)
      · split at hbarc
        next hk =>
          cases List.mem_singleton.1 hbarc
          refine instr_ok h.1 (fault_none_of_ready h rfl (by simp [teamOnly, hk]) rfl rfl (by simp)) ?_
          rw [pathOf_eq]
          exact arriveOp_ok hplace
        next => exact absurd hbarc List.not_mem_nil
    case refine_6 =>
      exact (execBwait_ok h hn (barrierPlace_ok hal hlow hlen hw) hheld).trans
        (congrArg _ (if_pos ((phaseOver_iff hn).2 hover)))
    case refine_7 =>
      exact (execBwait_ok h hn (barrierPlace_ok hal hlow hlen hw) hheld).trans
        (congrArg _ ((if_neg (mt (phaseOver_iff hn).1 (not_not.2 hover))).trans (await_eq _)))
    case refine_8 =>
      intro y t hy ht hready hdrained old expected new endsAWait after
      have hexec := execBarrierArrival_ready hy ht hready hdrained
      obtain ⟨hzero, hfields⟩ := arriveWord_fields old
      refine ⟨fun h => ?_, fun h => ?_, hzero, hfields⟩
      · rw [arrived_of_not_ends h] at hexec
        exact hexec
      · rw [arrived_of_ends h] at hexec
        exact hexec
  · intro s v hv hk bar r misuse
    obtain ⟨hteam, -, -, href⟩ := State.view_spec hv
    have hreq : ∀ r : Req, r = { ctxs := teamOnly } → r.fault v = none := by
      rintro _ rfl
      exact Req.fault_none rfl (by simp [teamOnly, hk]) rfl rfl (Control.lookaheadHit_nil _)
    refine ⟨fun ho => ?_, fun ho => ?_, fun ho => ?_, fun upto hp => ?_, ?_⟩
    case refine_1 => exact instr_error hv (hreq _ rfl) (if_pos ho)
    case refine_2 => exact instr_error hv (hreq _ rfl) (if_pos (by rw [show v.team.cbar.isOpen = false from ho]; rfl))
    case refine_3 => exact instr_ok hv (hreq _ rfl) (if_neg (by rw [show v.team.cbar.isOpen = false from ho]; decide))
    case refine_4 => exact execClusterArrival_pending (href ▸ hteam) hp
    case refine_5 =>
      intro ended
      refine ⟨fun ho hteams hsaved => ?_, fun ho hlate => ?_⟩
      · have hmet : clusterMet s v.team = true := clusterMet_iff.2
          ⟨fun m hm hl hc => arrivedFor_iff.2 (hteams m hm hl hc), fun x hx hl hc => arrivedFor_iff.2 (hsaved x hx hl hc)⟩
        exact (execCbarw_open hv hk ho).trans (congrArg _ (if_pos hmet))
      · have hmet : ¬ clusterMet s v.team = true := by
          intro h
          obtain ⟨hteams, hsaved⟩ := clusterMet_iff.1 h
          rcases hlate with ⟨m, hm, hl, hc, harrived, hnot⟩ | ⟨x, hx, hl, hc, harrived, hnot⟩
          · exact (arrivedFor_iff.1 (hteams m hm hl hc)).elim (Nat.not_lt.2 harrived) hnot
          · exact (arrivedFor_iff.1 (hsaved x hx hl hc)).elim (Nat.not_lt.2 harrived) hnot
        exact (execCbarw_open hv hk ho).trans (congrArg _ (if_neg hmet))

end Sys2Proof.Machine.BarrierObjects

/-! ## The gather instructions (O38) -/

namespace Sys2Proof.Machine.Gathers

-- one proof after another: side by side they take more threads than the check's memory limit has stacks for
set_option Elab.async false

open Readiness AccessTests

section
variable {s : State} {v : View} {d b : Fin 64} {h la : Fin 16} {x : Handle}

/-- Reading no location observes nothing. -/
theorem observeAt_nil (w : Who) (c : CtxRef) (id : Nat) : s.observeAt w c id [] = s := by
  have hops : s.ops.map (fun o =>
      match o.kind with
      | .store lanes na g => { o with kind := .store (lanes.map (fun l =>
          if s.laneSeen w o l && !l.observedBy c (id + 1) && meets (s.locs l.place l.bytes.length) [] then
            { l with obs := l.obs ++ [(c, id)] } else l)) na g }
      | _ => o) = s.ops := by
    refine (List.map_congr_left fun o _ => ?_).trans (List.map_id _)
    split
    next lanes na g hk => simp [meets, ← hk]
    next => rfl
  exact congrArg (fun ops => ({ s with ops := ops } : State)) hops

/-- A bag without pairs is read at once, whatever bytes another one has left. -/
theorem bagPairs_zero (r : TeamRef) (off : Nat) : bagPairs s v (.stash r off) 0 = .ok (s, []) := by
  have hheld : s.held v.ref s.serial [] = false := by simp [State.held, meets]
  have hsecs : s.touched r off (8 * 0) = [] := rfl
  have hlocs : s.locs (.stash r off) (8 * 0) = [] := rfl
  simp only [bagPairs, hsecs, hlocs, hheld, List.drop_nil, List.take_nil, observeAt_nil]
  simp [pairsOf]

/-- An EPOOL without pairs puts its reads in flight, and drops what its team's bag holds. -/
theorem execEpool_noPairs (hready : LaneReady s v (vNames v.wide d ++ [.s b.val, .s (b.val + 1)])) (hb : b.val ≤ 62)
    (hregs : (h.val < v.team.nh) ∧ v.team.vOk v.wide d = true)
    (hmode : (8 ≤ v.ty ∧ v.ty ≤ 11) ∧ rndOk v.ctx.md = true) (hx : v.team.handle? h = some x)
    (hzero : bits (v.ctx.getSN (b.val + 1)).toNat 31 16 = 0) (hc : bits (v.ctx.getSN (b.val + 1)).toNat 15 0 = 0)
    (hne : v.lanes ≠ []) (hal : (v.ctx.getS b).toNat % 8 = 0) (hroom : Room s v [.load]) :
    execEpool d h b la s = .next ((s.began v [] .load (.epool d x.fmt v.ctx.md v.ctx.isc (v.lanes.map (fun i => (i, []))))).retire v
      { v.team with bag := [] } (v.ctx.advance (v.ctx.pc + 4) (openWindow s.serial la (vNames v.wide d)))) := by
  refine instr_ok hready.1.1 (fault_none_of_laneReady hready (decide_eq_true hb) rfl
    (Bool.and_eq_true_iff.2 ⟨decide_eq_true hregs.1, hregs.2⟩)
    (Bool.and_eq_true_iff.2 ⟨Bool.and_eq_true_iff.2 ⟨decide_eq_true hmode.1.1, decide_eq_true hmode.1.2⟩, hmode.2⟩) fun _ hn => hn) ?_
  simp only [hx, hzero, hc, aligned, hal, ne_eq, not_true_eq_false, if_false, if_true, beq_self_eq_true, bagPairs_zero,
    List.isEmpty_iff.not.2 hne, List.map_nil]
  rw [testAll_map_ok (g := fun i => (i, [])) fun i _ => by rfl]
  simp only [room_of_room hroom, addOp_eq_began]
  rfl

/-- The bag of the executing team. -/
def bagOf (s : State) : Option (List Byte) := s.view.map (fun v => v.team.bag)

theorem bagOf_retire {t : Team} {c : Ctx} (hv : s.view = some v) (ht : t.ref = v.team.ref) : bagOf (s.retire v t c) = some t.bag := by
  rw [bagOf, State.view_retire hv ht]
  cases v.kind <;> rfl

end

/-- A team whose bag holds a byte that an EPOOL has read, at an EPOOL without pairs. -/
def leftover : Team := { Tests.gatherTeam 0 with bag := [7] }

/-- Refutes O38: an EPOOL without pairs empties its team's bag, which `Begins` keeps; here another EPOOL has left a byte in it. -/
theorem not_gatherInstructions : ¬ Obligations.GatherInstructions := by
  unfold Obligations.GatherInstructions
  intro hall
  have hready : LaneReady (Tests.st .team leftover) (Tests.vt leftover)
      (vNames (Tests.vt leftover).wide (2 : Fin 64) ++ [.s (5 : Fin 64).val, .s ((5 : Fin 64).val + 1)]) :=
    ⟨⟨Tests.st_view _ rfl, by decide⟩, rfl⟩
  have hlanes : (Tests.vt leftover).lanes ≠ [] := by decide +kernel
  have hroom : Room (Tests.st .team leftover) (Tests.vt leftover) [.load] := Tests.room _ _ _ _
  obtain ⟨-, -, hepool, -⟩ := hall (Tests.st .team leftover) (Tests.vt leftover) 2 0 5 1 0
    (fun _ => { zero := true, hi := false, parts := [] }) (fun _ => []) (by decide)
  obtain ⟨-, -, -, hzero⟩ := hepool hready (by decide) (by decide) (by decide) (by decide) (by decide) Tests.handle0 rfl
  obtain ⟨pre, -, -, hexec⟩ := hzero (by decide) hlanes (by decide) (by decide) hroom
  have hmodel := execEpool_noPairs (h := 1) (la := 0) hready (by decide) (by decide) (by decide) rfl (by decide) (by decide) hlanes
    (by decide) hroom
  have hsame := congrArg bagOf (Host.Outcome.next.inj (hexec.symm.trans hmodel))
  have hbag : some [(7 : Byte)] = some [] := (bagOf_retire (by exact hready.1.1) rfl).symm.trans
    (hsame.trans (bagOf_retire (by exact hready.1.1) rfl))
  cases hbag

end Sys2Proof.Machine.Gathers

/-! ## What rounding gives (R58, R65 to R70) -/

namespace Sys2Proof.Machine.Rounding

-- one proof after another: side by side they take more threads than the check's memory limit has stacks for
set_option Elab.async false

section

/-! ### The formats -/

/-- The floating types. -/
def Floating (t : Nat) : Prop := 8 ≤ t ∧ t ≤ 13

variable {t : Nat}

/-- The fields of a format. -/
theorem format_fields (h : Floating t) : typeBits t - 1 = fracBits t + expBits t ∧ typeBits t = fracBits t + expBits t + 1 ∧ 2 ≤ fracBits t ∧
    fracBits t ≤ 52 := by
  obtain ⟨h8, h13⟩ := h
  interval_cases t <;> decide

theorem two_le_expBits (h : Floating t) : 2 ≤ expBits t := by
  obtain ⟨h8, h13⟩ := h
  interval_cases t <;> decide

theorem maxSig_lt (h : Floating t) : maxSig t < 2 ^ (fracBits t + 1) := by
  obtain ⟨h8, h13⟩ := h
  interval_cases t <;> decide

/-- The exponent field of the largest finite values. -/
theorem topField (h : Floating t) :
    maxExp t - fracBits t - lastPlace t + 1 + (if t = 12 then 0 else 1) = ((2 ^ expBits t - 1 : Nat) : Int) := by
  obtain ⟨h8, h13⟩ := h
  interval_cases t <;> decide

/-- The sign, exponent field and fraction of an encoding. -/
theorem fields_pack (h : Floating t) (neg : Bool) {E F : Nat} (hE : E < 2 ^ expBits t) (hF : F < 2 ^ fracBits t) :
    (signBit t neg + (E * 2 ^ fracBits t + F)) % 2 ^ fracBits t = F ∧
    (signBit t neg + (E * 2 ^ fracBits t + F)) / 2 ^ fracBits t % 2 ^ expBits t = E ∧
    (signBit t neg + (E * 2 ^ fracBits t + F)) / 2 ^ (typeBits t - 1) % 2 = (if neg then 1 else 0) := by
  obtain ⟨htop, -, -, -⟩ := format_fields h
  have hsign : signBit t neg = (if neg then 1 else 0) * 2 ^ expBits t * 2 ^ fracBits t := by
    rw [signBit, htop, Nat.pow_add, Nat.mul_comm (2 ^ fracBits t)]
    cases neg <;> simp
  have hn : signBit t neg + (E * 2 ^ fracBits t + F) = F + 2 ^ fracBits t * (E + 2 ^ expBits t * (if neg then 1 else 0)) := by
    rw [hsign]
    ring
  have hdiv : (signBit t neg + (E * 2 ^ fracBits t + F)) / 2 ^ fracBits t = E + 2 ^ expBits t * (if neg then 1 else 0) := by
    rw [hn, Nat.add_mul_div_left _ _ (Nat.two_pow_pos _), Nat.div_eq_of_lt hF, Nat.zero_add]
  refine ⟨?_, ?_, ?_⟩
  · rw [hn, Nat.add_mul_mod_self_left, Nat.mod_eq_of_lt hF]
  · rw [hdiv, Nat.add_mul_mod_self_left, Nat.mod_eq_of_lt hE]
  · rw [htop, Nat.pow_add, ← Nat.div_div_eq_div_mul, hdiv, Nat.add_mul_div_left _ _ (Nat.two_pow_pos _), Nat.div_eq_of_lt hE]
    cases neg <;> rfl

/-- The value of an encoding of a finite number by its fields. -/
theorem fdecode_pack (h : Floating t) (neg : Bool) {E F : Nat} (hE : E < 2 ^ expBits t) (hF : F < 2 ^ fracBits t)
    (h12 : t = 12 → ¬ (E = 15 ∧ F = 7)) (hfin : t ≠ 12 → E ≠ 2 ^ expBits t - 1) :
    fdecode t (signBit t neg + (E * 2 ^ fracBits t + F)) =
      if E = 0 then .fin neg F (lastPlace t) else .fin neg (2 ^ fracBits t + F) (lastPlace t + (E : Int) - 1) := by
  obtain ⟨hfrac, hexp, hneg⟩ := fields_pack h neg hE hF
  have hbit : ((if neg then 1 else 0 : Nat) == 1) = neg := by cases neg <;> rfl
  simp only [fdecode, hfrac, hexp, hneg, hbit]
  by_cases ht : t = 12
  · have hnot : ¬ (E = 15 ∧ F = 7) := h12 ht
    simp [ht, hnot]
  · simp [ht, hfin ht]

/-- Numbers of a format are multiples of a power of two that is not below the last place, with few significant bits. -/
theorem representable_grid {z : ℝ} (h : Representable t z) :
    ∃ (M : Nat) (E : Int), |z| = M * (2 : ℝ) ^ E ∧ M < 2 ^ (fracBits t + 1) ∧ lastPlace t ≤ E := by
  obtain ⟨b, -, hb⟩ := h
  have habs : ∀ (neg : Bool) (M : Nat) (E : Int), z = (if neg then -1 else 1) * (M : ℝ) * (2 : ℝ) ^ E → |z| = M * (2 : ℝ) ^ E := by
    intro neg M E hz
    rw [hz, abs_mul, abs_mul, abs_of_nonneg (by positivity : (0 : ℝ) ≤ (2 : ℝ) ^ E), Nat.abs_cast]
    cases neg <;> simp
  have hF : b % 2 ^ fracBits t < 2 ^ fracBits t := Nat.mod_lt _ (Nat.two_pow_pos _)
  unfold fdecode at hb
  dsimp only at hb
  split at hb
  · exact hb.elim
  split at hb
  · split at hb <;> exact hb.elim
  split at hb
  · exact ⟨_, _, habs _ _ _ hb, by rw [Nat.pow_succ]; omega, le_rfl⟩
  next hE => exact ⟨_, _, habs _ _ _ hb, by rw [Nat.pow_succ]; omega, by omega⟩

/-- Between two neighbours of the grid of a binade, or of the subnormals, lies no number of the format. -/
theorem grid_gap {z : ℝ} {q : Int} {lo : Nat} (h : Representable t z) (hlo : q = lastPlace t ∨ 2 ^ fracBits t ≤ lo) :
    ¬ ((lo : ℝ) * 2 ^ q < |z| ∧ |z| < (lo + 1) * (2 : ℝ) ^ q) := by
  rintro ⟨hl, hu⟩
  obtain ⟨M, E, hz, hM, hE⟩ := representable_grid h
  have hq : (0 : ℝ) < 2 ^ q := by positivity
  rw [hz] at hl hu
  by_cases hqE : q ≤ E
  · -- a multiple of the grid's step
    obtain ⟨k, rfl⟩ := Int.le.dest hqE
    have hk : (M : ℝ) * 2 ^ (q + k : Int) = ((M * 2 ^ k : Nat) : ℝ) * 2 ^ q := by
      rw [zpow_add₀ two_ne_zero, zpow_natCast]
      push_cast
      ring
    rw [hk] at hl hu
    have h1 : lo < M * 2 ^ k := by exact_mod_cast lt_of_mul_lt_mul_right hl hq.le
    have h2 : M * 2 ^ k < lo + 1 := by exact_mod_cast lt_of_mul_lt_mul_right hu hq.le
    omega
  · -- below the binade
    have hlo' : 2 ^ fracBits t ≤ lo := hlo.resolve_left (by omega)
    have hstep : (2 : ℝ) ^ (E + 1) ≤ 2 ^ q := zpow_le_zpow_right₀ one_le_two (by omega)
    have hbig : (M : ℝ) * 2 ^ E < (2 ^ fracBits t : Nat) * (2 : ℝ) ^ (E + 1) := by
      rw [zpow_add_one₀ two_ne_zero, mul_comm ((2 : ℝ) ^ E) 2, ← mul_assoc]
      have hcast : (M : ℝ) < (2 ^ fracBits t : Nat) * 2 := by exact_mod_cast (Nat.pow_succ 2 (fracBits t)) ▸ hM
      exact mul_lt_mul_of_pos_right hcast (by positivity)
    have hcast : ((2 ^ fracBits t : Nat) : ℝ) ≤ lo := by exact_mod_cast hlo'
    have : ((2 ^ fracBits t : Nat) : ℝ) * (2 : ℝ) ^ (E + 1) ≤ lo * 2 ^ q := mul_le_mul hcast hstep (by positivity) (by positivity)
    linarith

/-- What `roundFin` encodes a magnitude of `sig` steps of 2^q as (R58). -/
def packBits (t : Nat) (q : Int) (sig : Nat) : Nat :=
  if sig = 0 then 0
  else if sig < 2 ^ fracBits t then sig
  else (q - lastPlace t).toNat * 2 ^ fracBits t + sig

/-- A magnitude on a format's grid, within its range. -/
structure OnGrid (t : Nat) (q : Int) (sig : Nat) : Prop where
  last : lastPlace t ≤ q
  normal : q = lastPlace t ∨ 2 ^ fracBits t ≤ sig
  carry : sig ≤ 2 ^ (fracBits t + 1)
  range : q ≤ maxExp t - fracBits t
  top : q = maxExp t - fracBits t → sig ≤ maxSig t

/-- The fields of a magnitude on the grid. -/
theorem packBits_fields (h : Floating t) {q : Int} {sig : Nat} (hg : OnGrid t q sig) : ∃ E F, packBits t q sig = E * 2 ^ fracBits t + F ∧
    F < 2 ^ fracBits t ∧ E < 2 ^ expBits t ∧ (t = 12 → ¬ (E = 15 ∧ F = 7)) ∧ (t ≠ 12 → E ≠ 2 ^ expBits t - 1) ∧
    (if E = 0 then (F : ℝ) * 2 ^ lastPlace t else ((2 ^ fracBits t + F : Nat) : ℝ) * (2 : ℝ) ^ (lastPlace t + (E : Int) - 1)) = sig * (2 : ℝ) ^ q := by
  obtain ⟨hlast, hnormal, hcarry, hrange, hmax⟩ := hg
  have htop := topField h
  have hexp : 4 ≤ 2 ^ expBits t := Nat.pow_le_pow_right (n := 2) (i := 2) (by decide) (two_le_expBits h)
  have hpow : 2 ^ (fracBits t + 1) = 2 * 2 ^ fracBits t := Nat.pow_succ'
  obtain ⟨d, hd⟩ := Int.le.dest hlast
  subst hd
  have htoNat : (lastPlace t + (d : Int) - lastPlace t).toNat = d := by omega
  unfold packBits
  rw [htoNat]
  by_cases h0 : sig = 0
  · refine ⟨0, 0, by simp [h0], Nat.two_pow_pos _, by omega, by simp, fun _ => by omega, by simp [h0]⟩
  by_cases hsub : sig < 2 ^ fracBits t
  · have hd0 : d = 0 := by
      have := hnormal.resolve_right (Nat.not_le.2 hsub)
      omega
    exact ⟨0, sig, by simp [h0, hsub], hsub, by omega, by simp, fun _ => by omega, by simp [hd0]⟩
  rw [if_neg h0, if_neg hsub]
  by_cases hfull : sig = 2 ^ (fracBits t + 1)
  · -- the carry into the next binade
    have hbelow : lastPlace t + (d : Int) < maxExp t - fracBits t := by
      refine lt_of_le_of_ne hrange fun heq => ?_
      have := hmax heq
      have := maxSig_lt h
      omega
    refine ⟨d + 2, 0, by rw [hfull, hpow]; ring, Nat.two_pow_pos _, by split at htop <;> omega, by simp, fun ht => ?_, ?_⟩
    · rw [if_neg ht] at htop
      omega
    · rw [if_neg (by omega), hfull, hpow, show lastPlace t + ((d + 2 : Nat) : Int) - 1 = lastPlace t + d + 1 by push_cast; ring,
        zpow_add_one₀ two_ne_zero]
      push_cast
      ring
  · refine ⟨d + 1, sig - 2 ^ fracBits t, ?_, by omega, by split at htop <;> omega, ?_, fun ht => ?_, ?_⟩
    · rw [Nat.add_mul, Nat.one_mul, Nat.add_assoc, Nat.add_sub_cancel' (Nat.not_lt.1 hsub)]
    · rintro rfl ⟨hE, hF⟩
      have h15 : ((2 ^ expBits 12 - 1 : Nat) : Int) = 15 := by decide
      rw [h15, if_pos rfl] at htop
      have hq := hmax (by omega)
      have : maxSig 12 = 14 := rfl
      have : fracBits 12 = 3 := rfl
      simp only [this] at hF
      omega
    · rw [if_neg ht] at htop
      omega
    · rw [if_neg (by omega), Nat.add_sub_cancel' (Nat.not_lt.1 hsub),
        show lastPlace t + ((d + 1 : Nat) : Int) - 1 = lastPlace t + d by push_cast; ring]

/-- A magnitude on the grid is encoded as it is. -/
theorem decode_packBits (h : Floating t) {q : Int} {sig : Nat} (hg : OnGrid t q sig) (neg : Bool) :
    (fdecode t (signBit t neg + packBits t q sig)).isReal ((if neg then -1 else 1) * (sig * (2 : ℝ) ^ q)) := by
  obtain ⟨E, F, hpack, hF, hE, h12, hfin, hval⟩ := packBits_fields h hg
  rw [hpack, fdecode_pack h neg hE hF h12 hfin, ← hval]
  split
  · rw [FVal.isReal, mul_assoc]
  · rw [FVal.isReal, mul_assoc]

theorem packBits_parity (h : Floating t) {q : Int} {sig : Nat} (neg : Bool) : (signBit t neg + packBits t q sig) % 2 = sig % 2 := by
  obtain ⟨htop, -, htwo, -⟩ := format_fields h
  have hfrac : 2 ^ fracBits t % 2 = 0 := Nat.mod_eq_zero_of_dvd (dvd_pow_self 2 (by omega))
  have hsign : signBit t neg % 2 = 0 := by
    rw [signBit]
    split
    · exact Nat.mod_eq_zero_of_dvd (dvd_pow_self 2 (by omega))
    · rfl
  have hpack : packBits t q sig % 2 = sig % 2 := by
    unfold packBits
    split_ifs with h0
    · rw [h0]
    · rfl
    · rw [Nat.add_mod, Nat.mul_mod, hfrac]
      simp
  omega

/-! ### One rounding to a multiple of a power of two (R65) -/

/-- `sig` is one of the multiples `lo` and `lo + 1` of the unit `U` around the magnitude `v`, as a mode of R65 chooses it. -/
structure Rounded (neg : Bool) (mode : Nat) (v U : ℝ) (lo sig : Nat) (ix : Bool) : Prop where
  lower : lo * U ≤ v
  upper : v < (lo + 1) * U
  exact : ix = false ↔ v = lo * U
  step : sig = lo ∨ (sig = lo + 1 ∧ lo * U < v)
  nearest : mode = 0 ∨ mode = 4 → (sig = lo → 2 * v ≤ (2 * lo + 1) * U) ∧ (sig = lo + 1 → (2 * lo + 1) * U ≤ 2 * v)
  even : mode = 0 → 2 * v = (2 * lo + 1) * U → sig % 2 = 0
  away : mode = 4 → 2 * v = (2 * lo + 1) * U → sig = lo + 1
  towardZero : mode = 1 → sig = lo
  up : mode = 2 → if neg then sig = lo else lo * U < v → sig = lo + 1
  down : mode = 3 → if neg then lo * U < v → sig = lo + 1 else sig = lo

/-- A magnitude is given by a multiple of 2^e, exactly or, when sticky, from below. -/
structure Given (m : Nat) (e : Int) (sticky : Bool) (v : ℝ) : Prop where
  lower : m * (2 : ℝ) ^ e ≤ v
  upper : v < (m + 1) * (2 : ℝ) ^ e
  exact : sticky = false ↔ v = m * (2 : ℝ) ^ e


section
variable {neg sticky : Bool} {m mode u : Nat} {e q : Int} {v : ℝ}

/-- Where a magnitude lies in its unit of `2 * h` steps `ε`, of which it takes `r`, and in part one more. -/
theorem halfway_cases {ε L : ℝ} {r h : Nat} (hε : 0 < ε) (hlow : L + r * ε ≤ v) (hup : v < L + (r + 1) * ε)
    (hex : sticky = false ↔ v = L + r * ε) :
    (r < h ∧ 2 * v < 2 * L + 2 * h * ε) ∨ (r = h ∧ sticky = false ∧ 2 * v = 2 * L + 2 * h * ε) ∨
      ((h < r ∨ r = h ∧ sticky = true) ∧ 2 * L + 2 * h * ε < 2 * v) := by
  rcases lt_trichotomy r h with hlt | heq | hgt
  · have hle : ((r : ℝ) + 1) * ε ≤ h * ε := mul_le_mul_of_nonneg_right (by exact_mod_cast hlt) hε.le
    exact .inl ⟨hlt, by linarith⟩
  · subst heq
    cases hs : sticky with
    | false => exact .inr (.inl ⟨rfl, rfl, by rw [hex.1 hs]; ring⟩)
    | true =>
      have hne : v ≠ L + r * ε := fun hv => by simp [hex.2 hv] at hs
      exact .inr (.inr ⟨.inr ⟨rfl, rfl⟩, by linarith [lt_of_le_of_ne hlow hne.symm]⟩)
  · have hle : (h : ℝ) * ε < r * ε := mul_lt_mul_of_pos_right (by exact_mod_cast hgt) hε
    exact .inr (.inr ⟨.inl hgt, by linarith⟩)

/-- An inexact rounding, by whether it goes up. -/
theorem rounded_of_up {U : ℝ} {lo : Nat} {up : Bool} (hlow : lo * U < v) (hupp : v < (lo + 1) * U)
    (hnear : mode = 0 ∨ mode = 4 → if up then (2 * lo + 1) * U ≤ 2 * v else 2 * v ≤ (2 * lo + 1) * U)
    (heven : mode = 0 → 2 * v = (2 * lo + 1) * U → up = (lo % 2 == 1)) (haway : mode = 4 → 2 * v = (2 * lo + 1) * U → up = true)
    (hzero : mode = 1 → up = false) (hup : mode = 2 → up = !neg) (hdown : mode = 3 → up = neg) :
    Rounded neg mode v U lo (if up then lo + 1 else lo) true where
  lower := hlow.le
  upper := hupp
  exact := by simp [hlow.ne']
  step := by cases up <;> simp [hlow]
  nearest h := by have := hnear h; cases up <;> simp_all
  even h htie := by
    have := heven h htie
    obtain hodd | hodd := Nat.mod_two_eq_zero_or_one lo <;> rw [hodd] at this <;> subst this <;> simp <;> omega
  away h htie := by simp [haway h htie]
  towardZero h := by simp [hzero h]
  up h := by have := hup h; cases neg <;> simp_all
  down h := by have := hdown h; cases neg <;> simp_all

/-- An exact rounding. -/
theorem rounded_exact {U : ℝ} {lo : Nat} (hU : 0 < U) (hv : v = lo * U) : Rounded neg mode v U lo lo false where
  lower := hv.ge
  upper := by rw [hv]; linarith
  exact := by simp [hv]
  step := .inl rfl
  nearest _ := ⟨fun _ => by rw [hv]; linarith, fun h => absurd h (by omega)⟩
  even _ htie := by rw [hv] at htie; linarith
  away _ htie := by rw [hv] at htie; linarith
  towardZero _ := rfl
  up _ := by cases neg <;> simp [hv]
  down _ := by cases neg <;> simp [hv]

/-- Rounding below the steps in which a magnitude is given. -/
theorem roundAt_rounded_below (hmode : mode ≤ 5) (hv : Given m e sticky v) (hq : e < q) :
    Rounded neg mode v (2 ^ q) (m / 2 ^ (q - e).toNat) (roundAt neg m e sticky q mode u).1 (roundAt neg m e sticky q mode u).2 := by
  obtain ⟨hlow, hupp, hex⟩ := hv
  obtain ⟨j, hj⟩ : ∃ j : Nat, (q - e).toNat = j + 1 := ⟨(q - e).toNat - 1, by omega⟩
  have hε : (0 : ℝ) < 2 ^ e := by positivity
  have hU : (2 : ℝ) ^ q = 2 * (2 ^ j : Nat) * 2 ^ e := by
    rw [show q = e + (j + 1 : Nat) by omega, zpow_add₀ two_ne_zero, zpow_natCast, pow_succ]
    push_cast
    ring
  have hUpos : (0 : ℝ) < 2 ^ q := by positivity
  simp only [roundAt, if_neg (not_le.2 hq), hj]
  generalize hlo : m / 2 ^ (j + 1) = lo
  generalize hr : m % 2 ^ (j + 1) = r
  have hm : m = lo * (2 * 2 ^ j) + r := by rw [← hlo, ← hr, ← Nat.pow_succ', Nat.div_add_mod']
  have hrlt : r < 2 * 2 ^ j := by rw [← hr, ← Nat.pow_succ']; exact Nat.mod_lt _ (Nat.two_pow_pos _)
  have hmε : (m : ℝ) * 2 ^ e = lo * 2 ^ q + r * 2 ^ e := by rw [hm, hU]; push_cast; ring
  have hrε : ((r : ℝ) + 1) * 2 ^ e ≤ 2 ^ q := by
    rw [hU]
    exact mul_le_mul_of_nonneg_right (by exact_mod_cast hrlt) hε.le
  have hhalf := halfway_cases (v := v) (h := 2 ^ j) (r := r) (L := lo * 2 ^ q) (sticky := sticky) hε (by linarith) (by linarith)
    (by rw [hex, hmε])
  have hmid : 2 * (lo * (2 : ℝ) ^ q) + 2 * (2 ^ j : Nat) * 2 ^ e = (2 * lo + 1) * 2 ^ q := by rw [hU]; ring
  rw [hmid] at hhalf
  have hexact : (r != 0 || sticky) = false ↔ v = lo * 2 ^ q := by
    rw [Bool.or_eq_false_iff, bne_eq_false_iff_eq, hex, hmε]
    refine ⟨fun ⟨h0, h⟩ => by rw [h, h0]; simp, fun h => ?_⟩
    have h0 : r = 0 := by
      by_contra hpos
      have : (0 : ℝ) < r * 2 ^ e := mul_pos (by exact_mod_cast Nat.pos_of_ne_zero hpos) hε
      linarith
    exact ⟨h0, by rw [h, h0]; simp⟩
  by_cases hix : (r != 0 || sticky) = false
  · rw [hix]
    exact rounded_exact hUpos (hexact.1 hix)
  · have hne : lo * (2 : ℝ) ^ q < v := lt_of_le_of_ne (by nlinarith [Nat.cast_nonneg (α := ℝ) r]) fun h => hix (hexact.2 h.symm)
    have hpow : 2 ^ (j + 1) = 2 * 2 ^ j := Nat.pow_succ'
    rw [Bool.not_eq_false] at hix
    rw [hix, Bool.true_and]
    refine rounded_of_up hne (by linarith) (fun h => ?_) (fun h htie => ?_) (fun h htie => ?_) (fun h => by subst h; rfl)
      (fun h => by subst h; rfl) (fun h => by subst h; rfl)
    · rcases hhalf with ⟨hrj, hside⟩ | ⟨hrj, hs, hside⟩ | ⟨hrj, hside⟩
      · have hlt : ¬ 2 ^ (j + 1) < 2 * r := by omega
        have heq : 2 * r ≠ 2 ^ (j + 1) := by omega
        have hle : ¬ 2 ^ (j + 1) ≤ 2 * r := by omega
        rcases h with rfl | rfl <;> simp [hlt, heq, hle, hside.le]
      · rw [hside]
        simp
      · have hup : 2 ^ (j + 1) < 2 * r ∨ 2 * r = 2 ^ (j + 1) ∧ sticky = true :=
          hrj.imp (fun h => by omega) fun ⟨h, hs⟩ => ⟨by omega, hs⟩
        have hle : 2 ^ (j + 1) ≤ 2 * r := by omega
        rcases h with rfl | rfl
        · rcases hup with hup | ⟨hup, hs⟩
          · simp [hup, hside.le]
          · simp [hup, hs, hside.le]
        · simp [hle, hside.le]
    · rcases hhalf with ⟨-, hside⟩ | ⟨hrj, hs, -⟩ | ⟨-, hside⟩
      · exact absurd htie hside.ne
      · have heq : 2 * r = 2 ^ (j + 1) := by omega
        subst h
        simp [heq, hs]
      · exact absurd htie hside.ne'
    · rcases hhalf with ⟨-, hside⟩ | ⟨hrj, hs, -⟩ | ⟨-, hside⟩
      · exact absurd htie hside.ne
      · have hle : 2 ^ (j + 1) ≤ 2 * r := by omega
        subst h
        simp [hle]
      · exact absurd htie hside.ne'

/-- Rounding at or above the steps in which a magnitude is exactly given. -/
theorem roundAt_rounded_above (hv : Given m e false v) (hq : q ≤ e) :
    Rounded neg mode v (2 ^ q) (m * 2 ^ (e - q).toNat) (roundAt neg m e false q mode u).1 (roundAt neg m e false q mode u).2 := by
  rw [roundAt, if_pos hq]
  refine rounded_exact (by positivity) ?_
  rw [hv.exact.1 rfl, show e = q + ((e - q).toNat : Int) by omega, zpow_add₀ two_ne_zero, zpow_natCast]
  push_cast
  rw [show (q + ((e - q).toNat : Int) - q).toNat = (e - q).toNat by omega]
  ring

/-- One rounding to a multiple of a power of two. -/
theorem roundAt_rounded (hmode : mode ≤ 5) (hv : Given m e sticky v) (hs : sticky = true → e < q) :
    ∃ lo, Rounded neg mode v (2 ^ q) lo (roundAt neg m e sticky q mode u).1 (roundAt neg m e sticky q mode u).2 := by
  by_cases hq : e < q
  · exact ⟨_, roundAt_rounded_below hmode hv hq⟩
  · have hexact : sticky = false := by simpa using mt hs hq
    subst hexact
    exact ⟨_, roundAt_rounded_above hv (not_lt.1 hq)⟩

/-! ### The number that a real rounds to (R65) -/

/-- The sign of a value. -/
def sgn (neg : Bool) : ℝ := if neg then -1 else 1

theorem sgn_mul_self (neg : Bool) : sgn neg * sgn neg = 1 := by cases neg <;> simp [sgn]

theorem abs_sgn_mul (neg : Bool) (x : ℝ) : |sgn neg * x| = |x| := by cases neg <;> simp [sgn]

/-- Distances do not depend on the sign. -/
theorem abs_sgn_sub (neg : Bool) (x z : ℝ) : |sgn neg * x - z| = |x - sgn neg * z| := by
  rw [← abs_sgn_mul neg (sgn neg * x - z), mul_sub, ← mul_assoc, sgn_mul_self, one_mul]

/-- A number of the format, with the sign taken off, lies on one side of the interval around the magnitude. -/
theorem side_of_gap {ty lo : Nat} {U : ℝ} (hlo : 0 ≤ lo * U) (hgap : ∀ z, Representable ty z → ¬ (lo * U < |z| ∧ |z| < (lo + 1) * U)) (z : ℝ)
    (hz : Representable ty z) : sgn neg * z ≤ lo * U ∨ (lo + 1) * U ≤ sgn neg * z := by
  by_contra hc
  rw [not_or, not_le, not_le] at hc
  have habs : |z| = sgn neg * z := by rw [← abs_sgn_mul neg, abs_of_pos (hlo.trans_lt hc.1)]
  exact hgap z hz (habs ▸ hc)

/-- When another number is as near as the nearest one, the magnitude lies halfway. -/
theorem tie_of_mirror {lo sig : Nat} {ix : Bool} {U z : ℝ} (hR : Rounded neg mode v U lo sig ix) (hmode : mode = 0 ∨ mode = 4)
    (hside : z ≤ lo * U ∨ (lo + 1) * U ≤ z) (hz : z = 2 * v - sig * U) (hne : z ≠ sig * U) : 2 * v = (2 * lo + 1) * U := by
  obtain ⟨hdown, hup⟩ := hR.nearest hmode
  have hlow := hR.lower
  have hupp := hR.upper
  rcases hR.step with h | ⟨h, hlt⟩
  · have := hdown h
    subst h
    rcases hside with hz' | hz'
    · exact absurd (by linarith : z = sig * U) hne
    · linarith
  · have := hup h
    subst h
    push_cast at hz
    rcases hside with hz' | hz'
    · linarith
    · linarith

/-- A rounded magnitude is the correctly rounded number, when no number of the format lies between the multiples around it. -/
theorem correctlyRounded_of_rounded {ty lo sig bits : Nat} {ix : Bool} {U : ℝ} (hR : Rounded neg mode v U lo sig ix) (hU : 0 < U)
    (hgap : ∀ z, Representable ty z → ¬ (lo * U < |z| ∧ |z| < (lo + 1) * U))
    (hval : (fdecode ty bits).isReal (sgn neg * (sig * U))) (hpar : bits % 2 = sig % 2) :
    CorrectlyRounded ty mode (sgn neg * v) bits (sgn neg * (sig * U)) := by
  have hlo : (0 : ℝ) ≤ lo * U := by positivity
  have hside := side_of_gap (neg := neg) hlo hgap
  have hdist : |sgn neg * v - sgn neg * (sig * U)| = |v - sig * U| := by rw [← mul_sub, abs_sgn_mul]
  -- a number as far as the result lies on the other side, as far from the rounded magnitude
  have hmirror : ∀ z, z ≠ sgn neg * (sig * U) → |sgn neg * v - z| = |sgn neg * v - sgn neg * (sig * U)| → sgn neg * z = 2 * v - sig * U := by
    intro z hne heq
    rw [hdist, abs_sgn_sub, abs_eq_abs] at heq
    rcases heq with heq | heq
    · refine absurd ?_ hne
      rw [show sig * U = sgn neg * z by linarith, ← mul_assoc, sgn_mul_self, one_mul]
    · linarith
  have hoff : ∀ z, z ≠ sgn neg * (sig * U) → sgn neg * z ≠ sig * U := by
    intro z hne h
    exact hne (by rw [← h, ← mul_assoc, sgn_mul_self, one_mul])
  have hcases : (sig = lo ∧ sig * U = lo * U) ∨ (sig = lo + 1 ∧ (sig : ℝ) * U = (lo + 1) * U ∧ lo * U < v) := by
    rcases hR.step with h | ⟨h, hlt⟩
    · exact .inl ⟨h, by rw [h]⟩
    · exact .inr ⟨h, by rw [h]; push_cast; ring, hlt⟩
  have hlow := hR.lower
  have hupp := hR.upper
  refine ⟨hval, fun z hz => ?_, fun hmode z hz => ?_, fun hmode z hz hne heq => ?_, fun hmode z hz hne heq => ?_, fun hmode => ?_,
    fun hmode => ?_, fun hmode => ?_⟩
  case refine_1 =>
    rintro ⟨hmin, hmax⟩
    have hz' := hside z hz
    cases neg <;> simp only [sgn, if_true, if_false, Bool.false_eq_true, one_mul, neg_mul, min_lt_iff, lt_max_iff] at hmin hmax hz' <;>
      rcases hcases with ⟨-, h⟩ | ⟨-, h, -⟩ <;> rw [h] at hmin hmax <;> rcases hz' with hz' | hz' <;>
      rcases hmin with hmin | hmin <;> rcases hmax with hmax | hmax <;> linarith
  case refine_2 =>
    rw [hdist, abs_sgn_sub]
    obtain ⟨hdown, hup⟩ := hR.nearest hmode
    rcases hcases with ⟨hs, h⟩ | ⟨hs, h, hlt⟩
    · have := hdown hs
      rw [h, abs_of_nonneg (by linarith)]
      rcases hside z hz with hz' | hz'
      · exact (by linarith : v - lo * U ≤ v - sgn neg * z).trans (le_abs_self _)
      · exact (by linarith : v - lo * U ≤ -(v - sgn neg * z)).trans (neg_le_abs _)
    · have := hup hs
      rw [h, abs_of_nonpos (by linarith)]
      rcases hside z hz with hz' | hz'
      · exact (by linarith : -(v - (lo + 1) * U) ≤ v - sgn neg * z).trans (le_abs_self _)
      · exact (by linarith : -(v - (lo + 1) * U) ≤ -(v - sgn neg * z)).trans (neg_le_abs _)
  case refine_3 =>
    rw [hpar]
    exact hR.even hmode (tie_of_mirror hR (.inl hmode) (hside z hz) (hmirror z hne heq) (hoff z hne))
  case refine_4 =>
    have htie := tie_of_mirror hR (.inr hmode) (hside z hz) (hmirror z hne heq) (hoff z hne)
    have hz' : sgn neg * z = lo * U := by
      rw [hmirror z hne heq, htie, hR.away hmode htie]
      push_cast
      ring
    rw [← abs_sgn_mul neg z, hz', abs_sgn_mul, hR.away hmode htie, abs_of_nonneg hlo, abs_of_nonneg (by positivity)]
    push_cast
    linarith
  case refine_5 =>
    rw [abs_sgn_mul, abs_sgn_mul, hR.towardZero hmode, abs_of_nonneg hlo, abs_of_nonneg (hlo.trans hlow)]
    exact hlow
  case refine_6 =>
    have hdir := hR.up hmode
    cases neg <;> simp only [sgn, if_true, if_false, Bool.false_eq_true, one_mul, neg_mul, neg_le_neg_iff] at hdir ⊢ <;>
      rcases hcases with ⟨hs, h⟩ | ⟨hs, h, hlt⟩ <;> rw [h]
    · by_contra hc
      have := hdir (by linarith)
      omega
    · linarith
    · linarith
    · omega
  case refine_7 =>
    have hdir := hR.down hmode
    cases neg <;> simp only [sgn, if_true, if_false, Bool.false_eq_true, one_mul, neg_mul, neg_le_neg_iff] at hdir ⊢ <;>
      rcases hcases with ⟨hs, h⟩ | ⟨hs, h, hlt⟩ <;> rw [h]
    · linarith
    · omega
    · by_contra hc
      have := hdir (by linarith)
      omega
    · linarith

theorem sgn_ne_zero (neg : Bool) : sgn neg ≠ 0 := by cases neg <;> simp [sgn]

/-- A rounding is exact when its result is the magnitude. -/
theorem Rounded.exact_iff {lo sig : Nat} {ix : Bool} {U : ℝ} (hR : Rounded neg mode v U lo sig ix) : ix = false ↔ sig * U = v := by
  rw [hR.exact]
  rcases hR.step with h | ⟨h, hlt⟩
  · rw [h, eq_comm]
  · rw [h]
    push_cast
    exact ⟨fun hv => absurd hv hlt.ne', fun hv => absurd hv hR.upper.ne'⟩

theorem flagNX_iff (ix tiny : Bool) : (flagIf ix fNX ||| flagIf (ix && tiny) fUF) &&& fNX = 0 ↔ ix = false := by
  revert ix tiny
  decide

/-! ### Rounding to a format (R65, R66, R70) -/

/-- The exponent of the step in which `roundFin` rounds: the last place of the magnitude's binade, or that of the subnormals. -/
def gridStep (ty m : Nat) (e : Int) : Int :=
  if (bitLen m : Int) - 1 + e - fracBits ty < lastPlace ty then lastPlace ty else (bitLen m : Int) - 1 + e - fracBits ty

variable {ty : Nat} {r : Rnd}

/-- A rounding without FTZ overflows, or encodes the rounded magnitude and raises NX when it is inexact. -/
theorem roundFin_cases (hftz : r.ftz = false) :
    (roundFin ty r neg m e sticky).2 &&& fOF ≠ 0 ∨
    (gridStep ty m e ≤ maxExp ty - fracBits ty ∧
      (gridStep ty m e = maxExp ty - fracBits ty → (roundAt neg m e sticky (gridStep ty m e) r.mode r.u).1 ≤ maxSig ty) ∧
      ∃ tiny, roundFin ty r neg m e sticky =
        (signBit ty neg + packBits ty (gridStep ty m e) (roundAt neg m e sticky (gridStep ty m e) r.mode r.u).1,
          flagIf (roundAt neg m e sticky (gridStep ty m e) r.mode r.u).2 fNX |||
            flagIf ((roundAt neg m e sticky (gridStep ty m e) r.mode r.u).2 && tiny) fUF)) := by
  unfold roundFin
  simp only [← gridStep.eq_1]
  split
  · left
    split
    · change (fOF ||| fNX ||| flagIf r.sat fSX) &&& fOF ≠ 0
      cases r.sat <;> decide
    · change (fOF ||| fNX) &&& fOF ≠ 0
      decide
  next hovf =>
    right
    simp only [Bool.or_eq_true, Bool.and_eq_true, decide_eq_true_eq, beq_iff_eq, not_or, not_and, not_lt] at hovf
    refine ⟨hovf.1, hovf.2, ?_⟩
    rw [hftz, Bool.and_false, Bool.false_and, if_neg Bool.false_ne_true]
    exact ⟨_, rfl⟩

/-- The number of bits of a magnitude. -/
theorem bitLen_bounds (hm : m ≠ 0) : 2 ^ (bitLen m - 1) ≤ m ∧ m < 2 ^ bitLen m ∧ 1 ≤ bitLen m := by
  rw [bitLen, if_neg hm]
  exact ⟨Nat.log2_self_le hm, Nat.lt_log2_self, Nat.le_add_left ..⟩

/-- A magnitude lies in the binade of its leading bit. -/
theorem binade_le (hm : m ≠ 0) : (2 : ℝ) ^ ((bitLen m : Int) - 1 + e) ≤ m * (2 : ℝ) ^ e := by
  obtain ⟨hlen, -, hone⟩ := bitLen_bounds hm
  rw [zpow_add₀ two_ne_zero, show (bitLen m : Int) - 1 = ((bitLen m - 1 : Nat) : Int) by omega, zpow_natCast]
  exact mul_le_mul_of_nonneg_right (by exact_mod_cast hlen) (by positivity)

theorem le_binade (hm : m ≠ 0) : ((m : ℝ) + 1) * (2 : ℝ) ^ e ≤ (2 : ℝ) ^ ((bitLen m : Int) + e) := by
  obtain ⟨-, hlt, -⟩ := bitLen_bounds hm
  rw [zpow_add₀ two_ne_zero, zpow_natCast]
  exact mul_le_mul_of_nonneg_right (by exact_mod_cast hlt) (by positivity)

theorem lastPlace_le_gridStep (ty m : Nat) (e : Int) : lastPlace ty ≤ gridStep ty m e := by
  unfold gridStep
  split <;> omega

/-- The multiples around a magnitude fit the format's significand. -/
theorem onGrid_of_rounded {lo sig : Nat} {ix : Bool} (hm : m ≠ 0) (hv : Given m e sticky v)
    (hR : Rounded neg mode v (2 ^ gridStep ty m e) lo sig ix) :
    (gridStep ty m e = lastPlace ty ∨ 2 ^ fracBits ty ≤ lo) ∧ sig ≤ 2 ^ (fracBits ty + 1) := by
  have hq : (0 : ℝ) < 2 ^ gridStep ty m e := by positivity
  have hbinade : (2 : ℝ) ^ ((bitLen m : Int) - 1 + e) ≤ v := (binade_le hm).trans hv.lower
  have habove : v < (2 : ℝ) ^ ((bitLen m : Int) + e) := hv.upper.trans_le (le_binade hm)
  have hstep : (bitLen m : Int) - 1 + e - fracBits ty ≤ gridStep ty m e := by
    unfold gridStep
    split <;> omega
  refine ⟨?_, ?_⟩
  · by_cases hsub : (bitLen m : Int) - 1 + e - fracBits ty < lastPlace ty
    · exact .inl (by rw [gridStep, if_pos hsub])
    · right
      have hgrid : gridStep ty m e = (bitLen m : Int) - 1 + e - fracBits ty := by rw [gridStep, if_neg hsub]
      have hval : ((2 ^ fracBits ty : Nat) : ℝ) * 2 ^ gridStep ty m e = 2 ^ ((bitLen m : Int) - 1 + e) := by
        rw [hgrid, Nat.cast_pow, Nat.cast_ofNat, ← zpow_natCast, ← zpow_add₀ two_ne_zero]
        congr 1
        ring
      have hlt' : ((2 ^ fracBits ty : Nat) : ℝ) < lo + 1 := lt_of_mul_lt_mul_right (by linarith [hR.upper]) hq.le
      exact Nat.lt_succ_iff.1 (by exact_mod_cast hlt')
  · have hval : (2 : ℝ) ^ ((bitLen m : Int) + e) ≤ ((2 ^ (fracBits ty + 1) : Nat) : ℝ) * 2 ^ gridStep ty m e := by
      rw [Nat.cast_pow, Nat.cast_ofNat, ← zpow_natCast, ← zpow_add₀ two_ne_zero]
      exact zpow_le_zpow_right₀ one_le_two (by push_cast; omega)
    have hlt' : (lo : ℝ) < (2 ^ (fracBits ty + 1) : Nat) := lt_of_mul_lt_mul_right (by linarith [hR.lower]) hq.le
    have hlo : lo < 2 ^ (fracBits ty + 1) := by exact_mod_cast hlt'
    rcases hR.step with h | ⟨h, -⟩ <;> omega

/-- `roundFin` rounds a magnitude, given exactly or, with enough bits to spare, from below, to the format. -/
theorem roundFin_roundsTo (hty : Floating ty) (hmode : r.mode ≤ 5) (hftz : r.ftz = false) (hm : m ≠ 0) (hv : Given m e sticky v)
    (hs : sticky = true → 2 ^ (fracBits ty + 1) ≤ m) : RoundsTo ty r (sgn neg * v) (roundFin ty r neg m e sticky) := by
  intro hof
  obtain ⟨hrange, htop, tiny, heq⟩ := (roundFin_cases (neg := neg) (m := m) (e := e) (sticky := sticky) (ty := ty) hftz).resolve_left
    (not_not.2 hof)
  have hbelow : sticky = true → e < gridStep ty m e := by
    intro h
    have hlen : fracBits ty + 1 < bitLen m :=
      (Nat.pow_lt_pow_iff_right (by decide : 1 < 2)).1 ((hs h).trans_lt (bitLen_bounds hm).2.1)
    unfold gridStep
    split <;> omega
  obtain ⟨lo, hR⟩ := roundAt_rounded (neg := neg) (u := r.u) hmode hv hbelow
  obtain ⟨hlo, hsig⟩ := onGrid_of_rounded hm hv hR
  have hgrid : OnGrid ty (gridStep ty m e) (roundAt neg m e sticky (gridStep ty m e) r.mode r.u).1 := by
    refine ⟨lastPlace_le_gridStep .., hlo.imp_right fun h => ?_, hsig, hrange, htop⟩
    rcases hR.step with h' | ⟨h', -⟩ <;> omega
  rw [heq]
  refine ⟨_, correctlyRounded_of_rounded hR (by positivity) (fun z hz => grid_gap hz hlo) (decode_packBits hty hgrid neg)
    (packBits_parity hty neg), ?_⟩
  rw [flagNX_iff, hR.exact_iff]
  exact (mul_right_inj' (sgn_ne_zero neg)).symm

/-- A number of the format is the correctly rounded one of itself. -/
theorem correctlyRounded_self {bits : Nat} {x : ℝ} (h : (fdecode ty bits).isReal x) : CorrectlyRounded ty mode x bits x := by
  have hfar : ∀ z, z ≠ x → |x - z| ≠ |x - x| := fun z hz he => hz (by
    rw [sub_self, abs_zero, abs_eq_zero, sub_eq_zero] at he
    exact he.symm)
  refine ⟨h, fun z _ hc => ?_, fun _ z _ => by simp, fun _ z _ hz he => absurd he (hfar z hz), fun _ z _ hz he => absurd he (hfar z hz),
    fun _ => le_rfl, fun _ => le_rfl, fun _ => le_rfl⟩
  rw [min_self, max_self] at hc
  exact lt_asymm hc.1 hc.2

/-- A magnitude given exactly. -/
theorem given_exact (m : Nat) (e : Int) : Given m e false (m * (2 : ℝ) ^ e) where
  lower := le_rfl
  upper := mul_lt_mul_of_pos_right (by linarith) (by positivity)
  exact := by simp

/-- `roundVal` rounds a finite value to the format. -/
theorem roundVal_roundsTo (hty : Floating ty) (hmode : r.mode ≤ 5) (hftz : r.ftz = false) {z : FVal} {x : ℝ} (hz : z.isReal x) :
    RoundsTo ty r x (roundVal ty r z) := by
  cases z with
  | nan => exact hz.elim
  | inf n => exact hz.elim
  | fin n m e =>
    have hx : x = sgn n * (m * (2 : ℝ) ^ e) := by rw [← mul_assoc]; exact hz
    subst hx
    by_cases hm : m = 0
    · subst hm
      have hzero := fdecode_pack hty n (E := 0) (F := 0) (Nat.two_pow_pos _) (Nat.two_pow_pos _) (by simp)
        (fun _ => by have := Nat.pow_le_pow_right (n := 2) (by decide) (two_le_expBits hty); omega)
      rw [Nat.zero_mul, Nat.add_zero, Nat.add_zero, if_pos rfl] at hzero
      have hx : sgn n * (((0 : Nat) : ℝ) * (2 : ℝ) ^ e) = 0 := by simp
      rw [hx]
      exact fun _ => ⟨0, correctlyRounded_self (by rw [show (roundVal ty r (.fin n 0 e)).1 = signBit ty n from rfl, hzero]; simp [FVal.isReal]),
        by simp [roundVal]⟩
    · rw [show roundVal ty r (.fin n m e) = roundFin ty r n m e false from if_neg hm]
      exact roundFin_roundsTo hty hmode hftz hm (given_exact m e) (by simp)

end

end

end Sys2Proof.Machine.Rounding

/-! ## The special functions (O23) -/

namespace Sys2Proof.Machine.SpecialFunctions

-- one proof after another: side by side they take more threads than the check's memory limit has stacks for
set_option Elab.async false

open Rounding

section
variable {ty : Nat} {r : Rnd} {neg sticky : Bool} {m a b : Nat} {e : Int}

/-! ### The integer square root -/

/-- Bit by bit, the root is built from below. -/
theorem isqrtAux_spec {x : Nat} (n : Nat) {r : Nat} (hlow : r * r ≤ x) (hup : x < (r + 2 ^ n) * (r + 2 ^ n)) :
    isqrtAux x n r * isqrtAux x n r ≤ x ∧ x < (isqrtAux x n r + 1) * (isqrtAux x n r + 1) := by
  induction n generalizing r with
  | zero => exact ⟨hlow, hup⟩
  | succ n ih =>
    rw [isqrtAux]
    split
    next h => exact ih h (by rwa [Nat.add_assoc, ← Nat.two_mul, ← Nat.pow_succ'])
    next h => exact ih hlow (Nat.lt_of_not_le h)

theorem isqrt_spec (x : Nat) : isqrt x * isqrt x ≤ x ∧ x < (isqrt x + 1) * (isqrt x + 1) := by
  refine isqrtAux_spec _ (Nat.zero_le _) ?_
  have hlen : x < 2 ^ bitLen x := by
    by_cases hx : x = 0
    · rw [hx]; decide
    · exact (bitLen_bounds hx).2.1
  rw [Nat.zero_add, ← Nat.pow_add]
  exact hlen.trans_le (Nat.pow_le_pow_right (by decide) (by omega))

/-- The integer root is the real root cut off. -/
theorem floor_sqrt {x : ℝ} (hx : 0 ≤ x) : ⌊√x⌋₊ = isqrt ⌊x⌋₊ := by
  obtain ⟨hlow, hup⟩ := isqrt_spec ⌊x⌋₊
  rw [Nat.floor_eq_iff (Real.sqrt_nonneg x)]
  refine ⟨Real.le_sqrt_of_sq_le ?_, (Real.sqrt_lt' (by positivity)).2 ?_⟩
  · exact (by rw [sq]; exact_mod_cast hlow : ((isqrt ⌊x⌋₊ : Nat) : ℝ) ^ 2 ≤ ⌊x⌋₊).trans (Nat.floor_le hx)
  · refine (Nat.lt_floor_add_one x).trans_le ?_
    rw [sq]
    exact_mod_cast hup

theorem le_isqrt {x k : Nat} (h : k * k ≤ x) : k ≤ isqrt x := by
  by_contra hc
  have hle : isqrt x + 1 ≤ k := by omega
  exact absurd (isqrt_spec x).2 (Nat.not_lt.2 ((Nat.mul_le_mul hle hle).trans h))

/-! ### Algebraic functions (R223) -/

/-- A real cut off to a natural number gives a magnitude. -/
theorem given_floor {x : ℝ} (hx : 0 ≤ x) (hs : sticky = false ↔ x = ⌊x⌋₊) : Given ⌊x⌋₊ e sticky (x * 2 ^ e) where
  lower := mul_le_mul_of_nonneg_right (Nat.floor_le hx) (by positivity)
  upper := mul_lt_mul_of_pos_right (Nat.lt_floor_add_one x) (by positivity)
  exact := hs.trans (mul_left_inj' (by positivity : (2 : ℝ) ^ e ≠ 0)).symm

/-- A long magnitude has the bits that a sticky rounding needs. -/
theorem roundFin_long (hty : Floating ty) (hmode : r.mode ≤ 5) (hftz : r.ftz = false) {v : ℝ} (hv : Given m e sticky v) (hm : 2 ^ 100 ≤ m) :
    RoundsTo ty r (sgn neg * v) (roundFin ty r neg m e sticky) := by
  obtain ⟨-, -, -, hfrac⟩ := format_fields hty
  exact roundFin_roundsTo hty hmode hftz (by omega) hv fun _ =>
    (Nat.pow_le_pow_right (by decide) (by omega : fracBits ty + 1 ≤ 100)).trans hm

/-- A quotient is rounded once. -/
theorem roundQuot_roundsTo (hty : Floating ty) (hmode : r.mode ≤ 5) (hftz : r.ftz = false) (ha : a ≠ 0) (hb : b ≠ 0) :
    RoundsTo ty r (sgn neg * ((a : ℝ) / b * 2 ^ e)) (roundQuot ty r neg a b e) := by
  have hbr : (0 : ℝ) < b := by exact_mod_cast Nat.pos_of_ne_zero hb
  unfold roundQuot
  generalize hk : bitLen b + 100 = k
  dsimp only
  have hfloor : ⌊((a * 2 ^ k : Nat) : ℝ) / b⌋₊ = a * 2 ^ k / b := Nat.floor_div_eq_div ..
  have hval : (a : ℝ) / b * 2 ^ e = ((a * 2 ^ k : Nat) : ℝ) / b * 2 ^ (e - (k : Int)) := by
    rw [zpow_sub₀ two_ne_zero, zpow_natCast]
    push_cast
    field_simp
  rw [hval, ← hfloor]
  refine roundFin_long hty hmode hftz (given_floor (by positivity) ?_) ?_
  · rw [hfloor, bne_eq_false_iff_eq, eq_comm, div_eq_iff hbr.ne']
    norm_cast
    have hdiv := Nat.div_add_mod' (a * 2 ^ k) b
    omega
  · rw [hfloor, Nat.le_div_iff_mul_le (Nat.pos_of_ne_zero hb), ← hk, Nat.pow_add, Nat.mul_comm]
    calc b * 2 ^ 100 ≤ 2 ^ bitLen b * 2 ^ 100 := Nat.mul_le_mul_right _ (bitLen_bounds hb).2.1.le
      _ ≤ a * (2 ^ bitLen b * 2 ^ 100) := Nat.le_mul_of_pos_left _ (Nat.pos_of_ne_zero ha)

/-- A power of two with an even exponent has a root. -/
theorem sqrt_mul_zpow {x : ℝ} (hx : 0 ≤ x) (he : e % 2 = 0) : √(x * 2 ^ e) = √x * 2 ^ (e / 2) := by
  have hpow : (2 : ℝ) ^ e = (2 ^ (e / 2)) ^ 2 := by
    rw [← zpow_natCast, ← zpow_mul]
    congr 1
    push_cast
    omega
  rw [hpow, Real.sqrt_mul hx, Real.sqrt_sq (by positivity)]

/-- A root cut off: exact when its square is the number. -/
theorem sqrt_eq_floor_iff {n : Nat} : √(n : ℝ) = ((⌊√(n : ℝ)⌋₊ : Nat) : ℝ) ↔ isqrt n * isqrt n = n := by
  rw [floor_sqrt n.cast_nonneg, Nat.floor_natCast, Real.sqrt_eq_iff_mul_self_eq n.cast_nonneg (Nat.cast_nonneg _), eq_comm]
  exact_mod_cast Iff.rfl

/-- The root of a value with an even exponent is rounded once. -/
theorem roundSqrt_even (hty : Floating ty) (hmode : r.mode ≤ 5) (hftz : r.ftz = false) (hm : m ≠ 0) (he : e % 2 = 0) :
    RoundsTo ty r √((m : ℝ) * 2 ^ e)
      (roundFin ty r false (isqrt (m * 2 ^ 200)) (e / 2 - 100) (isqrt (m * 2 ^ 200) * isqrt (m * 2 ^ 200) != m * 2 ^ 200)) := by
  have hfloor : ⌊√((m * 2 ^ 200 : Nat) : ℝ)⌋₊ = isqrt (m * 2 ^ 200) := by rw [floor_sqrt (Nat.cast_nonneg _), Nat.floor_natCast]
  have hval : √((m : ℝ) * 2 ^ e) = sgn false * (√((m * 2 ^ 200 : Nat) : ℝ) * 2 ^ (e / 2 - 100)) := by
    have h200 : ((m * 2 ^ 200 : Nat) : ℝ) = m * (2 : ℝ) ^ (200 : Int) := by push_cast; norm_num
    rw [sqrt_mul_zpow m.cast_nonneg he, h200, sqrt_mul_zpow m.cast_nonneg rfl, zpow_sub₀ two_ne_zero]
    simp only [sgn, Bool.false_eq_true, if_false, one_mul, Int.reduceDiv]
    field_simp
  rw [hval, ← hfloor]
  refine roundFin_long hty hmode hftz (given_floor (Real.sqrt_nonneg _) ?_) ?_
  · rw [sqrt_eq_floor_iff, hfloor, bne_eq_false_iff_eq]
  · rw [hfloor]
    refine le_isqrt ?_
    rw [← Nat.pow_add]
    exact Nat.le_mul_of_pos_left _ (Nat.pos_of_ne_zero hm)

/-- A value with an odd exponent, with an even one. -/
theorem evened (m : Nat) (e : Int) : ((2 * m : Nat) : ℝ) * 2 ^ (e - 1) = m * 2 ^ e := by
  rw [zpow_sub_one₀ two_ne_zero]
  push_cast
  field_simp

theorem roundSqrt_roundsTo (hty : Floating ty) (hmode : r.mode ≤ 5) (hftz : r.ftz = false) (hm : m ≠ 0) :
    RoundsTo ty r √((m : ℝ) * 2 ^ e) (roundSqrt ty r m e) := by
  unfold roundSqrt
  by_cases he : e % 2 = 0
  · rw [if_pos he]
    exact roundSqrt_even hty hmode hftz hm he
  · rw [if_neg he, ← evened]
    exact roundSqrt_even hty hmode hftz (by omega) (by omega)

/-- The reciprocal root of a value with an even exponent is rounded once. -/
theorem roundRsqrt_even (hty : Floating ty) (hmode : r.mode ≤ 5) (hftz : r.ftz = false) (hm : m ≠ 0) (he : e % 2 = 0) :
    let k := bitLen m / 2 + 101
    let s := isqrt (2 ^ (2 * k) / m)
    RoundsTo ty r (1 / √((m : ℝ) * 2 ^ e)) (roundFin ty r false s (-(e / 2) - (k : Int)) (s * s * m != 2 ^ (2 * k))) := by
  intro k s
  have hmr : (0 : ℝ) < m := by exact_mod_cast Nat.pos_of_ne_zero hm
  have hfloor : ⌊√(((2 ^ (2 * k) : Nat) : ℝ) / m)⌋₊ = s := by
    rw [floor_sqrt (by positivity), Nat.floor_div_eq_div]
  have hval : 1 / √((m : ℝ) * 2 ^ e) = sgn false * (√(((2 ^ (2 * k) : Nat) : ℝ) / m) * 2 ^ (-(e / 2) - (k : Int))) := by
    have hsq : ((2 ^ (2 * k) : Nat) : ℝ) = (2 ^ k) ^ 2 := by push_cast; ring
    rw [sqrt_mul_zpow m.cast_nonneg he, hsq, Real.sqrt_div (by positivity), Real.sqrt_sq (by positivity), zpow_sub₀ two_ne_zero, zpow_neg,
      zpow_natCast]
    simp only [sgn, Bool.false_eq_true, if_false, one_mul]
    field_simp
  rw [hval, ← hfloor]
  refine roundFin_long hty hmode hftz (given_floor (Real.sqrt_nonneg _) ?_) ?_
  · rw [hfloor, bne_eq_false_iff_eq, Real.sqrt_eq_iff_mul_self_eq (by positivity) (Nat.cast_nonneg _), div_eq_iff hmr.ne', eq_comm]
    exact_mod_cast Iff.rfl
  · rw [hfloor]
    refine le_isqrt ((Nat.le_div_iff_mul_le (Nat.pos_of_ne_zero hm)).2 ?_)
    calc 2 ^ 100 * 2 ^ 100 * m ≤ 2 ^ 200 * 2 ^ bitLen m := by
          rw [← Nat.pow_add]
          exact Nat.mul_le_mul_left _ (bitLen_bounds hm).2.1.le
      _ ≤ 2 ^ (2 * k) := by
          rw [← Nat.pow_add]
          exact Nat.pow_le_pow_right (by decide) (by omega)

theorem roundRsqrt_roundsTo (hty : Floating ty) (hmode : r.mode ≤ 5) (hftz : r.ftz = false) (hm : m ≠ 0) :
    RoundsTo ty r (1 / √((m : ℝ) * 2 ^ e)) (roundRsqrt ty r m e) := by
  unfold roundRsqrt
  by_cases he : e % 2 = 0
  · rw [if_pos he]
    exact roundRsqrt_even hty hmode hftz hm he
  · rw [if_neg he, ← evened]
    exact roundRsqrt_even hty hmode hftz (by omega) (by omega)

/-! ### Exact operands of the other functions (R223) -/

variable {tie : Nat} {k : Int}

/-- A value that is not below a power of two has its leading bit there or above. -/
theorem le_top (hm : m ≠ 0) {lo : Int} (h : (2 : ℝ) ^ lo ≤ m * (2 : ℝ) ^ e) : lo ≤ (bitLen m : Int) - 1 + e := by
  have hε : (0 : ℝ) < 2 ^ e := by positivity
  have hlt : (2 : ℝ) ^ lo < 2 ^ ((bitLen m : Int) + e) := h.trans_lt ((by linarith : (m : ℝ) * 2 ^ e < (m + 1) * 2 ^ e).trans_le (le_binade hm))
  rw [zpow_lt_zpow_iff_right₀ one_lt_two] at hlt
  omega

theorem top_lt (hm : m ≠ 0) {hi : Int} (h : (m : ℝ) * 2 ^ e < (2 : ℝ) ^ hi) : (bitLen m : Int) - 1 + e < hi :=
  (zpow_lt_zpow_iff_right₀ one_lt_two).1 ((binade_le hm).trans_lt h)

/-- A value that is a quotient of natural numbers, without fractions. -/
theorem nat_of_real {c K : Nat} (h : (c : ℝ) * (m * (2 : ℝ) ^ e) = K) : c * m * 2 ^ e.toNat = K * 2 ^ (-e).toNat := by
  have hpow : (2 : ℝ) ^ e * 2 ^ (-e).toNat = 2 ^ e.toNat := by
    rw [← zpow_natCast, ← zpow_natCast, ← zpow_add₀ two_ne_zero]
    congr 1
    omega
  have hreal : (c : ℝ) * m * 2 ^ e.toNat = K * 2 ^ (-e).toNat := by rw [← h, ← hpow]; ring
  exact_mod_cast hreal

/-- The folding of a number of quarter turns. -/
theorem foldTurn_quarters (j : Nat) {c : Nat} (hc : 0 < c) :
    foldTurn ((j * c : Nat) : Int) (2 * c) = (decide (2 ≤ j % 4), if j % 2 = 0 then 0 else c) := by
  have hmod : (((j * c : Nat) : Int) % ((2 * (2 * c) : Nat) : Int)).toNat = j % 4 * c := by
    rw [← Int.natCast_mod, Int.toNat_natCast, show 2 * (2 * c) = 4 * c by ring, Nat.mul_mod_mul_right]
  rw [foldTurn, hmod]
  have hj : j % 4 < 4 := Nat.mod_lt _ (by decide)
  have hj2 : j % 2 = j % 4 % 2 := by omega
  rw [hj2]
  generalize j % 4 = i at hj
  interval_cases i
  · simp [hc]
  · simp [Nat.lt_mul_iff_one_lt_left hc]
  · simp
  · simp [show ¬ 3 * c < 2 * c by omega, show 3 * c - 2 * c = c by omega]

/-- The magnitude and the sign of a real that a finite value stands for. -/
theorem magnitude_of_isReal {n : Bool} {x : ℝ} (h : (FVal.fin n m e).isReal x) (hm : m ≠ 0) :
    (m : ℝ) * 2 ^ e = |x| ∧ (n = decide (x < 0)) ∧ x ≠ 0 := by
  have hpos : (0 : ℝ) < m * 2 ^ e := mul_pos (by exact_mod_cast Nat.pos_of_ne_zero hm) (by positivity)
  have hx : x = sgn n * (m * (2 : ℝ) ^ e) := by rw [← mul_assoc]; exact h
  cases n <;> simp only [sgn, if_true, if_false, Bool.false_eq_true, one_mul, neg_mul] at hx <;> subst hx
  · exact ⟨(abs_of_pos hpos).symm, (decide_eq_false hpos.not_gt).symm, hpos.ne'⟩
  · exact ⟨by rw [abs_neg, abs_of_pos hpos], (decide_eq_true (neg_lt_zero.2 hpos)).symm, (neg_lt_zero.2 hpos).ne⟩

/-- An integer operand, by its magnitude. -/
theorem integer_operand {n : Bool} (h : (FVal.fin n m e).isReal k) (hm : m ≠ 0) :
    (m : ℝ) * 2 ^ e = k.natAbs ∧ n = decide (k < 0) ∧ 0 < k.natAbs := by
  obtain ⟨hmag, hn, hne⟩ := magnitude_of_isReal h hm
  refine ⟨?_, hn.trans (decide_eq_decide.2 Int.cast_lt_zero), Int.natAbs_pos.2 fun h0 => hne (by rw [h0]; simp)⟩
  rw [hmag, Nat.cast_natAbs, Int.cast_abs]

/-- The exponent of 2 of an integer is exact (R223). -/
theorem fexp2_integer {n : Bool} (h : (FVal.fin n m e).isReal k) (hm : m ≠ 0) (hk : k.natAbs < 8192) :
    fexp2 ty r tie n m e = roundFin ty r false 1 k false := by
  obtain ⟨hmag, hn, hpos⟩ := integer_operand h hm
  have hlow := le_top (lo := 0) hm (by rw [hmag, zpow_zero]; exact_mod_cast hpos)
  have hup : (bitLen m : Int) - 1 + e < 13 := top_lt hm (by
    rw [hmag, show (2 : ℝ) ^ (13 : Int) = ((8192 : Nat) : ℝ) by norm_num]
    exact_mod_cast hk)
  have hnat : m * 2 ^ e.toNat = k.natAbs * 2 ^ (-e).toNat := by simpa using nat_of_real (c := 1) (by rw [Nat.cast_one, one_mul]; exact hmag)
  have hv : (if n then -((m * 2 ^ e.toNat : Nat) : Int) else (m * 2 ^ e.toNat : Nat)) = k * ((2 ^ (-e).toNat : Nat) : Int) := by
    rw [hnat, hn]
    by_cases h0 : k < 0
    · rw [if_pos (by simpa using h0), Nat.cast_mul, ← neg_mul]
      congr 1
      omega
    · rw [if_neg (by simpa using h0), Nat.cast_mul]
      congr 1
      omega
  have hd : ((2 ^ (-e).toNat : Nat) : Int) ≠ 0 := by positivity
  unfold fexp2
  simp only [if_neg (show ¬ 13 ≤ (bitLen m : Int) - 1 + e by omega), if_neg (show ¬ (bitLen m : Int) - 1 + e < -200 by omega), hv,
    Int.mul_emod_left, Int.mul_ediv_cancel _ hd]
  rfl

/-- A value with a fraction, in halves of its denominator. -/
theorem halves_of_real {K : Nat} (he : ¬ 0 ≤ e) (h : (2 : ℝ) * (m * (2 : ℝ) ^ e) = K) :
    ∃ c, 0 < c ∧ 2 ^ (-e).toNat = 2 * c ∧ m = K * c := by
  have hnat := nat_of_real (c := 2) h
  obtain ⟨j, hj⟩ : ∃ j, (-e).toNat = j + 1 := ⟨(-e).toNat - 1, by omega⟩
  refine ⟨2 ^ j, Nat.two_pow_pos _, by rw [hj, Nat.pow_succ'], ?_⟩
  rw [show e.toNat = 0 by omega, hj, Nat.pow_succ'] at hnat
  refine Nat.eq_of_mul_eq_mul_left (by decide : 0 < 2) ?_
  rw [← Nat.mul_one (2 * m), ← Nat.pow_zero 2, hnat]
  ring

/-- The sine of half turns: an exact zero at whole ones, an exact one between them (R223). -/
theorem fsinpi_halves {n : Bool} {K : Nat} (h : (2 : ℝ) * (m * (2 : ℝ) ^ e) = K) (hm : m ≠ 0) (hK : K ≠ 0) :
    (K % 2 = 0 → fsinpi ty r tie n m e = (signBit ty n, 0)) ∧
    (K % 2 = 1 → fsinpi ty r tie n m e = roundFin ty r (decide (2 ≤ K % 4) != n) 1 0 false) := by
  have hone : (1 : ℝ) ≤ K := by exact_mod_cast Nat.pos_of_ne_zero hK
  have htop : -1 ≤ (bitLen m : Int) - 1 + e := le_top hm (by rw [zpow_neg_one]; linarith)
  by_cases he : 0 ≤ e
  · have hnat := nat_of_real (c := 2) h
    rw [show (-e).toNat = 0 by omega, Nat.pow_zero, Nat.mul_one, Nat.mul_assoc] at hnat
    refine ⟨fun _ => ?_, fun hodd => by omega⟩
    rw [fsinpi]
    exact if_pos he
  · obtain ⟨c, hc, hd, hmc⟩ := halves_of_real he h
    unfold fsinpi
    simp only [if_neg he, if_neg (show ¬ (bitLen m : Int) - 1 + e < -200 by omega), hd]
    rw [hmc, foldTurn_quarters K hc]
    refine ⟨fun heven => by simp [heven], fun hodd => ?_⟩
    simp [hodd, hc.ne']

/-- The cosine of half turns: an exact zero between whole ones (R223). -/
theorem fcospi_halves {K : Nat} (h : (2 : ℝ) * (m * (2 : ℝ) ^ e) = K) (hm : m ≠ 0) (hK : K ≠ 0) :
    (K % 2 = 0 → fcospi ty r tie m e = roundFin ty r (decide (K / 2 % 2 = 1)) 1 0 false) ∧
    (K % 2 = 1 → fcospi ty r tie m e = (0, 0)) := by
  have hone : (1 : ℝ) ≤ K := by exact_mod_cast Nat.pos_of_ne_zero hK
  have htop : -1 ≤ (bitLen m : Int) - 1 + e := le_top hm (by rw [zpow_neg_one]; linarith)
  by_cases he : 0 ≤ e
  · have hnat := nat_of_real (c := 2) h
    rw [show (-e).toNat = 0 by omega, Nat.pow_zero, Nat.mul_one, Nat.mul_assoc] at hnat
    refine ⟨fun _ => ?_, fun hodd => by omega⟩
    unfold fcospi
    by_cases h0 : 0 < e
    · have heven : K / 2 % 2 ≠ 1 := by
        obtain ⟨j, hj⟩ : ∃ j, e.toNat = j + 1 := ⟨e.toNat - 1, by omega⟩
        have hfour : K = 4 * (m * 2 ^ j) := by
          rw [← hnat, hj]
          ring
        omega
      simp [h0, heven]
    · have he0 : e = 0 := by omega
      subst he0
      have hKm : K / 2 = m := by simp at hnat; omega
      simp only [lt_irrefl, if_false, if_true, hKm]
      rfl
  · obtain ⟨c, hc, hd, hmc⟩ := halves_of_real he h
    have hturn : ((2 * m : Nat) + ((2 * c : Nat) : Int) : Int) = (((K + 1) * (2 * c) : Nat) : Int) := by rw [hmc]; push_cast; ring
    unfold fcospi
    simp only [if_neg (show ¬ 0 < e by omega), if_neg (show ¬ e = 0 by omega), if_neg (show ¬ (bitLen m : Int) - 1 + e < -200 by omega), hd]
    rw [hturn, foldTurn_quarters (K + 1) (by omega)]
    refine ⟨fun heven => ?_, fun hodd => ?_⟩
    · have hodd' : (K + 1) % 2 ≠ 0 := by omega
      have hsign : decide (2 ≤ (K + 1) % 4) = decide (K / 2 % 2 = 1) := decide_eq_decide.2 (by omega)
      simp [hodd', hsign, hc.ne']
    · have heven' : (K + 1) % 2 = 0 := by omega
      simp [heven']

/-- The logarithm of a power of two is exact (R223). -/
theorem flog2_power (h : (m : ℝ) * 2 ^ e = 2 ^ k) (hm : m ≠ 0) :
    flog2 ty r tie m e = roundVal ty r (.fin (decide (k < 0)) k.natAbs 0) := by
  have hpow : (m : ℝ) = 2 ^ (k - e) := by
    rw [zpow_sub₀ two_ne_zero, ← h]
    field_simp
  have hnonneg : 0 ≤ k - e := by
    by_contra hc
    have hlt : (2 : ℝ) ^ (k - e) < 1 := zpow_lt_one_of_neg₀ one_lt_two (by omega)
    have hge : (1 : ℝ) ≤ m := by exact_mod_cast Nat.pos_of_ne_zero hm
    linarith
  obtain ⟨j, hj⟩ := Int.eq_ofNat_of_zero_le hnonneg
  have hmj : m = 2 ^ j := by
    rw [hj] at hpow
    exact_mod_cast hpow
  subst hmj
  have hlen : bitLen (2 ^ j) - 1 = j := by rw [bitLen, if_neg hm, Nat.log2_two_pow, Nat.add_sub_cancel]
  have hk : (j : Int) + e = k := by omega
  have hpow : flog2 ty r tie (2 ^ j) e = if k = 0 then (0, 0) else roundFin ty r (decide (k < 0)) k.natAbs 0 false := by
    unfold flog2
    rw [hlen, ← hk]
    exact if_pos rfl
  rw [hpow, roundVal]
  by_cases h0 : k = 0
  · subst h0
    rfl
  · rw [if_neg h0, if_neg (Int.natAbs_ne_zero.2 h0)]

/-! ### The operands of R223 and R224 -/

/-- Twice the magnitude of a half-integer operand. -/
theorem half_operand {n : Bool} {x : ℝ} {j : Int} (h : (FVal.fin n m e).isReal x) (hm : m ≠ 0) (hx : 2 * x = j) :
    (2 : ℝ) * (m * (2 : ℝ) ^ e) = (j.natAbs : Nat) ∧ n = decide (j < 0) ∧ j.natAbs ≠ 0 := by
  obtain ⟨hmag, hn, hne⟩ := magnitude_of_isReal h hm
  refine ⟨?_, hn.trans (decide_eq_decide.2 ?_), Int.natAbs_ne_zero.2 fun h0 => hne ?_⟩
  · rw [hmag, Nat.cast_natAbs, Int.cast_abs, ← hx, abs_mul, abs_two]
  · rw [← Int.cast_lt_zero (R := ℝ), ← hx]
    constructor <;> intro <;> linarith
  · rw [h0, Int.cast_zero] at hx
    linarith

/-- A quotient of finite values is rounded once (R223). -/
theorem div_roundsTo (hty : Floating ty) (hmode : r.mode ≤ 5) (hftz : r.ftz = false) {p q : FVal} {x y : ℝ} (hp : p.isReal x) (hx : x ≠ 0)
    (hq : q.isReal y) (hy : y ≠ 0) : RoundsTo ty r (x / y) (sfuVal 0 ty r tie p q) := by
  cases p with
  | nan => exact hp.elim
  | inf n => exact hp.elim
  | fin n m e =>
    cases q with
    | nan => exact hq.elim
    | inf n' => exact hq.elim
    | fin n' m' e' =>
      have hm : m ≠ 0 := by rintro rfl; exact hx (by rw [hp]; simp)
      have hm' : m' ≠ 0 := by rintro rfl; exact hy (by rw [hq]; simp)
      have hval : x / y = sgn (n != n') * ((m : ℝ) / m' * 2 ^ (e - e')) := by
        have hsgn : sgn (n != n') = sgn n / sgn n' := by cases n <;> cases n' <;> norm_num [sgn]
        rw [hp, hq, hsgn, zpow_sub₀ two_ne_zero]
        simp only [sgn]
        field_simp
      rw [hval, show sfuVal 0 ty r tie (.fin n m e) (.fin n' m' e') = roundQuot ty r (n != n') m m' (e - e') from
        (if_neg hm').trans (if_neg hm)]
      exact roundQuot_roundsTo hty hmode hftz hm hm'

/-- A root and the reciprocals are rounded once (R223). -/
theorem roots_roundTo (hty : Floating ty) (hmode : r.mode ≤ 5) (hftz : r.ftz = false) {p q : FVal} {x : ℝ} (hp : p.isReal x) (hx : x ≠ 0) :
    (0 < x → RoundsTo ty r √x (sfuVal 1 ty r tie p q)) ∧ RoundsTo ty r (1 / x) (sfuVal 2 ty r tie p q) ∧
      (0 < x → RoundsTo ty r (1 / √x) (sfuVal 3 ty r tie p q)) := by
  cases p with
  | nan => exact hp.elim
  | inf n => exact hp.elim
  | fin n m e =>
    have hm : m ≠ 0 := by rintro rfl; exact hx (by rw [hp]; simp)
    obtain ⟨hmag, hn, -⟩ := magnitude_of_isReal hp hm
    refine ⟨fun hpos => ?_, ?_, fun hpos => ?_⟩
    · rw [← abs_of_pos hpos, ← hmag, show sfuVal 1 ty r tie (.fin n m e) q = roundSqrt ty r m e from
        (if_neg hm).trans (if_neg (by rw [hn]; simpa using hpos.le))]
      exact roundSqrt_roundsTo hty hmode hftz hm
    · have hval : 1 / x = sgn n * (((1 : Nat) : ℝ) / m * 2 ^ (-e)) := by
        have hsgn : sgn n = 1 / sgn n := by cases n <;> norm_num [sgn]
        rw [hp, hsgn, zpow_neg]
        simp only [sgn]
        push_cast
        field_simp
      rw [hval, show sfuVal 2 ty r tie (.fin n m e) q = roundQuot ty r n 1 m (-e) from if_neg hm]
      exact roundQuot_roundsTo hty hmode hftz one_ne_zero hm
    · rw [← abs_of_pos hpos, ← hmag, show sfuVal 3 ty r tie (.fin n m e) q = roundRsqrt ty r m e from
        (if_neg hm).trans (if_neg (by rw [hn]; simpa using hpos.le))]
      exact roundRsqrt_roundsTo hty hmode hftz hm

/-- A half-integer operand of VFSINPI and VFCOSPI (R223). -/
theorem turns {n : Bool} (hm : m ≠ 0) :
    ((FVal.fin n m e).isReal k → fsinpi ty r tie n m e = (signBit ty n, 0) ∧ fcospi ty r tie m e = roundFin ty r (decide (k % 2 = 1)) 1 0 false) ∧
    ((FVal.fin n m e).isReal ((k : ℝ) + 1 / 2) → fsinpi ty r tie n m e = roundFin ty r (decide (k % 2 = 1)) 1 0 false ∧
      fcospi ty r tie m e = (0, 0)) := by
  refine ⟨fun h => ?_, fun h => ?_⟩
  · obtain ⟨hK, -, hne⟩ := half_operand (j := 2 * k) h hm (by push_cast; ring)
    refine ⟨(fsinpi_halves hK hm hne).1 (by omega), ((fcospi_halves hK hm hne).1 (by omega)).trans ?_⟩
    rw [decide_eq_decide.2 (by omega : (2 * k).natAbs / 2 % 2 = 1 ↔ k % 2 = 1)]
  · obtain ⟨hK, hn, hne⟩ := half_operand (j := 2 * k + 1) h hm (by push_cast; ring)
    refine ⟨((fsinpi_halves hK hm hne).2 (by omega)).trans ?_, (fcospi_halves hK hm hne).2 (by omega)⟩
    have hsign : (decide (2 ≤ (2 * k + 1).natAbs % 4) != n) = decide (k % 2 = 1) := by
      rw [hn]
      by_cases h0 : 2 * k + 1 < 0 <;> by_cases h2 : 2 ≤ (2 * k + 1).natAbs % 4 <;> simp [h0, h2] <;> omega
    rw [hsign]

/-! ### Special operands (R224) -/

variable {n n' : Bool} {m' : Nat} {e' : Int} {q : FVal}

theorem sfuVal_nan (fn : Nat) (h : fn < 9) : sfuVal fn ty r tie .nan q = (canonNan ty, 0) := by
  interval_cases fn <;> rfl

theorem div_nan (p : FVal) : sfuVal 0 ty r tie p .nan = (canonNan ty, 0) := by
  cases p <;> rfl

theorem div_inf : sfuVal 0 ty r tie (.fin n m e) (.inf n') = (signBit ty (n != n'), 0) := rfl

theorem div_fin : (m' = 0 → m = 0 → sfuVal 0 ty r tie (.fin n m e) (.fin n' m' e') = (canonNan ty, fNV)) ∧
    (m' = 0 → m ≠ 0 → sfuVal 0 ty r tie (.fin n m e) (.fin n' m' e') = (infBits ty (n != n'), fDZ)) ∧
    (m' ≠ 0 → m = 0 → sfuVal 0 ty r tie (.fin n m e) (.fin n' m' e') = (signBit ty (n != n'), 0)) :=
  ⟨fun hm' hm => (if_pos hm').trans (if_pos hm), fun hm' hm => (if_pos hm').trans (if_neg hm), fun hm' hm => (if_neg hm').trans (if_pos hm)⟩

theorem sfuVal_zero : sfuVal 1 ty r tie (.fin n 0 e) q = (signBit ty n, 0) ∧ sfuVal 2 ty r tie (.fin n 0 e) q = (infBits ty n, fDZ) ∧
    sfuVal 3 ty r tie (.fin n 0 e) q = (infBits ty n, fDZ) ∧ sfuVal 4 ty r tie (.fin n 0 e) q = roundVal ty r (.fin false 1 0) ∧
    sfuVal 5 ty r tie (.fin n 0 e) q = (infBits ty true, fDZ) ∧ sfuVal 6 ty r tie (.fin n 0 e) q = (signBit ty n, 0) ∧
    sfuVal 7 ty r tie (.fin n 0 e) q = roundVal ty r (.fin false 1 0) ∧ sfuVal 8 ty r tie (.fin n 0 e) q = (signBit ty n, 0) :=
  ⟨rfl, rfl, rfl, rfl, rfl, rfl, rfl, rfl⟩

theorem sfuVal_negative (hm : m ≠ 0) : sfuVal 1 ty r tie (.fin true m e) q = (canonNan ty, fNV) ∧
    sfuVal 3 ty r tie (.fin true m e) q = (canonNan ty, fNV) ∧ sfuVal 5 ty r tie (.fin true m e) q = (canonNan ty, fNV) :=
  ⟨if_neg hm, if_neg hm, if_neg hm⟩

theorem log2_positive (hm : m ≠ 0) : sfuVal 5 ty r tie (.fin false m e) q = flog2 ty r tie m e :=
  (if_neg hm).trans (if_neg Bool.false_ne_true)

theorem inf_div : sfuVal 0 ty r tie (.inf n) (.inf n') = (canonNan ty, fNV) ∧
    sfuVal 0 ty r tie (.inf n) (.fin n' m' e') = (infBits ty (n != n'), 0) := ⟨rfl, rfl⟩

theorem sfuVal_inf : sfuVal 1 ty r tie (.inf n) q = (if n then (canonNan ty, fNV) else (infBits ty false, 0)) ∧
    sfuVal 2 ty r tie (.inf n) q = (signBit ty n, 0) ∧ sfuVal 3 ty r tie (.inf n) q = (if n then (canonNan ty, fNV) else (0, 0)) ∧
    sfuVal 4 ty r tie (.inf n) q = (if n then (0, 0) else (infBits ty false, 0)) ∧
    sfuVal 5 ty r tie (.inf n) q = (if n then (canonNan ty, fNV) else (infBits ty false, 0)) ∧
    sfuVal 6 ty r tie (.inf n) q = (canonNan ty, fNV) ∧ sfuVal 7 ty r tie (.inf n) q = (canonNan ty, fNV) ∧
    sfuVal 8 ty r tie (.inf n) q = roundVal ty r (.fin n 1 0) := by
  cases n <;> exact ⟨rfl, rfl, rfl, rfl, rfl, rfl, rfl, rfl⟩

/-! ### The instructions (R44, R223) -/

variable {s : State} {v : View} {d : Fin 64} {la : Fin 16}

/-- What a special function leaves of its lanes' values. -/
def sfuDone (s : State) (v : View) (d : Fin 64) (la : Fin 16) (f : Nat → Nat × Flags) : State :=
  s.retire v (v.team.setElems v.wide d v.eff (fun l => some (f l).1))
    ((v.ctx.advance (v.ctx.pc + 4) (some { op := 0, left := la, names := vNames v.wide d })).raise (flagsOr (v.lanes.map (fun l => (f l).2))))

/-- A special function whose registers are ready and whose mode it accepts completes (R44). -/
theorem sfuOp_ready {fn : Nat} {a b : Fin 64} {o : Option (Fin 64)} (h : VectorReady s v [(v.wide, d.val), (v.wide, a.val), (v.wide, b.val)] [])
    (ho : o = none ∨ o = some b) (hlow : 8 ≤ v.ty) (hhigh : v.ty ≤ 11) (hlay : floatLayout v.ctx.md [.plain] = some .plain)
    (hrnd : rndOk v.ctx.md = true) :
    sfuOp s fn d a o la = .next (sfuDone s v d la (fun l =>
      sfuVal fn v.ty (laneRnd s v.team v.ctx.md v.ctx.isc l 0) (Config.sfuTie fn (v.team.elem v.wide a l % 2 ^ typeBits v.ty))
        (fdecodeFtz (mdFtz v.ctx.md) v.ty (v.team.elem v.wide a l))
        (fdecodeFtz (mdFtz v.ctx.md) v.ty ((o.map (fun r => v.team.elem v.wide r l)).getD 0)))) := by
  have hmode : sfuModeOk v.ctx.md = true := by
    have hl : 8 ≤ mdType v.ctx.md := hlow
    have hh : mdType v.ctx.md ≤ 11 := hhigh
    simp [sfuModeOk, hl, hh, hlay, hrnd]
  have hready : VectorReady s v ((v.wide, d.val) :: (v.wide, a.val) :: o.toList.map (fun r => (v.wide, r.val))) [] := by
    rcases ho with rfl | rfl
    · refine ⟨⟨Control.ready_mono h.1.1 fun n hn => ?_, h.1.2⟩, fun p hp => h.2 p ?_⟩
      · simp only [Option.toList_none, List.map_nil, List.map_cons, List.flatten_cons, List.flatten_nil, List.mem_append, List.append_nil] at hn ⊢
        tauto
      · simp only [Option.toList_none, List.map_nil, List.mem_cons] at hp ⊢
        tauto
    · exact h
  refine Readiness.instr_vreq hready rfl hmode ?_
  rw [sfuDone, ← Readiness.openWindow_vNames]
  rfl

end

/-- Settles O23: the algebraic functions by `roundFin_roundsTo` of an exact quotient or root, the others by their exact operands. -/
theorem specialFunctionResults : Obligations.SpecialFunctionResults := by
  unfold Obligations.SpecialFunctionResults
  refine ⟨?_, ?_⟩
  · intro s v d a b la md w h hlow hhigh hlay hrnd
    simp only [List.forall_mem_cons, List.not_mem_nil, IsEmpty.forall_iff, implies_true, and_true]
    have hdiv := sfuOp_ready (fn := 0) (la := la) h (.inr rfl) hlow hhigh hlay hrnd
    have hone := fun fn => sfuOp_ready (fn := fn) (la := la) h (.inl rfl) hlow hhigh hlay hrnd
    exact ⟨hdiv, hone 1, hone 2, hone 3, hone 4, hone 5, hone 6, hone 7, hone 8⟩
  · intro ty r tie p q hlow hhigh hmode hsat f inf zero nan one
    have hty : Floating ty := ⟨hlow, hhigh.trans (by decide)⟩
    refine ⟨?_, ?_, fun hftz x y hp hx => ?_, ?_, ?_⟩
    case refine_1 =>
      rintro rfl fn hfn
      exact sfuVal_nan fn hfn
    case refine_2 =>
      rintro rfl
      exact div_nan p
    case refine_3 =>
      obtain ⟨hsqrt, hrcp, hrsq⟩ := roots_roundTo (tie := tie) (q := q) hty hmode hftz hp hx
      exact ⟨fun hq hy => div_roundsTo hty hmode hftz hp hx hq hy, hsqrt, hrcp, hrsq⟩
    case refine_4 =>
      rintro n m e rfl
      refine ⟨?_, ?_, ?_, fun hm hn => ?_, fun hm k => ⟨fun hk => ?_, fun hk => ?_, fun hk => ?_⟩⟩
      · rintro n' rfl
        exact div_inf
      · rintro n' m' e' rfl
        exact div_fin
      · rintro rfl
        exact sfuVal_zero
      · subst hn
        exact sfuVal_negative hm
      · obtain ⟨hsin, hcos⟩ := (turns (ty := ty) (r := r) (tie := tie) hm).1 hk
        exact ⟨fun hsmall => (if_neg hm).trans (fexp2_integer hk hm hsmall), (if_neg hm).trans hsin, (if_neg hm).trans hcos⟩
      · obtain ⟨hmag, hn, -⟩ := magnitude_of_isReal hk hm
        have hpos : (0 : ℝ) < 2 ^ k := by positivity
        have hfalse : n = false := hn.trans (decide_eq_false hpos.not_gt)
        subst hfalse
        exact (log2_positive hm).trans (flog2_power (hmag.trans (abs_of_pos hpos)) hm)
      · obtain ⟨hsin, hcos⟩ := (turns (ty := ty) (r := r) (tie := tie) hm).2 hk
        exact ⟨(if_neg hm).trans hsin, (if_neg hm).trans hcos⟩
    case refine_5 =>
      rintro n rfl
      refine ⟨?_, ?_, ?_⟩
      · rintro n' rfl
        exact (inf_div (m' := 0) (e' := 0)).1
      · rintro n' m' e' rfl
        exact (inf_div (n' := n')).2
      · exact sfuVal_inf

end Sys2Proof.Machine.SpecialFunctions

/-! ## What a completed load writes (O39, R44, R109, R208, R233, R235, R276) -/

namespace Sys2Proof.Machine.Deliveries

-- one proof after another: side by side they take more threads than the check's memory limit has stacks for
set_option Elab.async false

open Frames Masks Accesses

section
variable {t : Team} {kind : CtxKind} {d r i j n x : Nat} {e : Bool} {place : Place}

/-! ### Lanes of vector registers -/

theorem lane_setRow_some {f : Nat → Option Lane} {y : Lane} (hd : d < t.v.length) (hi : i < (t.v.getD d []).length) (h : f i = some y) :
    (t.setRow d f).lane d i = y := by
  have hrow : t.v.getD d [] = t.v[d] := by simp [hd]
  rw [hrow] at hi
  simp [Team.lane, Team.setRow, hd, hi, h]

theorem length_setRow (f : Nat → Option Lane) : (t.setRow d f).v.length = t.v.length := by simp [Team.setRow]

theorem row_setRow_ne {f : Nat → Option Lane} (h : r ≠ d) : (t.setRow d f).v.getD r [] = t.v.getD r [] := by
  simp [Team.setRow, List.getD_eq_getElem?_getD, h.symm]

theorem setElems_narrow (m : Mask) (f : Nat → Option Nat) : t.setElems false d m f =
    t.setRow d (fun l => if inMask m l then (f l).map (fun x => BitVec.ofNat 32 (x / 2 ^ 0)) else none) := rfl

theorem setElems_wide (m : Mask) (f : Nat → Option Nat) : t.setElems true d m f =
    (t.setRow d (fun l => if inMask m l then (f l).map (fun x => BitVec.ofNat 32 (x / 2 ^ 0)) else none)).setRow (d + 1)
      (fun l => if inMask m l then (f l).map (fun x => BitVec.ofNat 32 (x / 2 ^ 32)) else none) := rfl

/-- A lane to which a write gives no value keeps its own. -/
theorem lane_setElems_none {w : Bool} {m : Mask} {f : Nat → Option Nat} (h : f j = none) :
    (t.setElems w d m f).lane r j = t.lane r j := by
  cases w
  · rw [setElems_narrow, lane_setRow_none (by rw [h, Option.map_none, ite_self])]
  · rw [setElems_wide, lane_setRow_none (by rw [h, Option.map_none, ite_self]), lane_setRow_none (by rw [h, Option.map_none, ite_self])]

theorem lane_setElems_narrow {m : Mask} {f : Nat → Option Nat} (hd : d < t.v.length) (hi : i < (t.v.getD d []).length)
    (hm : inMask m i = true) (h : f i = some x) : (t.setElems false d m f).lane d i = BitVec.ofNat 32 x := by
  rw [setElems_narrow, lane_setRow_some (y := BitVec.ofNat 32 x) hd hi (by rw [if_pos hm, h, Option.map_some, pow_zero, Nat.div_one])]

/-- An 8-byte element goes to the pair, its low word first (R16). -/
theorem lane_setElems_wide {m : Mask} {f : Nat → Option Nat} (hd : d + 1 < t.v.length) (hi : i < (t.v.getD d []).length)
    (hi' : i < (t.v.getD (d + 1) []).length) (hm : inMask m i = true) (h : f i = some x) :
    (t.setElems true d m f).lane d i = BitVec.ofNat 32 x ∧
      (t.setElems true d m f).lane (d + 1) i = BitVec.ofNat 32 (x / 2 ^ 32) := by
  rw [setElems_wide]
  constructor
  · rw [lane_setRow_ne (Nat.succ_ne_self d).symm, lane_setRow_some (y := BitVec.ofNat 32 x) (Nat.lt_of_succ_lt hd) hi
      (by rw [if_pos hm, h, Option.map_some, pow_zero, Nat.div_one])]
  · refine lane_setRow_some ((length_setRow _).symm ▸ hd) ?_ (by rw [if_pos hm, h, Option.map_some])
    rw [row_setRow_ne (Nat.succ_ne_self d)]
    exact hi'

theorem inMask_allOnes (hi : i < 1024) : inMask (BitVec.allOnes 1024) i = true := by
  rw [inMask_eq_getLsbD, BitVec.getLsbD_allOnes, decide_eq_true hi]

/-! ### One access of a vector load -/

/-- The low word of a sign-extended element is the element sign-extended to a lane (R233). -/
theorem ofNat_sextWord {w : Nat} (hw : 0 < w) (x : Nat) :
    BitVec.ofNat 32 ((sextWord w x).toNat % 2 ^ 32) = (BitVec.ofNat w x).signExtend 32 := by
  have hint : sextWord w x = BitVec.ofInt 64 (BitVec.ofNat w x).toInt := by
    obtain ⟨k, rfl⟩ := Nat.exists_eq_succ_of_ne_zero hw.ne'
    rw [sextWord, BitVec.toInt_eq_toNat_cond, BitVec.toNat_ofNat]
    have hpow : 2 ^ k.succ = 2 * 2 ^ k := Nat.pow_succ'
    congr 1
    simp only [Nat.succ_sub_one]
    split_ifs <;> omega
  rw [hint, BitVec.signExtend]
  refine BitVec.eq_of_toNat_eq ?_
  rw [BitVec.toNat_ofNat, BitVec.toNat_ofInt, BitVec.toNat_ofInt]
  push_cast
  omega

/-- The value that a load of one lane delivers there. -/
theorem laneValue_single (l : LoadLane) (j : Nat) : laneValue [l] j = if l.lane = j then l.val else none := by
  by_cases h : l.lane = j <;> simp [laneValue, h]

theorem deliver_vec_other {w : Bool} (l : LoadLane) (h : j ≠ l.lane) : (deliver t kind (.vec d w e) [l]).lane r j = t.lane r j :=
  lane_setElems_none (by rw [laneValue_single, if_neg h.symm, Option.map_none])

/-- A narrow element, zero- or sign-extended to its lane (R233). -/
theorem deliver_narrow (hd : d < t.v.length) (hi : i < (t.v.getD d []).length) (hlane : i < 1024) (hn : 0 < n) :
    (deliver t kind (.vec d false e) [{ lane := i, place := place, n := n, val := some x }]).lane d i =
      if e then (BitVec.ofNat (8 * n) x).signExtend 32 else BitVec.ofNat 32 x := by
  rw [deliver, lane_setElems_narrow hd hi (inMask_allOnes hlane) (by rw [laneValue_single, if_pos rfl, Option.map_some])]
  cases e
  · rfl
  · simpa using ofNat_sextWord (Nat.mul_pos (by decide) hn) x

theorem deliver_wide (hd : d + 1 < t.v.length) (hi : i < (t.v.getD d []).length) (hi' : i < (t.v.getD (d + 1) []).length)
    (hlane : i < 1024) :
    let u := deliver t kind (.vec d true e) [{ lane := i, place := place, n := n, val := some x }]
    u.lane d i = BitVec.ofNat 32 (x % 2 ^ 32) ∧ u.lane (d + 1) i = BitVec.ofNat 32 (x / 2 ^ 32) := by
  have hlow : BitVec.ofNat 32 x = BitVec.ofNat 32 (x % 2 ^ 32) := BitVec.eq_of_toNat_eq (by simp)
  rw [← hlow]
  exact lane_setElems_wide hd hi hi' (inMask_allOnes hlane) (by rw [laneValue_single, if_pos rfl, Option.map_some, if_pos rfl])

/-! ### Scalars and masks -/

theorem deliver_sca {c : Ctx} (d : Fin 64) (h : t.ctx? kind = some c) :
    (deliver t kind (.sca d) [{ lane := 0, place := place, n := n, val := some x }]).ctx? kind =
      some (c.setS d (BitVec.ofNat 64 x)) := by
  simp [deliver, h, laneValue, Ctx.setSN]

/-- The bits of a number made of 64-bit units. -/
theorem testBit_units {f : Nat → Nat} (m : Nat) (h : ∀ j < m, f j < 2 ^ 64) :
    (List.range m).foldl (fun a j => a + f j * 2 ^ (64 * j)) 0 < 2 ^ (64 * m) ∧
    ∀ l < 64 * m, ((List.range m).foldl (fun a j => a + f j * 2 ^ (64 * j)) 0).testBit l = (f (l / 64)).testBit (l % 64) := by
  induction m with
  | zero => simp
  | succ m ih =>
    obtain ⟨hlt, hbits⟩ := ih fun j hj => h j (by omega)
    have hm := h m (Nat.lt_succ_self m)
    rw [List.range_succ, List.foldl_append]
    generalize (List.range m).foldl (fun a j => a + f j * 2 ^ (64 * j)) 0 = low at hlt hbits ⊢
    simp only [List.foldl_cons, List.foldl_nil]
    have hsum : low + f m * 2 ^ (64 * m) = 2 ^ (64 * m) * f m + low := by ring
    rw [hsum]
    refine ⟨?_, fun l hl => ?_⟩
    · have hpow : 2 ^ (64 * (m + 1)) = 2 ^ (64 * m) * 2 ^ 64 := by rw [Nat.mul_succ, Nat.pow_add]
      have hle : 2 ^ (64 * m) * (f m + 1) ≤ 2 ^ (64 * m) * 2 ^ 64 := Nat.mul_le_mul_left _ hm
      rw [hpow]
      rw [Nat.mul_succ] at hle
      omega
    · rw [Nat.testBit_two_pow_mul_add _ hlt]
      split
      next hlow => exact hbits l hlow
      next hhigh =>
        have hq : l / 64 = m := by omega
        have hr : l % 64 = l - 64 * m := by omega
        rw [hq, hr]

/-- A mask from its image of sixteen units (R208). -/
theorem deliver_mask (k : Fin 16) {units : Nat → Nat} (h : ∀ j < 16, units j < 2 ^ 64) {l : Nat} (hl : l < 1024) :
    inMask (deliver t kind (.mask k) ((List.range 16).map (fun j =>
        ({ lane := j, place := place, n := 8, val := some (units j) } : LoadLane)))).k[k] l =
      ((units (l / 64)).testBit (l % 64) && decide (l < t.nl) && (decide (k ≠ 0) || inMask t.live l)) := by
  have hk : Fin.ofNat 16 k.val = k := Fin.ext (Nat.mod_eq_of_lt k.isLt)
  have hbits := (testBit_units 16 h).2 l hl
  simp only [deliver, List.foldl_map, Option.getD_some, hk]
  rw [inMask_setK _ _ _ hl, inMask_eq_getLsbD, BitVec.getLsbD_ofNat, decide_eq_true hl, Bool.true_and, hbits,
    Bool.and_comm (decide (l < t.nl))]

/-! ### Tiles (R276) -/

/-- A stretch of equal parts put together is the parts of that stretch. -/
theorem take_drop_flatMap {α : Type} {g : Nat → List α} {w : Nat} (hg : ∀ c, (g c).length = w) {a b m : Nat} (h : a + b ≤ m) :
    (((List.range m).flatMap g).drop (a * w)).take (b * w) = (List.range b).flatMap (fun j => g (a + j)) := by
  have hlen : ∀ (k : Nat) (g : Nat → List α), (∀ c, (g c).length = w) → ((List.range k).flatMap g).length = k * w := by
    intro k g hg
    simp [List.length_flatMap, hg]
  obtain ⟨c, rfl⟩ := Nat.exists_eq_add_of_le h
  rw [Nat.add_assoc, List.range_add, List.flatMap_append, List.drop_left' (hlen a g hg), List.flatMap_map, List.range_add,
    List.flatMap_append, List.take_left' (hlen b _ fun j => hg _)]

/-- The elements of a tile after the records of a load, whose units are given, in `nrow` rows of `cols` columns. -/
def loadedCells (units : Nat → Nat) (row0 nrow cols : Nat) (es : List Xa) : List Xa :=
  es.zipIdx.map (fun p =>
    if row0 ≤ p.2 / 64 ∧ p.2 / 64 < row0 + nrow ∧ p.2 % 64 < cols then
      Xa.ofRecord ((List.range 12).flatMap (fun j => bytesOfNat 8 (units (12 * ((p.2 / 64 - row0) * cols + p.2 % 64) + j))))
    else p.1)

theorem getD_loadedCells {units : Nat → Nat} {row0 nrow cols c : Nat} {es : List Xa} (h : c < es.length) :
    (loadedCells units row0 nrow cols es).getD c Xa.zero =
      if row0 ≤ c / 64 ∧ c / 64 < row0 + nrow ∧ c % 64 < cols then
        Xa.ofRecord ((List.range 12).flatMap (fun j => bytesOfNat 8 (units (12 * ((c / 64 - row0) * cols + c % 64) + j))))
      else es.getD c Xa.zero := by
  simp [loadedCells, h]

/-- A tile's rows from their records of twelve units each. -/
theorem loadTile_units (units : Nat → Nat) (row0 nrow cols : Nat) (es : List Xa) :
    loadTile (.exact es) row0 nrow cols ((List.range (nrow * cols * 12)).flatMap (fun c => bytesOfNat 8 (units c))) =
      .exact (loadedCells units row0 nrow cols es) := by
  rw [loadTile, loadedCells]
  refine congrArg Tile.exact (List.map_congr_left fun p _ => ?_)
  simp only [Bool.and_eq_true, decide_eq_true_eq, and_assoc]
  refine ite_congr rfl (fun ⟨hlow, hrow, hcol⟩ => congrArg Xa.ofRecord ?_) fun _ => rfl
  generalize p.2 / 64 = row at hlow hrow
  generalize p.2 % 64 = col at hcol
  have hin : 12 * ((row - row0) * cols + col) + 12 ≤ nrow * cols * 12 := by
    have hle : (row - row0 + 1) * cols ≤ nrow * cols := Nat.mul_le_mul_right cols (by omega)
    rw [Nat.succ_mul] at hle
    omega
  have h := take_drop_flatMap (g := fun c => bytesOfNat 8 (units c)) (fun c => length_bytesOfNat 8 _) hin
  rw [show 12 * ((row - row0) * cols + col) * 8 = ((row - row0) * cols + col) * 96 by ring] at h
  exact h

theorem deliver_tile {tile row0 nrow cols : Nat} {es : List Xa} (units : Nat → Nat) (h : t.tiles[tile]? = some (.exact es)) :
    deliver t kind (.tile tile row0 nrow cols) ((List.range (nrow * cols * 12)).map (fun c =>
        ({ lane := c, place := place, n := 8, val := some (units c) } : LoadLane))) =
      { t with tiles := t.tiles.set tile (.exact (loadedCells units row0 nrow cols es)) } := by
  obtain ⟨hlt, heq⟩ := List.getElem?_eq_some_iff.1 h
  rw [deliver, List.flatMap_map, List.modify_eq_set_getElem?, h, Option.map_eq_map, Option.map_some, Option.getD_some]
  simp only [Option.getD_some, loadTile_units]

/-! ### Pieces (R109) -/

/-- A load's piece of one byte, with its value. -/
def bytePiece (i : Nat) (place : Place) (units : Nat → Nat) (j : Nat) : LoadLane :=
  { lane := i + 65536 * j, place := place.byte j, n := 1, val := some (units j) }

/-- An access joins the pieces of its lane that follow it. -/
theorem joinLoads_cons {l m : LoadLane} {rest : List LoadLane} {x y : Nat} (h : joinLoads rest = [m]) (hlate : 65536 ≤ m.lane)
    (hlane : m.lane % 65536 = l.lane % 65536) (hx : l.val = some x) (hy : m.val = some y) :
    joinLoads (l :: rest) = [{ l with n := l.n + m.n, val := some (x + y * 2 ^ (8 * l.n)) }] := by
  rw [joinLoads, h]
  simp [hlate, hlane, hx, hy]

theorem map_range_shift {α : Type} (f : Nat → α) (m a : Nat) :
    (List.range (m + 1)).map (fun j => f (a + j)) = f a :: (List.range m).map (fun j => f (a + 1 + j)) := by
  rw [List.range_succ_eq_map, List.map_cons, List.map_map, Nat.add_zero]
  exact congrArg (f a :: ·) (List.map_congr_left fun j _ => congrArg f (Nat.add_right_comm a j 1 ▸ rfl))

/-- Pieces of one byte, from byte `a` on, put together again. -/
theorem joinLoads_pieces {units : Nat → Nat} (i : Nat) (m a : Nat) (h : ∀ j ≤ m, units (a + j) < 256) :
    joinLoads ((List.range (m + 1)).map (fun j => bytePiece i place units (a + j))) =
      [{ bytePiece i place units a with
         n := m + 1, val := some (natOfBytes ((List.range (m + 1)).map (fun j => BitVec.ofNat 8 (units (a + j))))) }] := by
  have hbyte : (BitVec.ofNat 8 (units a)).toNat = units a := Nat.mod_eq_of_lt (h 0 (Nat.zero_le m))
  induction m generalizing a with
  | zero =>
    rw [List.range_one, List.map_singleton, List.map_singleton, natOfBytes, natOfBytes, Nat.add_zero, hbyte]
    rfl
  | succ m ih =>
    have hnext : ∀ j, a + (j + 1) = a + 1 + j := fun j => by omega
    have hrest := ih (a + 1) (fun j hj => hnext j ▸ h (j + 1) (by omega)) (Nat.mod_eq_of_lt (h 1 (by omega)))
    rw [map_range_shift (bytePiece i place units), map_range_shift (fun j => BitVec.ofNat 8 (units j)), joinLoads_cons (x := units a) hrest (by simp only [bytePiece]; omega) (by simp only [bytePiece]; omega) rfl rfl, natOfBytes,
      hbyte, Nat.mul_comm 256]
    simp only [bytePiece, Nat.add_comm 1 (m + 1)]
    rfl

theorem joinLoads_access {units : Nat → Nat} {m : Nat} (i : Nat) (hm : 0 < m) (h : ∀ j < m, units j < 256) :
    joinLoads ((List.range m).map (bytePiece i place units)) =
      [{ lane := i, place := place, n := m, val := some (natOfBytes ((List.range m).map (fun j => BitVec.ofNat 8 (units j)))) }] := by
  obtain ⟨k, rfl⟩ := Nat.exists_eq_succ_of_ne_zero hm.ne'
  have hjoin := joinLoads_pieces (place := place) (units := units) i k 0 fun j hj => by rw [Nat.zero_add]; exact h j (Nat.lt_succ_of_le hj)
  simp only [Nat.zero_add] at hjoin
  refine hjoin.trans ?_
  cases place <;> rfl

end

end Sys2Proof.Machine.Deliveries

/-! ## What copies, and room for them, leave of the data (O39, R1, R89, R92) -/

namespace Sys2Proof.Machine.CopyFrames

-- one proof after another: side by side they take more threads than the check's memory limit has stacks for
set_option Elab.async false

open Homes Saves

/-- The data at every home is the same, but for where it lies there, and so are the line tags, the exact entries, the teams, and which
mapping entries there are. -/
structure SameData (s u : State) : Prop where
  homes : SameHomes s u
  teams : u.teams = s.teams
  tags : u.tags = s.tags
  exact : u.exact = s.exact
  entries : u.maps.map entryKey = s.maps.map entryKey

section
variable {s u v : State}

theorem sameHomes_of_eq (hm : u.mem = s.mem) (hs : u.sectors = s.sectors) : SameHomes s u :=
  ⟨hm, fun x => by rw [State.sectorRec, State.sectorRec, hs]⟩

theorem SameHomes.trans (h : SameHomes s u) (h' : SameHomes u v) : SameHomes s v := by
  obtain ⟨hm, hs⟩ := h
  obtain ⟨hm', hs'⟩ := h'
  exact ⟨hm'.trans hm, fun x => by rw [← hs x, ← hs' x]⟩

theorem sameData_refl (s : State) : SameData s s := ⟨sameHomes_of_eq rfl rfl, rfl, rfl, rfl, rfl⟩

theorem SameData.trans (h : SameData s u) (h' : SameData u v) : SameData s v :=
  ⟨SameHomes.trans h.homes h'.homes, h'.teams.trans h.teams, h'.tags.trans h.tags, h'.exact.trans h.exact, h'.entries.trans h.entries⟩

theorem SameData.foldl {α : Type} {f : State → α → State} (hf : ∀ s x, SameData s (f s x)) (l : List α) (s : State) :
    SameData s (l.foldl f s) :=
  List.foldlRecOn (motive := SameData s) l f (sameData_refl s) fun _ hu x _ => hu.trans (hf _ x)

theorem SameData.team? (h : SameData s u) (r : TeamRef) : u.team? r = s.team? r := by rw [State.team?, State.team?, h.teams]

theorem SameData.tag (h : SameData s u) (line : Nat) : u.tag line = s.tag line := by rw [State.tag, State.tag, h.tags]

/-! ### Operations and aborts -/

theorem sameData_of_ops {ops : List Op} : SameData s { s with ops := ops } := ⟨sameHomes_of_eq rfl rfl, rfl, rfl, rfl, rfl⟩

theorem sameData_finishOp (s : State) (id : Nat) : SameData s (s.finishOp id) := sameData_of_ops

theorem sameData_putOp (s : State) (o : Op) : SameData s (s.putOp o) := sameData_of_ops

theorem sameData_observeAt (s : State) (w : Who) (c : CtxRef) (id : Nat) (ls : List Loc) : SameData s (s.observeAt w c id ls) :=
  sameData_of_ops

theorem sameData_of_hub {hub : Hub} : SameData s { s with hub := hub } := ⟨sameHomes_of_eq rfl rfl, rfl, rfl, rfl, rfl⟩

theorem sameData_requestAbort (s : State) (sid status : Nat) : SameData s (s.requestAbort sid status) := by
  unfold State.requestAbort
  split
  · exact sameData_refl s
  · split
    · exact sameData_of_hub
    · exact sameData_of_hub
    · exact sameData_of_hub
    · exact sameData_refl s

/-! ### Room in a slice (R1, R143) -/

theorem sameData_dropCopies (s : State) (x : Nat) (p : Copy → Bool) : SameData s (s.dropCopies x p) :=
  ⟨sameHomes_of_eq rfl rfl, rfl, rfl, rfl, rfl⟩

/-- A sector's data put in the Cistern is the same data. -/
theorem sameData_evicted (s : State) (x : Nat) : SameData s (s.setRec { s.sectorRec x with cis := true }) := by
  refine ⟨⟨rfl, fun y => ?_⟩, rfl, rfl, rfl, rfl⟩
  rw [sectorRec_setRec]
  split
  next h =>
    rw [show y = x from h.trans (sectorRec_sector s x)]
  next => rfl

theorem sameData_cisternEvict (s : State) (x : Nat) : SameData s (s.cisternEvict x) := by
  unfold State.cisternEvict
  dsimp only
  split
  · exact sameData_refl s
  split
  · exact sameData_refl s
  split_ifs
  · exact sameData_requestAbort ..
  · split
    · exact sameData_requestAbort ..
    · exact sameData_refl s
  · exact sameData_evicted s x

theorem sameData_sliceRoom (s : State) (die x : Nat) : SameData s (s.sliceRoom die x) := by
  unfold State.sliceRoom
  dsimp only
  split_ifs
  · exact sameData_refl s
  · exact sameData_refl s
  · split
    · exact sameData_dropCopies ..
    · exact sameData_cisternEvict ..
    · exact sameData_refl s

/-! ### New copies (R89, R92) -/

theorem sameData_setCopies {cs : List Copy} : SameData s { s with copies := cs } := ⟨sameHomes_of_eq rfl rfl, rfl, rfl, rfl, rfl⟩

/-- The state in which a new copy finds its place: the old one gone, and room in a slice for one that lies there. -/
def copyPlace (s : State) (c : Copy) : State :=
  if c.core.isNone then (s.dropCopies c.sector (fun x => x.die == c.die && x.core == c.core)).sliceRoom c.die c.sector
  else s.dropCopies c.sector (fun x => x.die == c.die && x.core == c.core)

/-- The state with room for a new copy in its L1 or fetch unit as well. -/
def copyRoom (s : State) (c : Copy) : State :=
  let mine := (copyPlace s c).copies.filter (fun x => x.die == c.die && x.core == c.core && x.st != .U && x.fetch == c.fetch)
  if c.core.isSome && c.st != .U && (if c.fetch then Config.fetchSectors else Config.l1Sectors) ≤ mine.length then
    match mine[Config.l1Victim (copyPlace s c).tick % mine.length]? with
    | some v => (copyPlace s c).dropCopies v.sector (fun x => x.die == v.die && x.core == v.core)
    | none => copyPlace s c
  else copyPlace s c

theorem addCopy_eq (s : State) (c : Copy) : s.addCopy c = { copyRoom s c with copies := (copyRoom s c).copies ++ [c] } := rfl

theorem sameData_copyPlace (s : State) (c : Copy) : SameData s (copyPlace s c) := by
  unfold copyPlace
  split
  · exact (sameData_dropCopies ..).trans (sameData_sliceRoom ..)
  · exact sameData_dropCopies ..

/-- An L1 makes room by dropping one of its copies, or needs none. -/
theorem copyRoom_cases (s : State) (c : Copy) : copyRoom s c = copyPlace s c ∨
    (c.core.isSome = true ∧ ∃ v : Copy, copyRoom s c = (copyPlace s c).dropCopies v.sector (fun x => x.die == v.die && x.core == v.core)) := by
  rw [copyRoom]
  cases hc : c.core.isSome with
  | false => exact .inl (by rw [Bool.false_and, Bool.false_and, if_neg Bool.false_ne_true])
  | true =>
    generalize (true && c.st != CState.U && _ : Bool) = full
    cases full with
    | false => exact .inl (if_neg Bool.false_ne_true)
    | true =>
      rw [if_pos rfl]
      split
      next v _ => exact .inr ⟨rfl, v, rfl⟩
      next => exact .inl rfl

theorem sameData_addCopy (s : State) (c : Copy) : SameData s (s.addCopy c) := by
  rw [addCopy_eq]
  refine SameData.trans ?_ sameData_setCopies
  obtain h | ⟨-, v, h⟩ := copyRoom_cases s c
  · rw [h]
    exact sameData_copyPlace s c
  · rw [h]
    exact (sameData_copyPlace s c).trans (sameData_dropCopies ..)

theorem sameData_addProxy (s : State) (die x : Nat) (st : CState) : SameData s (s.addProxy die x st) := by
  unfold State.addProxy
  split
  · exact sameData_refl s
  · exact sameData_addCopy ..

theorem sameData_addCore (s : State) (die core x : Nat) (st : CState) (fetch : Bool) : SameData s (s.addCore die core x st fetch) :=
  (sameData_addCopy ..).trans (sameData_addProxy ..)

theorem sameData_shareAll (s : State) (x : Nat) : SameData s (s.shareAll x) :=
  ⟨sameHomes_of_eq rfl rfl, rfl, rfl, rfl, congrArg Prod.snd (kept_shareAll s x)⟩

theorem sameData_shareCopy (s : State) (w : Who) (die core x : Nat) (fetch : Bool) : SameData s (s.shareCopy w die core x fetch) := by
  have hshare : SameData s (if s.readsNewest w x then s.shareAll x else s) := by
    split
    · exact sameData_shareAll s x
    · exact sameData_refl s
  unfold State.shareCopy
  dsimp only
  split
  · split
    · exact sameData_addCore ..
    · exact hshare.trans (sameData_addCore ..)
  · split
    · exact sameData_addCore ..
    · exact hshare.trans (sameData_addCore ..)
  · exact sameData_refl s

theorem sameData_cacheEls (s : State) (o : Op) (els : List FetchEl) : SameData s (s.cacheEls o els) :=
  SameData.foldl (fun s x => sameData_shareCopy s _ _ _ x true) _ s

/-! ### What a core's copy is then -/

theorem copies_requestAbort (s : State) (sid status : Nat) : (s.requestAbort sid status).copies = s.copies := by
  unfold State.requestAbort
  split
  · rfl
  · split <;> rfl

theorem copies_cisternEvict (s : State) (x : Nat) : (s.cisternEvict x).copies = s.copies := by
  unfold State.cisternEvict
  dsimp only
  split
  · rfl
  split
  · rfl
  split_ifs
  · exact copies_requestAbort ..
  · split
    · exact copies_requestAbort ..
    · rfl
  · rfl

theorem l1State_congr (h : u.copies = s.copies) (die core x : Nat) : u.l1State die core x = s.l1State die core x := by
  rw [State.l1State, State.l1State, h]

/-- Copies of other sectors, or that a test does not pick, may go. -/
theorem l1State_dropCopies {die core x y : Nat} {p : Copy → Bool}
    (h : ∀ c ∈ s.copies, c.sector = x → c.die = die → c.core = some core → c.sector = y → p c = false) :
    (s.dropCopies y p).l1State die core x = s.l1State die core x := by
  have hfind : (s.copies.filter (fun c => !(c.sector == y && p c))).find? (fun c => c.sector = x && c.die = die && c.core = some core) =
      s.copies.find? (fun c => c.sector = x && c.die = die && c.core = some core) := by
    generalize s.copies = cs at h
    induction cs with
    | nil => rfl
    | cons c cs ih =>
      have ih := ih fun c hc => h c (List.mem_cons_of_mem _ hc)
      by_cases hc : c.sector = x ∧ c.die = die ∧ c.core = some core
      · obtain ⟨hs, hd, hk⟩ := hc
        have hstay : (!(c.sector == y && p c)) = true := by
          by_cases hy : c.sector = y
          · rw [h c List.mem_cons_self hs hd hk hy, Bool.and_false, Bool.not_false]
          · rw [beq_eq_false_iff_ne.2 hy, Bool.false_and, Bool.not_false]
        rw [List.filter_cons, if_pos hstay]
        simp [hs, hd, hk]
      · have hno : (decide (c.sector = x) && decide (c.die = die) && decide (c.core = some core)) = false := by
          rw [Bool.eq_false_iff]
          simpa [and_assoc] using hc
        rw [List.find?_cons_of_neg (by rw [hno]; exact Bool.false_ne_true), ← ih, List.filter_cons]
        split
        · rw [List.find?_cons_of_neg (by rw [hno]; exact Bool.false_ne_true)]
        · rfl
  rw [State.l1State, State.l1State, State.dropCopies, hfind]

/-- What a slice may drop is a copy of its die's proxy L2. -/
theorem proxy_of_sliceHeld {die slice z : Nat} (h : (z, true) ∈ sliceHeld s die slice) :
    ∃ c ∈ s.copies, c.core = none ∧ c.die = die ∧ c.sector = z := by
  rcases List.mem_append.1 h with h | h
  · obtain ⟨r, -, hr⟩ := List.mem_map.1 h
    cases hr
  · obtain ⟨c, hc, hr⟩ := List.mem_map.1 h
    obtain ⟨hmem, hp⟩ := List.mem_filter.1 hc
    simp only [Bool.and_eq_true, Option.isNone_iff_eq_none, decide_eq_true_eq] at hp
    exact ⟨c, hmem, hp.1.1.1, hp.1.2, congrArg Prod.fst hr⟩

/-- Room in a slice takes no core's copy of a sector of which the die's proxy L2 has none. -/
theorem l1State_sliceRoom {die core x y : Nat} (h : ∀ c ∈ s.copies, c.sector = x → c.die = die → c.core ≠ none) :
    (s.sliceRoom die y).l1State die core x = s.l1State die core x := by
  unfold State.sliceRoom
  dsimp only
  split_ifs
  · rfl
  · rfl
  · split
    next z hz =>
      refine l1State_dropCopies fun c hc hcx _ _ hcz => ?_
      have hheld := List.mem_of_mem_filter (List.mem_of_getElem? hz)
      refine beq_eq_false_iff_ne.2 fun hcd => ?_
      obtain ⟨k, hk, hkn, hkd, hks⟩ := proxy_of_sliceHeld hheld
      exact h k hk (hks.trans (hcz.symm.trans hcx)) hkd hkn
    next => exact l1State_congr (copies_cisternEvict ..) ..
    next => rfl

theorem mem_copies_dropCopies {x : Nat} {p : Copy → Bool} {c : Copy} :
    c ∈ (s.dropCopies x p).copies ↔ c ∈ s.copies ∧ ¬ (c.sector = x ∧ p c = true) := by
  simp only [State.dropCopies, List.mem_filter, Bool.not_eq_true', ← Bool.not_eq_true, Bool.and_eq_true, beq_iff_eq]

/-- A new copy comes last: a core's copy that stood before it is found before it. -/
theorem l1State_append {die core x : Nat} {c : Copy} (h : ∀ y ∈ s.copies, ¬ (y.sector = x ∧ y.die = die ∧ y.core = some core)) :
    ({ s with copies := s.copies ++ [c] } : State).l1State die core x =
      if c.sector = x ∧ c.die = die ∧ c.core = some core then c.st else .I := by
  have hnone : s.copies.find? (fun c => c.sector = x && c.die = die && c.core = some core) = none :=
    List.find?_eq_none.2 fun y hy hyc => h y hy (by simpa [and_assoc] using hyc)
  by_cases hc : c.sector = x ∧ c.die = die ∧ c.core = some core
  · rw [if_pos hc]
    obtain ⟨hs, hd, hk⟩ := hc
    simp [State.l1State, List.find?_append, hnone, hs, hd, hk]
  · rw [if_neg hc]
    have hno : (decide (c.sector = x) && decide (c.die = die) && decide (c.core = some core)) = false := by
      rw [Bool.eq_false_iff]
      simpa [and_assoc] using hc
    simp [State.l1State, List.find?_append, hnone, hno]

theorem l1State_append_proxy {die core x : Nat} {c : Copy} (hc : c.core = none) :
    ({ s with copies := s.copies ++ [c] } : State).l1State die core x = s.l1State die core x := by
  have hone : [c].find? (fun c => c.sector = x && c.die = die && c.core = some core) = none := by simp [hc]
  simp only [State.l1State, List.find?_append, hone, Option.or_none]

/-- The L1 of a core that obtains a copy has it in the state given. -/
theorem l1State_addCopy (s : State) (die core x : Nat) (st : CState) (fetch : Bool) :
    (s.addCopy { die := die, core := some core, sector := x, st := st, fetch := fetch }).l1State die core x = st := by
  rw [addCopy_eq]
  refine (l1State_append fun y hy hyx => ?_).trans (if_pos ⟨rfl, rfl, rfl⟩)
  have hplace : y ∈ (copyPlace s { die := die, core := some core, sector := x, st := st, fetch := fetch }).copies := by
    obtain h | ⟨-, v, h⟩ := copyRoom_cases s { die := die, core := some core, sector := x, st := st, fetch := fetch }
    · exact h ▸ hy
    · rw [h] at hy
      exact (mem_copies_dropCopies.1 hy).1
  rw [copyPlace, if_neg (by simp)] at hplace
  obtain ⟨hs, hd, hk⟩ := hyx
  exact (mem_copies_dropCopies.1 hplace).2 ⟨hs, by simp [hd, hk]⟩

/-- The proxy L2 makes room in a slice. -/
theorem copyRoom_proxy (s : State) (die x : Nat) (st : CState) : copyRoom s { die := die, core := none, sector := x, st := st } =
    (s.dropCopies x (fun y => y.die == die && y.core == none)).sliceRoom die x := by
  obtain h | ⟨hc, -⟩ := copyRoom_cases s { die := die, core := none, sector := x, st := st }
  · exact h
  · cases hc

/-- A proxy copy takes no core's copy of the sector away. -/
theorem l1State_addProxy (s : State) (die core x : Nat) (st : CState) :
    (s.addProxy die x st).l1State die core x = s.l1State die core x := by
  unfold State.addProxy
  split
  · rfl
  · rw [addCopy_eq, l1State_append_proxy rfl, copyRoom_proxy, l1State_sliceRoom, l1State_dropCopies]
    · intro c _ _ _ hk _
      simp [hk]
    · intro c hc hs hd hk
      exact (mem_copies_dropCopies.1 hc).2 ⟨hs, by simp [hd, hk]⟩

theorem l1State_addCore (s : State) (die core x : Nat) (st : CState) (fetch : Bool) :
    (s.addCore die core x st fetch).l1State die core x = st := by
  rw [State.addCore, l1State_addProxy, l1State_addCopy]

/-- After a read that leaves a copy, the core has one. -/
theorem l1State_shareCopy (s : State) (w : Who) (die core x : Nat) (fetch : Bool) :
    (s.shareCopy w die core x fetch).l1State die core x ≠ .I := by
  have hshared : ∀ (b : Bool) (u : State), (if b then s.addCore die core x .E fetch else u.addCore die core x .S fetch).l1State die core x ≠ .I := by
    intro b u
    cases b
    · rw [if_neg Bool.false_ne_true, l1State_addCore]
      exact CState.noConfusion
    · rw [if_pos rfl, l1State_addCore]
      exact CState.noConfusion
  unfold State.shareCopy
  split
  · exact hshared _ _
  · exact hshared _ _
  next h _ => exact h

/-! ### Tags, mapping entries and finished operations -/

/-- A line's tag goes up by one, and wraps (R128). -/
theorem tag_bumpTag (s : State) (line : Nat) : (s.bumpTag line).tag line = s.tag line + 1 := by
  rw [State.bumpTag, State.tag]
  dsimp only
  split
  next h =>
    have hnone : (s.tags.filter (fun p => p.1 ≠ line)).find? (fun p => p.1 = line) = none :=
      List.find?_eq_none.2 fun p hp => by simpa using (List.mem_filter.1 hp).2
    rw [assoc, hnone]
    exact h.symm
  next => exact Registers.assoc_setAssoc ..

/-- Which entry a number finds depends on the entries' keys alone. -/
theorem map?_key (s : State) (die core : Nat) (lv : BitVec 16) (n : Nat) : (s.map? die core lv n).map entryKey =
    (s.maps.map entryKey).find? (fun k => k.1 = (die, core, lv, n)) := by
  rw [List.find?_map, State.map?]
  congr 2
  funext m
  rw [Bool.eq_iff_iff]
  simp [entryKey, and_assoc]

theorem map?_of_entries {die core n : Nat} {lv : BitVec 16} {m : MapEntry} (h : u.maps.map entryKey = s.maps.map entryKey)
    (hm : s.map? die core lv n = some m) : ∃ m', u.map? die core lv n = some m' := by
  have hkey := map?_key u die core lv n
  rw [h, ← map?_key, hm, Option.map_some] at hkey
  obtain ⟨m', hm', -⟩ := Option.map_eq_some_iff.1 hkey
  exact ⟨m', hm'⟩

/-- An entry with a sector set stands where it stood. -/
theorem map?_putMap {die core n : Nat} {lv : BitVec 16} {m : MapEntry} (x : WinSector) (hm : s.map? die core lv n = some m) :
    (s.putMap (m.setSec x)).map? die core lv n = some (m.setSec x) := by
  have hkey : (entryKey m).1 = (die, core, lv, n) := by
    have h := List.find?_some hm
    simp only [Bool.and_eq_true, beq_iff_eq] at h
    simp [entryKey, h]
  have hpred : ∀ y : MapEntry, (y.die == die && y.core == core && y.lv == lv && y.n == n) = y.same (m.setSec x) := by
    intro y
    rw [Bool.eq_iff_iff, same_iff]
    refine Iff.trans ?_ (show (entryKey y).1 = (die, core, lv, n) ↔ _ from hkey ▸ Iff.rfl)
    simp [entryKey, and_assoc]
  simp only [State.map?, State.putMap, hpred] at hm ⊢
  have hself : (m.setSec x).same (m.setSec x) = true := (same_iff _ _).2 rfl
  generalize s.maps = ms at hm
  induction ms with
  | nil => cases hm
  | cons y ms ih =>
    by_cases hy : y.same (m.setSec x) = true
    · simp only [List.map_cons, hy, if_true, List.find?_cons, hself]
    · rw [Bool.not_eq_true] at hy
      simp only [List.find?_cons, hy] at hm
      simp only [List.map_cons, hy, Bool.false_eq_true, if_false, List.find?_cons, ih hm]

theorem sec?_setSec (m : MapEntry) (x : WinSector) : (m.setSec x).sec? x.ix = some x := by
  have hnone : (m.secs.filter (fun y => y.ix ≠ x.ix)).find? (fun y => y.ix = x.ix) = none :=
    List.find?_eq_none.2 fun y hy => by simpa using (List.mem_filter.1 hy).2
  rw [MapEntry.sec?, MapEntry.setSec, List.find?_append, hnone]
  simp

theorem done_of_mem_finishOp {id : Nat} {y : Op} (h : y ∈ (s.finishOp id).ops) (hid : y.id = id) : y.done = true := by
  obtain ⟨o, -, rfl⟩ := List.mem_map.1 (List.mem_of_mem_filter h)
  by_cases ho : o.id = id
  · rw [if_pos ho]
  · rw [if_neg ho] at hid
    exact absurd hid ho

end

end Sys2Proof.Machine.CopyFrames

/-! ## What an observation leaves, and loads of plain stash bytes (O39, R109, R113, R119, R233) -/

namespace Sys2Proof.Machine.Observations

-- one proof after another: side by side they take more threads than the check's memory limit has stacks for
set_option Elab.async false

open Touching AccessFrames

/-- An access of a store without the contexts that have observed it. -/
def unseen (l : StoreLane) : StoreLane := { l with obs := [] }

/-- An operation without what has been observed of it. -/
def unseenOp (o : Op) : Op :=
  match o.kind with
  | .store lanes na rel => { o with kind := .store (lanes.map unseen) na rel }
  | _ => o

/-- The state without what contexts have observed of the writes in flight. -/
def unobserved (s : State) : State := { s with ops := s.ops.map unseenOp }

section
variable {s u : State} {w : Who} {o : Op}

theorem unseenOp_own (o : Op) : (unseenOp o).own = o.own := by unfold unseenOp; split <;> rfl
theorem unseenOp_id (o : Op) : (unseenOp o).id = o.id := by unfold unseenOp; split <;> rfl
theorem unseenOp_lv (o : Op) : (unseenOp o).lv = o.lv := by unfold unseenOp; split <;> rfl
theorem unseenOp_path (o : Op) : (unseenOp o).path = o.path := by unfold unseenOp; split <;> rfl
theorem unseenOp_done (o : Op) : (unseenOp o).done = o.done := by unfold unseenOp; split <;> rfl

theorem unseenOp_of_store {lanes : List StoreLane} {na : Bool} {rel : List Nat} (h : o.kind = .store lanes na rel) :
    unseenOp o = { o with kind := .store (lanes.map unseen) na rel } := by rw [unseenOp, h]

/-- A context's observation changes nothing but what has been observed. -/
theorem unobserved_observe (s : State) (w : Who) (c : CtxRef) (id : Nat) (p : List Loc → Bool) :
    unobserved (s.observe w c id p) = unobserved s := by
  have hops : (s.observe w c id p).ops.map unseenOp = s.ops.map unseenOp := by
    rw [State.observe, List.map_map]
    refine List.map_congr_left fun o _ => ?_
    rw [Function.comp_apply]
    split
    next lanes na rel hk =>
      rw [unseenOp_of_store hk, unseenOp_of_store rfl, List.map_map]
      refine congrArg (fun ls => ({ o with kind := .store ls na rel } : Op)) (List.map_congr_left fun l _ => ?_)
      rw [Function.comp_apply]
      split <;> rfl
    next => rfl
  rw [unobserved, hops]
  rfl

theorem unobserved_observeAt (s : State) (w : Who) (c : CtxRef) (id : Nat) (ls : List Loc) :
    unobserved (s.observeAt w c id ls) = unobserved s := unobserved_observe ..

theorem sameBase_unobserved (s : State) : SameBase s (unobserved s) := ⟨rfl, rfl, rfl, rfl, rfl, fun _ => rfl⟩

theorem team?_of_unobserved (h : unobserved u = unobserved s) (r : TeamRef) : u.team? r = s.team? r := by
  have hteams : u.teams = s.teams := (congrArg State.teams h :)
  rw [State.team?, State.team?, hteams]

theorem sameBase_of_unobserved (h : unobserved u = unobserved s) : SameBase s u := by
  refine ⟨(congrArg State.mem h :), (congrArg State.sectors h :), (congrArg State.hub h :), (congrArg State.maps h :), (congrArg State.tick h :), fun r => ?_⟩
  rw [team?_of_unobserved h]

/-! ### What a party reads -/

theorem insertBy_map {α β : Type} (key : β → Nat) (f : α → β) (x : α) (l : List α) :
    insertBy key (f x) (l.map f) = (insertBy (fun a => key (f a)) x l).map f := by
  induction l with
  | nil => rfl
  | cons y l ih =>
    simp only [List.map_cons, insertBy]
    split
    · rfl
    · rw [ih, List.map_cons]

theorem sortBy_map {α β : Type} (key : β → Nat) (f : α → β) (l : List α) :
    sortBy key (l.map f) = (sortBy (fun a => key (f a)) l).map f := by
  have hfold : ∀ acc : List α, (l.map f).foldl (fun acc x => insertBy key x acc) (acc.map f) =
      (l.foldl (fun acc x => insertBy (fun a => key (f a)) x acc) acc).map f := by
    induction l with
    | nil => exact fun _ => rfl
    | cons x l ih =>
      intro acc
      rw [List.map_cons, List.foldl_cons, List.foldl_cons, insertBy_map, ih]
  exact hfold []

theorem visibleStores_unobserved (s : State) (w : Who) : visibleStores (unobserved s) w (s.ops.map unseenOp) =
    (visibleStores s w s.ops).map (fun p => (unseenOp p.1, p.2.map unseen)) := by
  rw [visibleStores, visibleStores, List.filterMap_map, List.map_filterMap]
  refine List.filterMap_congr fun o _ => ?_
  rw [Function.comp_apply]
  cases hk : o.kind with
  | store lanes na rel =>
    rw [unseenOp_of_store hk]
    simp only [(sameBase_unobserved s).sees]
    split
    · rfl
    · rw [Option.map_some, unseenOp_of_store hk]
  | _ => simp [unseenOp, hk]

theorem pendingSeen_unobserved (s : State) (w : Who) : (unobserved s).pendingSeen w = (s.pendingSeen w).map unseen := by
  have hacc : ∀ ps, acceptedOf w (ps.map (fun p => (unseenOp p.1, p.2.map unseen))) =
      (acceptedOf w ps).map (fun q => (q.1, unseen q.2)) := by
    intro ps
    rw [acceptedOf, acceptedOf, List.flatMap_map, List.map_flatMap]
    refine List.flatMap_congr fun p _ => ?_
    rw [List.filterMap_map, List.map_filterMap]
    refine List.filterMap_congr fun l _ => ?_
    simp only [Function.comp_apply, unseenOp_own, unseen]
    split
    · split <;> rfl
    · rfl
  have hiss : ∀ ps, issuedOf w (ps.map (fun p => (unseenOp p.1, p.2.map unseen))) = (issuedOf w ps).map unseen := by
    intro ps
    rw [issuedOf, issuedOf, List.flatMap_map, List.map_flatMap]
    refine List.flatMap_congr fun p _ => ?_
    rw [List.filter_map]
    simp only [unseenOp_own, unseenOp_id]
    rfl
  rw [pendingSeen_eq, pendingSeen_eq, show (unobserved s).ops = s.ops.map unseenOp from rfl, visibleStores_unobserved, hacc, hiss,
    sortBy_map (fun q : Nat × StoreLane => q.1) (fun q : Nat × StoreLane => (q.1, unseen q.2)), List.map_append, List.map_map, List.map_map]
  rfl

theorem pendingByte_unobserved (s : State) (w : Who) (x : Loc) : (unobserved s).pendingByte w x = s.pendingByte w x := by
  have hlane : ∀ l, (unobserved s).laneBytes (unseen l) = s.laneBytes l := fun l => (sameBase_unobserved s).laneBytes (unseen l)
  rw [State.pendingByte, State.pendingByte, pendingSeen_unobserved, List.flatMap_map]
  simp only [hlane]

theorem pendingByte_of_unobserved (h : unobserved u = unobserved s) (w : Who) (x : Loc) : u.pendingByte w x = s.pendingByte w x := by
  rw [← pendingByte_unobserved u, h, pendingByte_unobserved]

theorem seenStash_of_unobserved (h : unobserved u = unobserved s) (w : Who) (r : TeamRef) (off : Nat) :
    u.seenStash w r off = s.seenStash w r off := by
  have hformer : u.former = s.former := (congrArg State.former h :)
  rw [State.seenStash, State.seenStash, pendingByte_of_unobserved h, State.stashByte, State.stashByte, team?_of_unobserved h, hformer]

theorem seenBytes_of_unobserved (h : unobserved u = unobserved s) (w : Who) (pa n : Nat) : u.seenBytes w pa n = s.seenBytes w pa n := by
  refine List.map_congr_left fun i _ => ?_
  rw [State.seenByte, State.seenByte, pendingByte_of_unobserved h, (sameBase_of_unobserved h).homeByte]

/-! ### What waits, and what a read follows -/

theorem pendingLocs_unobserved (s : State) (o : Op) : (unobserved s).pendingLocs (unseenOp o) = s.pendingLocs o := by
  cases hk : o.kind with
  | store lanes na rel =>
    rw [unseenOp_of_store hk]
    simp only [State.pendingLocs, hk, List.flatMap_map, (sameBase_unobserved s).locs]
    rfl
  | _ =>
    have hself : unseenOp o = o := by simp [unseenOp, hk]
    simp only [hself, State.pendingLocs, hk, (sameBase_unobserved s).locs]

theorem held_unobserved (s : State) (c : CtxRef) (upto : Nat) (ls : List Loc) : (unobserved s).held c upto ls = s.held c upto ls := by
  rw [State.held, State.held, show (unobserved s).ops = s.ops.map unseenOp from rfl, List.any_map]
  simp only [Function.comp_def, unseenOp_own, unseenOp_id, unseenOp_path, unseenOp_done, pendingLocs_unobserved]

theorem held_of_unobserved (h : unobserved u = unobserved s) (c : CtxRef) (upto : Nat) (ls : List Loc) :
    u.held c upto ls = s.held c upto ls := by
  rw [← held_unobserved u, h, held_unobserved]

/-- Whether an operation in flight is a later store of another one's context to these locations (R113). -/
def storesLater (s : State) (o : Op) (ls : List Loc) (p : Op) : Bool :=
  p.own = o.own && o.id < p.id && !p.done &&
    match p.kind with
    | .store lanes _ _ => lanes.any (fun l => l.stage != .performed && meets (s.locs l.place l.bytes.length) ls)
    | _ => false

theorem storesLater_unobserved (s : State) (o : Op) (ls : List Loc) (p : Op) :
    storesLater (unobserved s) o ls (unseenOp p) = storesLater s o ls p := by
  cases hk : p.kind with
  | store lanes na rel =>
    rw [unseenOp_of_store hk]
    simp only [storesLater, hk, List.any_map, (sameBase_unobserved s).locs]
    rfl
  | _ =>
    have hself : unseenOp p = p := by simp [unseenOp, hk]
    simp only [hself, storesLater, hk]

theorem laterStore_unobserved (s : State) (o : Op) (ls : List Loc) : (unobserved s).laterStore o ls = s.laterStore o ls := by
  have heq : ∀ s : State, s.laterStore o ls = (s.ops.find? (storesLater s o ls)).map (·.id) := fun _ => rfl
  rw [heq, heq, show (unobserved s).ops = s.ops.map unseenOp from rfl, List.find?_map, Option.map_map]
  have hpred : storesLater (unobserved s) o ls ∘ unseenOp = storesLater s o ls := funext fun p => storesLater_unobserved s o ls p
  have hid : (fun p : Op => p.id) ∘ unseenOp = (fun p => p.id) := funext unseenOp_id
  rw [hpred, hid]

/-- The party behind a read is the same after an observation. -/
theorem whoRead_of_unobserved (h : unobserved u = unobserved s) (o : Op) (ls : List Loc) : u.whoRead o ls = s.whoRead o ls := by
  rw [State.whoRead, State.whoRead, State.whoOp, State.whoOp, (sameBase_of_unobserved h).holder, ← laterStore_unobserved u, h,
    laterStore_unobserved]

/-! ### Loads of plain stash bytes (R109, R113, R233) -/

/-- The byte that a party reads at a location. -/
def byteAt (s : State) (w : Who) : Loc → Byte
  | .g pa => s.seenByte w pa
  | .s r off => s.seenStash w r off

theorem byteAt_of_unobserved (h : unobserved u = unobserved s) (w : Who) (x : Loc) : byteAt u w x = byteAt s w x := by
  cases x with
  | g pa => rw [byteAt, byteAt, State.seenByte, State.seenByte, pendingByte_of_unobserved h, (sameBase_of_unobserved h).homeByte]
  | s r off => exact seenStash_of_unobserved h w r off

/-- What a load of locations reads. -/
def valueAt (s : State) (w : Who) (l : LoadLane) : Nat := natOfBytes ((s.locs l.place l.n).map (byteAt s w))

/-- An access once made, with what it reads. -/
def madeBy (s : State) (w : Who) (l : LoadLane) : LoadLane := { l with val := some (valueAt s w l) }

theorem length_locs (s : State) (p : Place) (n : Nat) : (s.locs p n).length = n := by
  cases p <;> simp [State.locs]

/-- A byte of the number that some bytes make. -/
theorem byte_natOfBytes (bs : List Byte) {k : Nat} (h : k < bs.length) : BitVec.ofNat 8 (natOfBytes bs / 2 ^ (8 * k)) = bs[k] := by
  induction bs generalizing k with
  | nil => exact absurd h (Nat.not_lt_zero k)
  | cons b bs ih =>
    have hb := b.isLt
    cases k with
    | zero =>
      refine BitVec.eq_of_toNat_eq ?_
      simp only [natOfBytes, Nat.mul_zero, pow_zero, Nat.div_one, BitVec.toNat_ofNat, List.getElem_cons_zero]
      omega
    | succ k =>
      have hdiv : natOfBytes (b :: bs) / 2 ^ (8 * (k + 1)) = natOfBytes bs / 2 ^ (8 * k) := by
        rw [natOfBytes, Nat.mul_succ, Nat.add_comm (8 * k), Nat.pow_add, ← Nat.div_div_eq_div_mul]
        congr 1
        omega
      rw [hdiv, List.getElem_cons_succ]
      exact ih (Nat.lt_of_succ_lt_succ h)

theorem byte_valueAt (l : LoadLane) {k : Nat} (h : k < (s.locs l.place l.n).length) :
    BitVec.ofNat 8 (valueAt s w l / 2 ^ (8 * k)) = byteAt s w (s.locs l.place l.n)[k] := by
  rw [valueAt, byte_natOfBytes _ (by rwa [List.length_map]), List.getElem_map]

/-- Accesses made, or not made yet. -/
def MadeIfAny (s : State) (w : Who) (ls : List LoadLane) : Prop := ∀ l ∈ ls, ∀ v, l.val = some v → v = valueAt s w l

theorem loadedByte_of_made {ls : List LoadLane} {x : Loc} {b : Byte} (hm : MadeIfAny s w ls) (h : loadedByte s ls x = some b) :
    b = byteAt s w x := by
  obtain ⟨l, hl, hb⟩ := List.exists_of_findSome?_eq_some h
  cases hv : l.val with
  | none => simp [hv] at hb
  | some v =>
    simp only [hv] at hb
    split at hb
    next hk =>
      rw [Bool.and_eq_true, decide_eq_true_eq] at hk
      have hlt : (s.locs l.place l.n).idxOf x < (s.locs l.place l.n).length := (length_locs s l.place l.n).symm ▸ hk.1
      rw [← Option.some.inj hb, hm l hl v hv, byte_valueAt l hlt, List.getElem_idxOf hlt]
    next => cases hb

/-- Lanes that read what is there agree with one another (R233). -/
theorem sameValue_of_made {ls : List LoadLane} (l : LoadLane) (hm : MadeIfAny s w ls) : sameValue s ls l (valueAt s w l) = valueAt s w l := by
  rw [sameValue]
  split
  · rfl
  · refine congrArg natOfBytes (List.ext_getElem (by simp) fun i hi hi' => ?_)
    rw [List.length_map] at hi'
    rw [List.getElem_map, List.getElem_map, List.getElem_zipIdx]
    cases hb : loadedByte s ls (s.locs l.place l.n)[i] with
    | none =>
      rw [Nat.zero_add]
      exact byte_valueAt l hi'
    | some b => exact loadedByte_of_made hm hb

theorem valueAt_of_unobserved (h : unobserved u = unobserved s) (w : Who) (l : LoadLane) : valueAt u w l = valueAt s w l := by
  rw [valueAt, valueAt, (sameBase_of_unobserved h).locs]
  exact congrArg natOfBytes (List.map_congr_left fun x _ => byteAt_of_unobserved h w x)

theorem madeIfAny_of_unobserved (h : unobserved u = unobserved s) {ls : List LoadLane} (hm : MadeIfAny s w ls) : MadeIfAny u w ls := by
  intro l hl v hv
  rw [valueAt_of_unobserved h]
  exact hm l hl v hv

/-- An access of a load that lies in plain stash bytes, waits for nothing, and reads as a party. -/
structure PlainLoad (s : State) (o : Op) (w : Who) (l : LoadLane) : Prop where
  new : l.val = none
  place : ∃ r off, l.place = .stash r off ∧ s.inWindow r off l.n = false
  free : s.held o.own o.id (s.locs l.place l.n) = false
  party : s.whoRead o (s.locs l.place l.n) = w

/-- The locations of plain stash bytes are those bytes. -/
theorem locs_of_plain {r : TeamRef} {off n : Nat} (h : s.inWindow r off n = false) :
    s.locs (.stash r off) n = (List.range n).map (fun i => .s r (off + i)) := by
  refine List.map_congr_left fun i hi => ?_
  rw [State.stashLoc, windowOf_of_plain h (List.mem_range.1 hi)]

theorem inWindow_of_unobserved (h : unobserved u = unobserved s) (r : TeamRef) (off n : Nat) : u.inWindow r off n = s.inWindow r off n := by
  have hb := sameBase_of_unobserved h
  rw [State.inWindow, State.inWindow, hb.maps, hb.teams]

theorem PlainLoad.of_unobserved {l : LoadLane} (h : unobserved u = unobserved s) (hl : PlainLoad s o w l) : PlainLoad u o w l := by
  obtain ⟨hnew, ⟨r, off, hp, hw⟩, hfree, hparty⟩ := hl
  rw [← (sameBase_of_unobserved h).locs] at hfree hparty
  exact ⟨hnew, ⟨r, off, hp, (inWindow_of_unobserved h r off l.n).trans hw⟩, (held_of_unobserved h ..).trans hfree,
    (whoRead_of_unobserved h ..).trans hparty⟩

/-- A plain stash access reads the bytes its party sees, and its context has observed them. -/
theorem loadAccess_plain {l : LoadLane} (na : Bool) (h : PlainLoad s o w l) :
    loadAccess s o na l = .ok (s.observeAt w o.own o.id (s.locs l.place l.n), valueAt s w l) := by
  obtain ⟨-, ⟨r, off, hp, hw⟩, hfree, hparty⟩ := h
  have hvalue : natOfBytes ((List.range l.n).map (fun i => stashSeen s w r (off + i))) = valueAt s w l := by
    rw [valueAt, hp, locs_of_plain hw, List.map_map]
    refine congrArg natOfBytes (List.map_congr_left fun i hi => ?_)
    rw [stashSeen, windowOf_of_plain hw (List.mem_range.1 hi)]
    rfl
  have htouch : (s.touched r off l.n).any (fun q => (q.1.sec? q.2).isNone) = false := by rw [touched_of_plain hw, List.any_nil]
  simp only [loadAccess, hfree, hparty, Bool.false_eq_true, if_false]
  rw [hp] at hparty hfree ⊢
  simp only [htouch, Bool.false_eq_true, if_false, hvalue]

/-- Each access of a load of plain stash bytes reads what its party sees before all of them. -/
theorem loadAccesses_plain (na : Bool) {ls : List LoadLane} (h : ∀ l ∈ ls, PlainLoad s o w l) (before : List LoadLane)
    (hu : unobserved u = unobserved s) (hm : MadeIfAny s w before) :
    loadAccesses o na [] u before ls =
      (ls.foldl (fun u l => u.observeAt w o.own o.id (u.locs l.place l.n)) u, before ++ ls.map (madeBy s w)) := by
  induction ls generalizing u before with
  | nil => simp [loadAccesses]
  | cons l ls ih =>
    have hl := h l List.mem_cons_self
    have hobs := (unobserved_observeAt u w o.own o.id (u.locs l.place l.n)).trans hu
    have hrest : MadeIfAny s w (before ++ ls) := by
      intro y hy v hv
      rcases List.mem_append.1 hy with hy | hy
      · exact hm y hy v hv
      · rw [(h y (List.mem_cons_of_mem _ hy)).new] at hv
        cases hv
    have hval : sameValue (u.observeAt w o.own o.id (u.locs l.place l.n)) (before ++ ls) l (valueAt u w l) = valueAt s w l := by
      rw [valueAt_of_unobserved hu, ← valueAt_of_unobserved hobs]
      exact sameValue_of_made l (madeIfAny_of_unobserved hobs hrest)
    have hpick : (l.val.isNone && picks [] l.lane) = true := by rw [hl.new]; rfl
    rw [loadAccesses, if_pos hpick, loadAccess_plain na (hl.of_unobserved hu)]
    dsimp only
    rw [hval, ih (fun y hy => h y (List.mem_cons_of_mem _ hy)) _ hobs ?_]
    · rw [List.foldl_cons, List.map_cons, List.append_assoc]
      rfl
    · intro y hy v hv
      rcases List.mem_append.1 hy with hy | hy
      · exact hm y hy v hv
      · rw [List.mem_singleton.1 hy] at hv ⊢
        exact (Option.some.inj hv).symm

end

end Sys2Proof.Machine.Observations

/-! ## How accesses in flight complete (O39, R44, R93, R105, R106, R117, R234, R236, R290, R291) -/

namespace Sys2Proof.Machine.Completions

-- one proof after another: side by side they take more threads than the check's memory limit has stacks for
set_option Elab.async false

open Touching CopyFrames Observations Homes Saves

section
variable {s u v : State} {op : Nat} {o : Op} {t t' : Team} {w : Who} {k : Launch} {l : LoadLane} {na : Bool}

/-! ### Registers written -/

/-- The state with the team of a slot changed, if there is one. -/
def teamChanged (s : State) (r : TeamRef) (f : Team → Team) : State :=
  match s.team? r with
  | none => s
  | some t => s.putTeam (f t)

theorem teamChanged_some {r : TeamRef} {f : Team → Team} (h : s.team? r = some t) : teamChanged s r f = s.putTeam (f t) := by
  rw [teamChanged, h]

theorem team?_teamChanged {r : TeamRef} {f : Team → Team} (h : s.team? r = some t) (hf : (f t).ref = t.ref) :
    (teamChanged s r f).team? r = some (f t) := by
  have hr : t.ref = r := Slots.ref_of_team? h
  rw [teamChanged_some h]
  have hself := State.team?_putTeam_self (s := s) (t := f t) (t' := t) (by rw [hf, hr]; exact h)
  rwa [hf, hr] at hself

theorem teamChanged_copies (s : State) (r : TeamRef) (f : Team → Team) : (teamChanged s r f).copies = s.copies := by
  unfold teamChanged
  split <;> rfl

theorem sameHomes_teamChanged (s : State) (r : TeamRef) (f : Team → Team) : SameHomes s (teamChanged s r f) := by
  unfold teamChanged
  split
  · exact (sameData_refl s).homes
  · exact sameHomes_of_eq rfl rfl

theorem deliver_ref (t : Team) (kind : CtxKind) (dst : LoadDst) (lanes : List LoadLane) : (deliver t kind dst lanes).ref = t.ref := by
  cases dst with
  | vec d wide sext => exact Frames.setElems_ref ..
  | sca d =>
    simp only [deliver]
    split
    · exact Team.setCtx_ref ..
    · rfl
  | mask d => rfl
  | tile d row0 nrow n => rfl

/-! ### An operation that has finished -/

theorem completion_of_finished (h : s.flying? op = none) (lanes : List Nat) (b : Bool) (x : Nat) :
    ∀ e ∈ ([.loadComplete op lanes, .storePerformed op lanes b, .windowFill op, .stashCopyComplete op lanes,
      .ownershipGrant op x, .atomPerformed op lanes, .redMerge op lanes, .regionValidation op lanes] : List Instr),
      exec e s = .next s := by
  simp [execLoadComplete, execStorePerformed, execWindowFill, execStashCopyComplete, execOwnershipGrant, execAtomPerformed,
    execRedMerge, execRegionValidation, h]

/-! ### Loads -/

/-- A load all of whose accesses are made writes its registers and falls. -/
theorem execLoadComplete_all (h : s.flying? op = some o) {dst : LoadDst} {ls ls' : List LoadLane} (hk : o.kind = .load dst ls na)
    (hls : loadAccesses o na [] s [] ls = (u, ls')) (hall : ls'.all (fun l => l.val.isSome) = true) :
    execLoadComplete op [] s =
      .next ((teamChanged u o.own.ref (fun t => deliver t o.own.kind dst (joinLoads ls'))).finishOp op) := by
  simp only [execLoadComplete, h, hk, hls, hall, if_true, teamChanged]
  cases u.team? o.own.ref <;> rfl

theorem plainLoad_of {r : TeamRef} {off : Nat} {before : Option Nat} (hnew : l.val = none) (hp : l.place = .stash r off)
    (hw : s.inWindow r off l.n = false) (hfree : s.held o.own o.id ((List.range l.n).map (fun i => .s r (off + i))) = false)
    (hlater : s.laterStore o ((List.range l.n).map (fun i => .s r (off + i))) = before) :
    PlainLoad s o { s.whoOp o with before := before } l := by
  have hlocs : s.locs l.place l.n = (List.range l.n).map (fun i => .s r (off + i)) := hp ▸ locs_of_plain hw
  rw [← hlocs] at hfree hlater
  exact ⟨hnew, ⟨r, off, hp, hw⟩, hfree, by rw [State.whoRead, hlater]⟩

theorem madeBy_of_plain (h : PlainLoad s o w l) : madeBy s w l =
    { l with val := some (natOfBytes ((List.range l.n).map (fun i =>
        match l.place with | .stash r off => s.seenStash w r (off + i) | .glob .. => 0))) } := by
  obtain ⟨-, ⟨r, off, hp, hw⟩, -, -⟩ := h
  rw [madeBy, valueAt, hp, locs_of_plain hw, List.map_map]
  rfl

/-- A load of plain stash bytes (R113, R233). -/
theorem execLoadComplete_plain (h : s.flying? op = some o) (ht : s.team? o.own.ref = some t) {dst : LoadDst} {ls : List LoadLane}
    (hk : o.kind = .load dst ls na) (hp : ∀ l ∈ ls, PlainLoad s o w l) :
    execLoadComplete op [] s = .next (((ls.foldl (fun s l => s.observeAt w o.own o.id (s.locs l.place l.n)) s).putTeam
      (deliver t o.own.kind dst (joinLoads (ls.map (madeBy s w))))).finishOp op) := by
  have hobs : unobserved (ls.foldl (fun s l => s.observeAt w o.own o.id (s.locs l.place l.n)) s) = unobserved s :=
    List.foldlRecOn (motive := fun u => unobserved u = unobserved s) ls _ rfl fun u hu l _ => (unobserved_observeAt ..).trans hu
  have hload := execLoadComplete_all h hk (loadAccesses_plain na hp [] rfl fun _ hl => absurd hl List.not_mem_nil) (by simp [madeBy])
  rw [hload, teamChanged_some ((team?_of_unobserved hobs _).trans ht), List.nil_append]

/-- The state that a read of a global sector leaves: observed, and with a copy in the L1 unless it is a no-allocate one. -/
def readDone (u : State) (w : Who) (o : Op) (na : Bool) (ls : List Loc) (sector : Nat) : State :=
  if na then u.observeAt w o.own o.id ls
  else (u.observeAt w o.own o.id ls).shareCopy w o.own.ref.die o.own.ref.core sector

theorem sameData_readDone (u : State) (w : Who) (o : Op) (na : Bool) (ls : List Loc) (sector : Nat) :
    SameData u (readDone u w o na ls sector) := by
  unfold readDone
  split
  · exact sameData_observeAt ..
  · exact (sameData_observeAt ..).trans (sameData_shareCopy ..)

/-- A load of global bytes whose sector may be read (R105, R113, R233). -/
theorem execLoadComplete_global (h : s.flying? op = some o) {dst : LoadDst} (hk : o.kind = .load dst [l] na) (hnew : l.val = none)
    {va pa : Nat} (hp : l.place = .glob va pa) {ls : List Loc} (hls : (List.range l.n).map (fun i => Loc.g (pa + i)) = ls)
    (hfree : s.held o.own o.id ls = false) (hl : (s.whoRead o ls).launch = some k)
    (hr : s.readSector (s.whoRead o ls) k (pa / 64) = .ok u) :
    execLoadComplete op [] s = .next ((teamChanged (readDone u (s.whoRead o ls) o na ls (pa / 64)) o.own.ref (fun t =>
      deliver t o.own.kind dst [{ l with val := some (natOfBytes (u.seenBytes (s.whoRead o ls) pa l.n)) }])).finishOp op) := by
  have haccess : loadAccess s o na l = .ok (readDone u (s.whoRead o ls) o na ls (pa / 64),
      natOfBytes (u.seenBytes (s.whoRead o ls) pa l.n)) := by
    have hlocs : ∀ s : State, s.locs (.glob va pa) l.n = ls := fun _ => hls
    simp only [loadAccess, hp, hlocs, hfree, hl, hr, Bool.false_eq_true, if_false]
    rfl
  refine execLoadComplete_all h hk (ls' := [{ l with val := some (natOfBytes (u.seenBytes (s.whoRead o ls) pa l.n)) }]) ?_ rfl
  simp [loadAccesses, hnew, picks, haccess, sameValue]

/-! ### Reads of the fetch unit, and words known since issue (R290 to R292) -/

/-- A team with results of lanes in a register, and their flags raised. -/
def withResults (wide : Bool) (d : Nat) (rs : List (Nat × Nat × Flags)) (t : Team) : Team :=
  { t.setElems wide d (BitVec.allOnes 1024) (fun l => (rs.find? (fun r => r.1 = l)).map (fun r => r.2.1)) with
    team := t.team.raise (flagsOr (rs.map (fun r => r.2.2))) }

theorem withResults_ref (wide : Bool) (d : Nat) (rs : List (Nat × Nat × Flags)) (t : Team) : (withResults wide d rs t).ref = t.ref :=
  Frames.setElems_ref ..

theorem deliverLanes_eq (s : State) (o : Op) (wide : Bool) (d : Nat) (rs : List (Nat × Nat × Flags)) :
    deliverLanes s o wide d rs = (teamChanged s o.own.ref (withResults wide d rs)).finishOp o.id := by
  have hteam : ∀ t : Team, (t.setElems wide d (BitVec.allOnes 1024) (fun l => (rs.find? (fun r => r.1 = l)).map (fun r => r.2.1))).team =
      t.team := fun t => by rw [Frames.setElems_eq]
  rw [deliverLanes, teamChanged]
  cases s.team? o.own.ref with
  | none => rfl
  | some t => simp only [withResults, hteam]

theorem flags_or_zero (f : Flags) : f ||| 0 = f := BitVec.or_zero

theorem flagsOr_zero {l : List Flags} (h : ∀ f ∈ l, f = 0) : flagsOr l = 0 :=
  List.foldlRecOn (motive := fun f => f = 0) l _ rfl fun f hf x hx => by rw [hf, h x hx, flags_or_zero]

/-- Words that need no reads are written without a flag (R293). -/
theorem execLoadComplete_value (h : s.flying? op = some o) (hid : o.id = op) (ht : s.team? o.own.ref = some t) {d : Nat}
    {vs : List (Nat × Lane)} (hk : o.kind = .value d vs) :
    execLoadComplete op [] s = .next ((s.putTeam (t.setElems false d (BitVec.allOnes 1024)
      (fun l => (vs.find? (fun p => p.1 = l)).map (fun p => p.2.toNat)))).finishOp op) := by
  have hflags : flagsOr (((vs.map (fun p => (p.1, p.2.toNat, (0 : Flags)))).map (fun r => r.2.2))) = 0 := by
    refine flagsOr_zero fun f hf => ?_
    obtain ⟨r, hr, rfl⟩ := List.mem_map.1 hf
    obtain ⟨p, -, rfl⟩ := List.mem_map.1 hr
    rfl
  have hraise : t.team.raise 0 = t.team := by rw [Ctx.raise, flags_or_zero]
  have hfind : ∀ l, ((vs.map (fun p => (p.1, p.2.toNat, (0 : Flags)))).find? (fun r => r.1 = l)).map (fun r => r.2.1) =
      (vs.find? (fun p => p.1 = l)).map (fun p => p.2.toNat) := by
    intro l
    rw [List.find?_map, Option.map_map]
    rfl
  have hres : withResults false d (vs.map (fun p => (p.1, p.2.toNat, (0 : Flags)))) t =
      t.setElems false d (BitVec.allOnes 1024) (fun l => (vs.find? (fun p => p.1 = l)).map (fun p => p.2.toNat)) := by
    rw [withResults, hflags, hraise]
    simp only [hfind]
    rw [Frames.setElems_eq]
  simp only [execLoadComplete, h, hk]
  rw [deliverLanes_eq, teamChanged_some ht, hres, hid]

/-- The sectors of some elements. -/
def sectorsOfEls (els : List FetchEl) : List Nat := (els.flatMap (fun e => e.parts.map (fun p => p.2.1 / 64))).dedup

theorem fetchReady_ok {els : List FetchEl} (hl : (s.whoOp o).launch = some k) (hfree : s.held o.own o.id (els.flatMap FetchEl.locs) = false)
    (hr : eachSector s (fun v x => v.readSector (s.whoRead o (els.flatMap FetchEl.locs)) k x) (sectorsOfEls els) = .ok u) :
    fetchReady s o els = .ok (u.observeAt (s.whoRead o (els.flatMap FetchEl.locs)) o.own o.id (els.flatMap FetchEl.locs)) := by
  have hlaunch : (s.whoRead o (els.flatMap FetchEl.locs)).launch = some k := hl
  rw [fetchReady, hlaunch]
  dsimp only
  rw [if_neg (by rw [hfree]; exact Bool.false_ne_true)]
  exact congrArg (Except.map (fun v : State => v.observeAt (s.whoRead o (els.flatMap FetchEl.locs)) o.own o.id (els.flatMap FetchEl.locs))) hr

/-- The state in which a FETCH or EPOOL has made its reads, and its fetch unit keeps the sectors. -/
def fetched (s u : State) (o : Op) (els : List FetchEl) : State :=
  (u.observeAt (s.whoRead o (els.flatMap FetchEl.locs)) o.own o.id (els.flatMap FetchEl.locs)).cacheEls o els

theorem sameData_fetched (s u : State) (o : Op) (els : List FetchEl) : SameData u (fetched s u o els) :=
  (sameData_observeAt ..).trans (sameData_cacheEls ..)

/-- The one sector that some elements lie in has a copy in their core's fetch unit then. -/
theorem l1State_fetched {els : List FetchEl} {g : Nat} (h : sectorsOfEls els = [g]) :
    (fetched s u o els).l1State o.own.ref.die o.own.ref.core g ≠ .I := by
  rw [sectorsOfEls] at h
  rw [fetched, State.cacheEls, h, List.foldl_cons, List.foldl_nil]
  exact l1State_shareCopy _ _ _ _ _ _

theorem laneRnd_of_unobserved (h : unobserved u = unobserved s) (t : Team) (md : BitVec 26) (isc : Word) (l e : Nat) :
    laneRnd u t md isc l e = laneRnd s t md isc l e := by
  rw [laneRnd, laneRnd, laneDraw, laneDraw, seedOf, seedOf, State.recordOf, State.recordOf, (sameBase_of_unobserved h).launch?]

theorem fetchValue_of_unobserved (h : unobserved u = unobserved s) (w : Who) (ftz : Bool) (fmt : Nat) (e : FetchEl) :
    fetchValue u w ftz fmt e = fetchValue s w ftz fmt e := by
  simp only [fetchValue, seenBytes_of_unobserved h]

theorem fetchLane_of_unobserved (h : unobserved u = unobserved s) (t : Team) (w : Who) (fmt : Nat) (md : BitVec 26) (isc : Word)
    (lane : Nat) (e : FetchEl) : fetchLane u t w fmt md isc lane e = fetchLane s t w fmt md isc lane e := by
  simp only [fetchLane, convRnd, laneRnd_of_unobserved h, fetchValue_of_unobserved h, seenBytes_of_unobserved h]

theorem epoolLane_of_unobserved (h : unobserved u = unobserved s) (t : Team) (w : Who) (fmt : Nat) (md : BitVec 26) (isc : Word)
    (lane : Nat) (terms : List (Lane × FetchEl)) : epoolLane u t w fmt md isc lane terms = epoolLane s t w fmt md isc lane terms := by
  simp only [epoolLane, laneRnd_of_unobserved h, fetchValue_of_unobserved h]

/-- The results of lanes are written, and the operation falls. -/
def resultsDone (s : State) (o : Op) (wide : Bool) (d : Nat) (rs : List (Nat × Nat × Flags)) : State :=
  (teamChanged s o.own.ref (withResults wide d rs)).finishOp o.id

theorem execLoadComplete_fetch (h : s.flying? op = some o) (ht : s.team? o.own.ref = some t) {d fmt : Nat} {md : BitVec 26} {isc : Word}
    {ls : List (Nat × FetchEl)} (hk : o.kind = .fetch d fmt md isc ls) {els : List FetchEl} (he : ls.map (·.2) = els)
    (hready : fetchReady s o els = .ok (u.observeAt (s.whoRead o (els.flatMap FetchEl.locs)) o.own o.id (els.flatMap FetchEl.locs))) :
    execLoadComplete op [] s = .next (resultsDone (fetched s u o els) o (isWide (mdType md)) d
      (ls.map (fun p => (p.1, fetchLane u t (u.whoRead o (els.flatMap FetchEl.locs)) fmt md isc p.1 p.2)))) := by
  have hobs := unobserved_observeAt u (s.whoRead o (els.flatMap FetchEl.locs)) o.own o.id (els.flatMap FetchEl.locs)
  simp only [execLoadComplete, h, hk, he, hready, ht, whoRead_of_unobserved hobs, fetchLane_of_unobserved hobs, deliverLanes_eq]
  rfl

theorem execLoadComplete_epool (h : s.flying? op = some o) (ht : s.team? o.own.ref = some t) {d fmt : Nat} {md : BitVec 26} {isc : Word}
    {ls : List (Nat × List (Lane × FetchEl))} (hk : o.kind = .epool d fmt md isc ls) {els : List FetchEl}
    (he : ls.flatMap (fun p => p.2.map (·.2)) = els)
    (hready : fetchReady s o els = .ok (u.observeAt (s.whoRead o (els.flatMap FetchEl.locs)) o.own o.id (els.flatMap FetchEl.locs))) :
    execLoadComplete op [] s = .next (resultsDone (fetched s u o els) o (isWide (mdType md)) d
      (ls.map (fun p => (p.1, epoolLane u t (u.whoRead o (els.flatMap FetchEl.locs)) fmt md isc p.1 p.2)))) := by
  have hobs := unobserved_observeAt u (s.whoRead o (els.flatMap FetchEl.locs)) o.own o.id (els.flatMap FetchEl.locs)
  simp only [execLoadComplete, h, hk, he, hready, ht, whoRead_of_unobserved hobs, epoolLane_of_unobserved hobs, deliverLanes_eq]
  rfl

/-- What is left once the results of a FETCH or EPOOL have been written. -/
theorem resultsDone_spec {els : List FetchEl} (wide : Bool) (d : Nat) (rs : List (Nat × Nat × Flags)) (ht : u.team? o.own.ref = some t') :
    let u' := resultsDone (fetched s u o els) o wide d rs
    SameHomes u u' ∧ (∀ y ∈ u'.ops, y.id = o.id → y.done = true) ∧
    (∀ g, sectorsOfEls els = [g] → u'.l1State o.own.ref.die o.own.ref.core g ≠ .I) ∧
    u'.team? o.own.ref = some (withResults wide d rs t') := by
  have hdata := sameData_fetched s u o els
  refine ⟨SameHomes.trans hdata.homes (SameHomes.trans (sameHomes_teamChanged ..) (sameData_finishOp ..).homes),
    fun y hy hid => done_of_mem_finishOp hy hid, fun g hg => ?_, ?_⟩
  · have hcopies : (resultsDone (fetched s u o els) o wide d rs).copies = (fetched s u o els).copies := teamChanged_copies ..
    rw [l1State_congr hcopies]
    exact l1State_fetched hg
  · exact team?_teamChanged ((hdata.team? _).trans ht) (withResults_ref ..)

end

end Sys2Proof.Machine.Completions

/-! ## How stores, fills, stash copies and grants are performed (O39, R89, R93, R105, R106, R117, R234, R236) -/

namespace Sys2Proof.Machine.Performances

-- one proof after another: side by side they take more threads than the check's memory limit has stacks for
set_option Elab.async false

open Touching CopyFrames Completions Homes Saves

section
variable {s u v : State} {op : Nat} {o : Op} {t t' : Team} {w : Who} {k : Launch} {l : StoreLane} {na : Bool} {got : List Nat}

/-! ### Stores -/

/-- A store of one access that is performed with an event falls. -/
theorem execStorePerformed_one (h : s.flying? op = some o) (hk : o.kind = .store [l] na got) {pick : List Nat} {bumped : List Nat}
    (hnew : l.stage ≠ .performed) (hpick : picks pick l.lane = true)
    (haccess : storeAccess s o na false got [] l = .ok (v, bumped, { l with stage := .performed })) :
    execStorePerformed op pick false s =
      .next ((v.putOp { o with kind := .store [{ l with stage := .performed }] na bumped }).finishOp op) := by
  simp [execStorePerformed, h, hk, storeAccesses, hnew, hpick, haccess]

theorem storeWaits_false (hfree : ¬ (o.path ≠ none ∧ s.held o.own o.id (s.locs l.place l.bytes.length) = true))
    (hlast : mustFollow s o l.stage (s.locs l.place l.bytes.length) = false) : s.storeWaits o l = false := by
  rw [State.storeWaits, hlast, Bool.or_false, Bool.eq_false_iff, Ne, Bool.and_eq_true, Option.isSome_iff_ne_none]
  exact hfree

/-! ### Stores to plain stash bytes (R93, R103) -/

theorem setStash_nil (s : State) (r : TeamRef) (off : Nat) : s.setStash r off [] = s := by
  have hteams : s.teams.map (fun t => if t.ref = r then { t with stash := t.stash.setN off [] } else t) = s.teams :=
    (List.map_congr_left fun t _ => by split <;> rfl).trans (List.map_id _)
  have hformer : s.former.map (fun f => if f.ref = r then { f with stash := f.stash.setN off [] } else f) = s.former :=
    (List.map_congr_left fun f _ => by split <;> rfl).trans (List.map_id _)
  rw [State.setStash, hteams, hformer]

theorem setStash_cons (s : State) (r : TeamRef) (off : Nat) (b : Byte) (bs : List Byte) :
    s.setStash r off (b :: bs) = (s.setStash r off [b]).setStash r (off + 1) bs := by
  simp only [State.setStash, List.map_map]
  congr 1
  · refine List.map_congr_left fun t _ => ?_
    by_cases ht : t.ref = r <;> simp [ht, Memory.setN]
  · refine List.map_congr_left fun f _ => ?_
    by_cases hf : f.ref = r <;> simp [hf, Memory.setN]

theorem windowOf_setStash (s : State) (r r' : TeamRef) (off off' : Nat) (bs : List Byte) :
    (s.setStash r off bs).windowOf r' off' = s.windowOf r' off' := by
  have hteam : ((s.setStash r off bs).team? r').isSome = (s.team? r').isSome := by
    rw [BarrierObjects.team?_setStash, Option.isSome_map]
  rw [State.windowOf, State.windowOf, hteam]
  rfl

/-- Bytes outside every window are written one by one. -/
theorem foldl_stashBytes {r : TeamRef} {off : Nat} (bs : List Byte) (j : Nat) (h : ∀ i < bs.length, s.windowOf r (off + (j + i)) = none) :
    (bs.zipIdx j).foldl (fun s p =>
      match s.windowOf r (off + p.2) with
      | some m => writeWindow s m (off + p.2 - m.woff) p.1
      | none => s.setStash r (off + p.2) [p.1]) s = s.setStash r (off + j) bs := by
  induction bs generalizing s j with
  | nil => exact (setStash_nil ..).symm
  | cons b bs ih =>
    have hb := h 0 (Nat.zero_lt_succ _)
    rw [Nat.add_zero] at hb
    rw [List.zipIdx_cons, List.foldl_cons, setStash_cons s r (off + j) b bs]
    dsimp only
    rw [hb]
    refine ih (j + 1) fun i hi => ?_
    rw [windowOf_setStash, Nat.add_assoc j 1 i, Nat.add_comm 1 i]
    exact h (i + 1) (Nat.succ_lt_succ hi)

theorem stashWrite_plain {r : TeamRef} {off : Nat} {bs : List Byte} (hw : s.inWindow r off bs.length = false) :
    stashWrite s o r off bs = .ok (s.setStash r off bs) := by
  have hfold := foldl_stashBytes (s := s) (r := r) (off := off) bs 0 fun i hi => by rw [Nat.zero_add]; exact windowOf_of_plain hw hi
  rw [stashWrite, touched_of_plain hw]
  simp only [List.any_nil, Bool.false_eq_true, if_false, List.foldl_nil]
  exact congrArg Except.ok ((ite_self _).trans hfold)

/-- A store to plain stash bytes changes these alone (R93). -/
theorem execStorePerformed_plain (h : s.flying? op = some o) (hk : o.kind = .store [l] na got) (hs : l.stage = .issued) {r : TeamRef}
    {off : Nat} (hp : l.place = .stash r off) (hw : s.inWindow r off l.bytes.length = false) (hwait : s.storeWaits o l = false) :
    execStorePerformed op [] false s = .next (((s.setStash r off l.bytes).putOp
      { o with kind := .store [{ l with stage := .performed }] na got }).finishOp op) := by
  refine execStorePerformed_one h hk (by rw [hs]; exact Stage.noConfusion) rfl ?_
  simp [storeAccess, hwait, laneFirst, hp, stashWrite_plain hw, Except.map]

/-! ### Stores to global bytes (R93, R117, R234) -/

/-- The state after bytes of a sector made writable are stored at their home: in the L1 that owns it, or at the L2, where the line's tag
goes up. -/
def globalStored (u : State) (o : Op) (owned : Bool) (pa : Nat) (bs : List Byte) : State :=
  if owned then (u.putHome pa bs).addCore o.own.ref.die o.own.ref.core (pa / 64) .M else (u.putHome pa bs).bumpTag (pa / 64 / 4)

theorem globalWrite_ok {pa : Nat} {bs : List Byte} {owned : Bool} (hl : (s.whoOp o).launch = some k)
    (howned : (o.path.isSome && s.holdsME o.own.ref.die o.own.ref.core (pa / 64)) = owned) (hmay : na = true ∨ owned = true)
    (hu : s.writeSector (s.whoOp o) k (pa / 64) (fun _ _ => false)
      (fun c => owned && (c.die == o.own.ref.die && (c.core == some o.own.ref.core || c.core.isNone))) = .ok u) :
    ∃ bumped, globalWrite s o na [] pa bs = .ok (globalStored u o owned pa bs, bumped) := by
  have hgo : (!na && !owned) = false := by
    obtain rfl | rfl := hmay
    · rfl
    · exact Bool.and_false _
  cases owned with
  | true => exact ⟨[], by simp only [globalWrite, hl, howned, hgo, hu, Bool.false_eq_true, if_false, if_true]; rfl⟩
  | false =>
    refine ⟨[pa / 64], ?_⟩
    simp only [globalWrite, hl, howned, hgo, hu, Bool.false_eq_true, if_false, List.contains_nil]
    rfl

theorem tags_putHome (s : State) (pa : Nat) (bs : List Byte) : (s.putHome pa bs).tags = s.tags := by
  unfold State.putHome State.showCells
  split <;> rfl

/-- Bytes stored at a home that no exact entry covers are its tentative bytes (R79). -/
theorem tbytes_putHome {pa : Nat} {bs : List Byte} (h : ∀ e ∈ s.exact, e.sector ≠ pa / 64) :
    ((s.putHome pa bs).sectorRec (pa / 64)).tbytes = (s.sectorRec (pa / 64)).tbytes.setN pa bs := by
  have hnone : (s.putRaw pa bs).exact.find? (fun e => e.sector = pa / 64) = none := by
    refine List.find?_eq_none.2 fun e he => ?_
    obtain ⟨e', he', rfl⟩ := List.mem_map.1 he
    have hne := h e' he'
    rw [if_neg hne]
    simpa using hne
  rw [State.putHome, State.showCells, hnone]
  refine (congrArg SectorRec.tbytes (sectorRec_setRec s _ (pa / 64))).trans ?_
  rw [if_pos (sectorRec_sector s (pa / 64)).symm]

theorem globalStored_spec (u : State) (o : Op) (owned : Bool) (pa : Nat) (bs : List Byte) :
    SameHomes (u.putHome pa bs) (globalStored u o owned pa bs) ∧ (globalStored u o owned pa bs).exact = (u.putHome pa bs).exact ∧
    (globalStored u o owned pa bs).tag (pa / 64 / 4) = u.tag (pa / 64 / 4) + (if owned then 0 else 1) := by
  have htag : (u.putHome pa bs).tag (pa / 64 / 4) = u.tag (pa / 64 / 4) := by rw [State.tag, State.tag, tags_putHome]
  unfold globalStored
  cases owned with
  | true =>
    rw [if_pos rfl, if_pos rfl]
    have hdata := sameData_addCore (u.putHome pa bs) o.own.ref.die o.own.ref.core (pa / 64) .M false
    exact ⟨hdata.homes, hdata.exact, by rw [hdata.tag, htag]; exact (BitVec.add_zero _).symm⟩
  | false =>
    rw [if_neg Bool.false_ne_true, if_neg Bool.false_ne_true]
    exact ⟨sameHomes_of_eq rfl rfl, rfl, by rw [tag_bumpTag, htag]⟩

/-- A store whose core owns its sector, or that allocates no copy, is performed at the home. -/
theorem execStorePerformed_global (h : s.flying? op = some o) (hk : o.kind = .store [l] na []) (hs : l.stage = .issued) {va pa : Nat}
    (hp : l.place = .glob va pa) (hwait : s.storeWaits o l = false) {owned : Bool} (hl : (s.whoOp o).launch = some k)
    (howned : (o.path.isSome && s.holdsME o.own.ref.die o.own.ref.core (pa / 64)) = owned) (hmay : na = true ∨ owned = true)
    (hu : s.writeSector (s.whoOp o) k (pa / 64) (fun _ _ => false)
      (fun c => owned && (c.die == o.own.ref.die && (c.core == some o.own.ref.core || c.core.isNone))) = .ok u) :
    ∃ bumped, execStorePerformed op [] false s = .next (((globalStored u o owned pa l.bytes).putOp
      { o with kind := .store [{ l with stage := .performed }] na bumped }).finishOp op) := by
  obtain ⟨bumped, hwrite⟩ := globalWrite_ok (bs := l.bytes) hl howned hmay hu
  refine ⟨bumped, execStorePerformed_one h hk (by rw [hs]; exact Stage.noConfusion) rfl ?_⟩
  simp [storeAccess, hwait, laneFirst, hp, hwrite, Except.map]

/-! ### Window fills (R105) -/

/-- The sector of a window that a fill makes valid. -/
def filledSector (u : State) (w : Who) (ix : Nat) (pas : List Nat) : WinSector :=
  let alone := ((pas.map (· / 64)).dedup).all (fun g =>
    (u.copiesOf g).isEmpty && !u.windowSharers g && !u.walkers g && u.readsNewest w g)
  { ix := ix, st := if alone then .E else .S, pas := pas, bytes := pas.map (fun p => u.homeByte w p), dirty := 0 }

/-- The state in which the homes of a fill's sectors share them with its die. -/
def fillShared (u : State) (w : Who) (die : Nat) (st : CState) (secs : List Nat) : State :=
  secs.foldl (fun s x => s.addProxy die x st) (secs.foldl (fun s x => if s.readsNewest w x then s.shareAll x else s) u)

theorem sameData_fillShared (u : State) (w : Who) (die : Nat) (st : CState) (secs : List Nat) :
    SameData u (fillShared u w die st secs) := by
  refine (SameData.foldl (fun s x => ?_) secs u).trans (SameData.foldl (fun s x => sameData_addProxy s die x st) secs _)
  split
  · exact sameData_shareAll s x
  · exact sameData_refl s

theorem execWindowFill_fills (h : s.flying? op = some o) {die core n ix : Nat} {pas : List Nat} {m m' : MapEntry}
    (hk : o.kind = .fill die core n ix pas) (hm : s.map? die core o.lv n = some m) (hix : m.sec? ix = none)
    (hl : s.holder o.lv = some k)
    (hu : eachSector s (fun s x => s.readSector { launch := some k, die := some die, core := some core } k x)
      ((pas.map (· / 64)).dedup) = .ok u) (hm' : u.map? die core o.lv n = some m') :
    ∃ v y, SameData u v ∧ v.map? die core o.lv n = some y ∧ execWindowFill op s =
      .next ((v.putMap (y.setSec (filledSector u { launch := some k, die := some die, core := some core } ix pas))).finishOp op) := by
  have hshared := sameData_fillShared u { launch := some k, die := some die, core := some core } die
    (filledSector u { launch := some k, die := some die, core := some core } ix pas).st ((pas.map (· / 64)).dedup)
  obtain ⟨y, hy⟩ := map?_of_entries hshared.entries hm'
  refine ⟨_, y, hshared, hy, ?_⟩
  simp only [execWindowFill, h, hk, hm, hl, hix, Option.isSome_none, Bool.false_eq_true, if_false, hu]
  split
  next hnone => exact absurd (hy.symm.trans hnone) (Option.some_ne_none y)
  next z hsome =>
    cases Option.some.inj (hy.symm.trans hsome)
    rfl

/-! ### Stash copies (R236) -/

/-- A lane of an LDGS copies the bytes that its context sees. -/
theorem execStashCopyComplete_copies (h : s.flying? op = some o) {l : LdgsLane} (hk : o.kind = .ldgs l) (hl : (s.whoOp o).launch = some k)
    (hfree : s.held o.own o.id ((List.range l.n).map (fun i => Loc.g (l.pa + i)) ++ s.locs (.stash o.own.ref l.off) l.n) = false)
    (hlast : mustFollow s o .issued (s.locs (.stash o.own.ref l.off) l.n) = false)
    (hw : s.whoRead o ((List.range l.n).map (fun i => Loc.g (l.pa + i))) = w) (hr : s.readSector w k (l.pa / 64) = .ok u) :
    execStashCopyComplete op [] s = .next (((u.observeAt w o.own o.id ((List.range l.n).map (fun i => Loc.g (l.pa + i)))).setStash
      o.own.ref l.off (u.seenBytes w l.pa l.n)).finishOp op) := by
  have hlaunch : w.launch = some k := hw ▸ hl
  have hobs := Observations.unobserved_observeAt u w o.own o.id ((List.range l.n).map (fun i => Loc.g (l.pa + i)))
  simp only [execStashCopyComplete, h, hk, hw, hlaunch, hfree, hlast, hr, picks, List.isEmpty_nil, Bool.true_or, Bool.not_true,
    Bool.or_self, Bool.false_eq_true, if_false, Observations.seenBytes_of_unobserved hobs]

/-! ### Grants (R89, R106, R128) -/

/-- The state in which a core has been granted a sector: the line's tag goes up at the home, not at a proxy L2. -/
def grantedTo (u : State) (o : Op) (sector : Nat) (fromProxy : Bool) : State :=
  if fromProxy then u.addCore o.own.ref.die o.own.ref.core sector .M
  else (u.addCore o.own.ref.die o.own.ref.core sector .M).bumpTag (sector / 4)

theorem grantedTo_spec (u : State) (o : Op) (sector : Nat) (fromProxy : Bool) :
    (grantedTo u o sector fromProxy).l1State o.own.ref.die o.own.ref.core sector = .M ∧ SameHomes u (grantedTo u o sector fromProxy) ∧
    (grantedTo u o sector fromProxy).tag (sector / 4) = u.tag (sector / 4) + (if fromProxy then 0 else 1) := by
  have hdata := sameData_addCore u o.own.ref.die o.own.ref.core sector .M false
  have hstate := l1State_addCore u o.own.ref.die o.own.ref.core sector .M false
  unfold grantedTo
  cases fromProxy with
  | true =>
    rw [if_pos rfl, if_pos rfl]
    exact ⟨hstate, hdata.homes, (hdata.tag _).trans (BitVec.add_zero _).symm⟩
  | false =>
    rw [if_neg Bool.false_ne_true, if_neg Bool.false_ne_true]
    exact ⟨hstate, SameHomes.trans hdata.homes (sameHomes_of_eq rfl rfl), by rw [tag_bumpTag, hdata.tag]⟩

theorem execOwnershipGrant_store (h : s.flying? op = some o) (hk : o.kind = .store [l] false got) (hl : (s.whoOp o).launch = some k)
    (hnew : l.stage ≠ .performed) {va pa : Nat} (hp : l.place = .glob va pa) (hwait : s.storeWaits o l = false)
    (hnot : s.holdsME o.own.ref.die o.own.ref.core (pa / 64) = false) {fromProxy : Bool}
    (hproxy : (decide (dieOf (64 * (pa / 64)) ≠ o.own.ref.die) && (s.proxyState o.own.ref.die (pa / 64) == .M ||
      s.proxyState o.own.ref.die (pa / 64) == .E)) = fromProxy)
    (hu : s.writeSector (s.whoOp o) k (pa / 64) (fun _ _ => false)
      (fun c => c.die == o.own.ref.die && (c.core == some o.own.ref.core || c.core.isNone)) = .ok u) :
    execOwnershipGrant op (pa / 64) s = execStorePerformed op [l.lane] false (grantedTo u o (pa / 64) fromProxy) := by
  have hgrant : grantL1 s o (pa / 64) = grantedTo u o (pa / 64) fromProxy := by
    simp only [grantL1, hl, hu]
    rw [hproxy]
    rfl
  have hholds : (grantedTo u o (pa / 64) fromProxy).holdsME o.own.ref.die o.own.ref.core (pa / 64) = true := by
    rw [State.holdsME, (grantedTo_spec u o (pa / 64) fromProxy).1]
  simp [execOwnershipGrant, h, hk, hnew, hp, hwait, hnot, hgrant, hholds]

/-- The last grant that a window sector waits for makes it M (R106). -/
theorem execOwnershipGrant_own (h : s.flying? op = some o) (hid : o.id = op) {die core n ix sector : Nat} {s0 : State} {m m' : MapEntry}
    {x y : WinSector} (hk : o.kind = .own die core n ix got) (hs0 : s.noteWindow o die core n ix = s0)
    (hm : s0.map? die core o.lv n = some m) (hy : m.sec? ix = some y) (hx : x = { y with pas := s0.ownPas m y })
    (hl : s0.holder o.lv = some k) (hin : sector ∈ x.pas.map (· / 64)) (hnew : sector ∉ got)
    (hall : ∀ g ∈ x.pas.map (· / 64), g = sector ∨ g ∈ got)
    (hu : (if x = y then s0 else s0.putMap (m.setSec x)).writeSector { launch := some k, die := some die, core := some core } k sector
      (fun m' x' => m'.same m && x'.ix == ix) (fun _ => false) = .ok u)
    (hm' : u.map? die core o.lv n = some m') (ho0 : s0.op? op = some o) (ho : u.op? op = some o) :
    ∃ (v : State) (z : MapEntry), v.map? die core o.lv n = some z ∧ v.tag (sector / 4) = u.tag (sector / 4) + 1 ∧
      execOwnershipGrant op sector s = .next ((v.putMap (z.setSec { x with st := .M })).finishOp op) := by
  have hgot : ∀ v : State, v.op? op = some o → v.gotNow o = got := by
    intro v hv
    rw [State.gotNow, hid, hv, Option.map_some, hk]
  have hgot1 : (if x = y then s0 else s0.putMap (m.setSec x)).gotNow o = got := by
    split
    · exact hgot s0 ho0
    · exact hgot _ ho0
  have hlast : ((x.pas.map (· / 64)).all (fun g => (sector :: got).contains g)) = true := by
    simpa only [List.all_eq_true, List.contains_iff_mem, List.mem_cons] using hall
  have hadd := sameData_addProxy u die sector .M
  obtain ⟨z, hz⟩ := map?_of_entries hadd.entries hm'
  refine ⟨(u.addProxy die sector .M).bumpTag (sector / 4), z, hz, by rw [tag_bumpTag, hadd.tag], ?_⟩
  have hz' : ((u.addProxy die sector .M).bumpTag (sector / 4)).map? die core o.lv n = some z := hz
  have hstop : (!(x.pas.map (· / 64)).contains sector || got.contains sector) = false := by simp [hin, hnew]
  rw [hx] at hgot1 hu hstop hlast
  simp only [execOwnershipGrant, h, hk, grantWindow, hs0, hm, hy, hl, hgot1, hstop, hu, hgot u ho, Bool.false_eq_true, if_false,
    State.ownNext, hlast, if_true, hz', hid, hx]

end

end Sys2Proof.Machine.Performances

/-! ## Loads, stores, gathers and grants complete (O39) -/

namespace Sys2Proof.Machine.Completions

-- one proof after another: side by side they take more threads than the check's memory limit has stacks for
set_option Elab.async false

open Touching CopyFrames Observations Deliveries Performances Rounding

section
variable {s : State} {t : Team} {w : Who} {fmt lane : Nat} {md : BitVec 26} {isc : Word}

/-! ### Exact products and sums (R77) -/

theorem sigAt_real (n : Bool) (m : Nat) {e e0 : Int} (h : e0 ≤ e) :
    ((sigAt n m e e0 : Int) : ℝ) * (2 : ℝ) ^ e0 = (if n then -1 else 1) * (m : ℝ) * (2 : ℝ) ^ e := by
  obtain ⟨k, hk⟩ := Int.eq_ofNat_of_zero_le (sub_nonneg.2 h)
  have he : e = (k : Int) + e0 := by omega
  have hpow : (2 : ℝ) ^ e = 2 ^ k * (2 : ℝ) ^ e0 := by rw [he, zpow_add₀ two_ne_zero, zpow_natCast]
  rw [sigAt, hk, hpow]
  cases n <;> simp [mul_assoc]

theorem fmul_real {p q : FVal} {x y : ℝ} (hp : p.isReal x) (hq : q.isReal y) : (fmul p q).1.isReal (x * y) ∧ (fmul p q).2 = 0 := by
  cases p with
  | fin n m e =>
    cases q with
    | fin n' m' e' =>
      refine ⟨?_, rfl⟩
      rw [show x = _ from hp, show y = _ from hq, fmul, FVal.isReal, zpow_add₀ two_ne_zero]
      push_cast
      cases n <;> cases n' <;> simp <;> ring
    | inf n' => exact hq.elim
    | nan => exact hq.elim
  | inf n => exact hp.elim
  | nan => exact hp.elim

theorem fadd_real (rnd : Nat) {p q : FVal} {x y : ℝ} (hp : p.isReal x) (hq : q.isReal y) : (fadd rnd p q).1.isReal (x + y) := by
  cases p with
  | fin n m e =>
    cases q with
    | fin n' m' e' =>
      rw [fadd]
      generalize he0 : (if e < e' then e else e') = e0
      have hsum : x + y = ((sigAt n m e e0 + sigAt n' m' e' e0 : Int) : ℝ) * (2 : ℝ) ^ e0 := by
        rw [show x = _ from hp, show y = _ from hq, Int.cast_add, add_mul, sigAt_real n m (by split at he0 <;> omega),
          sigAt_real n' m' (by split at he0 <;> omega)]
      rw [hsum]
      generalize sigAt n m e e0 + sigAt n' m' e' e0 = z
      split
      next hz => simp [FVal.isReal, hz]
      next hz =>
        rw [FVal.isReal, Nat.cast_natAbs]
        by_cases hneg : z < 0
        · simp [hneg, abs_of_neg hneg]
        · simp [hneg, abs_of_nonneg (not_lt.1 hneg)]
    | inf n' => exact hq.elim
    | nan => exact hq.elim
  | inf n => exact hp.elim
  | nan => exact hp.elim

/-- The sum of finite values is their sum, without a flag. -/
theorem fsum_real {α : Type} (rnd : Nat) (l : List α) {g : α → FVal} {f : α → ℝ} (h : ∀ a ∈ l, (g a).isReal (f a)) :
    (fsum rnd (l.map g)).1.isReal ((l.map f).sum) ∧ (fsum rnd (l.map g)).2 = 0 := by
  have hno : ∀ v : FVal, (∀ x, ¬ v.isReal x) → (l.map g).any (· == v) = false := by
    intro v hv
    rw [List.any_eq_false]
    intro y hy he
    obtain ⟨a, ha, rfl⟩ := List.mem_map.1 hy
    exact hv _ (eq_of_beq he ▸ h a ha)
  have hfold : ∀ (l : List α) (acc : FVal × Flags) (x : ℝ), (∀ a ∈ l, (g a).isReal (f a)) → acc.1.isReal x → acc.2 = 0 →
      ((l.map g).foldl (fun acc y => ((fadd rnd acc.1 y).1, 0)) acc).1.isReal (x + (l.map f).sum) ∧
      ((l.map g).foldl (fun acc y => ((fadd rnd acc.1 y).1, (0 : Flags))) acc).2 = 0 := by
    intro l
    induction l with
    | nil =>
      intro acc x _ hx h0
      simpa using ⟨hx, h0⟩
    | cons a l ih =>
      intro acc x hl hx _
      rw [List.map_cons, List.foldl_cons, List.map_cons, List.sum_cons, ← add_assoc]
      exact ih _ _ (fun b hb => hl b (List.mem_cons_of_mem _ hb)) (fadd_real rnd hx (hl a List.mem_cons_self)) rfl
  have hp := hno (.inf false) fun _ => id
  have hn := hno (.inf true) fun _ => id
  have hnan := hno .nan fun _ => id
  cases l with
  | nil => simp [fsum, FVal.isReal]
  | cons a l =>
    rw [fsum.eq_def, hp, hn, hnan]
    exact hfold l (g a, 0) (f a) (fun b hb => h b (List.mem_cons_of_mem _ hb)) (h a List.mem_cons_self) rfl

/-! ### The lanes of FETCH and EPOOL (R290, R291) -/

theorem fdecodeFtz_false (ty n : Nat) : fdecodeFtz false ty n = fdecode ty n := by
  rw [fdecodeFtz, Bool.false_and, Bool.false_and, if_neg Bool.false_ne_true]

theorem fetchLane_zero {e : FetchEl} (h : e.zero = true) : fetchLane s t w fmt md isc lane e = (0, 0) := by
  rw [fetchLane]
  dsimp only
  rw [if_pos h]

/-- An element of one piece is converted to TYPE. -/
theorem fetchLane_piece (hi : Bool) (va pa n : Nat) (h : fmt ≠ 14) :
    fetchLane s t w fmt md isc lane { zero := false, hi := hi, parts := [(va, pa, n)] } =
      let c := convert fmt (mdType md) (convRnd s t md isc lane) (natOfBytes (s.seenBytes w pa n))
      (if mdType md < 8 then (wordOf (mdType md) c.1, c.2) else c) := by
  rw [fetchLane]
  simp only [Bool.false_eq_true, if_false, if_neg h, List.map_cons, List.map_nil, List.flatten_cons, List.flatten_nil, List.append_nil,
    isIntType, decide_eq_true_eq]
  split <;> rfl

/-- An element of a block is decoded from its code, its scale and its extra value. -/
theorem fetchLane_block (hi : Bool) (va pa va1 p1 va2 p2 : Nat) :
    fetchLane s t w 14 md isc lane { zero := false, hi := hi, parts := [(va, pa, 1), (va1, p1, 1), (va2, p2, 1)] } =
      toFloatQ (mdType md) (convRnd s t md isc lane)
        (blockValue (if hi then natOfBytes (s.seenBytes w pa 1) / 16 else natOfBytes (s.seenBytes w pa 1) % 16)
          (natOfBytes (s.seenBytes w p1 1)) (natOfBytes (s.seenBytes w p2 1))) := by
  simp [fetchLane, fetchValue]

theorem flags_zero_or (f : Flags) : 0 ||| f = f := BitVec.zero_or

/-- A lane of EPOOL is the exact weighted sum rounded once. -/
theorem epoolLane_roundsTo {terms : List (Lane × FetchEl)} {weight element : Lane × FetchEl → ℝ} (hlow : 8 ≤ mdType md)
    (hhigh : mdType md ≤ 11) (hftz : mdFtz md = false) (hrnd : mdRnd md ≤ 5)
    (h : ∀ p ∈ terms, (fdecode 10 p.1.toNat).isReal (weight p) ∧ (fetchValue s w false fmt p.2).isReal (element p)) :
    RoundsTo (mdType md) (laneRnd s t md isc lane 0) ((terms.map (fun p => weight p * element p)).sum)
      (epoolLane s t w fmt md isc lane terms) := by
  have hprod : ∀ p ∈ terms, (fmul (fdecodeFtz false 10 p.1.toNat) (fetchValue s w false fmt p.2)).1.isReal (weight p * element p) ∧
      (fmul (fdecodeFtz false 10 p.1.toNat) (fetchValue s w false fmt p.2)).2 = 0 := by
    intro p hp
    rw [fdecodeFtz_false]
    exact fmul_real (h p hp).1 (h p hp).2
  obtain ⟨hsum, hflag⟩ := fsum_real (mdRnd md) terms fun p hp => (hprod p hp).1
  have hflags : flagsOr (terms.map (fun p => (fmul (fdecodeFtz false 10 p.1.toNat) (fetchValue s w false fmt p.2)).2)) = 0 := by
    refine flagsOr_zero fun f hf => ?_
    obtain ⟨p, hp, rfl⟩ := List.mem_map.1 hf
    exact (hprod p hp).2
  have hround := roundVal_roundsTo (ty := mdType md) (r := laneRnd s t md isc lane 0) ⟨hlow, by omega⟩ hrnd hftz hsum
  have hlane : epoolLane s t w fmt md isc lane terms = roundVal (mdType md) (laneRnd s t md isc lane 0)
      (fsum (mdRnd md) (terms.map (fun p => (fmul (fdecodeFtz false 10 p.1.toNat) (fetchValue s w false fmt p.2)).1))).1 := by
    simp only [epoolLane, hftz, List.map_map, Function.comp_def, hflags, hflag, flags_or_zero, flags_zero_or]
  rwa [hlane]

end

/-- Settles O39: what a completed load delivers, lane by lane, unit by unit and record by record; then each event on an operation in
flight, which the lemmas above run to its end; what is left of the homes' data is what copies, grants and observations leave of it. -/
theorem loadsAndStoresComplete : Obligations.LoadsAndStoresComplete := by
  unfold Obligations.LoadsAndStoresComplete
  refine ⟨?_, ?_, ?_⟩
  · intro t kind d k e z x i place units n
    refine ⟨?_, ?_, ?_, ?_, ?_, ?_⟩
    · intro hd hi hlane hx got
      exact ⟨deliver_narrow hd hi hlane (Nat.two_pow_pos _), fun j hj => deliver_vec_other _ hj,
        fun r j hr => Frames.lane_setElems (.inl ⟨hr, fun h => Bool.noConfusion h⟩)⟩
    · intro hd hi hi' hlane hx got
      obtain ⟨hlow, hhigh⟩ := deliver_wide (kind := kind) (e := e) (n := 8) (x := x) (place := place) hd hi hi' hlane
      refine ⟨hlow, hhigh, fun r j h => ?_⟩
      rcases h with ⟨hr, hr'⟩ | hj
      · exact Frames.lane_setElems (.inl ⟨hr, fun _ => hr'⟩)
      · exact deliver_vec_other _ hj
    · intro tile es row0 nrow cols htile _
      exact ⟨loadedCells units row0 nrow cols es, by simp [loadedCells], deliver_tile units htile, fun c hc => getD_loadedCells hc⟩
    · intro _ m hm hunits
      exact joinLoads_access i hm hunits
    · intro c hc
      exact ⟨_, deliver_sca d hc, rfl⟩
    · intro hunits l hl
      exact deliver_mask k hunits hl
  · intro s op lanes
    refine ⟨fun h b x => completion_of_finished h lanes b x, ?_⟩
    intro o t h hid ht w held
    obtain rfl := hid
    refine ⟨?_, ?_, ?_, ?_, ?_, ?_, ?_, ?_, ?_, ?_⟩
    · intro dst ls na before hk hls w seen
      have hp : ∀ l ∈ ls, PlainLoad s o w l := by
        intro l hl
        obtain ⟨hnew, r, off, hplace, hw, hfree, hlater⟩ := hls l hl
        exact plainLoad_of hnew hplace hw hfree hlater
      have hdone := execLoadComplete_plain h ht hk hp
      rw [List.map_congr_left fun l hl => madeBy_of_plain (hp l hl)] at hdone
      exact hdone
    · intro dst l na va pa u hk hnew hplace hfree w k hl hr
      have hdata := sameData_readDone u w o na ((List.range l.n).map (fun i => Loc.g (pa + i))) (pa / 64)
      refine ⟨_, execLoadComplete_global h hk hnew hplace rfl hfree hl hr,
        fun t' ht' => team?_teamChanged ((hdata.team? _).trans ht') (deliver_ref ..), fun hna => ?_, fun hna => ?_,
        SameHomes.trans hdata.homes (SameHomes.trans (sameHomes_teamChanged ..) (sameData_finishOp ..).homes)⟩
      · refine (teamChanged_copies ..).trans ?_
        rw [readDone, if_pos hna]
        rfl
      · refine ne_of_eq_of_ne (l1State_congr (teamChanged_copies ..) ..) ?_
        rw [readDone, if_neg (by rw [hna]; exact Bool.false_ne_true)]
        exact l1State_shareCopy _ _ _ _ _ _
    · intro d vs hk
      exact execLoadComplete_value h rfl ht hk
    · intro d fmt md isc k u t' hl ht' get done
      refine ⟨fun ls hk ⟨hfree, hr⟩ => ?_, fun ls hk ⟨hfree, hr⟩ => ?_⟩
      · exact ⟨_, execLoadComplete_fetch h ht hk rfl (fetchReady_ok hl hfree hr), resultsDone_spec _ _ _ ht'⟩
      · exact ⟨_, execLoadComplete_epool h ht hk rfl (fetchReady_ok hl hfree hr), resultsDone_spec _ _ _ ht'⟩
    · intro l na got r off hk hs hplace hw hfree hlast
      have hlocs : s.locs l.place l.bytes.length = (List.range l.bytes.length).map (fun i => .s r (off + i)) := hplace ▸ locs_of_plain hw
      have hwait : s.storeWaits o l = false := storeWaits_false (hlocs ▸ hfree) (hs ▸ hlocs ▸ hlast)
      exact ⟨_, execStorePerformed_plain h hk hs hplace hw hwait, rfl, rfl, rfl,
        fun t' ht' => BarrierObjects.team?_setStash_self off l.bytes ht',
        fun r' hr' => BarrierObjects.team?_setStash_ne off l.bytes hr', fun o' ho' hid' => done_of_mem_finishOp ho' hid'⟩
    · intro l na va pa u k hk hs hplace hfree hlast hl owned hmay hu
      have hlocs : s.locs l.place l.bytes.length = (List.range l.bytes.length).map (fun i => .g (pa + i)) := by rw [hplace]; rfl
      have hwait : s.storeWaits o l = false := storeWaits_false (hlocs ▸ hfree) (hs ▸ hlocs ▸ hlast)
      obtain ⟨bumped, hdone⟩ := execStorePerformed_global h hk hs hplace hwait hl rfl hmay hu
      obtain ⟨hhomes, hexact, htag⟩ := globalStored_spec u o owned pa l.bytes
      refine ⟨_, hdone, fun he => ?_, hhomes, hexact, htag, fun o' ho' hid' => done_of_mem_finishOp ho' hid'⟩
      exact (congrArg SectorRec.tbytes (hhomes.2 (pa / 64)) :).trans (tbytes_putHome he)
    · intro die core n ix pas m m' k u hk hm hix hl by_ hu hm' alone
      obtain ⟨v, y, hdata, hy, hdone⟩ := execWindowFill_fills h hk hm hix hl hu hm'
      exact ⟨_, _, _, hdone, map?_putMap _ hy, sec?_setSec .., rfl, rfl, rfl, rfl, hdata.homes⟩
    · intro l k u hk hl hfree w' hlast hr
      exact execStashCopyComplete_copies h hk hl hfree hlast rfl hr
    · intro l got va pa k u hk hl hnew hplace hwait hnot hu proxy nearer
      have hproxy : (decide (dieOf (64 * (pa / 64)) ≠ o.own.ref.die) && (proxy == .M || proxy == .E)) = decide nearer := by
        rw [Bool.eq_iff_iff]
        simp [nearer]
      obtain ⟨hstate, hhomes, htag⟩ := grantedTo_spec u o (pa / 64) (decide nearer)
      refine ⟨_, execOwnershipGrant_store h hk hl hnew hplace hwait hnot hproxy hu, hstate, hhomes, fun hnear => ?_, fun hfar => ?_⟩
      · rw [htag, if_pos (decide_eq_true hnear)]
        exact BitVec.add_zero _
      · rw [htag, if_neg (by rw [decide_eq_false hfar]; exact Bool.false_ne_true)]
    · intro die core n ix got sector m y x k s0 u m' hk hs0 hm hy hx hl hin hnew hall hu hm' ho0 ho
      obtain ⟨v, z, hz, htag, hdone⟩ := execOwnershipGrant_own h rfl hk hs0.symm hm hy hx hl hin hnew hall hu hm' ho0 ho
      have hix : x.ix = ix := by
        rw [hx]
        simpa using List.find?_some hy
      refine ⟨_, _, _, hdone, map?_putMap _ hz, ?_, rfl, htag⟩
      rw [← hix]
      exact sec?_setSec ..
  · intro s t w fmt lane md isc e ty r read
    refine ⟨fetchLane_zero, ?_, ?_, ?_⟩
    · intro va pa n he hfmt
      rw [he]
      exact fetchLane_piece e.hi va pa n hfmt
    · intro va pa va1 p1 va2 p2 he
      rw [he]
      exact fetchLane_block e.hi va pa va1 p1 va2 p2
    · intro terms weight element hlow hhigh hftz hrnd h
      exact epoolLane_roundsTo hlow hhigh hftz hrnd h

end Sys2Proof.Machine.Completions

/-! ## Vector integer arithmetic (O17) -/

namespace Sys2Proof.Machine.IntegerArithmetic

-- one proof after another: side by side they take more threads than the check's memory limit has stacks for
set_option Elab.async false

section
variable {s : State} {v : View} {d : Fin 64}

/-- A result outside the type's range is clamped with SX under SAT, and wraps else (R57). -/
theorem intResult_eq (ty : Nat) (sat : Bool) (z : Int) :
    intResult ty sat z =
      let p := if sat then (if z < intMin ty then (intMin ty, fSX) else if intMax ty < z then (intMax ty, fSX) else (z, 0))
        else (z, (0 : Flags))
      (wrapBits (typeBits ty) p.1, p.2) := by
  cases sat with
  | false => rfl
  | true =>
    simp only [intResult, clampInt, if_true]
    split
    next hlow => simp [flagIf, hlow.ne']
    · split
      next hhigh => simp [flagIf, hhigh.ne]
      · simp [flagIf]

/-- An arithmetic instruction whose operands are ready stores the exact result of each lane (R57, R213). -/
theorem satOp_ready {srcs : List (Fin 64)} {extra : List RegName} {f : View → Nat → Nat → Int} {g : Nat → Int} (hty : v.ty ≤ 7)
    (h : VectorReady s v ((d :: srcs).map (fun r => (v.wide, r.val))) extra) (hfg : ∀ l, f v v.ty l = g l) :
    satOp s d (srcs.map Fin.val) extra f = .next (laneResult s v v.wide d (fun l =>
      let z := if mdSat v.ctx.md then
          (if g l < intMin v.ty then (intMin v.ty, fSX) else if intMax v.ty < g l then (intMax v.ty, fSX) else (g l, 0))
        else (g l, (0 : Flags))
      some (wordOf v.ty (wrapBits (typeBits v.ty) z.1), z.2))) := by
  have hregs : ((d :: srcs).map (fun r => (v.wide, r.val))) = (d.val :: srcs.map Fin.val).map (fun r => (v.wide, r)) := by
    rw [← List.map_cons, List.map_map]
    rfl
  rw [hregs] at h
  unfold satOp intOp
  refine Readiness.instr_vreq h rfl (decide_eq_true hty) ?_
  simp only [← hfg, Option.map_some, intResult_eq]
  rfl

end

/-- Settles O17: each instruction stores its exact result by `satOp_ready`. -/
theorem integerArithmeticWrapsOrClamps : Obligations.IntegerArithmeticWrapsOrClamps := by
  unfold Obligations.IntegerArithmeticWrapsOrClamps
  intro s v d a b c i w ty hty x y store
  simp only [List.forall_mem_cons, List.not_mem_nil, IsEmpty.forall_iff, implies_true, and_true, exec_vadd, exec_vsub,
    exec_vmul, exec_vabs, exec_vneg, exec_vadds, exec_vmuls, exec_vaddi, exec_vmad, exec_vmsb, execVadd, execVsub, execVmul, execVabs, execVneg, execVadds, execVmuls, execVaddi, execVmad, execVmsb]
  refine ⟨fun h => ?_, fun h => ?_, fun h => ?_, fun h => ?_, fun h => ?_, fun h => ?_, fun h => ?_, fun h => ?_, fun h => ?_, fun h => ?_⟩
  case refine_1 => exact satOp_ready (srcs := [a, b]) hty h fun _ => rfl
  case refine_2 => exact satOp_ready (srcs := [a, b]) hty h fun _ => rfl
  case refine_3 => exact satOp_ready (srcs := [a, b]) hty h fun _ => rfl
  case refine_4 =>
    refine satOp_ready (srcs := [a]) hty h fun l => ?_
    split
    next hneg => exact abs_of_neg hneg
    next hpos => exact abs_of_nonneg (not_lt.1 hpos)
  case refine_5 => exact satOp_ready (srcs := [a]) hty h fun _ => zero_sub _
  case refine_6 => exact satOp_ready (srcs := [a]) hty h fun _ => rfl
  case refine_7 => exact satOp_ready (srcs := [a]) hty h fun _ => rfl
  case refine_8 => exact satOp_ready (srcs := [a]) hty h fun _ => rfl
  case refine_9 => exact satOp_ready (srcs := [a, b, c]) hty h fun _ => rfl
  case refine_10 => exact satOp_ready (srcs := [a, b, c]) hty h fun _ => rfl

end Sys2Proof.Machine.IntegerArithmetic

/-! ## Rounding a number of the type (O20) -/

namespace Sys2Proof.Machine.Representables

-- one proof after another: side by side they take more threads than the check's memory limit has stacks for
set_option Elab.async false

open Rounding

section
variable {ty : Nat} {r : Rnd} {neg : Bool} {m : Nat} {e : Int}

/-- A magnitude on the format's grid has its own step. -/
theorem gridStep_of_onGrid (hg : OnGrid ty e m) (hm : m < 2 ^ (fracBits ty + 1)) (h0 : m ≠ 0) : gridStep ty m e = e := by
  obtain ⟨hlow, hhigh, hone⟩ := bitLen_bounds h0
  have hle : bitLen m - 1 < fracBits ty + 1 := (Nat.pow_lt_pow_iff_right (by decide : 1 < 2)).1 (hlow.trans_lt hm)
  have hlast := hg.last
  unfold gridStep
  rcases hg.normal with he | hnormal
  · split <;> omega
  · have hlt : fracBits ty < bitLen m := (Nat.pow_lt_pow_iff_right (by decide : 1 < 2)).1 (hnormal.trans_lt hhigh)
    split <;> omega

theorem roundAt_self (sticky : Bool) (mode u : Nat) : roundAt neg m e sticky e mode u = (m, sticky) := by
  simp [roundAt]

/-- A magnitude on the format's grid is encoded as it is, without a flag (R65, R70). -/
theorem roundFin_of_onGrid (hftz : r.ftz = false) (hg : OnGrid ty e m) (hm : m < 2 ^ (fracBits ty + 1)) (h0 : m ≠ 0) :
    roundFin ty r neg m e false = (signBit ty neg + packBits ty e m, 0) := by
  have hstep := gridStep_of_onGrid hg hm h0
  have hin : (decide (maxExp ty - (fracBits ty : Int) < e) || (e == maxExp ty - (fracBits ty : Int) && decide (maxSig ty < m))) = false := by
    simp only [Bool.or_eq_false_iff, Bool.and_eq_false_imp, decide_eq_false_iff_not, not_lt, beq_iff_eq]
    exact ⟨hg.range, hg.top⟩
  unfold roundFin
  simp only [← gridStep.eq_1, hstep, roundAt_self, hin, hftz, Bool.and_false, Bool.false_and, Bool.false_eq_true, if_false]
  rfl

/-- The fields of an encoding make it up. -/
theorem fields_sum (h : Floating ty) {n : Nat} (hn : n < 2 ^ typeBits ty) :
    n = signBit ty (n / 2 ^ (typeBits ty - 1) % 2 == 1) +
      (n / 2 ^ fracBits ty % 2 ^ expBits ty * 2 ^ fracBits ty + n % 2 ^ fracBits ty) := by
  obtain ⟨htop, hbits, -, -⟩ := format_fields h
  have hlt : n / 2 ^ (typeBits ty - 1) < 2 := by
    rw [Nat.div_lt_iff_lt_mul (Nat.two_pow_pos _), ← Nat.pow_succ', show (typeBits ty - 1).succ = typeBits ty by omega]
    exact hn
  have hsign : signBit ty (n / 2 ^ (typeBits ty - 1) % 2 == 1) = n / 2 ^ (typeBits ty - 1) * 2 ^ (typeBits ty - 1) := by
    rw [signBit]
    generalize n / 2 ^ (typeBits ty - 1) = k at hlt
    interval_cases k <;> simp
  have hexp : n / 2 ^ fracBits ty / 2 ^ expBits ty = n / 2 ^ (typeBits ty - 1) := by rw [Nat.div_div_eq_div_mul, htop, Nat.pow_add]
  have hhigh := Nat.div_add_mod' (n / 2 ^ fracBits ty) (2 ^ expBits ty)
  have hlow := Nat.div_add_mod' n (2 ^ fracBits ty)
  rw [hsign, ← hexp, htop, Nat.pow_add, Nat.mul_comm (2 ^ fracBits ty), ← Nat.mul_assoc, ← Nat.add_assoc, ← Nat.add_mul, hhigh, hlow]

/-- A finite number of a type lies on its grid, encoded by its fields. -/
theorem fdecode_onGrid (h : Floating ty) {n : Nat} (hn : n < 2 ^ typeBits ty) (hfin : fdecode ty n = .fin neg m e) :
    OnGrid ty e m ∧ m < 2 ^ (fracBits ty + 1) ∧ signBit ty neg + packBits ty e m = n := by
  have hsum := fields_sum h hn
  have htop := topField h
  have hF : n % 2 ^ fracBits ty < 2 ^ fracBits ty := Nat.mod_lt _ (Nat.two_pow_pos _)
  have hE : n / 2 ^ fracBits ty % 2 ^ expBits ty < 2 ^ expBits ty := Nat.mod_lt _ (Nat.two_pow_pos _)
  have hpow : 2 ^ (fracBits ty + 1) = 2 * 2 ^ fracBits ty := Nat.pow_succ'
  have hexp : 4 ≤ 2 ^ expBits ty := Nat.pow_le_pow_right (n := 2) (i := 2) (by decide) (two_le_expBits h)
  simp only [fdecode] at hfin
  generalize (n / 2 ^ (typeBits ty - 1) % 2 == 1) = sign at *
  generalize n % 2 ^ fracBits ty = F at *
  generalize n / 2 ^ fracBits ty % 2 ^ expBits ty = E at *
  split at hfin
  · cases hfin
  next h12 =>
  split at hfin
  · split at hfin <;> cases hfin
  next hno =>
    simp only [Bool.and_eq_true, decide_eq_true_eq, beq_iff_eq, not_and] at h12 hno
    split at hfin
    next hE0 =>
      injection hfin with hn hm he
      subst hn hm he hE0
      rw [Nat.zero_mul, Nat.zero_add] at hsum
      refine ⟨⟨le_rfl, .inl rfl, by omega, by split at htop <;> omega, fun heq => by split at htop <;> omega⟩, by omega, ?_⟩
      refine Eq.trans ?_ hsum.symm
      rw [packBits]
      split_ifs with h0
      · rw [h0]
      · rfl
    next hE0 =>
      injection hfin with hn hm he
      subst hn hm he
      have hmax : 2 ^ fracBits ty + F ≤ maxSig ty ∨ (lastPlace ty + (E : Int) - 1 ≠ maxExp ty - fracBits ty) := by
        by_cases h : ty = 12
        · subst h
          have hfrac : fracBits 12 = 3 := rfl
          have hmax : maxSig 12 = 14 := rfl
          have hlow : 2 ^ fracBits 12 = 8 := rfl
          have hhigh : 2 ^ expBits 12 = 16 := rfl
          rw [if_pos rfl] at htop
          have h12 := fun hE => h12 ⟨rfl, hE⟩
          omega
        · left
          rw [maxSig, if_neg h]
          omega
      refine ⟨⟨by omega, .inr (by omega), by omega, ?_, fun heq => hmax.resolve_right (not_not.2 heq)⟩, by omega, ?_⟩
      · split at htop
        · omega
        next h => have := hno h; omega
      · refine Eq.trans ?_ hsum.symm
        rw [packBits, if_neg (by omega), if_neg (by omega), show (lastPlace ty + (E : Int) - 1 - lastPlace ty).toNat = E - 1 by omega]
        obtain ⟨k, rfl⟩ := Nat.exists_eq_succ_of_ne_zero hE0
        simp only [Nat.succ_sub_one, Nat.succ_mul]
        omega

/-- An infinity is encoded by its sign. -/
theorem infResult_of_fdecode (h : Floating ty) {n : Nat} (hn : n < 2 ^ typeBits ty) (hinf : fdecode ty n = .inf neg) :
    infResult ty neg false = n := by
  have hsum := fields_sum h hn
  simp only [fdecode] at hinf
  split at hinf
  · cases hinf
  split at hinf
  next htop =>
    split at hinf
    next hF =>
      injection hinf with hneg
      simp only [Bool.and_eq_true, decide_eq_true_eq, beq_iff_eq] at htop
      rw [infResult, if_neg Bool.false_ne_true, if_neg htop.1, infBits]
      rw [hneg, htop.2, hF, Nat.add_zero] at hsum
      exact hsum.symm
    next => cases hinf
  · split at hinf <;> cases hinf

end

/-- Settles O20: a finite number lies on its type's grid and is encoded as it is (`roundFin_of_onGrid`); an infinity by its fields. -/
theorem roundingKeepsRepresentableValues : Obligations.RoundingKeepsRepresentableValues := by
  unfold Obligations.RoundingKeepsRepresentableValues
  intro ty r n hlow hhigh hmode hftz hsat hn hnan
  have hty : Floating ty := ⟨hlow, hhigh⟩
  cases hdec : fdecode ty n with
  | nan => exact absurd hdec hnan
  | inf neg =>
    rw [roundVal, hsat]
    exact Prod.ext (infResult_of_fdecode hty hn hdec) rfl
  | fin neg m e =>
    obtain ⟨hgrid, hm, hbits⟩ := fdecode_onGrid hty hn hdec
    rw [roundVal]
    split
    next h0 => rw [← hbits, h0]; rfl
    next h0 => rw [roundFin_of_onGrid hftz hgrid hm h0, hbits]

end Sys2Proof.Machine.Representables

/-! ## Floating arithmetic (O21) -/

namespace Sys2Proof.Machine.FloatArithmetic

-- one proof after another: side by side they take more threads than the check's memory limit has stacks for
set_option Elab.async false

open Rounding Completions SpecialFunctions

/-! ### Sums and products (R60, R77) -/

section
variable {p q : FVal} {x y : ℝ} {n : Bool} {m : Nat} {e : Int} {rnd : Nat}

/-- A value with a real is finite. -/
theorem exists_fin (h : p.isReal x) : ∃ n m e, p = .fin n m e := by
  cases p with
  | fin n m e => exact ⟨n, m, e, rfl⟩
  | inf n => exact h.elim
  | nan => exact h.elim

theorem isReal_eq_zero (h : (FVal.fin n m e).isReal x) : m = 0 ↔ x = 0 := by
  have hpow : (2 : ℝ) ^ e ≠ 0 := by positivity
  rw [show x = _ from h]
  cases n <;> simp [hpow]

/-- The sign of a number that is not zero is its sign bit. -/
theorem isReal_sign (h : (FVal.fin n m e).isReal x) : (0 < x → m ≠ 0 ∧ n = false) ∧ (x < 0 → m ≠ 0 ∧ n = true) := by
  have hm : x ≠ 0 → m ≠ 0 := mt (isReal_eq_zero h).1
  refine ⟨fun hx => ⟨hm hx.ne', ?_⟩, fun hx => ⟨hm hx.ne, ?_⟩⟩
  · rw [(magnitude_of_isReal h (hm hx.ne')).2.1]
    exact decide_eq_false hx.not_gt
  · rw [(magnitude_of_isReal h (hm hx.ne)).2.1]
    exact decide_eq_true hx

theorem fadd_flags (hp : p.isReal x) (hq : q.isReal y) : (fadd rnd p q).2 = 0 := by
  obtain ⟨n, m, e, rfl⟩ := exists_fin hp
  obtain ⟨n', m', e', rfl⟩ := exists_fin hq
  simp only [fadd]
  split_ifs <;> rfl

/-- An infinity absorbs a number. -/
theorem fadd_inf (n : Bool) (hp : p.isReal x) : fadd rnd (.inf n) p = (.inf n, 0) ∧ fadd rnd p (.inf n) = (.inf n, 0) := by
  obtain ⟨n', m, e, rfl⟩ := exists_fin hp
  exact ⟨rfl, rfl⟩

theorem fadd_infs (n : Bool) : fadd rnd (.inf n) (.inf n) = (.inf n, 0) ∧ fadd rnd (.inf n) (.inf (!n)) = (.nan, fNV) := by
  cases n <;> exact ⟨rfl, rfl⟩

theorem fmul_infs (n : Bool) : fmul (.inf n) (.inf n) = (.inf false, 0) ∧ fmul (.inf n) (.inf (!n)) = (.inf true, 0) := by
  cases n <;> exact ⟨rfl, rfl⟩

/-- A product with an infinity: none for a zero, else infinite with the sign of the product. -/
theorem fmul_inf (n : Bool) (hp : p.isReal x) :
    (x = 0 → fmul (.inf n) p = (.nan, fNV) ∧ fmul p (.inf n) = (.nan, fNV)) ∧
    (0 < x → fmul (.inf n) p = (.inf n, 0) ∧ fmul p (.inf n) = (.inf n, 0)) ∧
    (x < 0 → fmul (.inf n) p = (.inf (!n), 0) ∧ fmul p (.inf n) = (.inf (!n), 0)) := by
  obtain ⟨n', m, e, rfl⟩ := exists_fin hp
  obtain ⟨hpos, hneg⟩ := isReal_sign hp
  refine ⟨fun hx => ?_, fun hx => ?_, fun hx => ?_⟩
  · have hm := (isReal_eq_zero hp).2 hx
    exact ⟨if_pos hm, if_pos hm⟩
  · obtain ⟨hm, rfl⟩ := hpos hx
    simp [fmul, hm]
  · obtain ⟨hm, rfl⟩ := hneg hx
    simp [fmul, hm]

/-! ### Minima and maxima (R60) -/

theorem fcompare_eq_none : fcompare p q = none ↔ p = .nan ∨ q = .nan := by
  cases p <;> cases q <;> simp [fcompare]

/-- The smaller of two numbers, −0 below +0. -/
def smaller (p q : FVal) : FVal := if fcompare p q = some .gt ∨ (fcompare p q = some .eq ∧ q.isNegZero = true) then q else p

/-- The larger of two numbers, −0 below +0. -/
def larger (p q : FVal) : FVal := if fcompare p q = some .lt ∨ (fcompare p q = some .eq ∧ p.isNegZero = true) then q else p

/-- What `f` makes of two numbers; of a number and a NaN, the number. -/
def preferNumber (f : FVal → FVal → FVal) (p q : FVal) : FVal :=
  match p, q with
  | .nan, q => q
  | p, .nan => p
  | p, q => f p q

theorem preferNumber_of_ne {f : FVal → FVal → FVal} (hp : p ≠ .nan) (hq : q ≠ .nan) : preferNumber f p q = f p q := by
  cases p with
  | nan => exact absurd rfl hp
  | inf n => cases q <;> simp_all [preferNumber]
  | fin n m e => cases q <;> simp_all [preferNumber]

theorem fmin_eq (p q : FVal) : fmin p q = preferNumber smaller p q := by
  by_cases hp : p = .nan
  · subst hp; rfl
  by_cases hq : q = .nan
  · subst hq; cases p <;> rfl
  rw [preferNumber_of_ne hp hq, fmin, smaller]
  split
  next hc => exact absurd hc (by simp [fcompare_eq_none, hp, hq])
  next hc => simp [hc]
  next hc => simp [hc]
  next hc => simp [hc]

theorem fmax_eq (p q : FVal) : fmax p q = preferNumber larger p q := by
  by_cases hp : p = .nan
  · subst hp; rfl
  by_cases hq : q = .nan
  · subst hq; cases p <;> rfl
  rw [preferNumber_of_ne hp hq, fmax, larger]
  split
  next hc => exact absurd hc (by simp [fcompare_eq_none, hp, hq])
  next hc => simp [hc]
  next hc => simp [hc]
  next hc => simp [hc]

end

/-! ### The instructions (R212, R218, R222) -/

section
variable {s : State} {v : View} {d : Fin 64} {lay : Layout} {allowed : List Layout} {rounds : Bool} {srcs : List FSrc}

/-- A packed lane holds two elements, any other one. -/
theorem laneOf_eq (lay : Layout) (f : Nat → Nat × Flags) :
    laneOf lay f = if lay = .packed then ((f 0).1 + (f 1).1 * 2 ^ 16, (f 0).2 ||| (f 1).2) else f 0 := by
  cases lay <;> rfl

/-- A floating instruction whose operands are ready and whose layout is accepted gives each element of its lanes (R212). -/
theorem floatOp_ready {f : Nat → List FVal → FVal × Flags} {g : Nat → Nat → Nat × Flags} (hlay : floatLayout v.ctx.md allowed = some lay)
    (hrnd : rounds = true → rndOk v.ctx.md = true)
    (h : VectorReady s v ((v.wide, d.val) :: srcRegs v.ctx.md (some lay) srcs) (srcScalars srcs))
    (hfg : ∀ l e, g l e =
      let x := f (mdRnd v.ctx.md) (srcs.map (fun o => o.val v lay l e))
      let y := roundVal v.ty (if rounds then laneRnd s v.team v.ctx.md v.ctx.isc l e else { mode := 0 }) x.1
      (y.1, y.2 ||| x.2)) :
    floatOp s allowed rounds d srcs f = .next (laneResult s v v.wide d (fun l => some (
      if lay = .packed then ((g l 0).1 + (g l 1).1 * 2 ^ 16, (g l 0).2 ||| (g l 1).2) else g l 0))) := by
  have hmode : ((floatLayout v.ctx.md allowed).isSome && (!rounds || rndOk v.ctx.md)) = true := by
    rw [hlay]
    cases rounds with
    | false => rfl
    | true => simp [hrnd]
  rw [← hlay] at h
  refine Readiness.instr_vreq h rfl hmode ?_
  have hlane : ∀ l, laneOf lay (g l) = (if lay = .packed then ((g l 0).1 + (g l 1).1 * 2 ^ 16, (g l 0).2 ||| (g l 1).2) else g l 0) :=
    fun l => laneOf_eq lay (g l)
  simp only [← hlane, hlay, Option.getD_some]
  rw [show g = _ from funext fun l => funext fun e => hfg l e]
  rfl

/-- A layout that is not widened reads its sources with the width of TYPE. -/
theorem pair_eq_wide (hlay : floatLayout v.ctx.md [.plain, .packed] = some lay) (r : Nat) : (FSrc.vec r).pair v.ctx.md (some lay) = v.wide := by
  cases lay with
  | plain => rfl
  | packed => rfl
  | widen =>
    unfold floatLayout at hlay
    split at hlay
    · split at hlay
      · split at hlay
        next h => cases hlay; cases h
        · cases hlay
      · cases hlay
    · cases hlay

/-- A minimum, maximum, magnitude or negation gives a value without a flag of its own (R218). -/
theorem exactOp_ready {f : Nat → List FVal → FVal × Flags} {g : Nat → Nat → FVal} {a b : Fin 64}
    (hlay : floatLayout v.ctx.md [.plain, .packed] = some lay)
    (h : VectorReady s v [(v.wide, d.val), (v.wide, a.val), (v.wide, b.val)] []) (hsrcs : srcs = [.vec a, .vec b] ∨ srcs = [.vec a])
    (hfg : ∀ l e, f (mdRnd v.ctx.md) (srcs.map (fun o => o.val v lay l e)) = (g l e, 0)) :
    floatOp s [.plain, .packed] false d srcs f = .next (laneResult s v v.wide d (fun l => some (
      if lay = .packed then ((roundVal v.ty { mode := 0 } (g l 0)).1 + (roundVal v.ty { mode := 0 } (g l 1)).1 * 2 ^ 16,
        (roundVal v.ty { mode := 0 } (g l 0)).2 ||| (roundVal v.ty { mode := 0 } (g l 1)).2)
      else roundVal v.ty { mode := 0 } (g l 0)))) := by
  have hready : VectorReady s v ((v.wide, d.val) :: srcRegs v.ctx.md (some lay) srcs) (srcScalars srcs) := by
    rcases hsrcs with rfl | rfl
    · simpa [srcRegs, srcScalars, pair_eq_wide hlay] using h
    · simp only [srcRegs, srcScalars, List.filterMap_cons, List.filterMap_nil, pair_eq_wide hlay]
      refine ⟨⟨Control.ready_mono h.1.1 fun n hn => ?_, h.1.2⟩, fun p hp => h.2 p ?_⟩
      · simp only [List.map_cons, List.map_nil, List.flatten_cons, List.flatten_nil, List.mem_append, List.append_nil] at hn ⊢
        tauto
      · simp only [List.mem_cons] at hp ⊢
        tauto
  refine floatOp_ready (rounds := false) (g := fun l e => roundVal v.ty { mode := 0 } (g l e)) hlay (by simp) hready fun l e => ?_
  simp only [hfg, flags_or_zero, Bool.false_eq_true, if_false]

end

/-- Settles O21: the instructions by `floatOp_ready`, sums and products by their values, and one rounding by `roundVal_roundsTo`. -/
theorem floatArithmetic : Obligations.FloatArithmetic := by
  unfold Obligations.FloatArithmetic
  refine ⟨?_, ?_, ?_, ?_⟩
  · intro s v d a b c lay md hlay hrnd rnd x once fused two three
    simp only [List.forall_mem_cons, List.not_mem_nil, IsEmpty.forall_iff, implies_true, and_true, exec_vfadd, exec_vfsub, exec_vfmul,
      exec_vfadds, exec_vfmuls, exec_vfma, exec_vfms, exec_vfnma, exec_vfnms, execVfadd, execVfsub, execVfmul, execVfadds, execVfmuls,
      execVfma, execVfms, execVfnma, execVfnms]
    refine ⟨fun h => ?_, fun h => ?_, fun h => ?_, fun h => ?_, fun h => ?_, fun h => ?_, fun h => ?_, fun h => ?_, fun h => ?_⟩ <;>
      exact floatOp_ready hlay (fun _ => hrnd) h fun _ _ => rfl
  · intro s v d a b lay md h hlay x pick low high out
    simp only [List.forall_mem_cons, List.not_mem_nil, IsEmpty.forall_iff, implies_true, and_true, exec_vfmin, exec_vfmax, exec_vfabs,
      exec_vfneg, execVfmin, execVfmax, execVfabs, execVfneg]
    refine ⟨?_, ?_, ?_, ?_⟩
    · exact exactOp_ready (g := pick low) hlay h (.inl rfl) fun l e => congrArg (·, (0 : Flags)) (fmin_eq (x a l e) (x b l e))
    · exact exactOp_ready (g := pick high) hlay h (.inl rfl) fun l e => congrArg (·, (0 : Flags)) (fmax_eq (x a l e) (x b l e))
    · exact exactOp_ready (b := b) (g := fun l e => (x a l e).abs) hlay h (.inr rfl) fun _ _ => rfl
    · exact exactOp_ready (b := b) (g := fun l e => (x a l e).negate) hlay h (.inr rfl) fun _ _ => rfl
  · intro rnd p q x y hp hq
    refine ⟨fadd_real rnd hp hq, fadd_flags hp hq, (fmul_real hp hq).1, (fmul_real hp hq).2, fun n => ?_⟩
    obtain ⟨hzero, hpos, hneg⟩ := fmul_inf n hq
    obtain ⟨hzero', hpos', hneg'⟩ := fmul_inf n hp
    exact ⟨(fadd_inf n hq).1, (fadd_inf n hp).2, (fadd_infs n).1, (fadd_infs n).2, (fmul_infs n).1, (fmul_infs n).2,
      fun h => (hzero h).1, fun h => (hpos h).1, fun h => (hneg h).1, fun h => (hzero' h).2, fun h => (hpos' h).2, fun h => (hneg' h).2⟩
  · intro ty r z x hlow hhigh hmode hftz hz
    exact roundVal_roundsTo ⟨hlow, hhigh⟩ hmode hftz hz

end Sys2Proof.Machine.FloatArithmetic

/-! ## Scans, reductions and load balance (O25) -/

namespace Sys2Proof.Machine.Scans

-- one proof after another: side by side they take more threads than the check's memory limit has stacks for
set_option Elab.async false

open Rounding Completions FloatArithmetic

/-! ### Exact sums (R77) -/

section
variable {rnd : Nat} {xs : List FVal}

/-- The sum of numbers is their real sum, without a flag. -/
theorem fsum_forall₂ {ys : List ℝ} (h : List.Forall₂ FVal.isReal xs ys) : (fsum rnd xs).1.isReal ys.sum ∧ (fsum rnd xs).2 = 0 := by
  obtain ⟨hlen, hzip⟩ := List.forall₂_iff_zip.1 h
  have hfst : (xs.zip ys).map Prod.fst = xs := List.map_fst_zip hlen.le
  have hsnd : (xs.zip ys).map Prod.snd = ys := List.map_snd_zip hlen.ge
  have hsum := fsum_real rnd (xs.zip ys) (g := Prod.fst) (f := Prod.snd) fun p hp => hzip hp
  rwa [hfst, hsnd] at hsum

theorem any_beq_eq {z : FVal} : xs.any (· == z) = decide (z ∈ xs) := by
  rw [Bool.eq_iff_iff, List.any_eq_true, decide_eq_true_iff]
  simp

theorem fsum_infs (hp : .inf false ∈ xs) (hn : .inf true ∈ xs) : fsum rnd xs = (.nan, fNV) := by
  rw [fsum.eq_def]
  simp [any_beq_eq, hp, hn]

theorem fsum_nan (hinf : ¬ (.inf true ∈ xs ∧ .inf false ∈ xs)) (hnan : .nan ∈ xs) : fsum rnd xs = (.nan, 0) := by
  rw [fsum.eq_def]
  simp only [any_beq_eq, hnan, decide_true, if_true, Bool.and_eq_true, decide_eq_true_eq]
  rw [if_neg fun h => hinf ⟨h.2, h.1⟩]

theorem fsum_inf (hnan : .nan ∉ xs) (n : Bool) (hn : .inf n ∈ xs) (hno : .inf (!n) ∉ xs) : fsum rnd xs = (.inf n, 0) := by
  rw [fsum.eq_def]
  cases n with
  | false => simp [any_beq_eq, hnan, hn, show FVal.inf true ∉ xs from hno]
  | true => simp [any_beq_eq, hnan, hn, show FVal.inf false ∉ xs from hno]

theorem fadd_negZeros {x y : FVal} (hx : x.isNegZero = true) (hy : y.isNegZero = true) : (fadd rnd x y).1.isNegZero = true := by
  cases x with
  | fin n m e =>
    cases y with
    | fin n' m' e' =>
      simp only [FVal.isNegZero, Bool.and_eq_true, beq_iff_eq] at hx hy
      obtain ⟨rfl, rfl⟩ := hx
      obtain ⟨rfl, rfl⟩ := hy
      simp [fadd, sigAt, FVal.isNegZero]
    | inf n' => cases hy
    | nan => cases hy
  | inf n => cases hx
  | nan => cases hx

/-- A sum of negative zeros alone is one (R65). -/
theorem fsum_negZeros (hne : xs ≠ []) (h : ∀ x ∈ xs, x.isNegZero = true) : (fsum rnd xs).1.isNegZero = true := by
  have hno : ∀ z : FVal, z.isNegZero = false → z ∉ xs := fun z hz hmem => by simp [h z hmem] at hz
  have hfold : ∀ (l : List FVal) (acc : FVal × Flags), (∀ x ∈ l, x.isNegZero = true) → acc.1.isNegZero = true →
      (l.foldl (fun acc x => ((fadd rnd acc.1 x).1, (0 : Flags))) acc).1.isNegZero = true := by
    intro l
    induction l with
    | nil => exact fun _ _ hacc => hacc
    | cons x l ih =>
      intro acc hl hacc
      exact ih _ (fun y hy => hl y (List.mem_cons_of_mem _ hy)) (fadd_negZeros hacc (hl x List.mem_cons_self))
  obtain ⟨x, l, rfl⟩ := List.exists_cons_of_ne_nil hne
  rw [fsum.eq_def]
  simp only [any_beq_eq, hno (.inf false) rfl, hno (.inf true) rfl, hno .nan rfl, decide_false, Bool.and_self, Bool.false_eq_true, if_false]
  exact hfold l (x, 0) (fun y hy => h y (List.mem_cons_of_mem _ hy)) (h x List.mem_cons_self)

end

/-! ### The combination of lanes (R226) -/

section
variable {s : State} {v : View} {d a : Fin 64} {o : Fin 6} {la : Fin 16} {js : List Nat} {l : Nat}

theorem scanIdentInt_eq (ty : Nat) (o : Fin 6) : scanIdentInt ty o =
    if o = 1 then intMax ty else if o = 2 then intMin ty else if o = 3 then 2 ^ typeBits ty - 1 else 0 := by
  fin_cases o <;> simp [scanIdentInt]

theorem scanStepInt_eq (ty : Nat) (o : Fin 6) (x y : Int) : scanStepInt ty o x y =
    if o = 0 then x + y else if o = 1 then min x y else if o = 2 then max x y
    else
      let p := wrapBits (typeBits ty) x
      let q := wrapBits (typeBits ty) y
      ((if o = 3 then p &&& q else if o = 4 then p ||| q else p ^^^ q : Nat) : Int) := by
  fin_cases o <;> rfl

theorem scanValue_int (h : isIntType v.ty = true) : scanValue s v o a js l = intResult v.ty (mdSat v.ctx.md && o.val == 0)
    (js.foldl (fun x j => scanStepInt v.ty o x (v.intAt v.ty a j)) (scanIdentInt v.ty o)) :=
  if_pos h

/-- The values that a floating scan combines. -/
def scanTerms (v : View) (a : Nat) (js : List Nat) : List FVal :=
  js.map (fun j => fdecodeFtz (mdFtz v.ctx.md) v.ty (v.team.elem v.wide a j))

theorem scanValue_sum (h : isIntType v.ty = false) : scanValue s v 0 a js l =
    let sum := fsum (mdRnd v.ctx.md) (scanTerms v a js)
    let y := roundVal v.ty (laneRnd s v.team v.ctx.md v.ctx.isc l 0) sum.1
    (y.1, y.2 ||| sum.2) :=
  if_neg (ne_true_of_eq_false h)

/-- A floating minimum or maximum of lanes, and of nothing (R226). -/
theorem scanValue_extreme (h : isIntType v.ty = false) (ho : o = 1 ∨ o = 2) :
    (scanTerms v a js = [] → scanValue s v o a js l = (if v.ty = 12 then canonNan v.ty else infBits v.ty (decide (o ≠ 1)), 0)) ∧
    ∀ z zs, scanTerms v a js = z :: zs → scanValue s v o a js l =
      roundVal v.ty { mode := 0 } (zs.foldl (preferNumber (if o = 1 then smaller else larger)) z) := by
  have hint : ¬ isIntType (mdType v.ctx.md) = true := ne_true_of_eq_false h
  have hmin : fmin = preferNumber smaller := funext fun p => funext fun q => fmin_eq p q
  have hmax : fmax = preferNumber larger := funext fun p => funext fun q => fmax_eq p q
  rcases ho with rfl | rfl
  · refine ⟨fun hxs => ?_, fun z zs hxs => ?_⟩ <;> unfold scanTerms View.ty View.wide at hxs <;> simp only [scanValue, if_neg hint, hxs]
    · rfl
    · rw [hmin]; rfl
  · refine ⟨fun hxs => ?_, fun z zs hxs => ?_⟩ <;> unfold scanTerms View.ty View.wide at hxs <;> simp only [scanValue, if_neg hint, hxs]
    · rfl
    · rw [hmax]; rfl

/-- The operations that a floating scan accepts (R226). -/
theorem scanModeOk_float (h : scanModeOk v.ctx.md o = true) (hint : isIntType v.ty = false) : o = 0 ∨ o = 1 ∨ o = 2 := by
  have hint' : isIntType (mdType v.ctx.md) = false := hint
  simp only [scanModeOk, hint', Bool.false_or, Bool.and_eq_true, decide_eq_true_eq] at h
  have hle := h.2.1
  fin_cases o <;> simp_all

/-- The combination of lanes by type and operation (R226). -/
theorem scanValue_eq (h : scanModeOk v.ctx.md o = true) : scanValue s v o a js l =
    if isIntType v.ty then
      intResult v.ty (mdSat v.ctx.md && o == 0) (js.foldl (fun x j => scanStepInt v.ty o x (v.intAt v.ty a j)) (scanIdentInt v.ty o))
    else if o = 0 then
      let sum := fsum (mdRnd v.ctx.md) (scanTerms v a js)
      let y := roundVal v.ty (laneRnd s v.team v.ctx.md v.ctx.isc l 0) sum.1
      (y.1, y.2 ||| sum.2)
    else
      match scanTerms v a js with
      | [] => ((if v.ty = 12 then canonNan v.ty else infBits v.ty (decide (o ≠ 1))), 0)
      | z :: zs => roundVal v.ty { mode := 0 } (zs.foldl (preferNumber (if o = 1 then smaller else larger)) z) := by
  cases hint : isIntType v.ty with
  | true =>
    rw [scanValue_int hint, if_pos rfl]
    fin_cases o <;> rfl
  | false =>
    rw [if_neg Bool.false_ne_true]
    rcases scanModeOk_float h hint with rfl | ho
    · exact scanValue_sum hint
    · obtain ⟨hnone, hsome⟩ := scanValue_extreme (s := s) (a := a) (js := js) (l := l) hint ho
      rw [if_neg (by rcases ho with rfl | rfl <;> decide)]
      split
      next hxs => exact hnone hxs
      next hxs => exact hsome _ _ hxs

/-- A scan whose operands are ready writes the combination of the lanes that it takes (R44, R226). -/
theorem scanOp_ready {sel : Nat → Nat → Bool} {g : Nat → Nat × Flags} (h : VectorReady s v [(v.wide, d.val), (v.wide, a.val)] [])
    (hmode : scanModeOk v.ctx.md o = true) (hg : ∀ l, g l = scanValue s v o a (v.lanes.filter (fun j => sel j l)) l) :
    scanOp s d a o la sel = .next (s.retire v (v.team.setElems v.wide d v.eff (fun l => some (wordOf v.ty (g l).1)))
      ((v.ctx.advance (v.ctx.pc + 4) (some { op := 0, left := la, names := vNames v.wide d })).raise
        (flagsOr (v.lanes.map (fun l => (g l).2))))) := by
  refine Readiness.instr_vreq h rfl hmode ?_
  rw [show g = _ from funext hg, ← Readiness.openWindow_vNames]
  rfl

end

/-! ### Load balance (R228) -/

/-- The items of the rows of `l` before row `r`. -/
def itemsBefore (len : Nat → Nat) (l : List Nat) (r : Nat) : Nat := ((l.filter (fun j => decide (j < r))).map len).sum

section
variable {len : Nat → Nat} {l : List Nat} {i r p : Nat}

theorem itemsBefore_head {j : Nat} (hl : (j :: l).Pairwise (· < ·)) : itemsBefore len (j :: l) j = 0 := by
  have hnone : (j :: l).filter (fun k => decide (k < j)) = [] := by
    rw [List.filter_eq_nil_iff]
    intro k hk
    have hle : j ≤ k := by
      rcases List.mem_cons.1 hk with rfl | hk
      · exact le_rfl
      · exact (List.rel_of_pairwise_cons hl hk).le
    simpa using hle
  rw [itemsBefore, hnone]
  rfl

theorem itemsBefore_cons {j : Nat} (h : j < r) : itemsBefore len (j :: l) r = len j + itemsBefore len l r := by
  simp [itemsBefore, h]

/-- The row that holds an item is found, with the items before it. -/
theorem findRow_eq_some (hl : l.Pairwise (· < ·)) (hr : r ∈ l) (hlow : p + itemsBefore len l r ≤ i) (hup : i < p + itemsBefore len l r + len r) :
    findRow i p (l.map (fun j => (j, len j))) = some (r, p + itemsBefore len l r, len r) := by
  induction l generalizing p with
  | nil => cases hr
  | cons j l ih =>
    rw [List.map_cons, findRow]
    rcases List.mem_cons.1 hr with rfl | hmem
    · rw [itemsBefore_head hl] at hup ⊢
      rw [if_pos (by omega)]
      rfl
    · have hlt : j < r := List.rel_of_pairwise_cons hl hmem
      rw [itemsBefore_cons hlt] at hlow hup ⊢
      rw [if_neg (by omega), ← Nat.add_assoc]
      exact ih hl.of_cons hmem (by omega) (by omega)

theorem findRow_eq_none (hl : l.Pairwise (· < ·)) (h : ∀ r ∈ l, p + itemsBefore len l r + len r ≤ i) :
    findRow i p (l.map (fun j => (j, len j))) = none := by
  induction l generalizing p with
  | nil => rfl
  | cons j l ih =>
    have hj := h j List.mem_cons_self
    rw [itemsBefore_head hl] at hj
    rw [List.map_cons, findRow, if_neg (by omega)]
    refine ih hl.of_cons fun r hr => ?_
    have := h r (List.mem_cons_of_mem _ hr)
    rw [itemsBefore_cons (List.rel_of_pairwise_cons hl hr)] at this
    omega

/-- The row and the offset that LBAL gives an item, among the rows of `lanes` (R228). -/
def balance (len : Nat → Nat) (lanes : List Nat) (item : Nat) : Nat × Nat × Flags :=
  match findRow item 0 (lanes.map (fun j => (j, len j))) with
  | none => (0xFFFFFFFF, 0, 0)
  | some (r, p, n) => if 0xFFFFFFFF < p + n then (0xFFFFFFFF, 0xFFFFFFFF, fSX) else (r, item - p, 0)

theorem balance_inside (hl : l.Pairwise (· < ·)) (hr : r ∈ l) (hlow : itemsBefore len l r ≤ i) (hup : i < itemsBefore len l r + len r) :
    balance len l i = if itemsBefore len l r + len r < 2 ^ 32 then (r, i - itemsBefore len l r, 0) else (0xFFFFFFFF, 0xFFFFFFFF, fSX) := by
  have hrow : findRow i 0 (l.map (fun j => (j, len j))) = some (r, itemsBefore len l r, len r) := by
    simpa using findRow_eq_some (p := 0) hl hr (by omega) (by omega)
  simp only [balance, hrow]
  by_cases hend : itemsBefore len l r + len r < 2 ^ 32
  · rw [if_neg (by omega), if_pos hend]
  · rw [if_pos (by omega), if_neg hend]

theorem balance_outside (hl : l.Pairwise (· < ·)) (h : ∀ r ∈ l, itemsBefore len l r + len r ≤ i) : balance len l i = (0xFFFFFFFF, 0, 0) := by
  rw [balance, findRow_eq_none hl fun r hr => by simpa using h r hr]

theorem lanes_pairwise (v : View) : v.lanes.Pairwise (· < ·) := List.pairwise_lt_range.filter _

/-- LBAL writes each lane's row and offset (R44, R228). -/
theorem execLbal_ready {s : State} {v : View} {d a b : Fin 64} {la : Fin 16}
    (h : VectorReady s v [(true, d.val), (false, a.val), (false, b.val)] []) :
    let f := fun l => balance (fun j => (v.team.lane a j).toNat) v.lanes (v.team.lane b l).toNat
    execLbal d a b la s = .next (s.retire v (v.team.setElems true d v.eff (fun l => some ((f l).1 + (f l).2.1 * 2 ^ 32)))
      ((v.ctx.advance (v.ctx.pc + 4) (some { op := 0, left := la, names := [.v d, .v (d + 1)] })).raise
        (flagsOr (v.lanes.map (fun l => (f l).2.2))))) :=
  Readiness.instr_vreq h rfl rfl rfl

end

/-- Settles O25: a scan's lanes by the operation's case (`scanValue_int`, `scanValue_sum`, `scanValue_extreme`), the exact sums by R77's
cases, and LBAL's rows by `findRow`. -/
theorem scansAndLoadBalance : Obligations.ScansAndLoadBalance := by
  unfold Obligations.ScansAndLoadBalance
  refine ⟨?_, ?_, ?_⟩
  · intro s v d a o la w ty h hmode step first low high pick
    simp only [List.forall_mem_cons, List.not_mem_nil, IsEmpty.forall_iff, implies_true, and_true, exec_vscan, exec_vscanx, exec_vred,
      execVscan, execVscanx, execVred]
    refine ⟨?_, ?_, ?_⟩
    all_goals
      refine scanOp_ready h hmode fun l => ?_
      rw [scanValue_eq hmode, show scanStepInt ty o = step from funext fun x => funext fun y => scanStepInt_eq ty o x y,
        show scanIdentInt ty o = first from scanIdentInt_eq ty o]
      rfl
  · intro rnd xs inf
    refine ⟨fun ys hys => ?_, fun ⟨hn, hp⟩ => fsum_infs hp hn, fsum_nan, fsum_inf, fsum_negZeros⟩
    obtain ⟨hsum, hflags⟩ := fsum_forall₂ (rnd := rnd) hys
    exact ⟨hsum, hflags, fun ty r hlow hhigh hmode hftz => roundVal_roundsTo ⟨hlow, hhigh⟩ hmode hftz hsum⟩
  · intro s v d a b la h
    exact ⟨_, execLbal_ready h, fun l => ⟨fun r hr hlow hup => balance_inside (lanes_pairwise v) hr hlow hup,
      fun hout => balance_outside (lanes_pairwise v) hout⟩⟩

end Sys2Proof.Machine.Scans

/-! ## What a conversion gives (R71) -/

namespace Sys2Proof.Machine.Conversions

-- one proof after another: side by side they take more threads than the check's memory limit has stacks for
set_option Elab.async false

open Rounding Completions

/-! ### Exact conversions -/

section
variable {ty s t : Nat} {r r' : Rnd} {x : ℝ} {o : Nat × Flags} {neg : Bool} {m n : Nat} {e : Int}

/-- An exact result is the rounded number under every mode. -/
theorem roundsTo_of_exact (h : RoundsTo ty r x o) (hx : o.2 &&& fOF = 0 → o.2 &&& fNX = 0) : RoundsTo ty r' x o := by
  intro hof
  obtain ⟨y, hy, hnx⟩ := h hof
  obtain rfl := hnx.1 (hx hof)
  exact ⟨y, correctlyRounded_self hy.value, hnx⟩

/-- A magnitude whose steps are not finer than the format's is rounded exactly. -/
theorem roundVal_exact (hftz : r.ftz = false) (hstep : gridStep ty m e ≤ e) (hof : (roundVal ty r (.fin neg m e)).2 &&& fOF = 0) :
    (roundVal ty r (.fin neg m e)).2 &&& fNX = 0 := by
  by_cases hm : m = 0
  · simp [roundVal, hm]
  · rw [roundVal, if_neg hm] at hof ⊢
    obtain ⟨-, -, tiny, heq⟩ := (roundFin_cases hftz).resolve_left (not_not.2 hof)
    rw [heq, flagNX_iff, roundAt, if_pos hstep]

/-- The step of a magnitude that has no more bits than the format and no finer last place. -/
theorem gridStep_le (hm : m < 2 ^ (fracBits ty + 1)) (he : lastPlace ty ≤ e) : gridStep ty m e ≤ e := by
  have hlen : bitLen m ≤ fracBits ty + 1 := by
    by_cases h0 : m = 0
    · simp [bitLen, h0]
    · obtain ⟨hlow, -, -⟩ := bitLen_bounds h0
      have := (Nat.pow_lt_pow_iff_right (by decide : 1 < 2)).1 (hlow.trans_lt hm)
      omega
  unfold gridStep
  split <;> omega

/-- The bits and the last place of a number of a type. -/
theorem fdecode_fin_bounds (h : fdecode t n = .fin neg m e) : m < 2 ^ (fracBits t + 1) ∧ lastPlace t ≤ e := by
  have hF : n % 2 ^ fracBits t < 2 ^ fracBits t := Nat.mod_lt _ (Nat.two_pow_pos _)
  have hpow : 2 ^ (fracBits t + 1) = 2 * 2 ^ fracBits t := Nat.pow_succ'
  unfold fdecode at h
  dsimp only at h
  split at h
  · cases h
  split at h
  · split at h <;> cases h
  split at h
  · injection h with _ hm he
    omega
  · injection h with _ hm he
    omega

/-! ### The rules (R71) -/

theorem convRule_self : convRule s s = .same := if_pos rfl

/-- Between integer types a conversion is exact, or wraps. -/
theorem convRule_ints (hs : s ≤ 7) (ht : t ≤ 7) (hne : s ≠ t) :
    (convRule s t = .exact ∧ intMin t ≤ intMin s ∧ intMax s ≤ intMax t) ∨ convRule s t = .wrap := by
  have hall : ∀ s < 8, ∀ t < 8, s ≠ t →
      (convRule s t = .exact ∧ intMin t ≤ intMin s ∧ intMax s ≤ intMax t) ∨ convRule s t = .wrap := by decide
  exact hall s (by omega) t (by omega) hne

/-- From an integer type to a floating one it is exact, or rounds. -/
theorem convRule_intFloat (hs : s ≤ 7) (h8 : 8 ≤ t) (h13 : t ≤ 13) :
    (convRule s t = .exact ∧ -((2 ^ (fracBits t + 1) : Nat) : Int) < intMin s ∧ intMax s < ((2 ^ (fracBits t + 1) : Nat) : Int) ∧
      lastPlace t ≤ 0) ∨ convRule s t = .quantise := by
  have hall : ∀ s < 8, ∀ k < 6, (convRule s (8 + k) = .exact ∧ -((2 ^ (fracBits (8 + k) + 1) : Nat) : Int) < intMin s ∧
      intMax s < ((2 ^ (fracBits (8 + k) + 1) : Nat) : Int) ∧ lastPlace (8 + k) ≤ 0) ∨ convRule s (8 + k) = .quantise := by decide
  obtain ⟨k, rfl⟩ := Nat.exists_eq_add_of_le h8
  exact hall s (by omega) k (by omega)

/-- Between floating types it is exact, or rounds. -/
theorem convRule_floats (hs8 : 8 ≤ s) (hs : s ≤ 13) (h8 : 8 ≤ t) (h13 : t ≤ 13) (hne : s ≠ t) :
    (convRule s t = .exact ∧ fracBits s ≤ fracBits t ∧ lastPlace t ≤ lastPlace s) ∨ convRule s t = .quantise := by
  have hall : ∀ j < 6, ∀ k < 6, j ≠ k → (convRule (8 + j) (8 + k) = .exact ∧ fracBits (8 + j) ≤ fracBits (8 + k) ∧
      lastPlace (8 + k) ≤ lastPlace (8 + j)) ∨ convRule (8 + j) (8 + k) = .quantise := by decide
  obtain ⟨j, rfl⟩ := Nat.exists_eq_add_of_le hs8
  obtain ⟨k, rfl⟩ := Nat.exists_eq_add_of_le h8
  exact hall j (by omega) k (by omega) (by omega)

theorem convRule_floatInt (hs8 : 8 ≤ s) (hs : s ≤ 13) (ht : t ≤ 7) : convRule s t = .clamp := by
  have hall : ∀ j < 6, ∀ t < 8, convRule (8 + j) t = .clamp := by decide
  obtain ⟨j, rfl⟩ := Nat.exists_eq_add_of_le hs8
  exact hall j (by omega) t (by omega)

/-! ### Conversions from integers -/

theorem typeBits_pos (hs : s ≤ 7) : 0 < typeBits s := by
  interval_cases s <;> decide

/-- An element of an integer type lies in its range. -/
theorem intOf_range (hs : s ≤ 7) (n : Nat) : intMin s ≤ intOf s n ∧ intOf s n ≤ intMax s := by
  have hlt : n % 2 ^ typeBits s < 2 ^ typeBits s := Nat.mod_lt _ (Nat.two_pow_pos _)
  have hpow : 2 ^ typeBits s = 2 * 2 ^ (typeBits s - 1) := by rw [← Nat.pow_succ', Nat.succ_eq_add_one, Nat.sub_add_cancel (typeBits_pos hs)]
  simp only [intOf, intMin, intMax, signedOf]
  generalize n % 2 ^ typeBits s = y at *
  generalize 2 ^ typeBits s = top at *
  generalize 2 ^ (typeBits s - 1) = half at *
  split_ifs <;> omega

theorem ofInt_isReal (i : Int) : (ofInt i).isReal i := by
  rw [ofInt, FVal.isReal, zpow_zero, mul_one, Nat.cast_natAbs, Int.cast_abs]
  by_cases hi : i < 0
  · simp [hi, abs_of_neg]
  · have hnonneg : (0 : ℝ) ≤ i := by exact_mod_cast not_lt.1 hi
    simp [hi, abs_of_nonneg hnonneg]

/-- A conversion that rounds gives the rounded number of a finite value. -/
theorem toFloatQ_roundsTo (ht : Floating t) (hmode : r.mode ≤ 5) (hftz : r.ftz = false) {z : FVal} (hz : z.isReal x) :
    RoundsTo t r x (toFloatQ t r z) := by
  cases z with
  | fin n m e => exact roundVal_roundsTo ht hmode hftz hz
  | inf n => exact hz.elim
  | nan => exact hz.elim

/-- An exact conversion gives the number itself, which is the rounded one under every mode. -/
theorem roundVal_nearest_roundsTo (ht : Floating t) (hftz : r.ftz = false) (hz : (FVal.fin neg m e).isReal x)
    (hm : m < 2 ^ (fracBits t + 1)) (he : lastPlace t ≤ e) : RoundsTo t r x (roundVal t { r with mode := 0, sat := false } (.fin neg m e)) :=
  roundsTo_of_exact (roundVal_roundsTo (r := { r with mode := 0, sat := false }) ht (Nat.zero_le 5) hftz hz)
    (roundVal_exact hftz (gridStep_le hm he))

theorem convert_ints (hs : s ≤ 7) (ht : t ≤ 7) (hne : s ≠ t) : convert s t r n = intResult t r.sat (intOf s n) := by
  unfold convert
  rcases convRule_ints hs ht hne with ⟨h, hlow, hhigh⟩ | h
  · obtain ⟨hmin, hmax⟩ := intOf_range hs n
    have hint : isIntType t = true := by simpa [isIntType] using Nat.lt_succ_of_le ht
    have hclamp : clampInt t (intOf s n) = intOf s n := by rw [clampInt, if_neg (by omega), if_neg (by omega)]
    simp only [h, hint, if_true, intResult, hclamp, bne_self_eq_false, flagIf, Bool.false_eq_true, if_false, ite_self]
  · rw [h]

theorem convert_intFloat (hs : s ≤ 7) (h8 : 8 ≤ t) (h13 : t ≤ 13) (hmode : r.mode ≤ 5) (hftz : r.ftz = false) :
    RoundsTo t r (intOf s n : ℝ) (convert s t r n) := by
  have hsrc : isIntType s = true := by simpa [isIntType] using Nat.lt_succ_of_le hs
  have hdst : isIntType t = false := by simpa [isIntType] using h8
  unfold convert
  rcases convRule_intFloat hs h8 h13 with ⟨h, hlow, hhigh, hlast⟩ | h
  · simp only [h, hsrc, hdst, if_true, Bool.false_eq_true, if_false]
    obtain ⟨hmin, hmax⟩ := intOf_range hs n
    exact roundVal_nearest_roundsTo ⟨h8, h13⟩ hftz (ofInt_isReal _) (by omega) hlast
  · simp only [h, hsrc, if_true]
    exact toFloatQ_roundsTo ⟨h8, h13⟩ hmode hftz (ofInt_isReal _)

/-! ### Conversions from floating types -/

theorem convert_floats (hs8 : 8 ≤ s) (hs : s ≤ 13) (h8 : 8 ≤ t) (h13 : t ≤ 13) (hne : s ≠ t) (hmode : r.mode ≤ 5) :
    (fdecodeFtz r.ftz s n = .nan → convert s t r n = (canonNan t, 0)) ∧
    (r.ftz = false → (fdecodeFtz r.ftz s n).isReal x → RoundsTo t r x (convert s t r n)) := by
  have hsrc : isIntType s = false := by simpa [isIntType] using hs8
  have hdst : isIntType t = false := by simpa [isIntType] using h8
  unfold convert
  rcases convRule_floats hs8 hs h8 h13 hne with ⟨h, hfrac, hlast⟩ | h
  · simp only [h, hsrc, hdst, Bool.false_eq_true, if_false]
    refine ⟨fun hnan => by rw [hnan]; rfl, fun hftz hx => ?_⟩
    have hdec : fdecodeFtz r.ftz s n = fdecode s n := by rw [hftz, fdecodeFtz_false]
    rw [hdec] at hx ⊢
    obtain ⟨neg, m, e, hz⟩ := FloatArithmetic.exists_fin hx
    obtain ⟨hm, he⟩ := fdecode_fin_bounds hz
    rw [hz] at hx ⊢
    exact roundVal_nearest_roundsTo ⟨h8, h13⟩ hftz hx (hm.trans_le (Nat.pow_le_pow_right (by decide) (by omega))) (by omega)
  · simp only [h, hsrc, Bool.false_eq_true, if_false]
    exact ⟨fun hnan => by rw [hnan]; rfl, fun hftz hx => toFloatQ_roundsTo ⟨h8, h13⟩ hmode hftz hx⟩

/-- Rounding to an integer under RSX (R67). -/
theorem roundAt_drawn (u : Nat) : ((roundAt neg m e false 0 5 u).1 : Int) =
    if (u : ℝ) < ((m : ℝ) * 2 ^ e - ⌊(m : ℝ) * 2 ^ e⌋) * 2 ^ 24 then ⌊(m : ℝ) * 2 ^ e⌋ + 1 else ⌊(m : ℝ) * 2 ^ e⌋ := by
  unfold roundAt
  split
  next he =>
    have hval : (m : ℝ) * 2 ^ e = ((m * 2 ^ (e - 0).toNat : Nat) : Int) := by
      obtain ⟨j, rfl⟩ := Int.eq_ofNat_of_zero_le he
      simp
    rw [hval, Int.floor_intCast, sub_self, zero_mul, if_neg (by simp)]
  next he =>
    generalize hj : (0 - e).toNat = j
    have hw : (0 : ℝ) < 2 ^ j := by positivity
    have hval : (m : ℝ) * 2 ^ e = m / (2 ^ j : Nat) := by
      rw [show e = -(j : Int) by omega, zpow_neg, zpow_natCast, Nat.cast_pow, Nat.cast_ofNat, div_eq_mul_inv]
    have hfloor : ⌊(m : ℝ) * 2 ^ e⌋ = ((m / 2 ^ j : Nat) : Int) := by rw [hval, ← Nat.floor_div_eq_div (K := ℝ), Int.natCast_floor_eq_floor (by positivity)]
    have hdraw : (u : ℝ) < ((m : ℝ) * 2 ^ e - ⌊(m : ℝ) * 2 ^ e⌋) * 2 ^ 24 ↔ u * 2 ^ j < m % 2 ^ j * 2 ^ 24 := by
      have hmod : (m : ℝ) = (m / 2 ^ j : Nat) * 2 ^ j + (m % 2 ^ j : Nat) := by exact_mod_cast (Nat.div_add_mod' m (2 ^ j)).symm
      have hfrac : (m : ℝ) * 2 ^ e - ⌊(m : ℝ) * 2 ^ e⌋ = (m % 2 ^ j : Nat) / 2 ^ j := by
        rw [hfloor, hval, eq_div_iff hw.ne', sub_mul, Nat.cast_pow, Nat.cast_ofNat, div_mul_cancel₀ _ hw.ne']
        rw [Int.cast_natCast]
        linarith
      rw [hfrac, div_mul_eq_mul_div, lt_div_iff₀ hw]
      exact_mod_cast Iff.rfl
    rw [hfloor] at hdraw ⊢
    rw [if_congr hdraw rfl rfl]
    by_cases hup : u * 2 ^ j < m % 2 ^ j * 2 ^ 24
    · have hne : m % 2 ^ j ≠ 0 := by
        rintro h0
        rw [h0, Nat.zero_mul] at hup
        exact absurd hup (Nat.not_lt_zero _)
      simp only [bne_iff_ne.2 hne, Bool.true_or, Bool.true_and, hup, decide_true, if_true]
      push_cast
      rfl
    · simp only [hup, decide_false, Bool.and_false, Bool.or_false, Bool.false_eq_true, if_false]

/-- The integer that a value rounds to lies next to it, on the side that the mode names (R65). -/
theorem roundToInt_spec {mode u : Nat} (hmode : mode ≤ 5) (hx : (FVal.fin neg m e).isReal x) :
    let k := (roundToInt mode u neg m e).1
    |(k : ℝ) - x| < 1 ∧ (mode = 0 ∨ mode = 4 → |(k : ℝ) - x| ≤ 1 / 2) ∧ (mode = 1 → |(k : ℝ)| ≤ |x|) ∧ (mode = 2 → x ≤ k) ∧
      (mode = 3 → (k : ℝ) ≤ x) ∧ (mode = 5 → ((u : ℝ) < (|x| - ⌊|x|⌋) * 2 ^ 24 → |k| = ⌊|x|⌋ + 1) ∧
        ((|x| - ⌊|x|⌋) * 2 ^ 24 ≤ (u : ℝ) → |k| = ⌊|x|⌋)) ∧ ((roundToInt mode u neg m e).2 = false ↔ (k : ℝ) = x) := by
  intro k
  obtain ⟨lo, hR⟩ := roundAt_rounded (neg := neg) (u := u) (q := 0) hmode (given_exact m e) (by simp)
  have hv : (0 : ℝ) ≤ m * 2 ^ e := by positivity
  have hx' : x = sgn neg * (m * 2 ^ e) := by rw [← mul_assoc]; exact hx
  have habs : |x| = m * 2 ^ e := by rw [hx', abs_sgn_mul, abs_of_nonneg hv]
  have hk : (k : ℝ) = sgn neg * (roundAt neg m e false 0 mode u).1 := by
    change ((if neg then -((roundAt neg m e false 0 mode u).1 : Int) else (roundAt neg m e false 0 mode u).1 : Int) : ℝ) = _
    cases neg <;> simp [sgn]
  have hkabs : |k| = (roundAt neg m e false 0 mode u).1 := by
    change |(if neg then -((roundAt neg m e false 0 mode u).1 : Int) else (roundAt neg m e false 0 mode u).1 : Int)| = _
    cases neg <;> simp
  have hdist : |(k : ℝ) - x| = |((roundAt neg m e false 0 mode u).1 : ℝ) - m * 2 ^ e| := by rw [hk, hx', ← mul_sub, abs_sgn_mul]
  have hix : (roundToInt mode u neg m e).2 = (roundAt neg m e false 0 mode u).2 := rfl
  have hdraw := roundAt_drawn (neg := neg) (m := m) (e := e) u
  rw [hdist, hkabs, habs, hix, hR.exact_iff, hk, hx', mul_right_inj' (sgn_ne_zero neg), abs_sgn_mul, Nat.abs_cast, zpow_zero, mul_one]
  rw [zpow_zero] at hR
  obtain ⟨hlow, hupp, -, hstep, hnear, -, -, hzero, hup, hdown⟩ := hR
  have habs5 : mode = 5 → ((roundAt neg m e false 0 mode u).1 : Int) = _ := fun h => h ▸ hdraw
  generalize (roundAt neg m e false 0 mode u).1 = sig at *
  generalize (m : ℝ) * 2 ^ e = v at *
  simp only [mul_one] at hlow hupp hstep hnear hup hdown
  have hcast : sig = lo + 1 → (sig : ℝ) = lo + 1 := fun h => by exact_mod_cast h
  have hcast' : sig = lo → (sig : ℝ) = lo := fun h => by exact_mod_cast h
  refine ⟨?_, fun hmode => ?_, fun hmode => ?_, fun hmode => ?_, fun hmode => ?_, fun hmode => ⟨fun hu => ?_, fun hu => ?_⟩, Iff.rfl⟩
  · rw [abs_lt]
    rcases hstep with h | ⟨h, hlt⟩
    · rw [hcast' h]; constructor <;> linarith
    · rw [hcast h]; constructor <;> linarith
  · rw [abs_le]
    rcases hstep with h | ⟨h, hlt⟩
    · have := (hnear hmode).1 h
      rw [hcast' h]; constructor <;> linarith
    · have := (hnear hmode).2 h
      rw [hcast h]; constructor <;> linarith
  · rwa [hcast' (hzero hmode)]
  · have hdir := hup hmode
    cases neg with
    | true =>
      rw [hcast' hdir]
      simpa [sgn] using hlow
    | false =>
      simp only [sgn, Bool.false_eq_true, if_false, one_mul]
      rcases hstep with h | ⟨h, hlt⟩
      · by_contra hc
        rw [hcast' h, not_le] at hc
        have := hdir hc
        omega
      · rw [hcast h]
        exact hupp.le
  · have hdir := hdown hmode
    cases neg with
    | true =>
      simp only [sgn, if_true, neg_mul, one_mul, neg_le_neg_iff]
      rcases hstep with h | ⟨h, hlt⟩
      · by_contra hc
        rw [hcast' h, not_le] at hc
        have := hdir hc
        omega
      · rw [hcast h]
        exact hupp.le
    | false =>
      rw [hcast' hdir]
      simpa [sgn] using hlow
  · rw [habs5 hmode, if_pos hu]
  · rw [habs5 hmode, if_neg (not_lt.2 hu)]

/-- A floating value becomes an integer by C's rule: clamped outside the range (R71). -/
theorem convert_floatInt (hs8 : 8 ≤ s) (hs : s ≤ 13) (ht : t ≤ 7) : convert s t r n = toIntC t r (fdecodeFtz r.ftz s n) := by
  rw [convert, convRule_floatInt hs8 hs ht]

/-- The clamp of R71 of a finite value, by the integer that it rounds to. -/
theorem toIntC_fin (t : Nat) (r : Rnd) (neg : Bool) (m : Nat) (e : Int) :
    let k := (roundToInt r.mode r.u neg m e).1
    (k < intMin t → toIntC t r (.fin neg m e) = (wrapBits (typeBits t) (intMin t), fNV ||| fSX)) ∧
    (intMin t ≤ k → intMax t < k → toIntC t r (.fin neg m e) = (wrapBits (typeBits t) (intMax t), fNV ||| fSX)) ∧
    (intMin t ≤ k → k ≤ intMax t →
      toIntC t r (.fin neg m e) = (wrapBits (typeBits t) k, flagIf (roundToInt r.mode r.u neg m e).2 fNX)) := by
  intro k
  have heq : toIntC t r (.fin neg m e) = if clampInt t k = k then (wrapBits (typeBits t) k, flagIf (roundToInt r.mode r.u neg m e).2 fNX)
    else (wrapBits (typeBits t) (clampInt t k), fNV ||| fSX) := rfl
  refine ⟨fun h => ?_, fun h h' => ?_, fun h h' => ?_⟩
  · have hclamp : clampInt t k = intMin t := if_pos h
    rw [heq, if_neg (hclamp.trans_ne h.ne'), hclamp]
  · have hclamp : clampInt t k = intMax t := (if_neg (not_lt.2 h)).trans (if_pos h')
    rw [heq, if_neg (hclamp.trans_ne h'.ne), hclamp]
  · have hclamp : clampInt t k = k := (if_neg (not_lt.2 h)).trans (if_neg (not_lt.2 h'))
    rw [heq, if_pos hclamp]

theorem intMin_le_intMax (ht : t ≤ 7) : intMin t ≤ intMax t := (intOf_range ht 0).1.trans (intOf_range ht 0).2

end

/-! ### The instructions (R218, R220, R221) -/

section
variable {s : State} {v : View} {d a : Fin 64}

/-- A class word has one bit of nine. -/
theorem classOf_bit (t n : Nat) : ∃ i < 9, classOf t n = 2 ^ i := by
  unfold classOf
  split
  · exact ⟨8, by decide, rfl⟩
  · exact ⟨0, by decide, rfl⟩
  · exact ⟨7, by decide, rfl⟩
  · split
    · split
      · exact ⟨3, by decide, rfl⟩
      · exact ⟨4, by decide, rfl⟩
    · split
      · split
        · exact ⟨2, by decide, rfl⟩
        · exact ⟨5, by decide, rfl⟩
      · split
        · exact ⟨1, by decide, rfl⟩
        · exact ⟨6, by decide, rfl⟩

theorem execVfclass_ready (h : VectorReady s v [(false, d.val), (v.wide, a.val)] []) (hlay : floatLayout v.ctx.md [.plain] = some .plain) :
    execVfclass d a s = .next (laneResult s v false d (fun l => some (classOf v.ty (v.team.elem v.wide a l), 0))) :=
  Readiness.instr_vreq h rfl (by rw [hlay]; rfl) rfl

theorem execVcvt_ready (h : VectorReady s v [(v.wide, d.val), (isWide (mdSrct v.ctx.md), a.val)] []) (hmode : cvtModeOk v.ctx.md = true) :
    execVcvt d a s = .next (laneResult s v v.wide d (fun l =>
      let y := convert (mdSrct v.ctx.md) v.ty (convRnd s v.team v.ctx.md v.ctx.isc l) (v.team.elem (isWide (mdSrct v.ctx.md)) a l)
      some (wordOf v.ty y.1, y.2))) :=
  Readiness.instr_vreq h rfl hmode rfl

theorem execVunpk_ready (h : VectorReady s v [(v.wide, d.val), (true, a.val)] []) (hsrc : mdSrct v.ctx.md = 14)
    (hty : isFloatType v.ty = true) (hrnd : rndOk v.ctx.md = true) :
    execVunpk d a s = .next (laneResult s v v.wide d (fun l =>
      some (toFloatQ v.ty (convRnd s v.team v.ctx.md v.ctx.isc l) (unpackValue v.team a l)))) :=
  Readiness.instr_vreq h rfl (by rw [hsrc, hrnd, show isFloatType (mdType v.ctx.md) = true from hty]; rfl) rfl

/-- The value of a lane of a block: its code, and the scale and extra value of its group (R62, R221). -/
theorem unpackValue_eq (t : Team) (a l : Nat) :
    unpackValue t a l =
      let code := (t.lane a (4 * (l / 32) + l % 32 / 8)).toNat / 2 ^ (4 * (l % 32 % 8)) % 16
      let scales := (t.lane (a + 1) (l / 32 / 2)).toNat / 2 ^ (16 * (l / 32 % 2))
      blockValue code (scales % 256) (scales / 256 % 256) := by
  have hwidth : 4 * (l % 32 % 8) + 3 + 1 - 4 * (l % 32 % 8) = 4 := by omega
  simp only [unpackValue, bits, hwidth]
  rfl

end

end Sys2Proof.Machine.Conversions

/-! ## Blocks of E2M1 codes (R62 to R64) -/

namespace Sys2Proof.Machine.Blocks

-- one proof after another: side by side they take more threads than the check's memory limit has stacks for
set_option Elab.async false

open Rounding Completions Conversions FloatArithmetic

/-! ### Element codes (R61, R64) -/

/-- The numbers that twice a magnitude of E2M1 can be. -/
def twices : List Nat := [0, 1, 2, 3, 4, 6, 8, 12]

/-- What a code stands for: its sign and twice its magnitude. -/
structure CodeOf (neg : Bool) (tw c : Nat) : Prop where
  ne : c ≠ 8
  twice : e2m1Twice c = tw
  sign : tw ≠ 0 → decide (8 ≤ c) = neg

/-- The code that `e2m1Round` gives twice a magnitude. -/
def codeOfTwice (neg : Bool) (tw : Nat) : Nat :=
  let c := match tw with
    | 0 => 0
    | 1 => 1
    | 2 => 2
    | 3 => 3
    | 4 => 4
    | 6 => 5
    | 8 => 6
    | _ => 7
  if c = 0 then 0 else if neg then c + 8 else c

/-- The step in which an element is rounded: one fraction bit, and halves for subnormals. -/
def codeStep (m : Nat) (e : Int) : Int := if (bitLen m : Int) - 1 + e - 1 < -1 then -1 else (bitLen m : Int) - 1 + e - 1

section
variable {rnd u m c tw lo sig : Nat} {neg : Bool} {e q : Int} {w : ℝ}

theorem e2m1Twice_mem (c : Nat) : e2m1Twice c ∈ twices := by
  unfold e2m1Twice
  split <;> decide

theorem codeOf_codeOfTwice (h : tw ∈ twices) (neg : Bool) : CodeOf neg tw (codeOfTwice neg tw) := by
  have hall : ∀ tw ∈ twices, codeOfTwice neg tw ≠ 8 ∧ e2m1Twice (codeOfTwice neg tw) = tw ∧
      (tw ≠ 0 → decide (8 ≤ codeOfTwice neg tw) = neg) := by
    cases neg <;> decide
  obtain ⟨hne, htwice, hsign⟩ := hall tw h
  exact ⟨hne, htwice, hsign⟩

/-- Whether a rounded quotient exceeds the largest magnitude (R64). -/
def saturates (m : Nat) (e : Int) (tw : Nat) : Bool := decide (12 < tw) || (tw == 12 && decide (6 * 2 ^ (-e).toNat < m * 2 ^ e.toNat))

/-- The code of a quotient that is not zero: that of the rounded magnitude, or of the largest (R64). -/
theorem e2m1Round_eq (hm : m ≠ 0) :
    let tw := (roundAt neg m e false (codeStep m e) rnd u).1 * 2 ^ (codeStep m e + 1).toNat
    (e2m1Round rnd u neg m e).1 = codeOfTwice neg (if saturates m e tw then 12 else tw) ∧
    (e2m1Round rnd u neg m e).2.1 = if saturates m e tw then 12 else tw := by
  intro tw
  have heq : e2m1Round rnd u neg m e = if saturates m e tw then ((if neg then 15 else 7), 12, fSX ||| fNX)
      else (codeOfTwice neg tw, tw, flagIf (roundAt neg m e false (codeStep m e) rnd u).2 fNX) := if_neg hm
  rw [heq]
  cases saturates m e tw with
  | false => exact ⟨rfl, rfl⟩
  | true => exact ⟨by cases neg <;> rfl, rfl⟩

/-- The end of a bracket that is nearer is nearer than what lies outside. -/
theorem near_of_bracket {low high near z : ℝ} (hlow : low ≤ w) (hhigh : w ≤ high)
    (hnear : (near = low ∧ 2 * w ≤ low + high) ∨ (near = high ∧ low + high ≤ 2 * w)) (hz : z ≤ low ∨ high ≤ z) : |w - near| ≤ |w - z| := by
  rcases hnear with ⟨rfl, hmid⟩ | ⟨rfl, hmid⟩
  · rw [abs_of_nonneg (by linarith)]
    rcases hz with hz | hz
    · exact (by linarith : w - near ≤ w - z).trans (le_abs_self _)
    · exact (by linarith : w - near ≤ -(w - z)).trans (neg_le_abs _)
  · rw [abs_of_nonpos (by linarith)]
    rcases hz with hz | hz
    · exact (by linarith : -(w - near) ≤ w - z).trans (le_abs_self _)
    · exact (by linarith : -(w - near) ≤ -(w - z)).trans (neg_le_abs _)

/-- Of a magnitude's step it takes three or four in a binade, and at most four below. -/
theorem lo_bounds (hm : m ≠ 0) {ix : Bool} (hR : Rounded neg 0 ((m : ℝ) * 2 ^ e) (2 ^ codeStep m e) lo sig ix) :
    lo ≤ 3 ∧ (codeStep m e ≠ -1 → 2 ≤ lo) := by
  have hq : (0 : ℝ) < 2 ^ codeStep m e := by positivity
  have habove : (m : ℝ) * 2 ^ e < 2 ^ ((bitLen m : Int) + e) := (given_exact m e).upper.trans_le (le_binade hm)
  have hfour : (2 : ℝ) ^ ((bitLen m : Int) + e) ≤ ((4 : Nat) : ℝ) * 2 ^ codeStep m e := by
    rw [show ((4 : Nat) : ℝ) = 2 ^ (2 : Int) by norm_num, ← zpow_add₀ two_ne_zero]
    refine zpow_le_zpow_right₀ one_le_two ?_
    unfold codeStep
    split <;> omega
  refine ⟨?_, fun hstep => ?_⟩
  · have hlt : (lo : ℝ) < (4 : Nat) := lt_of_mul_lt_mul_right (by linarith [hR.lower]) hq.le
    have hlo : lo < 4 := by exact_mod_cast hlt
    omega
  · have htwo : ((2 : Nat) : ℝ) * 2 ^ codeStep m e = 2 ^ ((bitLen m : Int) - 1 + e) := by
      rw [show ((2 : Nat) : ℝ) = 2 ^ (1 : Int) by norm_num, ← zpow_add₀ two_ne_zero]
      congr 1
      unfold codeStep at hstep ⊢
      split
      next h => exact absurd (if_pos h) hstep
      next => ring
    have hlt : ((2 : Nat) : ℝ) < lo + 1 := lt_of_mul_lt_mul_right (by linarith [hR.upper, binade_le (e := e) hm]) hq.le
    exact Nat.lt_succ_iff.1 (by exact_mod_cast hlt)

/-- No magnitude of E2M1 lies between neighbours of the grid in which an element is rounded. -/
theorem twices_gap {k lo t : Nat} (hk : k ≤ 2) (hlo : lo ≤ 3) (htwo : k ≠ 0 → 2 ≤ lo) (ht : t ∈ twices) :
    t ≤ lo * 2 ^ k ∨ (lo + 1) * 2 ^ k ≤ t := by
  have hall : ∀ k ≤ 2, ∀ lo ≤ 3, k = 0 ∨ 2 ≤ lo → ∀ t ∈ twices, t ≤ lo * 2 ^ k ∨ (lo + 1) * 2 ^ k ≤ t := by decide
  exact hall k hk lo hlo (Decidable.or_iff_not_imp_left.2 htwo) t ht

/-- The multiples on an element's grid are magnitudes of E2M1, but for twice 8. -/
theorem mem_twices {k sig : Nat} (hk : k ≤ 2) (hsig : sig ≤ 4) (htwo : k ≠ 0 → 2 ≤ sig) (h12 : sig * 2 ^ k ≤ 12) : sig * 2 ^ k ∈ twices := by
  have hall : ∀ k ≤ 2, ∀ sig ≤ 4, (k = 0 ∨ 2 ≤ sig) ∧ sig * 2 ^ k ≤ 12 → sig * 2 ^ k ∈ twices := by decide
  exact hall k hk sig hsig ⟨Decidable.or_iff_not_imp_left.2 htwo, h12⟩

theorem le_of_mem_twices {t : Nat} (ht : t ∈ twices) : t ≤ 12 := by
  have hall : ∀ t ∈ twices, t ≤ 12 := by decide
  exact hall t ht

/-- Beyond the largest magnitude that one is the nearest. -/
theorem near_of_beyond {t : Nat} (hw : 12 ≤ w) (ht : t ∈ twices) : |w - (12 : Nat)| ≤ |w - t| := by
  have hle : (t : ℝ) ≤ (12 : Nat) := by exact_mod_cast le_of_mem_twices ht
  have h12 : ((12 : Nat) : ℝ) = 12 := by norm_num
  rw [abs_of_nonneg (by linarith)]
  exact (by linarith : w - (12 : Nat) ≤ w - t).trans (le_abs_self _)

theorem saturated_eq (m : Nat) (e : Int) (tw : Nat) : (if saturates m e tw then 12 else tw) = min tw 12 := by
  unfold saturates
  by_cases h : tw = 12
  · simp [h]
  · by_cases hlt : 12 < tw
    · simp [hlt, hlt.le]
    · simp [h, hlt, Nat.le_of_not_lt hlt]

/-- Under RNE an element's code names the nearest of the magnitudes (R64). -/
theorem e2m1Round_nearest (hm : m ≠ 0) : CodeOf neg (e2m1Round 0 u neg m e).2.1 (e2m1Round 0 u neg m e).1 ∧
    ∀ t ∈ twices, |2 * ((m : ℝ) * 2 ^ e) - (e2m1Round 0 u neg m e).2.1| ≤ |2 * ((m : ℝ) * 2 ^ e) - t| := by
  obtain ⟨hcode, htw⟩ := e2m1Round_eq (rnd := 0) (u := u) (neg := neg) (e := e) hm
  obtain ⟨lo, hR⟩ := roundAt_rounded (neg := neg) (u := u) (q := codeStep m e) (Nat.zero_le 5) (given_exact m e) (by simp)
  obtain ⟨hlo, htwo⟩ := lo_bounds hm hR
  have hstep : -1 ≤ codeStep m e := by unfold codeStep; split <;> omega
  obtain ⟨k, hk⟩ := Int.eq_ofNat_of_zero_le (show 0 ≤ codeStep m e + 1 by omega)
  have hunit : 2 * (2 : ℝ) ^ codeStep m e = 2 ^ k := by rw [← zpow_one_add₀ two_ne_zero, add_comm, hk, zpow_natCast]
  rw [hcode, htw, saturated_eq, hk, Int.toNat_natCast]
  have hk0 : k ≠ 0 → 2 ≤ lo := fun h => htwo (by omega)
  have hlow : ((lo * 2 ^ k : Nat) : ℝ) ≤ 2 * (m * 2 ^ e) := by
    push_cast
    rw [← hunit]
    linarith [hR.lower]
  have hhigh : 2 * ((m : ℝ) * 2 ^ e) ≤ (((lo + 1) * 2 ^ k : Nat) : ℝ) := by
    push_cast
    rw [← hunit]
    linarith [hR.upper]
  have hnear := hR.nearest (.inl rfl)
  have hsig := hR.step
  generalize (roundAt neg m e false (codeStep m e) 0 u).1 = sig at *
  have hsig' : sig = lo ∨ sig = lo + 1 := hsig.imp_right And.left
  by_cases hbig : 12 ≤ lo * 2 ^ k
  · have htw : 12 ≤ sig * 2 ^ k := hbig.trans (Nat.mul_le_mul_right _ (by omega))
    rw [Nat.min_eq_right htw]
    refine ⟨codeOf_codeOfTwice (by decide) neg, fun t ht => near_of_beyond (le_trans ?_ hlow) ht⟩
    exact_mod_cast hbig
  · have hk2 : k ≤ 2 := by
      by_contra hc
      have h8 : 2 * 2 ^ 3 ≤ lo * 2 ^ k := Nat.mul_le_mul (hk0 (by omega)) (Nat.pow_le_pow_right (by decide) (by omega))
      omega
    have htop : (lo + 1) * 2 ^ k ≤ 12 := (twices_gap hk2 hlo hk0 (t := 12) (by decide)).resolve_left hbig
    have htw : sig * 2 ^ k ≤ 12 := (Nat.mul_le_mul_right _ (by omega)).trans htop
    rw [Nat.min_eq_left htw]
    refine ⟨codeOf_codeOfTwice (mem_twices hk2 (by omega) (fun h => (hk0 h).trans (by omega)) htw) neg, fun t ht => ?_⟩
    refine near_of_bracket hlow hhigh ?_ ?_
    · have hsum : ((lo * 2 ^ k : Nat) : ℝ) + ((lo + 1) * 2 ^ k : Nat) = 2 * ((2 * lo + 1) * 2 ^ codeStep m e) := by
        push_cast
        rw [← hunit]
        ring
      rw [hsum]
      rcases hsig' with h | h
      · exact .inl ⟨by rw [h], by linarith [hnear.1 h]⟩
      · exact .inr ⟨by rw [h], by linarith [hnear.2 h]⟩
    · exact (twices_gap hk2 hlo hk0 ht).imp (fun h => by exact_mod_cast h) fun h => by exact_mod_cast h

end

/-! ### The common exponent and the sources of a block -/

/-- The least exponent of the values that are not zero. -/
def lowerExp (acc : Int) (v : FVal) : Int :=
  match v with
  | .fin _ m e => if m = 0 then acc else min acc e
  | _ => acc

/-- The sign and the magnitude of a value in steps of a power of two. -/
def signMag (e0 : Int) (v : FVal) : Bool × Nat :=
  match v with
  | .fin n m e => (n, if m = 0 then 0 else m * 2 ^ (e - e0).toNat)
  | _ => (false, 0)

/-- The common exponent of a block's sources. -/
def blockExp (a : List FVal) : Int := a.foldl lowerExp 0

section
variable {a : List FVal} {v : FVal} {x : ℝ} {e0 : Int}

theorem foldl_lowerExp_le (a : List FVal) (acc : Int) :
    a.foldl lowerExp acc ≤ acc ∧ ∀ n m e, FVal.fin n m e ∈ a → m ≠ 0 → a.foldl lowerExp acc ≤ e := by
  induction a generalizing acc with
  | nil => exact ⟨le_rfl, fun _ _ _ h => nomatch h⟩
  | cons v a ih =>
    obtain ⟨hle, hall⟩ := ih (lowerExp acc v)
    have hstep : lowerExp acc v ≤ acc := by
      unfold lowerExp
      split
      · split
        · exact le_rfl
        · exact min_le_left ..
      · exact le_rfl
    refine ⟨hle.trans hstep, fun n m e hmem hm => ?_⟩
    rcases List.mem_cons.1 hmem with rfl | hmem
    · refine hle.trans ?_
      simp [lowerExp, hm]
    · exact hall n m e hmem hm

/-- A source in steps of the common exponent is exact. -/
theorem signMag_real (hmem : v ∈ a) (hx : v.isReal x) :
    x = sgn (signMag (blockExp a) v).1 * ((signMag (blockExp a) v).2 * (2 : ℝ) ^ blockExp a) := by
  obtain ⟨n, m, e, rfl⟩ := exists_fin hx
  have hx' : x = sgn n * (m * (2 : ℝ) ^ e) := by rw [← mul_assoc]; exact hx
  rw [hx']
  by_cases hm : m = 0
  · simp [signMag, hm]
  · have hle : blockExp a ≤ e := (foldl_lowerExp_le a 0).2 n m e hmem hm
    obtain ⟨j, rfl⟩ := Int.le.dest hle
    have hj : (blockExp a + (j : Int) - blockExp a).toNat = j := by omega
    simp only [signMag, if_neg hm, hj]
    rw [zpow_add₀ two_ne_zero, zpow_natCast]
    push_cast
    ring

theorem signMag_eq_zero (hx : v.isReal x) : (signMag e0 v).2 = 0 ↔ x = 0 := by
  obtain ⟨n, m, e, rfl⟩ := exists_fin hx
  rw [← isReal_eq_zero hx]
  by_cases hm : m = 0 <;> simp [signMag, hm]

theorem foldl_max_spec (l : List Nat) (acc : Nat) :
    acc ≤ l.foldl max acc ∧ (∀ x ∈ l, x ≤ l.foldl max acc) ∧ (l.foldl max acc = acc ∨ l.foldl max acc ∈ l) := by
  induction l generalizing acc with
  | nil => exact ⟨le_rfl, by simp, .inl rfl⟩
  | cons y l ih =>
    obtain ⟨hacc, hall, hmem⟩ := ih (max acc y)
    rw [List.foldl_cons]
    refine ⟨(le_max_left ..).trans hacc, fun x hx => ?_, ?_⟩
    · rcases List.mem_cons.1 hx with rfl | hx
      · exact (le_max_right ..).trans hacc
      · exact hall x hx
    · rcases hmem with h | h
      · rcases max_choice acc y with hm | hm
        · exact .inl (h.trans hm)
        · exact .inr (List.mem_cons.2 (.inl (h.trans hm)))
      · exact .inr (List.mem_cons_of_mem _ h)

theorem maxNat_mem {l : List Nat} (h : maxNat l ≠ 0) : maxNat l ∈ l := (foldl_max_spec l 0).2.2.resolve_left h

theorem maxNat_eq_zero {l : List Nat} : maxNat l = 0 ↔ ∀ x ∈ l, x = 0 := by
  refine ⟨fun h x hx => Nat.le_zero.1 (h ▸ (foldl_max_spec l 0).2.1 x hx), fun h => ?_⟩
  by_contra hne
  exact hne (h _ (maxNat_mem hne))

end

/-! ### The block (R64) -/

/-- Whether a value is no number. -/
def notFinite (v : FVal) : Bool :=
  match v with
  | .fin _ _ _ => false
  | _ => true

/-- The sources of a block as signs and magnitudes in steps of the common exponent. -/
def blockSources (a : List FVal) : List (Bool × Nat) := a.map (signMag (blockExp a))

/-- The scale code of a block: the largest magnitude lies in the top binade of the codes. -/
def blockScale (a : List FVal) : Nat :=
  let ex : Int := (bitLen (maxNat ((blockSources a).map Prod.snd)) : Int) - 1 + blockExp a
  if ex + 125 < 0 then 0 else if 254 < ex + 125 then 254 else (ex + 125).toNat

/-- The exponent of the steps of the quotients. -/
def quotExp (a : List FVal) : Int := blockExp a - ((blockScale a : Int) - 127)

/-- The rounded quotients. -/
def blockCodes (rnd : Nat) (u : Nat → Nat) (a : List FVal) : List (Nat × Nat × Flags) :=
  (blockSources a).zipIdx.map (fun p => e2m1Round rnd (u p.2) p.1.1 p.1.2 (quotExp a))

/-- The exponent of the steps in which errors are compared. -/
def errorExp (a : List FVal) : Int := if quotExp a < -10 then quotExp a else -10

/-- The errors of the codes. -/
def blockErrors (rnd : Nat) (u : Nat → Nat) (a : List FVal) : List Nat :=
  (List.zip (blockSources a) (blockCodes rnd u a)).map (fun p =>
    (sigAt false p.1.2 (quotExp a) (errorExp a) - sigAt false p.2.2.1 (-1) (errorExp a)).natAbs)

/-- The element with the largest error. -/
def worstAt (rnd : Nat) (u : Nat → Nat) (a : List FVal) : Nat := (blockErrors rnd u a).idxOf (maxNat (blockErrors rnd u a))

/-- The extra value of a block: the quotient with the largest error, rounded to E4M3. -/
def extraBits (rnd : Nat) (u : Nat → Nat) (a : List FVal) : Nat :=
  let p := (blockSources a).getD (worstAt rnd u a) (false, 0)
  (roundVal 12 { mode := 0, sat := true } (.fin p.1 p.2 (quotExp a))).1

section
variable {rnd : Nat} {u : Nat → Nat} {a : List FVal}

theorem packBlock_notFinite (h : a.any notFinite = true) : packBlock rnd u a = (List.replicate 32 0, 0xFF, 0, fNV) := if_pos h

theorem packBlock_zeros (hfin : a.any notFinite = false) (h : maxNat ((blockSources a).map Prod.snd) = 0) :
    packBlock rnd u a = (List.replicate 32 0, 0, 0, 0) := (if_neg (ne_true_of_eq_false hfin)).trans (if_pos h)

/-- The block of numbers that are not all zero: its codes, of which one may give way to the extra value when that comes nearer. -/
theorem packBlock_numbers (hfin : a.any notFinite = false) (h : maxNat ((blockSources a).map Prod.snd) ≠ 0) :
    (packBlock rnd u a).2.1 = blockScale a ∧
    (((packBlock rnd u a).1 = (blockCodes rnd u a).map Prod.fst ∧ (packBlock rnd u a).2.2.1 = 0) ∨
      ∃ nx mx ex, fdecode 12 (extraBits rnd u a) = .fin nx mx ex ∧ mx ≠ 0 ∧ maxNat (blockErrors rnd u a) ≠ 0 ∧
        (let p := (blockSources a).getD (worstAt rnd u a) (false, 0)
         (sigAt nx mx ex (errorExp a) - sigAt p.1 p.2 (quotExp a) (errorExp a)).natAbs < maxNat (blockErrors rnd u a)) ∧
        (packBlock rnd u a).1 = ((blockCodes rnd u a).map Prod.fst).set (worstAt rnd u a) 8 ∧
        (packBlock rnd u a).2.2.1 = extraBits rnd u a) := by
  generalize ho : packBlock rnd u a = o
  have heq : packBlock rnd u a = match fdecode 12 (extraBits rnd u a) with
      | .fin nx mx ex =>
        if maxNat (blockErrors rnd u a) ≠ 0 && mx ≠ 0 && (sigAt nx mx ex (errorExp a) -
            sigAt ((blockSources a).getD (worstAt rnd u a) (false, 0)).1 ((blockSources a).getD (worstAt rnd u a) (false, 0)).2
              (quotExp a) (errorExp a)).natAbs < maxNat (blockErrors rnd u a)
        then (((blockCodes rnd u a).map Prod.fst).set (worstAt rnd u a) 8, blockScale a, extraBits rnd u a,
          (blockCodes rnd u a).foldl (fun f c => f ||| c.2.2) 0)
        else ((blockCodes rnd u a).map Prod.fst, blockScale a, 0, (blockCodes rnd u a).foldl (fun f c => f ||| c.2.2) 0)
      | _ => ((blockCodes rnd u a).map Prod.fst, blockScale a, 0, (blockCodes rnd u a).foldl (fun f c => f ||| c.2.2) 0) :=
    (if_neg (ne_true_of_eq_false hfin)).trans (if_neg h)
  rw [ho] at heq
  subst heq
  split
  next nx mx ex hx =>
    split
    next hc =>
      simp only [ne_eq, decide_not, Bool.and_eq_true, Bool.not_eq_eq_eq_not, Bool.not_true, decide_eq_false_iff_not, decide_eq_true_eq] at hc
      exact ⟨rfl, .inr ⟨nx, mx, ex, hx, hc.1.2, hc.1.1, hc.2, rfl, rfl⟩⟩
    next => exact ⟨rfl, .inl ⟨rfl, rfl⟩⟩
  next => exact ⟨rfl, .inl ⟨rfl, rfl⟩⟩

/-! ### How near a block comes (R63, R64) -/

/-- The code of any quotient, zero too, names the nearest magnitude. -/
theorem code_nearest (neg : Bool) (m : Nat) (e : Int) (u : Nat) : CodeOf neg (e2m1Round 0 u neg m e).2.1 (e2m1Round 0 u neg m e).1 ∧
    ∀ t ∈ twices, |2 * ((m : ℝ) * 2 ^ e) - (e2m1Round 0 u neg m e).2.1| ≤ |2 * ((m : ℝ) * 2 ^ e) - t| := by
  by_cases hm : m = 0
  · subst hm
    exact ⟨⟨(by decide : (0 : Nat) ≠ 8), rfl, fun h => absurd rfl h⟩, fun t _ => by simp [e2m1Round]⟩
  · exact e2m1Round_nearest hm

variable {c s X : Nat} {x y z V T U : ℝ} {k : Int} {n n' : Bool}

/-- What a code stands for in a block (R63). -/
theorem blockValue_code (hs : s ≤ 254) (hc : c ≠ 8) (h : (blockValue c s X).isReal y) :
    y = sgn (decide (8 ≤ c)) * ((e2m1Twice c : ℝ) * 2 ^ ((s : Int) - 127 - 1)) := by
  have heq : blockValue c s X = .fin (decide (8 ≤ c)) (e2m1Twice c) ((s : Int) - 127 - 1) := (if_neg (by omega)).trans (if_neg hc)
  rw [heq] at h
  rw [← mul_assoc]
  exact h

/-- What the extra element stands for: the extra value. -/
theorem blockValue_extra {nx : Bool} {mx : Nat} {ex : Int} (hs : s ≤ 254) (hX : X ≠ 0) (hdec : fdecode 12 X = .fin nx mx ex)
    (h : (blockValue 8 s X).isReal y) : y = sgn nx * (mx * (2 : ℝ) ^ ex * 2 ^ ((s : Int) - 127)) := by
  have heq : blockValue 8 s X = match fdecode 12 X with
      | .fin neg m e => .fin neg m (e + ((s : Int) - 127))
      | v => v := (if_neg (by omega)).trans ((if_pos rfl).trans (if_neg hX))
  rw [heq, hdec] at h
  rw [mul_assoc, ← zpow_add₀ two_ne_zero, ← mul_assoc]
  exact h

/-- Numbers are no nearer than their magnitudes. -/
theorem magnitudes_nearer (hV : 0 ≤ V) (hT : 0 ≤ T) (hU : 0 ≤ U) : |V - T| * U ≤ |sgn n * (V * U) - sgn n' * (T * U)| := by
  have h := abs_abs_sub_abs_le (sgn n * (V * U)) (sgn n' * (T * U))
  rwa [abs_sgn_mul, abs_sgn_mul, abs_of_nonneg (mul_nonneg hV hU), abs_of_nonneg (mul_nonneg hT hU), ← sub_mul, abs_mul, abs_of_nonneg hU] at h

theorem blockScale_le (a : List FVal) : blockScale a ≤ 254 := by
  unfold blockScale
  dsimp only
  split_ifs <;> omega

variable {i : Nat}

theorem blockSources_getElem (hi : i < a.length) : (blockSources a)[i]? = some (signMag (blockExp a) a[i]) := by
  simp [blockSources, hi]

theorem blockCodes_getElem (hi : i < a.length) : (blockCodes rnd u a)[i]? = some (e2m1Round rnd (u i)
    (signMag (blockExp a) a[i]).1 (signMag (blockExp a) a[i]).2 (quotExp a)) := by
  simp [blockCodes, blockSources, hi]

theorem natAbs_mul_zpow (j : Int) (e : Int) : (j.natAbs : ℝ) * 2 ^ e = |(j : ℝ) * 2 ^ e| := by
  rw [Nat.cast_natAbs, Int.cast_abs, abs_mul, abs_of_nonneg (by positivity : (0 : ℝ) ≤ 2 ^ e)]

/-- The error of an element's code, in steps of the least exponent. -/
theorem blockErrors_real (hi : i < a.length) : ∃ err, (blockErrors rnd u a)[i]? = some err ∧
    (err : ℝ) * 2 ^ errorExp a = |((signMag (blockExp a) a[i]).2 : ℝ) * 2 ^ quotExp a -
      ((e2m1Round rnd (u i) (signMag (blockExp a) a[i]).1 (signMag (blockExp a) a[i]).2 (quotExp a)).2.1 : ℝ) * 2 ^ (-1 : Int)| := by
  have hq : errorExp a ≤ quotExp a ∧ errorExp a ≤ -1 := by unfold errorExp; split <;> omega
  have hzip : ((blockSources a).zip (blockCodes rnd u a))[i]? = some (signMag (blockExp a) a[i], e2m1Round rnd (u i)
      (signMag (blockExp a) a[i]).1 (signMag (blockExp a) a[i]).2 (quotExp a)) :=
    List.getElem?_zip_eq_some.2 ⟨blockSources_getElem hi, blockCodes_getElem hi⟩
  refine ⟨_, by rw [blockErrors, List.getElem?_map, hzip, Option.map_some], ?_⟩
  rw [natAbs_mul_zpow, Int.cast_sub, sub_mul, sigAt_real false _ hq.1, sigAt_real false _ hq.2]
  simp

/-- The scale of a quotient and of a code, which counts halves. -/
theorem source_scaled (a : List FVal) (M : Nat) :
    (M : ℝ) * 2 ^ blockExp a = 2 * (M * 2 ^ quotExp a) * 2 ^ ((blockScale a : Int) - 127 - 1) := by
  have hexp : blockExp a = 1 + quotExp a + ((blockScale a : Int) - 127 - 1) := by unfold quotExp; ring
  rw [hexp, zpow_add₀ two_ne_zero, zpow_add₀ two_ne_zero, zpow_one]
  ring

/-- A code of the sign of its source is as far from it as their magnitudes are. -/
theorem code_distance {tw : Nat} {neg : Bool} (hU : 0 ≤ U) (h : CodeOf neg tw c) :
    |sgn neg * (V * U) - sgn (decide (8 ≤ c)) * ((e2m1Twice c : ℝ) * U)| = |V - tw| * U := by
  rw [h.twice]
  by_cases htw : tw = 0
  · rw [htw, Nat.cast_zero, zero_mul, mul_zero, sub_zero, sub_zero, abs_sgn_mul, abs_mul, abs_of_nonneg hU]
  · rw [h.sign htw, ← mul_sub, abs_sgn_mul, ← sub_mul, abs_mul, abs_of_nonneg hU]

/-- An element that keeps its code is as near as any code comes. -/
theorem kept_nearest (hi : i < a.length) (hx : a[i].isReal x)
    (hy : (blockValue (e2m1Round 0 (u i) (signMag (blockExp a) a[i]).1 (signMag (blockExp a) a[i]).2 (quotExp a)).1 (blockScale a) X).isReal y)
    (hc : c ≠ 8) (hz : (blockValue c (blockScale a) 0).isReal z) : |x - y| ≤ |x - z| := by
  obtain ⟨hcode, hnear⟩ := code_nearest (signMag (blockExp a) a[i]).1 (signMag (blockExp a) a[i]).2 (quotExp a) (u i)
  have hU : (0 : ℝ) ≤ 2 ^ ((blockScale a : Int) - 127 - 1) := by positivity
  rw [signMag_real (List.getElem_mem hi) hx, source_scaled, blockValue_code (blockScale_le a) hcode.ne hy, blockValue_code (blockScale_le a) hc hz,
    code_distance hU hcode]
  exact (mul_le_mul_of_nonneg_right (hnear _ (e2m1Twice_mem c)) hU).trans (magnitudes_nearer (by positivity) (Nat.cast_nonneg _) hU)

/-- The extra element comes nearer than any code. -/
theorem extra_nearer {nx : Bool} {mx : Nat} {ex : Int} (hi : i < a.length) (hx : a[i].isReal x) (hX : X ≠ 0)
    (hdec : fdecode 12 X = .fin nx mx ex) (hy : (blockValue 8 (blockScale a) X).isReal y) (hc : c ≠ 8)
    (hz : (blockValue c (blockScale a) 0).isReal z) {err : Nat} (herr : (blockErrors 0 u a)[i]? = some err)
    (hless : (sigAt nx mx ex (errorExp a) - sigAt (signMag (blockExp a) a[i]).1 (signMag (blockExp a) a[i]).2 (quotExp a)
      (errorExp a)).natAbs < err) : |x - y| < |x - z| := by
  obtain ⟨hcode, hnear⟩ := code_nearest (signMag (blockExp a) a[i]).1 (signMag (blockExp a) a[i]).2 (quotExp a) (u i)
  have hU : (0 : ℝ) < 2 ^ ((blockScale a : Int) - 127 - 1) := by positivity
  have hq : errorExp a ≤ quotExp a ∧ errorExp a ≤ -9 := by unfold errorExp; split <;> omega
  have hlast : lastPlace 12 = -9 := by decide
  have hex : errorExp a ≤ ex := hq.2.trans (hlast ▸ (fdecode_fin_bounds hdec).2)
  obtain ⟨err', herr', hreal⟩ := blockErrors_real (rnd := 0) (u := u) hi
  obtain rfl : err = err' := Option.some.inj (herr.symm.trans herr')
  have htwo : (2 : ℝ) ^ ((blockScale a : Int) - 127) = 2 * 2 ^ ((blockScale a : Int) - 127 - 1) := by
    rw [← zpow_one_add₀ two_ne_zero]
    congr 1
    ring
  rw [signMag_real (List.getElem_mem hi) hx, source_scaled, blockValue_extra (blockScale_le a) hX hdec hy,
    blockValue_code (blockScale_le a) hc hz, htwo]
  refine lt_of_lt_of_le ?_ ((mul_le_mul_of_nonneg_right (hnear _ (e2m1Twice_mem c)) hU.le).trans
    (magnitudes_nearer (by positivity) (Nat.cast_nonneg _) hU.le))
  generalize (2 : ℝ) ^ ((blockScale a : Int) - 127 - 1) = U at *
  generalize (e2m1Round 0 (u i) (signMag (blockExp a) a[i]).1 (signMag (blockExp a) a[i]).2 (quotExp a)).2.1 = tw at *
  have hcloser : |sgn nx * (mx * (2 : ℝ) ^ ex) - sgn (signMag (blockExp a) a[i]).1 * ((signMag (blockExp a) a[i]).2 * 2 ^ quotExp a)| <
      |((signMag (blockExp a) a[i]).2 : ℝ) * 2 ^ quotExp a - tw * 2 ^ (-1 : Int)| := by
    have hlt : ((sigAt nx mx ex (errorExp a) - sigAt (signMag (blockExp a) a[i]).1 (signMag (blockExp a) a[i]).2 (quotExp a)
        (errorExp a)).natAbs : ℝ) * 2 ^ errorExp a < err * 2 ^ errorExp a :=
      mul_lt_mul_of_pos_right (by exact_mod_cast hless) (by positivity)
    rw [natAbs_mul_zpow, Int.cast_sub, sub_mul, sigAt_real _ _ hex, sigAt_real _ _ hq.1, hreal] at hlt
    rw [← mul_assoc, ← mul_assoc]
    exact hlt
  generalize ((signMag (blockExp a) a[i]).2 : ℝ) * 2 ^ quotExp a = W at *
  generalize (mx : ℝ) * 2 ^ ex = P at *
  have hleft : sgn (signMag (blockExp a) a[i]).1 * (2 * W * U) - sgn nx * (P * (2 * U)) =
      -(2 * U) * (sgn nx * P - sgn (signMag (blockExp a) a[i]).1 * W) := by ring
  have hright : 2 * W - tw = 2 * (W - tw * 2 ^ (-1 : Int)) := by
    rw [zpow_neg_one]
    ring
  rw [hleft, hright, abs_mul, abs_mul, abs_neg, abs_mul, abs_two, abs_of_pos hU, mul_right_comm]
  exact mul_lt_mul_of_pos_right (mul_lt_mul_of_pos_left hcloser two_pos) hU

theorem any_notFinite_iff : a.any notFinite = true ↔ ∃ v ∈ a, ∀ y : ℝ, ¬ v.isReal y := by
  rw [List.any_eq_true]
  refine exists_congr fun v => and_congr_right fun _ => ?_
  cases v with
  | fin n m e => exact ⟨fun h => Bool.noConfusion h, fun h => absurd rfl (h _)⟩
  | inf n => exact ⟨fun _ _ h => h, fun _ => rfl⟩
  | nan => exact ⟨fun _ _ h => h, fun _ => rfl⟩

theorem any_notFinite_eq_false (h : ∀ v ∈ a, ∃ y : ℝ, v.isReal y) : a.any notFinite = false := by
  rw [Bool.eq_false_iff, ne_eq, any_notFinite_iff]
  rintro ⟨v, hv, hno⟩
  obtain ⟨y, hy⟩ := h v hv
  exact hno y hy

theorem blockSources_zero_iff (h : ∀ v ∈ a, ∃ y : ℝ, v.isReal y) :
    maxNat ((blockSources a).map Prod.snd) = 0 ↔ ∀ v ∈ a, v.isReal 0 := by
  simp only [maxNat_eq_zero, blockSources, List.map_map, List.forall_mem_map, Function.comp_apply]
  refine forall₂_congr fun v hv => ?_
  obtain ⟨y, hy⟩ := h v hv
  rw [signMag_eq_zero hy]
  refine ⟨fun h0 => h0 ▸ hy, fun h0 => ?_⟩
  obtain ⟨n, m, e, rfl⟩ := exists_fin hy
  rw [show y = _ from hy, show (0 : ℝ) = _ from h0]

theorem length_blockCodes (a : List FVal) : (blockCodes rnd u a).length = a.length := by simp [blockCodes, blockSources]

/-- Every code of a block under RNE names the nearest magnitude; the extra element comes nearer than any (R63, R64). -/
theorem packBlock_nearest (hfin : a.any notFinite = false) (hne : maxNat ((blockSources a).map Prod.snd) ≠ 0) (hi : i < a.length)
    (hx : (a.getD i .nan).isReal x)
    (hy : (blockValue ((packBlock 0 u a).1.getD i 0) (packBlock 0 u a).2.1 (packBlock 0 u a).2.2.1).isReal y) (hc : c ≠ 8)
    (hz : (blockValue c (packBlock 0 u a).2.1 0).isReal z) :
    ((packBlock 0 u a).1.getD i 0 ≠ 8 → |x - y| ≤ |x - z|) ∧
    ((packBlock 0 u a).1.getD i 0 = 8 → (packBlock 0 u a).2.2.1 ≠ 0 ∧ |x - y| < |x - z|) := by
  obtain ⟨hscale, hcases⟩ := packBlock_numbers (rnd := 0) (u := u) hfin hne
  generalize packBlock 0 u a = o at *
  rw [hscale] at hy hz
  rw [List.getD_eq_getElem _ _ hi] at hx
  have hcode : ((blockCodes 0 u a).map Prod.fst)[i]? =
      some (e2m1Round 0 (u i) (signMag (blockExp a) a[i]).1 (signMag (blockExp a) a[i]).2 (quotExp a)).1 := by
    rw [List.getElem?_map, blockCodes_getElem hi]
    rfl
  have hkept : o.1[i]? = ((blockCodes 0 u a).map Prod.fst)[i]? → (o.1.getD i 0 ≠ 8 → |x - y| ≤ |x - z|) ∧
      (o.1.getD i 0 = 8 → o.2.2.1 ≠ 0 ∧ |x - y| < |x - z|) := by
    intro h
    have hget : o.1.getD i 0 = (e2m1Round 0 (u i) (signMag (blockExp a) a[i]).1 (signMag (blockExp a) a[i]).2 (quotExp a)).1 := by
      rw [List.getD_eq_getElem?_getD, h, hcode, Option.getD_some]
    rw [hget] at hy ⊢
    exact ⟨fun _ => kept_nearest hi hx hy hc hz, fun h8 => absurd h8 (code_nearest _ _ _ (u i)).1.ne⟩
  rcases hcases with ⟨hcodes, -⟩ | ⟨nx, mx, ex, hdec, hmx, hworst, hless, hcodes, hextra⟩
  · exact hkept (by rw [hcodes])
  · by_cases hij : i = worstAt 0 u a
    · have hX : o.2.2.1 ≠ 0 := by
        intro h0
        rw [← hextra, h0] at hdec
        injection hdec with _ hm _
        exact hmx hm.symm
      obtain ⟨err, herr, -⟩ := blockErrors_real (rnd := 0) (u := u) hi
      have hmem := maxNat_mem hworst
      have herr' : (blockErrors 0 u a)[i]? = some (maxNat (blockErrors 0 u a)) := by
        rw [hij, worstAt, List.getElem?_idxOf hmem]
      have hsource : (blockSources a).getD (worstAt 0 u a) (false, 0) = signMag (blockExp a) a[i] := by
        rw [← hij, List.getD_eq_getElem?_getD, blockSources_getElem hi, Option.getD_some]
      have h8 : o.1.getD i 0 = 8 := by
        rw [hcodes, ← hij, List.getD_eq_getElem?_getD, List.getElem?_set_self (by simpa [length_blockCodes] using hi), Option.getD_some]
      rw [h8] at hy ⊢
      rw [hsource] at hless
      exact ⟨fun h => absurd rfl h, fun _ => ⟨hX, extra_nearer hi hx hX (hextra ▸ hdec) hy hc hz herr' hless⟩⟩
    · exact hkept (by rw [hcodes, List.getElem?_set_ne (Ne.symm hij)])

theorem packBlock_shape (hfin : a.any notFinite = false) (hne : maxNat ((blockSources a).map Prod.snd) ≠ 0) :
    (packBlock rnd u a).2.1 ≤ 254 ∧ (packBlock rnd u a).1.length = a.length := by
  obtain ⟨hscale, hcases⟩ := packBlock_numbers (rnd := rnd) (u := u) hfin hne
  refine ⟨hscale ▸ blockScale_le a, ?_⟩
  rcases hcases with ⟨hcodes, -⟩ | ⟨_, _, _, _, _, _, _, hcodes, _⟩ <;> rw [hcodes] <;> simp [length_blockCodes]

end

end Sys2Proof.Machine.Blocks

/-! ## Conversions and blocks (O22) -/

namespace Sys2Proof.Machine.Packing

-- one proof after another: side by side they take more threads than the check's memory limit has stacks for
set_option Elab.async false

open Rounding Completions Conversions Blocks

/-! ### VPACK (R221) -/

/-- Whether a group holds a lane of E. -/
def packed (v : View) (g : Nat) : Bool := decide (g < v.team.nl / 32) && (List.range 32).any (fun j => inMask v.eff (32 * g + j))

/-- The block of a group with a lane of E. -/
def blockOf (s : State) (v : View) (a g : Nat) : Option (List Nat × Nat × Nat × Flags) := if packed v g then some (packGroup s v a g) else none

section
variable {s : State} {v : View} {d a : Fin 64}

theorem groupWord_eq_zero (m : Mask) (g : Nat) : groupWord m g = 0 ↔ (List.range 32).any (fun j => inMask m (32 * g + j)) = false := by
  rw [List.any_eq_false, Masks.groupWord_eq]
  simp only [List.mem_range, inMask, Bool.not_eq_true]
  refine ⟨fun h j hj => ?_, fun h => ?_⟩
  · have hbit : (m.toNat / 2 ^ (32 * g) % 2 ^ 32).testBit j = false := by rw [h, Nat.zero_testBit]
    rw [Nat.testBit_mod_two_pow, Nat.testBit_div_two_pow, decide_eq_true hj, Bool.true_and] at hbit
    rwa [Nat.add_comm]
  · refine Nat.eq_of_testBit_eq fun j => ?_
    rw [Nat.testBit_mod_two_pow, Nat.testBit_div_two_pow, Nat.zero_testBit]
    by_cases hj : j < 32
    · rw [Nat.add_comm, h j hj, Bool.and_false]
    · rw [decide_eq_false hj, Bool.false_and]

/-- The list of blocks that VPACK forms, by group. -/
theorem blocks_getD (g : Nat) : ((List.range (v.team.nl / 32)).map (fun g =>
    if groupWord v.eff g = 0 then none else some (packGroup s v a g))).getD g none = blockOf s v a g := by
  rw [List.getD_eq_getElem?_getD, List.getElem?_map]
  by_cases hg : g < v.team.nl / 32
  · rw [List.getElem?_range hg, Option.map_some, Option.getD_some, blockOf, packed, decide_eq_true hg, Bool.true_and]
    by_cases h0 : groupWord v.eff g = 0
    · rw [if_pos h0, (groupWord_eq_zero _ _).1 h0]
      rfl
    · rw [if_neg h0, if_pos (by simpa using mt (groupWord_eq_zero _ _).2 h0)]
  · rw [List.getElem?_eq_none (by simpa using hg), blockOf, packed, decide_eq_false hg]
    rfl

/-- Half of a scale lane: a block's scale code and extra value, or what it was. -/
def halfOf (s : State) (v : View) (a g old : Nat) : Nat :=
  match blockOf s v a g with
  | some b => b.2.1 + b.2.2.1 * 2 ^ 8
  | none => old

/-- The team after VPACK. -/
def packedTeam (s : State) (v : View) (d a : Nat) : Team :=
  (v.team.setRow d (fun l => (blockOf s v a (l / 4)).map (fun b => BitVec.ofNat 32 (planeWord b.1 (l % 4))))).setRow (d + 1) (fun l =>
    some (BitVec.ofNat 32 (halfOf s v a (2 * l) ((v.team.lane (d + 1) l).toNat % 2 ^ 16) +
      halfOf s v a (2 * l + 1) ((v.team.lane (d + 1) l).toNat / 2 ^ 16) * 2 ^ 16)))

/-- VPACK whose operands are ready writes its blocks (R221). -/
theorem execVpack_ready (h : VectorReady s v [(true, d.val), (isWide (mdSrct v.ctx.md), a.val)] []) (hty : v.ty = 14)
    (hsrc : isFloatType (mdSrct v.ctx.md) = true) (hrnd : rndOk v.ctx.md = true) :
    execVpack d a s = .next (s.retire v (packedTeam s v d a) (v.ctx.step4.raise (flagsOr ((List.range (v.team.nl / 32)).map (fun g =>
      if packed v g then (packGroup s v a g).2.2.2 else 0))))) := by
  have hflags : (List.range (v.team.nl / 32)).map (fun g => if packed v g then (packGroup s v a g).2.2.2 else 0) =
      ((List.range (v.team.nl / 32)).map (fun g => if groupWord v.eff g = 0 then none else some (packGroup s v a g))).map
        (fun b => (b.map (·.2.2.2)).getD 0) := by
    rw [List.map_map]
    refine List.map_congr_left fun g hg => ?_
    rw [packed, decide_eq_true (List.mem_range.1 hg), Bool.true_and, Function.comp_apply]
    by_cases h0 : groupWord v.eff g = 0
    · rw [if_pos h0, (groupWord_eq_zero _ _).1 h0]
      rfl
    · rw [if_neg h0, if_pos (by simpa using mt (groupWord_eq_zero _ _).2 h0)]
      rfl
  refine Readiness.instr_vreq h rfl (by rw [show mdType v.ctx.md = 14 from hty, hsrc, hrnd]; rfl) ?_
  simp only [blocks_getD, hflags]
  rfl

theorem packedTeam_rest (s : State) (v : View) (d a : Nat) : { packedTeam s v d a with v := v.team.v } = v.team := rfl

theorem packedTeam_other {r : Nat} (hr : r ≠ d.val) (hr' : r ≠ d.val + 1) (l : Nat) : (packedTeam s v d a).lane r l = v.team.lane r l := by
  rw [packedTeam, Frames.lane_setRow_ne hr', Frames.lane_setRow_ne hr]

section
variable {l : Nat} (hd : d.val + 1 < v.team.v.length) (hrows : ∀ row ∈ v.team.v, row.length = v.team.nl) (hl : l < v.team.nl)
include hd hrows hl

theorem row_length {r : Nat} (hr : r ≤ d.val + 1) : l < (v.team.v.getD r []).length := by
  have hlt : r < v.team.v.length := by omega
  rw [List.getD_eq_getElem _ _ hlt, hrows _ (List.getElem_mem hlt)]
  exact hl

/-- Four lanes of vD hold the codes of a group. -/
theorem packedTeam_codes : (packedTeam s v d a).lane d l =
    if packed v (l / 4) then BitVec.ofNat 32 (planeWord (packGroup s v a (l / 4)).1 (l % 4)) else v.team.lane d l := by
  rw [packedTeam, Frames.lane_setRow_ne (Nat.ne_of_lt (Nat.lt_succ_self _))]
  by_cases hp : packed v (l / 4) = true
  · rw [if_pos hp]
    exact Deliveries.lane_setRow_some (by omega) (row_length hd hrows hl (by omega)) (by rw [blockOf, if_pos hp]; rfl)
  · rw [if_neg hp]
    exact Frames.lane_setRow_none (by rw [blockOf, if_neg hp]; rfl)

/-- A lane of vD+1 holds the scales of two groups. -/
theorem packedTeam_scales : (packedTeam s v d a).lane (d + 1) l =
    BitVec.ofNat 32 (halfOf s v a (2 * l) ((v.team.lane (d + 1) l).toNat % 2 ^ 16) +
      halfOf s v a (2 * l + 1) ((v.team.lane (d + 1) l).toNat / 2 ^ 16) * 2 ^ 16) := by
  refine Deliveries.lane_setRow_some ?_ ?_ rfl
  · rwa [Deliveries.length_setRow]
  · rw [Deliveries.row_setRow_ne (Nat.succ_ne_self _)]
    exact row_length hd hrows hl le_rfl

end

/-- A half keeps its bits where no block is formed. -/
theorem halfOf_eq (t : Team) (r g : Nat) {old : Nat} (hold : old = (t.lane r (g / 2)).toNat / 2 ^ (16 * (g % 2)) % 2 ^ 16) :
    halfOf s v a g old = if packed v g then (packGroup s v a g).2.1 + (packGroup s v a g).2.2.1 * 2 ^ 8
      else (t.lane r (g / 2)).toNat / 2 ^ (16 * (g % 2)) % 2 ^ 16 := by
  unfold halfOf blockOf
  cases packed v g with
  | true => rfl
  | false => exact hold

end

/-- Settles O22: the instructions write what their rules name; a conversion's value goes by the pair of types, and a block's codes are the
nearest (`packBlock_nearest`). -/
theorem conversions : Obligations.Conversions := by
  unfold Obligations.Conversions
  refine ⟨?_, ?_, ?_, ?_⟩
  · intro s v d a md ty src round
    refine ⟨fun h hlay => ⟨execVfclass_ready h hlay, fun l => classOf_bit _ _⟩, fun h hmode => execVcvt_ready h hmode, fun h hsrc hty hrnd => ?_⟩
    simp only [exec_vunpk, execVunpk_ready h hsrc hty hrnd, unpackValue_eq]
    rfl
  · intro s v d a md h hty hsrc hrnd hlen hrows packed half flags
    have hd : d.val + 1 < v.team.v.length := by
      have hok := h.2 (true, d.val) (by simp)
      simp only [Team.vOk, Bool.not_true, Bool.false_or, Bool.and_eq_true, decide_eq_true_eq] at hok
      omega
    refine ⟨packedTeam s v d a, execVpack_ready h hty hsrc hrnd, packedTeam_rest .., fun r l hr hr' => packedTeam_other hr hr' l,
      fun l hl => ⟨packedTeam_codes hd hrows hl, ?_⟩⟩
    have hlow : (v.team.lane (d + 1) l).toNat % 2 ^ 16 = (v.team.lane (d + 1) (2 * l / 2)).toNat / 2 ^ (16 * (2 * l % 2)) % 2 ^ 16 := by
      rw [show 2 * l / 2 = l by omega, show 2 * l % 2 = 0 by omega, Nat.mul_zero, Nat.pow_zero, Nat.div_one]
    have hhigh : (v.team.lane (d + 1) l).toNat / 2 ^ 16 =
        (v.team.lane (d + 1) ((2 * l + 1) / 2)).toNat / 2 ^ (16 * ((2 * l + 1) % 2)) % 2 ^ 16 := by
      have hlt : (v.team.lane (d + 1) l).toNat / 2 ^ 16 < 2 ^ 16 := Nat.div_lt_of_lt_mul (v.team.lane (d + 1) l).isLt
      rw [show (2 * l + 1) / 2 = l by omega, show (2 * l + 1) % 2 = 1 by omega, Nat.mul_one, Nat.mod_eq_of_lt hlt]
    rw [packedTeam_scales hd hrows hl, halfOf_eq v.team (d + 1) (2 * l) hlow, halfOf_eq v.team (d + 1) (2 * l + 1) hhigh]
    rfl
  · intro src ty r n hsrc hty hmode i f
    refine ⟨?_, ?_, ?_, ?_, ?_⟩
    · rintro rfl
      simp only [convert, convRule_self]
    · intro hne hs ht
      rw [convert_ints hs ht hne, IntegerArithmetic.intResult_eq]
      split_ifs <;> rfl
    · intro hs ht hftz
      exact convert_intFloat hs ht hty hmode hftz
    · intro hs ht hne
      exact ⟨(convert_floats (x := 0) hs hsrc ht hty hne hmode).1, fun hftz x => (convert_floats hs hsrc ht hty hne hmode).2 hftz⟩
    · intro hs ht
      rw [convert_floatInt hs hsrc ht]
      refine ⟨fun hf => by rw [show fdecodeFtz r.ftz src n = _ from hf]; rfl, fun neg hf => by rw [show fdecodeFtz r.ftz src n = _ from hf]; rfl,
        fun x hx => ?_⟩
      obtain ⟨neg, m, e, hf⟩ := FloatArithmetic.exists_fin hx
      rw [hf] at hx
      rw [show fdecodeFtz r.ftz src n = _ from hf]
      obtain ⟨hone, hhalf, hzero, hup, hdown, hdrawn, hexact⟩ := roundToInt_spec (u := r.u) hmode hx
      obtain ⟨hbelow, habove, hinside⟩ := toIntC_fin ty r neg m e
      refine ⟨_, hone, hhalf, hzero, hup, hdown, hdrawn, hbelow, fun h => habove ((intMin_le_intMax ht).trans h.le) h, fun hlow hhigh => ?_⟩
      rw [hinside hlow hhigh]
      refine ⟨rfl, fun hk => ?_, fun hk => ?_⟩
      · rw [hexact.2 hk]
        rfl
      · rw [show (roundToInt r.mode r.u neg m e).2 = true by simpa using mt hexact.1 hk]
        rfl
  · intro rnd u a hlen o zeros
    refine ⟨fun h => packBlock_notFinite (any_notFinite_iff.2 h), fun h => ?_, fun hreal hne => ?_⟩
    · have hreal : ∀ x ∈ a, ∃ y : ℝ, x.isReal y := fun x hx => ⟨0, h x hx⟩
      exact packBlock_zeros (any_notFinite_eq_false hreal) ((blockSources_zero_iff hreal).2 h)
    · have hfin := any_notFinite_eq_false hreal
      have hnonzero := mt (blockSources_zero_iff hreal).1 (by simpa using hne)
      obtain ⟨hscale, hcodes⟩ := packBlock_shape (rnd := rnd) (u := u) hfin hnonzero
      refine ⟨hscale, hcodes.trans hlen, ?_⟩
      rintro rfl i hi x y z c - hx hy hc hz
      exact packBlock_nearest hfin hnonzero (hlen ▸ hi) hx hy hc hz

end Sys2Proof.Machine.Packing

/-! ## Tiles: MZERO, MMA, MMAS, MSTAT (R272, R273, R277, R281) -/

namespace Sys2Proof.Machine.Matrices

-- one proof after another: side by side they take more threads than the check's memory limit has stacks for
set_option Elab.async false

section
variable {s u : State} {v : View} {d tb : Fin 4} {x a b : Fin 64} {la : Fin 16} {k : Nat} {names names' : List RegName} {regs mode : Bool}
  {req : View → Req} {body : View → Except Flt State}

/-! ### What a matrix instruction asks (R13, R163) -/

theorem mtxReq_fault (h : MatrixReady s v names) (hreq : req v = mtxReq true regs mode names') (hr : regs = true)
    (hn : ∀ n ∈ names', n ∈ names) : (req v).fault v = if mode then none else some .illegalMode := by
  have hfree : lookaheadHit v.ctx.windows names' = false := lookaheadHit_mono hn h.1.2
  have hkind : matrixOnly v.kind = true := by rw [h.2]; rfl
  rw [hreq, hr]
  cases mode <;> simp [Req.fault, mtxReq, hkind, hfree]

theorem instr_matrix (h : MatrixReady s v names) (hreq : req v = mtxReq true regs mode names') (hr : regs = true) (hm : mode = true)
    (hn : ∀ n ∈ names', n ∈ names) (hb : body v = .ok u) : instr s req body = .next u :=
  instr_ok h.1.1 ((mtxReq_fault h hreq hr hn).trans (if_pos hm)) hb

theorem instr_matrix_error (h : MatrixReady s v names) (hreq : req v = mtxReq true regs mode names') (hr : regs = true) (hm : mode = true)
    (hn : ∀ n ∈ names', n ∈ names) {f : Flt} (hb : body v = .error f) : instr s req body = .next (park s v f 0 []) :=
  instr_error h.1.1 ((mtxReq_fault h hreq hr hn).trans (if_pos hm)) hb

theorem instr_matrix_mode (h : MatrixReady s v names) (hreq : req v = mtxReq true regs mode names') (hr : regs = true) (hm : mode = false)
    (hn : ∀ n ∈ names', n ∈ names) : instr s req body = .next (park s v { code := .illegalMode } 0 []) :=
  instr_fault h.1.1 ((mtxReq_fault h hreq hr hn).trans (if_neg (ne_true_of_eq_false hm)))

theorem openWindow_acc (op : Nat) (la : Fin 16) (d : Fin 4) :
    openWindow op la [.acc d] = some { op := op, left := la, names := [.acc d] } := by
  simp [openWindow, pendingNames]

theorem openWindow_tb (op : Nat) (la : Fin 16) (d : Fin 4) : openWindow op la [.tb d] = some { op := op, left := la, names := [.tb d] } := by
  simp [openWindow, pendingNames]

/-! ### Elements (R82, R273) -/

/-- The elements after a step at each place. -/
theorem getD_zipIdx_map {α : Type} (es : List α) (f : α × Nat → α) (e0 : α) {i : Nat} (hi : i < es.length) :
    (es.zipIdx.map f).getD i e0 = f (es.getD i e0, i) := by
  simp [List.getD_eq_getElem?_getD, hi]

theorem tile_zero_eq {g : Nat} (hg : g ≤ 5) : Tile.zero g =
    if g = 0 then .exact (List.replicate 4096 Xa.zero)
    else .semi g (List.replicate 4096 (([0, 0x7F800000, 0xFF800000, 0xFF800000, 0, 0x7F800000] : List Lane).getD g 0)) := by
  unfold Tile.zero
  interval_cases g <;> rfl

theorem plusTimes_getD {es : List Xa} {m n : Nat} (as bs : Array FVal) {i : Nat} (hi : i < es.length) :
    (plusTimes es m n k as bs).getD i Xa.zero = if i / 64 < m ∧ i % 64 < n then
      accumulate (es.getD i Xa.zero) k (fun q => valAt as (i / 64 * k + q)) (fun q => valAt bs (q * n + i % 64))
    else es.getD i Xa.zero := by
  rw [plusTimes, getD_zipIdx_map es _ _ hi]
  simp only [Bool.and_eq_true, decide_eq_true_eq]

theorem length_plusTimes (es : List Xa) (m n k : Nat) (as bs : Array FVal) : (plusTimes es m n k as bs).length = es.length := by
  simp [plusTimes]

/-! ### The other semirings (R82, R83) -/

/-- The pairs of types that the other semirings take (R266). -/
theorem pairK_semiring {g ta tb : Nat} (hg : g ≠ 0) (h : pairK g ta tb = some k) :
    k = 8 ∧ g ≤ 5 ∧ (g = 4 → ta = 5 ∧ tb = 5) ∧ (g ≠ 4 → ta = 10 ∧ tb = 10) := by
  unfold pairK at h
  split at h
  · exact absurd rfl hg
  · split at h
    next hc => exact ⟨(Option.some.inj h).symm, by decide, fun _ => by simpa using hc, fun h4 => absurd rfl h4⟩
    · cases h
  case h_7 => cases h
  all_goals
    split at h
    next hc => exact ⟨(Option.some.inj h).symm, by decide, fun h4 => absurd h4 (by decide), fun _ => by simpa using hc⟩
    · cases h

theorem isInf_iff (z : FVal) (neg : Bool) : z.isInf neg = true ↔ z = .inf neg := by
  cases z <;> simp [FVal.isInf]

/-- An element rounded to 32 bits. -/
def f32 (z : FVal) : Lane := BitVec.ofNat 32 (roundVal 10 { mode := 0 } z).1

section
variable (r : Rnd) (w : Lane) (y z : FVal) (ca cb : Nat)

theorem semiStep_minPlus : semiStep 1 r w y z ca cb =
    if y = .inf false ∨ z = .inf false then (f32 (fmin (fdecode 10 w.toNat) (.inf false)), 0)
    else (f32 (fmin (fdecode 10 w.toNat) (fdecode 10 (roundVal 10 { mode := 0 } (fadd 0 y z).1).1)),
      (fadd 0 y z).2 ||| (roundVal 10 { mode := 0 } (fadd 0 y z).1).2) := by
  simp only [semiStep, Bool.or_eq_true, isInf_iff]
  rfl

theorem semiStep_maxPlus : semiStep 2 r w y z ca cb =
    if y = .inf true ∨ z = .inf true then (f32 (fmax (fdecode 10 w.toNat) (.inf true)), 0)
    else (f32 (fmax (fdecode 10 w.toNat) (fdecode 10 (roundVal 10 { mode := 0 } (fadd 0 y z).1).1)),
      (fadd 0 y z).2 ||| (roundVal 10 { mode := 0 } (fadd 0 y z).1).2) := by
  simp only [semiStep, Bool.or_eq_true, isInf_iff]
  rfl

end

/-- The A factor of product `q` at place `i`. -/
def leftOf (v : View) (wa : List Lane) (i q : Nat) : FVal := valAt (valuesA wa 10 (mxM v.ctx.md) 8) (i / 64 * 8 + q)

/-- The B factor of product `q` at place `i`. -/
def rightOf (v : View) (wb : List Lane) (i q : Nat) : FVal := valAt (valuesB wb 10 8 (mxN v.ctx.md)) (q * mxN v.ctx.md + i % 64)

/-- What a step at place `i` does with product `q`. -/
def semiAt (s : State) (v : View) (wa wb : List Lane) (i q : Nat) (acc : Lane × Flags) : Lane × Flags :=
  let z := semiStep (mxSemi v.ctx.md) (productRnd s v (i / 64) (i % 64) q) acc.1 (leftOf v wa i q) (rightOf v wb i q) ((codesOf wa).getD (i / 64 * 8 + q) 0)
    ((codesOf wb).getD (q * mxN v.ctx.md + i % 64) 0)
  (z.1, acc.2 ||| z.2)

/-- The element at place `i` after the step, with its flags. -/
def semiResult (s : State) (v : View) (es wa wb : List Lane) (i : Nat) : Lane × Flags :=
  if i / 64 < mxM v.ctx.md ∧ i % 64 < mxN v.ctx.md then
    (List.range 8).foldl (fun acc q => semiAt s v wa wb i q acc) (es.getD i 0, 0)
  else (es.getD i 0, 0)

/-- A step of the other semirings, place by place. -/
theorem semiringStep_eq {es : List Lane} (wa wb : List Lane) (hlen : es.length = 4096) :
    semiringStep s v es wa wb = ((List.range 4096).map (fun i => (semiResult s v es wa wb i).1),
      flagsOr ((List.range 4096).map (fun i => (semiResult s v es wa wb i).2))) := by
  have hrs : es.zipIdx.map (fun p =>
      if decide (p.2 / 64 < mxM v.ctx.md) && decide (p.2 % 64 < mxN v.ctx.md) then
        (List.range 8).foldl (fun acc q => semiAt s v wa wb p.2 q acc) (p.1, (0 : Flags))
      else (p.1, 0)) = (List.range 4096).map (semiResult s v es wa wb) := by
    refine List.ext_getElem (by simp [hlen]) fun i hi hi' => ?_
    have hi4 : i < es.length := by simpa using hi
    simp only [List.getElem_map, List.getElem_zipIdx, List.getElem_range, Nat.zero_add, semiResult, Bool.and_eq_true, decide_eq_true_eq,
      List.getD_eq_getElem _ _ hi4]
  have hsplit : semiringStep s v es wa wb = (((List.range 4096).map (semiResult s v es wa wb)).map (·.1),
      flagsOr (((List.range 4096).map (semiResult s v es wa wb)).map (·.2))) := by
    rw [← hrs]
    rfl
  rw [hsplit, List.map_map, List.map_map]
  rfl

/-! ### The instructions -/

theorem execMzero_ready (h : MatrixReady s v [.acc d]) (hd : d.val < v.team.nacc) (hbusy : tileBusy s v d = false) (hsemi : mxSemi v.ctx.md ≤ 5) :
    execMzero d la s = .next (s.retire v { v.team with tiles := v.team.tiles.set d (Tile.zero (mxSemi v.ctx.md)) }
      (v.ctx.advance (v.ctx.pc + 4) (some { op := 0, left := la, names := [.acc d] }))) := by
  refine instr_matrix h rfl (decide_eq_true hd) (decide_eq_true hsemi) (fun _ hn => hn) ?_
  rw [hbusy, if_neg Bool.false_ne_true, mtxRetire, openWindow_acc]
  rfl

section
variable (h : MatrixReady s v (.acc d :: (fragNames a (fragRegs v.team.nl (mxTypeA v.ctx.md) (mxM v.ctx.md * k)) ++
    fragNames b (fragRegs v.team.nl (mxTypeB v.ctx.md) (k * mxN v.ctx.md)))))
  (hd : d.val < v.team.nacc) (hk : pairK (mxSemi v.ctx.md) (mxTypeA v.ctx.md) (mxTypeB v.ctx.md) = some k)
  (ha : a.val + fragRegs v.team.nl (mxTypeA v.ctx.md) (mxM v.ctx.md * k) ≤ v.team.nv)
  (hb : b.val + fragRegs v.team.nl (mxTypeB v.ctx.md) (k * mxN v.ctx.md) ≤ v.team.nv) (hrnd : mxSemi v.ctx.md = 3 → mxRnd v.ctx.md ≤ 5)
include h hd hk ha hb hrnd

/-- MMA's tests pass: only its body decides. -/
theorem mmaReq_fault : (mmaReq v d a b).fault v = none := by
  have hregs : (decide (d.val < v.team.nacc) && ((pairK (mxSemi v.ctx.md) (mxTypeA v.ctx.md) (mxTypeB v.ctx.md)).isNone ||
      (v.team.vRange a (fragRegs v.team.nl (mxTypeA v.ctx.md) (mxM v.ctx.md * k)) &&
        v.team.vRange b (fragRegs v.team.nl (mxTypeB v.ctx.md) (k * mxN v.ctx.md))))) = true := by
    simp [hd, Team.vRange, ha, hb]
  have hmode : ((pairK (mxSemi v.ctx.md) (mxTypeA v.ctx.md) (mxTypeB v.ctx.md)).isSome &&
      (mxSemi v.ctx.md != 3 || decide (mxRnd v.ctx.md ≤ 5))) = true := by
    by_cases h3 : mxSemi v.ctx.md = 3
    · simp [hk, hrnd h3]
    · simp [hk, h3]
  refine (mtxReq_fault (req := fun v => mmaReq v d a b) h ?_ hregs fun _ hn => hn).trans (if_pos hmode)
  simp only [mmaReq, hk, Option.getD_some]

theorem execMma_tag (ht : (v.team.tile d).tag ≠ mxSemi v.ctx.md) : execMma d a b la s = .next (park s v { code := .matrixShape } 0 []) :=
  instr_error h.1.1 (mmaReq_fault h hd hk ha hb hrnd) (if_pos ht)

theorem execMma_exact (hbusy : tileBusy s v d = false) {es : List Xa} (hsemi : mxSemi v.ctx.md = 0) (ht : v.team.tile d = .exact es) :
    execMma d a b la s = .next (s.retireEnding v
      { v.team with tiles := v.team.tiles.set d (.exact (plusTimes es (mxM v.ctx.md) (mxN v.ctx.md) k
        (valuesA (readFrag v.team a (mxTypeA v.ctx.md) (mxM v.ctx.md * k)) (mxTypeA v.ctx.md) (mxM v.ctx.md) k)
        (valuesB (readFrag v.team b (mxTypeB v.ctx.md) (k * mxN v.ctx.md)) (mxTypeB v.ctx.md) k (mxN v.ctx.md)))) }
      (v.ctx.advance (v.ctx.pc + 4) (some { op := 0, left := la, names := [.acc d] }))) := by
  have htag : (Tile.exact es).tag = mxSemi v.ctx.md := hsemi.symm
  refine instr_ok h.1.1 (mmaReq_fault h hd hk ha hb hrnd) ?_
  simp only [hk, Option.getD_some, hbusy, htag, ht, ne_eq, not_true, if_false, Bool.false_eq_true, mtxRetireEnding, openWindow_acc]
  rfl

theorem execMma_semiring (hbusy : tileBusy s v d = false) {es : List Lane} (ht : v.team.tile d = .semi (mxSemi v.ctx.md) es) :
    execMma d a b la s =
      (let wa := readFrag v.team a (mxTypeA v.ctx.md) (mxM v.ctx.md * k)
       let wb := readFrag v.team b (mxTypeB v.ctx.md) (k * mxN v.ctx.md)
       .next (s.retireEnding v { v.team with tiles := v.team.tiles.set d (.semi (mxSemi v.ctx.md) (semiringStep s v es wa wb).1) }
        ((v.ctx.raise (semiringStep s v es wa wb).2).advance (v.ctx.pc + 4) (some { op := 0, left := la, names := [.acc d] })))) := by
  refine instr_ok h.1.1 (mmaReq_fault h hd hk ha hb hrnd) ?_
  simp only [hk, Option.getD_some, hbusy, ht, Tile.tag, ne_eq, not_true, if_false, Bool.false_eq_true, mtxRetireEnding, openWindow_acc]
  rfl

end

section
variable (h : MatrixReady s v (.acc d :: .tb tb :: fragNames b (fragRegs v.team.nl (mxTypeB v.ctx.md) (k * mxN v.ctx.md))))
  (hd : d.val < v.team.nacc) (hsemi : mxSemi v.ctx.md = 0) (hk : pairK 0 (mxTypeA v.ctx.md) (mxTypeB v.ctx.md) = some k)
  (hb : b.val + fragRegs v.team.nl (mxTypeB v.ctx.md) (k * mxN v.ctx.md) ≤ v.team.nv) {es : List Xa} (ht : v.team.tile d = .exact es)
include h hd hsemi hk hb ht

/-- MMAS: a buffer of another shape is a fault, one that fits is added like an A fragment (R281). -/
theorem execMmas_ready :
    (¬ ((v.team.termBuf tb).valid = true ∧ (v.team.termBuf tb).typeA = mxTypeA v.ctx.md ∧ (v.team.termBuf tb).m = mxM v.ctx.md ∧
        (v.team.termBuf tb).k = k) → execMmas d tb b la s = .next (park s v { code := .matrixShape } 0 [])) ∧
    (tileBusy s v d = false → (v.team.termBuf tb).valid = true → (v.team.termBuf tb).typeA = mxTypeA v.ctx.md →
      (v.team.termBuf tb).m = mxM v.ctx.md → (v.team.termBuf tb).k = k → execMmas d tb b la s = .next (s.retireEnding v
        { v.team with tiles := v.team.tiles.set d (.exact (plusTimes es (mxM v.ctx.md) (mxN v.ctx.md) k
          (valuesA (v.team.termBuf tb).words (mxTypeA v.ctx.md) (mxM v.ctx.md) k)
          (valuesB (readFrag v.team b (mxTypeB v.ctx.md) (k * mxN v.ctx.md)) (mxTypeB v.ctx.md) k (mxN v.ctx.md)))) }
        (v.ctx.advance (v.ctx.pc + 4) (some { op := 0, left := la, names := [.acc d] })))) := by
  have hreq : mtxReq true (decide (d.val < v.team.nacc) && ((if mxSemi v.ctx.md = 0 then pairK 0 (mxTypeA v.ctx.md) (mxTypeB v.ctx.md)
        else none).isNone || v.team.vRange b (fragRegs v.team.nl (mxTypeB v.ctx.md)
          ((if mxSemi v.ctx.md = 0 then pairK 0 (mxTypeA v.ctx.md) (mxTypeB v.ctx.md) else none).getD 0 * mxN v.ctx.md))))
      (if mxSemi v.ctx.md = 0 then pairK 0 (mxTypeA v.ctx.md) (mxTypeB v.ctx.md) else none).isSome
      (.acc d :: .tb tb :: fragNames b (fragRegs v.team.nl (mxTypeB v.ctx.md)
        ((if mxSemi v.ctx.md = 0 then pairK 0 (mxTypeA v.ctx.md) (mxTypeB v.ctx.md) else none).getD 0 * mxN v.ctx.md))) =
      mtxReq true true true (.acc d :: .tb tb :: fragNames b (fragRegs v.team.nl (mxTypeB v.ctx.md) (k * mxN v.ctx.md))) := by
    simp [hsemi, hk, hd, Team.vRange, hb]
  refine ⟨fun hfit => instr_matrix_error h hreq rfl rfl (fun _ hn => hn) ?_,
    fun hbusy hvalid hta hm hkk => instr_matrix h hreq rfl rfl (fun _ hn => hn) ?_⟩
  · have hbad : (!(v.team.termBuf tb).valid || decide ((v.team.termBuf tb).typeA ≠ mxTypeA v.ctx.md) ||
        decide ((v.team.termBuf tb).m ≠ mxM v.ctx.md) || decide ((v.team.termBuf tb).k ≠ k)) = true := by
      by_contra hc
      simp only [Bool.or_eq_true, Bool.not_eq_true', decide_eq_true_eq, not_or, not_not, Bool.not_eq_false] at hc
      exact hfit ⟨hc.1.1.1, hc.1.1.2, hc.1.2, hc.2⟩
    simp only [ht, hk, Option.getD_some, hbad, if_true]
  · simp only [ht, hk, Option.getD_some, hvalid, hta, hm, hkk, hbusy, mtxRetireEnding, openWindow_acc, ne_eq, not_true, decide_false, Bool.not_true,
      Bool.or_self, Bool.false_eq_true, if_false]
    rfl

end

theorem execMsplit_ready (h : MatrixReady s v (.tb tb :: .s 1 :: fragNames a (fragRegs v.team.nl (mxTypeA v.ctx.md) (mxM v.ctx.md * k))))
    (hsemi : mxSemi v.ctx.md = 0) (hk : mxK (mxTypeA v.ctx.md) = some k) (hspat : mxSpat v.ctx.md = 1 ∨ mxSpat v.ctx.md = 2)
    (ha : a.val + fragRegs v.team.nl (mxTypeA v.ctx.md) (mxM v.ctx.md * k) ≤ v.team.nv) :
    execMsplit tb a la s = .next (s.retire v { v.team with tbs := v.team.tbs.set tb (splitBuffer v.ctx.md (v.ctx.getSN 1)
      (readFrag v.team a (mxTypeA v.ctx.md) (mxM v.ctx.md * k))) }
      (v.ctx.advance (v.ctx.pc + 4) (some { op := 0, left := la, names := [.tb tb] }))) := by
  refine instr_matrix (regs := true) (mode := true)
    (names' := .tb tb :: .s 1 :: fragNames a (fragRegs v.team.nl (mxTypeA v.ctx.md) (mxM v.ctx.md * k))) h ?_ rfl rfl (fun _ hn => hn) ?_
  · rcases hspat with hs | hs <;> simp [hsemi, hk, hs, Team.vRange, ha]
  · simp only [hk, Option.getD_some, mtxRetire, openWindow_tb]

theorem execMstat_ready (h : MatrixReady s v [.s x, .tb tb]) : execMstat x tb la s = .next (s.retire v v.team
    (if x = 0 then v.ctx.step4 else (v.ctx.setS x (v.team.termBuf tb).stat).advance ((v.ctx.setS x (v.team.termBuf tb).stat).pc + 4)
      (some { op := 0, left := la, names := [.s x] }))) := by
  refine instr_matrix h rfl rfl rfl (fun _ hn => hn) ?_
  by_cases hx : x = 0
  · subst hx
    rfl
  · have hw : openWindow 0 la [.s x] = some { op := 0, left := la, names := [.s x] } := by
      simp [openWindow, pendingNames, hx]
    simp only [mtxRetire, hw, if_neg hx]

end

/-! ### The semirings one by one (R82) -/

theorem codesOf_getD (ws : List Lane) (j : Nat) : BitVec.ofNat 32 ((codesOf ws).getD j 0) = ws.getD j 0 := by
  rw [codesOf, Array.getD_eq_getD_getElem?, List.getElem?_toArray, List.getElem?_map, List.getD_eq_getElem?_getD]
  cases ws[j]? <;> simp

section
variable {s : State} {v : View} {wa wb : List Lane} {i q : Nat} {acc : Lane × Flags}

theorem semiAt_minPlus (hg : mxSemi v.ctx.md = 1) : semiAt s v wa wb i q acc =
    if leftOf v wa i q = .inf false ∨ rightOf v wb i q = .inf false then (f32 (fmin (fdecode 10 acc.1.toNat) (.inf false)), acc.2)
    else (f32 (fmin (fdecode 10 acc.1.toNat) (fdecode 10 (roundVal 10 { mode := 0 } (fadd 0 (leftOf v wa i q) (rightOf v wb i q)).1).1)),
      acc.2 ||| (fadd 0 (leftOf v wa i q) (rightOf v wb i q)).2 |||
        (roundVal 10 { mode := 0 } (fadd 0 (leftOf v wa i q) (rightOf v wb i q)).1).2) := by
  simp only [semiAt, hg, semiStep_minPlus]
  split
  next => exact congrArg (Prod.mk _) BitVec.or_zero
  next => simp only [BitVec.or_assoc]

theorem semiAt_maxPlus (hg : mxSemi v.ctx.md = 2) : semiAt s v wa wb i q acc =
    if leftOf v wa i q = .inf true ∨ rightOf v wb i q = .inf true then (f32 (fmax (fdecode 10 acc.1.toNat) (.inf true)), acc.2)
    else (f32 (fmax (fdecode 10 acc.1.toNat) (fdecode 10 (roundVal 10 { mode := 0 } (fadd 0 (leftOf v wa i q) (rightOf v wb i q)).1).1)),
      acc.2 ||| (fadd 0 (leftOf v wa i q) (rightOf v wb i q)).2 |||
        (roundVal 10 { mode := 0 } (fadd 0 (leftOf v wa i q) (rightOf v wb i q)).1).2) := by
  simp only [semiAt, hg, semiStep_maxPlus]
  split
  next => exact congrArg (Prod.mk _) BitVec.or_zero
  next => simp only [BitVec.or_assoc]

theorem semiAt_maxTimes (hg : mxSemi v.ctx.md = 3) : semiAt s v wa wb i q acc =
    (f32 (fmax (fdecode 10 acc.1.toNat)
        (fdecode 10 (roundVal 10 (productRnd s v (i / 64) (i % 64) q) (fmul (leftOf v wa i q) (rightOf v wb i q)).1).1)),
      acc.2 ||| (fmul (leftOf v wa i q) (rightOf v wb i q)).2 |||
        (roundVal 10 (productRnd s v (i / 64) (i % 64) q) (fmul (leftOf v wa i q) (rightOf v wb i q)).1).2) := by
  simp only [semiAt, hg, BitVec.or_assoc]
  rfl

theorem semiAt_orAnd (hg : mxSemi v.ctx.md = 4) : semiAt s v wa wb i q acc =
    (acc.1 ||| (wa.getD (i / 64 * 8 + q) 0 &&& wb.getD (q * mxN v.ctx.md + i % 64) 0), acc.2) := by
  simp only [semiAt, hg, semiStep, codesOf_getD, Prod.mk.injEq, true_and]
  exact BitVec.or_zero

theorem semiAt_minMax (hg : mxSemi v.ctx.md = 5) : semiAt s v wa wb i q acc =
    (f32 (fmin (fdecode 10 acc.1.toNat) (fmax (leftOf v wa i q) (rightOf v wb i q))), acc.2) := by
  simp only [semiAt, hg, semiStep, Prod.mk.injEq]
  exact ⟨rfl, BitVec.or_zero⟩

end

/-! ### The tile instructions together -/

section
variable {s : State} {v : View} {d : Fin 4} {a b : Fin 64} {la : Fin 16} {k : Nat}

/-- MMA under another semiring: `step` is what its step does with one product. -/
theorem execMma_steps
    (h : MatrixReady s v (.acc d :: (fragNames a (fragRegs v.team.nl (mxTypeA v.ctx.md) (mxM v.ctx.md * k)) ++
      fragNames b (fragRegs v.team.nl (mxTypeB v.ctx.md) (k * mxN v.ctx.md)))))
    (hd : d.val < v.team.nacc) (hk : pairK (mxSemi v.ctx.md) (mxTypeA v.ctx.md) (mxTypeB v.ctx.md) = some k)
    (ha : a.val + fragRegs v.team.nl (mxTypeA v.ctx.md) (mxM v.ctx.md * k) ≤ v.team.nv)
    (hb : b.val + fragRegs v.team.nl (mxTypeB v.ctx.md) (k * mxN v.ctx.md) ≤ v.team.nv) (hrnd : mxSemi v.ctx.md = 3 → mxRnd v.ctx.md ≤ 5)
    (hbusy : tileBusy s v d = false) {es : List Lane} (ht : v.team.tile d = .semi (mxSemi v.ctx.md) es) (hlen : es.length = 4096) (hk8 : k = 8)
    {step : Nat → Lane × Flags → Nat → Lane × Flags}
    (hstep : ∀ i acc q, step i acc q = semiAt s v (readFrag v.team a (mxTypeA v.ctx.md) (mxM v.ctx.md * k))
      (readFrag v.team b (mxTypeB v.ctx.md) (k * mxN v.ctx.md)) i q acc) :
    let result := fun i => if i / 64 < mxM v.ctx.md ∧ i % 64 < mxN v.ctx.md then (List.range k).foldl (step i) (es.getD i 0, 0) else (es.getD i 0, 0)
    ∃ new : List Lane, new.length = 4096 ∧ (∀ i < 4096, new.getD i 0 = (result i).1) ∧
      exec (.mma d a b la) s = .next (s.retireEnding v { v.team with tiles := v.team.tiles.set d (.semi (mxSemi v.ctx.md) new) }
        ((v.ctx.raise (flagsOr ((List.range 4096).map (fun i => (result i).2)))).advance (v.ctx.pc + 4)
          (some { op := 0, left := la, names := [.acc d] }))) := by
  intro result
  have hresult : result = semiResult s v es (readFrag v.team a (mxTypeA v.ctx.md) (mxM v.ctx.md * k))
      (readFrag v.team b (mxTypeB v.ctx.md) (k * mxN v.ctx.md)) := by
    funext i
    simp only [result, semiResult, ← hstep]
    rw [hk8]
  refine ⟨(List.range 4096).map (fun i => (result i).1), by simp, fun i hi => ?_, ?_⟩
  · simp [List.getD_eq_getElem?_getD, hi]
  · refine (execMma_semiring h hd hk ha hb hrnd hbusy ht).trans ?_
    simp only [semiringStep_eq _ _ hlen, hresult]

/-- What a product does to an element under a semiring, the words of the fragments given for the bit semiring. -/
def ringStep (s : State) (v : View) (g : Nat) (left right : FVal) (wordA wordB : Lane) (m n q : Nat) (acc : Lane × Flags) : Lane × Flags :=
  let value := fun (x : FVal) => BitVec.ofNat 32 (roundVal 10 { mode := 0 } x).1
  let old := fdecode 10 acc.1.toNat
  let sum := roundVal 10 { mode := 0 } (fadd 0 left right).1
  let product := roundVal 10 (productRnd s v m n q) (fmul left right).1
  match g with
  | 1 => if left = .inf false ∨ right = .inf false then (value (fmin old (.inf false)), acc.2)
    else (value (fmin old (fdecode 10 sum.1)), acc.2 ||| (fadd 0 left right).2 ||| sum.2)
  | 2 => if left = .inf true ∨ right = .inf true then (value (fmax old (.inf true)), acc.2)
    else (value (fmax old (fdecode 10 sum.1)), acc.2 ||| (fadd 0 left right).2 ||| sum.2)
  | 3 => (value (fmax old (fdecode 10 product.1)), acc.2 ||| (fmul left right).2 ||| product.2)
  | 4 => (acc.1 ||| (wordA &&& wordB), acc.2)
  | _ => (value (fmin old (fmax left right)), acc.2)

theorem semiAt_eq_ringStep {wa wb : List Lane} {i q : Nat} {acc : Lane × Flags} (h0 : mxSemi v.ctx.md ≠ 0) (h5 : mxSemi v.ctx.md ≤ 5) :
    semiAt s v wa wb i q acc = ringStep s v (mxSemi v.ctx.md) (leftOf v wa i q) (rightOf v wb i q) (wa.getD (i / 64 * 8 + q) 0)
      (wb.getD (q * mxN v.ctx.md + i % 64) 0) (i / 64) (i % 64) q acc := by
  have hcases : mxSemi v.ctx.md = 1 ∨ mxSemi v.ctx.md = 2 ∨ mxSemi v.ctx.md = 3 ∨ mxSemi v.ctx.md = 4 ∨ mxSemi v.ctx.md = 5 := by omega
  rcases hcases with hg | hg | hg | hg | hg
  · rw [semiAt_minPlus hg, hg]
    rfl
  · rw [semiAt_maxPlus hg, hg]
    rfl
  · rw [semiAt_maxTimes hg, hg]
    rfl
  · rw [semiAt_orAnd hg, hg]
    rfl
  · rw [semiAt_minMax hg, hg]
    rfl

/-- Only the bit semiring looks at the words. -/
theorem ringStep_words {g m n q : Nat} {left right : FVal} {acc : Lane × Flags} (hg : g ≠ 4) (wa wb wa' wb' : Lane) :
    ringStep s v g left right wa wb m n q acc = ringStep s v g left right wa' wb' m n q acc := by
  unfold ringStep
  split
  case h_4 => exact absurd rfl hg
  all_goals rfl

/-- A step of a semiring in the words of the obligation: the bit semiring reads 32-bit words, the others 32-bit numbers. -/
theorem ringStep_eq_semiAt {a b : Fin 64} {i q k : Nat} {acc : Lane × Flags} (h0 : mxSemi v.ctx.md ≠ 0)
    (hk : pairK (mxSemi v.ctx.md) (mxTypeA v.ctx.md) (mxTypeB v.ctx.md) = some k) :
    ringStep s v (mxSemi v.ctx.md)
        (valAt (valuesA (readFrag v.team a (mxTypeA v.ctx.md) (mxM v.ctx.md * k)) (mxTypeA v.ctx.md) (mxM v.ctx.md) k) (i / 64 * k + q))
        (valAt (valuesB (readFrag v.team b (mxTypeB v.ctx.md) (k * mxN v.ctx.md)) (mxTypeB v.ctx.md) k (mxN v.ctx.md)) (q * mxN v.ctx.md + i % 64))
        ((readFrag v.team a 5 (mxM v.ctx.md * k)).getD (i / 64 * k + q) 0) ((readFrag v.team b 5 (k * mxN v.ctx.md)).getD (q * mxN v.ctx.md + i % 64) 0)
        (i / 64) (i % 64) q acc =
      semiAt s v (readFrag v.team a (mxTypeA v.ctx.md) (mxM v.ctx.md * k)) (readFrag v.team b (mxTypeB v.ctx.md) (k * mxN v.ctx.md)) i q acc := by
  obtain ⟨hk8, h5, h4, hne⟩ := pairK_semiring h0 hk
  rw [semiAt_eq_ringStep h0 h5, hk8]
  by_cases hg4 : mxSemi v.ctx.md = 4
  · obtain ⟨hta, htb⟩ := h4 hg4
    rw [hg4, hta, htb]
    rfl
  · obtain ⟨hta, htb⟩ := hne hg4
    rw [hta, htb]
    exact ringStep_words hg4 _ _ _ _

end

end Sys2Proof.Machine.Matrices

/-! ## MSPLIT: the residual lists, what is dropped and the buffer left (R277 to R280) -/

namespace Sys2Proof.Machine.Siphon

-- one proof after another: side by side they take more threads than the check's memory limit has stacks for
set_option Elab.async false

/-! ### The sort keeps the order of equal keys -/

section
variable {α : Type} (key : α → Nat) {T : α → α → Prop}

theorem insertBy_perm (x : α) (l : List α) : (insertBy key x l).Perm (x :: l) := by
  induction l with
  | nil => exact .refl _
  | cons y r ih =>
    unfold insertBy
    split
    · exact .refl _
    · exact (ih.cons y).trans (.swap x y r)

theorem foldl_insertBy_perm (l acc : List α) : (l.foldl (fun acc x => insertBy key x acc) acc).Perm (acc ++ l) := by
  induction l generalizing acc with
  | nil => simp
  | cons x l ih => exact (ih _).trans (((insertBy_perm key x acc).append_right l).trans List.perm_middle.symm)

theorem sortBy_perm (l : List α) : (sortBy key l).Perm l := foldl_insertBy_perm key l []

/-- Smaller keys first, elements of one key as `T` orders them. -/
def KeyThen (key : α → Nat) (T : α → α → Prop) (x y : α) : Prop := key x < key y ∨ key x = key y ∧ T x y

theorem insertBy_pairwise {x : α} {l : List α} (hl : l.Pairwise (KeyThen key T)) (hx : ∀ y ∈ l, T y x) :
    (insertBy key x l).Pairwise (KeyThen key T) := by
  induction l with
  | nil => exact List.pairwise_singleton _ _
  | cons y r ih =>
    obtain ⟨hy, hr⟩ := List.pairwise_cons.mp hl
    unfold insertBy
    split
    next hlt =>
      refine List.pairwise_cons.mpr ⟨fun z hz => .inl ?_, hl⟩
      rcases List.mem_cons.mp hz with rfl | hz
      · exact hlt
      · rcases hy z hz with h | h <;> omega
    next hle =>
      refine List.pairwise_cons.mpr ⟨fun z hz => ?_, ih hr fun z hz => hx z (.tail _ hz)⟩
      rcases List.mem_cons.mp ((insertBy_perm key x r).mem_iff.mp hz) with rfl | hz
      · rcases Nat.lt_or_ge (key y) (key z) with h | h
        · exact .inl h
        · exact .inr ⟨by omega, hx y (.head _)⟩
      · exact hy z hz

theorem foldl_insertBy_pairwise {l acc : List α} (hacc : acc.Pairwise (KeyThen key T)) (hl : l.Pairwise T) (hb : ∀ y ∈ acc, ∀ x ∈ l, T y x) :
    (l.foldl (fun acc x => insertBy key x acc) acc).Pairwise (KeyThen key T) := by
  induction l generalizing acc with
  | nil => exact hacc
  | cons x l ih =>
    obtain ⟨hx, hl'⟩ := List.pairwise_cons.mp hl
    refine ih (insertBy_pairwise key hacc fun y hy => hb y hy x (.head _)) hl' fun y hy z hz => ?_
    rcases List.mem_cons.mp ((insertBy_perm key x acc).mem_iff.mp hy) with rfl | hy
    · exact hx z hz
    · exact hb y hy z (.tail _ hz)

theorem sortBy_pairwise {l : List α} (hl : l.Pairwise T) : (sortBy key l).Pairwise (KeyThen key T) :=
  foldl_insertBy_pairwise key .nil hl fun _ hy => nomatch hy

end

/-! ### The residual list (R278) -/

/-- By row, then by column. -/
def SipBefore (x z : SipEl) : Prop := x.m < z.m ∨ x.m = z.m ∧ x.k < z.k

section
variable (a : Array FVal) (k group : Nat) (e0 : Int)

/-- The nonzero elements of one group of a row. -/
def groupEls (i g : Nat) : List SipEl :=
  (List.range group).filterMap (fun q =>
    if (valAt a (i * k + g * group + q)).nonzero then
      some { m := i, k := g * group + q, mag := magAt e0 (valAt a (i * k + g * group + q)) }
    else none)

theorem residual_eq (m t : Nat) : residual a m k group t e0 =
    (List.range m).flatMap (fun i => (List.range (k / group)).flatMap (fun g => (groupEls a k group e0 i g).drop (2 * t))) := rfl

variable {a k group e0}

theorem mem_groupEls {i g : Nat} {x : SipEl} (h : x ∈ groupEls a k group e0 i g) : x.m = i ∧ ∃ q < group, x.k = g * group + q := by
  obtain ⟨q, hq, hx⟩ := List.mem_filterMap.mp h
  split at hx
  · cases hx
    exact ⟨rfl, q, List.mem_range.mp hq, rfl⟩
  · cases hx

theorem groupEls_pairwise (i g : Nat) : (groupEls a k group e0 i g).Pairwise SipBefore := by
  refine List.pairwise_filterMap.mpr (List.pairwise_lt_range.imp ?_)
  intro q q' hlt x hx z hz
  split at hx
  · split at hz
    · cases hx
      cases hz
      exact .inr ⟨rfl, Nat.add_lt_add_left hlt _⟩
    · cases hz
  · cases hx

theorem group_lt {g g' q q' : Nat} (hg : g < g') (hq : q < group) : g * group + q < g' * group + q' := by
  have hmul : (g + 1) * group ≤ g' * group := Nat.mul_le_mul_right _ hg
  rw [Nat.succ_mul] at hmul
  omega

theorem residual_pairwise (m t : Nat) : (residual a m k group t e0).Pairwise SipBefore := by
  rw [residual_eq]
  refine List.pairwise_flatMap.mpr ⟨fun i _ => List.pairwise_flatMap.mpr ⟨fun g _ => (groupEls_pairwise i g).drop, ?_⟩, ?_⟩
  · refine List.pairwise_lt_range.imp fun hg x hx z hz => ?_
    obtain ⟨hxm, q, hq, hxk⟩ := mem_groupEls (List.mem_of_mem_drop hx)
    obtain ⟨hzm, q', hq', hzk⟩ := mem_groupEls (List.mem_of_mem_drop hz)
    exact .inr ⟨hxm.trans hzm.symm, hxk ▸ hzk ▸ group_lt hg hq⟩
  · refine List.pairwise_lt_range.imp fun hi x hx z hz => ?_
    obtain ⟨g, _, hx⟩ := List.mem_flatMap.mp hx
    obtain ⟨g', _, hz⟩ := List.mem_flatMap.mp hz
    exact .inl ((mem_groupEls (List.mem_of_mem_drop hx)).1 ▸ (mem_groupEls (List.mem_of_mem_drop hz)).1 ▸ hi)

/-- Every entry names an element of the fragment. -/
theorem residual_lt {m t : Nat} {x : SipEl} (h : x ∈ residual a m k group t e0) : x.m * k + x.k < m * k := by
  rw [residual_eq] at h
  obtain ⟨i, hi, h⟩ := List.mem_flatMap.mp h
  obtain ⟨g, hg, h⟩ := List.mem_flatMap.mp h
  obtain ⟨hm, q, hq, hk⟩ := mem_groupEls (List.mem_of_mem_drop h)
  have hgk : (g + 1) * group ≤ k := (Nat.mul_le_mul_right _ (List.mem_range.mp hg)).trans (Nat.div_mul_le_self k group)
  have hik : (i + 1) * k ≤ m * k := Nat.mul_le_mul_right _ (List.mem_range.mp hi)
  rw [Nat.succ_mul] at hgk hik
  rw [hm, hk]
  omega

end

/-! ### What is dropped (R279) -/

/-- The sum of the magnitudes. -/
def massOf (xs : List SipEl) : Nat := (xs.map SipEl.mag).sum

theorem foldl_add_eq_sum {α : Type} (f : α → Nat) (l : List α) (n : Nat) : l.foldl (fun n x => n + f x) n = n + (l.map f).sum := by
  induction l generalizing n with
  | nil => rfl
  | cons x l ih => rw [List.foldl_cons, ih, List.map_cons, List.sum_cons, Nat.add_assoc]

section
variable {bound : Option (Nat × Int)} {l1 len : Nat}

/-- Whether entry `j` may be dropped after `n` entries of a mass have been. -/
def GoesOn (bound : Option (Nat × Int)) (l1 len mass n : Nat) (xs : List SipEl) (j : Nat) : Prop :=
  128 + (n + j) < len ∧ massAllowed bound l1 (mass + massOf (xs.take (j + 1))) = true

theorem goesOn_succ {mass n j : Nat} {x : SipEl} {xs : List SipEl} :
    GoesOn bound l1 len mass n (x :: xs) (j + 1) ↔ GoesOn bound l1 len (mass + x.mag) (n + 1) xs j := by
  simp only [GoesOn, massOf, List.take_succ_cons, List.map_cons, List.sum_cons, Nat.add_assoc, Nat.add_comm 1 j]

theorem goesOn_zero {mass n : Nat} {x : SipEl} {xs : List SipEl} :
    GoesOn bound l1 len mass n (x :: xs) 0 ↔ 128 + n < len ∧ massAllowed bound l1 (mass + x.mag) = true := by
  simp [GoesOn, massOf]

theorem dropFrom_cons {mass n : Nat} {x : SipEl} {xs : List SipEl} [Decidable (GoesOn bound l1 len mass n (x :: xs) 0)] :
    dropFrom bound l1 len mass n (x :: xs) =
      if GoesOn bound l1 len mass n (x :: xs) 0 then x :: dropFrom bound l1 len (mass + x.mag) (n + 1) xs else [] := by
  rw [dropFrom]
  by_cases hlen : len - n ≤ 128
  · rw [if_pos hlen, if_neg fun h => absurd (goesOn_zero.mp h).1 (by omega)]
  · rw [if_neg hlen]
    cases hm : massAllowed bound l1 (mass + x.mag) with
    | false => rw [if_neg fun h => absurd (goesOn_zero.mp h).2 (by simp [hm])]; rfl
    | true => rw [if_pos (goesOn_zero.mpr ⟨by omega, hm⟩)]; rfl

/-- The entries are dropped in order, as long as dropping may go on and an entry is left. -/
theorem dropFrom_spec (xs : List SipEl) (mass n : Nat) :
    let d := dropFrom bound l1 len mass n xs
    d <+: xs ∧ (∀ j < d.length, GoesOn bound l1 len mass n xs j) ∧ (d.length < xs.length → ¬ GoesOn bound l1 len mass n xs d.length) := by
  induction xs generalizing mass n with
  | nil => exact ⟨List.prefix_rfl, fun _ hj => absurd hj (Nat.not_lt_zero _), fun h => absurd h (Nat.lt_irrefl 0)⟩
  | cons x xs ih =>
    classical
    obtain ⟨hpre, hgo, hstop⟩ := ih (mass + x.mag) (n + 1)
    rw [dropFrom_cons]
    split
    next h0 =>
      refine ⟨List.cons_prefix_cons.mpr ⟨rfl, hpre⟩, fun j hj => ?_, fun hlt => ?_⟩
      · cases j with
        | zero => exact h0
        | succ j => exact goesOn_succ.mpr (hgo j (Nat.lt_of_succ_lt_succ hj))
      · exact fun h => hstop (Nat.lt_of_succ_lt_succ hlt) (goesOn_succ.mp h)
    next h0 => exact ⟨List.nil_prefix, fun _ hj => absurd hj (Nat.not_lt_zero _), fun _ => h0⟩

end

/-- The entries that MSPLIT drops of a residual list. -/
def droppedOf (bound : Option (Option (Nat × Int))) (l1 : Nat) (r : List SipEl) : List SipEl :=
  match bound with
  | none => []
  | some b => if 128 < r.length then dropFrom b l1 r.length 0 0 (sortBy SipEl.mag r) else []

theorem droppedOf_spec (bound : Option (Option (Nat × Int))) (l1 : Nat) (r : List SipEl) :
    droppedOf bound l1 r = (sortBy SipEl.mag r).take (droppedOf bound l1 r).length ∧
    (∀ j < (droppedOf bound l1 r).length, ∃ b, bound = some b ∧ GoesOn b l1 r.length 0 0 (sortBy SipEl.mag r) j) ∧
    (∀ b, bound = some b → ¬ GoesOn b l1 r.length 0 0 (sortBy SipEl.mag r) (droppedOf bound l1 r).length) := by
  cases bound with
  | none => exact ⟨rfl, fun _ hj => absurd hj (Nat.not_lt_zero _), fun b hb => nomatch hb⟩
  | some b =>
    by_cases hlen : 128 < r.length
    · rw [show droppedOf (some b) l1 r = dropFrom b l1 r.length 0 0 (sortBy SipEl.mag r) from if_pos hlen]
      obtain ⟨hpre, hgo, hstop⟩ := dropFrom_spec (bound := b) (l1 := l1) (len := r.length) (sortBy SipEl.mag r) 0 0
      refine ⟨List.prefix_iff_eq_take.mp hpre, fun j hj => ⟨b, rfl, hgo j hj⟩, ?_⟩
      rintro _ ⟨⟩ hgoes
      refine hstop ?_ hgoes
      rw [(sortBy_perm SipEl.mag r).length_eq]
      have := hgoes.1
      omega
    · rw [show droppedOf (some b) l1 r = [] from if_neg hlen]
      refine ⟨rfl, fun _ hj => absurd hj (Nat.not_lt_zero _), fun b' _ hgoes => hlen ?_⟩
      have := hgoes.1
      omega

/-! ### The bound (R279) -/

theorem dropBound_some {md : BitVec 26} {s1 : Word} {a : Array FVal} {b : Option (Nat × Int)} (h : dropBound md s1 a = some b) :
    mxDrop md = true ∧ (∀ x ∈ a.toList, x.isFin = true) ∧
      (b = none ∧ fdecode 10 (s1.toNat % 2 ^ 32) = .inf false ∨
        ∃ mb eb, b = some (mb, eb) ∧ 0 < mb ∧ fdecode 10 (s1.toNat % 2 ^ 32) = .fin false mb eb) := by
  unfold dropBound at h
  split at h
  · cases h
  next hc =>
    simp only [Bool.or_eq_true, Bool.not_eq_true', not_or, Bool.not_eq_false, Array.any_eq_true'] at hc
    obtain ⟨hd, hfin⟩ := hc
    refine ⟨hd, fun x hx => by_contra fun hn => hfin ⟨x, by simpa using hx, by simpa using hn⟩, ?_⟩
    split at h
    next m e heq =>
      split at h
      · cases h
      next hm =>
        cases h
        exact .inr ⟨m, e, rfl, Nat.pos_of_ne_zero hm, heq⟩
    next heq =>
      cases h
      exact .inl ⟨rfl, heq⟩
    · cases h

theorem dropBound_none {md : BitVec 26} {s1 : Word} {a : Array FVal} (h : dropBound md s1 a = none) :
    ¬ (mxDrop md = true ∧ (∀ x ∈ a.toList, x.isFin = true) ∧
      (fdecode 10 (s1.toNat % 2 ^ 32) = .inf false ∨ ∃ mb eb, 0 < mb ∧ fdecode 10 (s1.toNat % 2 ^ 32) = .fin false mb eb)) := by
  rintro ⟨hd, hfin, hbound⟩
  have hany : a.any (fun v => !v.isFin) = false := by
    rw [← Array.any_toList]
    exact List.any_eq_false.mpr fun x hx => by simp [hfin x hx]
  rw [dropBound, hd, hany, if_neg (by simp)] at h
  rcases hbound with hb | ⟨mb, eb, hmb, hb⟩
  · rw [hb] at h
    cases h
  · simp only [hb, if_neg hmb.ne'] at h
    cases h

/-- The bound's test in whole numbers is its test in numbers. -/
theorem massAllowed_some_iff (mb : Nat) (eb e0 : Int) (l1 mass : Nat) : massAllowed (some (mb, eb)) l1 mass = true ↔
    (mass : ℝ) * 2 ^ e0 ≤ (mb : ℝ) * 2 ^ eb * ((l1 : ℝ) * 2 ^ e0) := by
  have h0 : (0 : ℝ) < 2 ^ e0 := zpow_pos two_pos e0
  have hn : (0 : ℝ) < 2 ^ (-eb).toNat := by positivity
  have hpow : (2 : ℝ) ^ eb * 2 ^ (-eb).toNat = 2 ^ eb.toNat := by
    rw [← zpow_natCast, ← zpow_natCast, ← zpow_add₀ two_ne_zero]
    congr 1
    omega
  calc massAllowed (some (mb, eb)) l1 mass = true
      ↔ mass * 2 ^ (-eb).toNat ≤ mb * l1 * 2 ^ eb.toNat := decide_eq_true_iff
    _ ↔ (mass : ℝ) * 2 ^ (-eb).toNat ≤ (mb : ℝ) * l1 * 2 ^ eb.toNat := by exact_mod_cast Iff.rfl
    _ ↔ (mass : ℝ) * 2 ^ (-eb).toNat ≤ ((mb : ℝ) * 2 ^ eb * l1) * 2 ^ (-eb).toNat := by
      rw [← hpow]
      ring_nf
    _ ↔ (mass : ℝ) ≤ (mb : ℝ) * 2 ^ eb * l1 := mul_le_mul_iff_left₀ hn
    _ ↔ (mass : ℝ) * 2 ^ e0 ≤ ((mb : ℝ) * 2 ^ eb * l1) * 2 ^ e0 := (mul_le_mul_iff_left₀ h0).symm
    _ ↔ _ := by rw [mul_assoc ((mb : ℝ) * 2 ^ eb)]

/-! ### The least number of terms -/

theorem splitTerms_eq_find (a : Array FVal) (m k group : Nat) (e0 : Int) (l1 : Nat) (bound : Option (Option (Nat × Int))) (ts : List Nat) :
    splitTerms a m k group e0 l1 bound ts =
      (ts.find? (fun t => decide ((residual a m k group t e0).length - (droppedOf bound l1 (residual a m k group t e0)).length ≤ 128))).map
        (fun t => (t, (residual a m k group t e0).length - (droppedOf bound l1 (residual a m k group t e0)).length,
          droppedOf bound l1 (residual a m k group t e0))) := by
  induction ts with
  | nil => rfl
  | cons t rest ih =>
    rw [List.find?_cons]
    change (if (residual a m k group t e0).length - (droppedOf bound l1 (residual a m k group t e0)).length ≤ 128 then
      some (t, (residual a m k group t e0).length - (droppedOf bound l1 (residual a m k group t e0)).length,
        droppedOf bound l1 (residual a m k group t e0)) else splitTerms a m k group e0 l1 bound rest) = _
    by_cases hfit : (residual a m k group t e0).length - (droppedOf bound l1 (residual a m k group t e0)).length ≤ 128
    · rw [if_pos hfit, decide_eq_true hfit]
      rfl
    · rw [if_neg hfit, decide_eq_false hfit, ih]

/-- A search from 1 up to a number. -/
theorem find_upTo_eq_some {p : Nat → Bool} {n t : Nat} (h1 : 1 ≤ t) (hn : t ≤ n) (hp : p t = true) (hmin : ∀ t' < t, 1 ≤ t' → p t' = false) :
    ((List.range n).map (· + 1)).find? p = some t := by
  rw [List.find?_map]
  have hr : (List.range n).find? (p ∘ (· + 1)) = some (t - 1) := by
    refine List.find?_range_eq_some.mpr ⟨?_, List.mem_range.mpr (by omega), fun j hj => ?_⟩
    · simpa [Nat.sub_add_cancel h1] using hp
    · simp [hmin (j + 1) (by omega) (by omega)]
  rw [hr, Option.map_some, Nat.sub_add_cancel h1]

theorem find_upTo_eq_none {p : Nat → Bool} {n : Nat} (h : ∀ t, 1 ≤ t → t ≤ n → p t = false) : ((List.range n).map (· + 1)).find? p = none := by
  refine List.find?_eq_none.mpr fun t ht => ?_
  obtain ⟨i, hi, rfl⟩ := List.mem_map.mp ht
  simp [h (i + 1) (by omega) (List.mem_range.mp hi)]

/-! ### Clearing elements -/

/-- The types of a fragment hold 4, 8, 16 or 32 bits an element. -/
theorem fragBits_of_mxK {ty k : Nat} (h : mxK ty = some k) : fragBits ty = 4 ∨ fragBits ty = 8 ∨ fragBits ty = 16 ∨ fragBits ty = 32 := by
  unfold mxK at h
  split at h
  case h_9 => cases h
  all_goals decide

theorem length_clearElem (ty : Nat) (ws : List Lane) (i : Nat) : (clearElem ty ws i).length = ws.length := List.length_modify ..

theorem clearElem_getD (ty : Nat) (ws : List Lane) (i j : Nat) : (clearElem ty ws i).getD j 0 =
    if i * fragBits ty / 32 = j then ws.getD j 0 &&& ~~~ BitVec.ofNat 32 ((2 ^ fragBits ty - 1) * 2 ^ (i * fragBits ty % 32)) else ws.getD j 0 := by
  rw [clearElem, List.getD_eq_getElem?_getD, List.getElem?_modify, List.getD_eq_getElem?_getD]
  cases ws[j]? <;> split <;> simp

/-- A field of a word with another field of its width cleared. -/
theorem field_and_not (w : Lane) {b sh sh' : Nat} (hsh' : sh' + b ≤ 32) (hdis : sh = sh' ∨ sh + b ≤ sh' ∨ sh' + b ≤ sh) :
    (w &&& ~~~ BitVec.ofNat 32 ((2 ^ b - 1) * 2 ^ sh)).toNat / 2 ^ sh' % 2 ^ b = if sh = sh' then 0 else w.toNat / 2 ^ sh' % 2 ^ b := by
  refine Nat.eq_of_testBit_eq fun n => ?_
  have hmask : ∀ i, ((2 ^ b - 1) * 2 ^ sh).testBit i = (decide (sh ≤ i) && decide (i - sh < b)) := fun i => by
    rw [Nat.testBit_mul_two_pow, Nat.testBit_two_pow_sub_one]
  have hl : ((w &&& ~~~ BitVec.ofNat 32 ((2 ^ b - 1) * 2 ^ sh)).toNat / 2 ^ sh' % 2 ^ b).testBit n =
      (decide (n < b) && (w.toNat.testBit (sh' + n) && !(decide (sh ≤ sh' + n) && decide (sh' + n - sh < b)))) := by
    rw [Nat.testBit_mod_two_pow, Nat.testBit_div_two_pow, Nat.add_comm n sh', BitVec.testBit_toNat, BitVec.getLsbD_and, BitVec.getLsbD_not,
      BitVec.getLsbD_ofNat, hmask, ← BitVec.testBit_toNat]
    by_cases hn : n < b
    · have h32 : sh' + n < 32 := by omega
      simp [hn, h32]
    · simp [hn]
  rw [hl]
  by_cases heq : sh = sh'
  · rw [if_pos heq, Nat.zero_testBit]
    by_cases hn : n < b
    · simp [hn, heq]
    · simp [hn]
  · rw [if_neg heq, Nat.testBit_mod_two_pow, Nat.testBit_div_two_pow, Nat.add_comm n sh']
    by_cases hn : n < b
    · have hout : (decide (sh ≤ sh' + n) && decide (sh' + n - sh < b)) = false := by
        simp only [Bool.and_eq_false_iff, decide_eq_false_iff_not]
        omega
      simp [hn, hout]
    · simp [hn]

theorem fragCode_clearElem {ty k : Nat} (hty : mxK ty = some k) (ws : List Lane) (i j : Nat) :
    fragCode (clearElem ty ws i).toArray ty j = if i = j then 0 else fragCode ws.toArray ty j := by
  have hget : ∀ (l : List Lane) (n : Nat), l.toArray.getD n 0 = l.getD n 0 := fun l n => by simp [List.getD_eq_getElem?_getD]
  unfold fragCode
  simp only [hget, clearElem_getD]
  by_cases hw : i * fragBits ty / 32 = j * fragBits ty / 32
  · have hshift : j * fragBits ty % 32 + fragBits ty ≤ 32 ∧ (i * fragBits ty % 32 = j * fragBits ty % 32 ∨
          i * fragBits ty % 32 + fragBits ty ≤ j * fragBits ty % 32 ∨ j * fragBits ty % 32 + fragBits ty ≤ i * fragBits ty % 32) ∧
        (i * fragBits ty % 32 = j * fragBits ty % 32 ↔ i = j) := by
      rcases fragBits_of_mxK hty with hb | hb | hb | hb <;> rw [hb] at hw ⊢ <;> omega
    obtain ⟨hle, hdis, hiff⟩ := hshift
    rw [if_pos hw, field_and_not _ hle hdis]
    simp only [hiff]
  · have hij : i ≠ j := fun h => hw (h ▸ rfl)
    rw [if_neg hw, if_neg hij]

/-- The words with the elements of some entries cleared. -/
def clearAll (ty k : Nat) (xs : List SipEl) (ws : List Lane) : List Lane := xs.foldl (fun ws e => clearElem ty ws (e.m * k + e.k)) ws

theorem length_clearAll (ty k : Nat) (xs : List SipEl) (ws : List Lane) : (clearAll ty k xs ws).length = ws.length := by
  induction xs generalizing ws with
  | nil => rfl
  | cons x xs ih => exact (ih _).trans (length_clearElem ..)

theorem clearAll_getD_scale {ty k count : Nat} {xs : List SipEl} (ws : List Lane) (hxs : ∀ x ∈ xs, x.m * k + x.k < count)
    (hb : 0 < fragBits ty) {j : Nat} (hj : elemWords ty count ≤ j) : (clearAll ty k xs ws).getD j 0 = ws.getD j 0 := by
  induction xs generalizing ws with
  | nil => rfl
  | cons x xs ih =>
    refine (ih _ fun y hy => hxs y (.tail _ hy)).trans ?_
    have hlt : (x.m * k + x.k + 1) * fragBits ty ≤ count * fragBits ty := Nat.mul_le_mul_right _ (hxs x (.head _))
    rw [Nat.succ_mul] at hlt
    rw [clearElem_getD, if_neg]
    unfold elemWords at hj
    omega

theorem fragCode_clearAll {ty K : Nat} (hty : mxK ty = some K) (k : Nat) (xs : List SipEl) (ws : List Lane) (i : Nat) :
    ((∃ x ∈ xs, x.m * k + x.k = i) → fragCode (clearAll ty k xs ws).toArray ty i = 0) ∧
    ((∀ x ∈ xs, x.m * k + x.k ≠ i) → fragCode (clearAll ty k xs ws).toArray ty i = fragCode ws.toArray ty i) := by
  induction xs using List.reverseRecOn with
  | nil => exact ⟨fun ⟨_, h, _⟩ => absurd h List.not_mem_nil, fun _ => rfl⟩
  | append_singleton xs x ih =>
    have hstep : clearAll ty k (xs ++ [x]) ws = clearElem ty (clearAll ty k xs ws) (x.m * k + x.k) := by
      simp [clearAll]
    rw [hstep, fragCode_clearElem hty]
    split
    next hx => exact ⟨fun _ => rfl, fun h => absurd hx (h x (by simp))⟩
    next hx =>
      refine ⟨fun ⟨y, hy, hyi⟩ => ih.1 ⟨y, ?_, hyi⟩, fun h => ih.2 fun y hy => h y (List.mem_append_left _ hy)⟩
      rcases List.mem_append.mp hy with hy | hy
      · exact hy
      · exact absurd (List.mem_singleton.mp hy ▸ hyi) hx

/-! ### The buffer -/

/-- A valid buffer of a mode, with these words and this statistic. -/
def bufferOf (md : BitVec 26) (k : Nat) (words : List Lane) (stat : Word) : TermBuf :=
  { valid := true, typeA := mxTypeA md, m := mxM md, k := k, spat := mxSpat md, words := words, stat := stat }

/-- The residual list of `t` terms of the values of a fragment (R278). -/
def residueOf (md : BitVec 26) (k : Nat) (a : Array FVal) (t : Nat) : List SipEl :=
  residual a (mxM md) k (if mxSpat md = 1 then 4 else 8) t (leastExp a)

/-- L1 (R279). -/
def l1Of (a : Array FVal) : Nat := (a.toList.map (magAt (leastExp a))).sum

/-- The entries dropped with `t` terms. -/
def dropAt (md : BitVec 26) (s1 : Word) (k : Nat) (a : Array FVal) (t : Nat) : List SipEl :=
  droppedOf (dropBound md s1 a) (l1Of a) (residueOf md k a t)

/-- Whether `t` terms leave no more than 128 entries. -/
def fitsAt (md : BitVec 26) (s1 : Word) (k : Nat) (a : Array FVal) (t : Nat) : Bool :=
  decide ((residueOf md k a t).length - (dropAt md s1 k a t).length ≤ 128)

/-- The buffer that keeps all entries but those dropped with `t` terms. -/
def bufferAt (md : BitVec 26) (s1 : Word) (k : Nat) (words : List Lane) (a : Array FVal) (t : Nat) : TermBuf :=
  bufferOf md k (clearAll (mxTypeA md) k (dropAt md s1 k a t) words)
    (BitVec.ofNat 64 ((roundVal 10 { mode := 0 } (.fin false (massOf (dropAt md s1 k a t)) (leastExp a))).1 * 2 ^ 32 +
      (dropAt md s1 k a t).length * 2 ^ 16 + ((residueOf md k a t).length - (dropAt md s1 k a t).length) * 2 ^ 8 + 2 ^ 4 + t))

section
variable {md : BitVec 26} {k : Nat} (s1 : Word) (words : List Lane)

/-- MSPLIT searches the term counts from 1 up. -/
theorem splitBuffer_eq (hk : mxK (mxTypeA md) = some k) :
    splitBuffer md s1 words =
      (((List.range (mxTmaxm1 md + 1)).map (· + 1)).find? (fitsAt md s1 k (valuesA words (mxTypeA md) (mxM md) k))).elim
        (bufferOf md k words (2 ^ 3 + 2 ^ 4)) (bufferAt md s1 k words (valuesA words (mxTypeA md) (mxM md) k)) := by
  have hl1 : ∀ a : Array FVal, a.toList.foldl (fun n v => n + magAt (leastExp a) v) 0 = l1Of a := fun a =>
    (foldl_add_eq_sum _ _ 0).trans (Nat.zero_add _)
  unfold splitBuffer
  simp only [hk, Option.getD_some, hl1]
  generalize valuesA words (mxTypeA md) (mxM md) k = a
  have hterms : splitTerms a (mxM md) k (if mxSpat md = 1 then 4 else 8) (leastExp a) (l1Of a) (dropBound md s1 a)
        ((List.range (mxTmaxm1 md + 1)).map (· + 1)) =
      (((List.range (mxTmaxm1 md + 1)).map (· + 1)).find? (fitsAt md s1 k a)).map
        (fun t => (t, (residueOf md k a t).length - (dropAt md s1 k a t).length, dropAt md s1 k a t)) := splitTerms_eq_find ..
  rw [hterms]
  cases ((List.range (mxTmaxm1 md + 1)).map (· + 1)).find? (fitsAt md s1 k a) with
  | none => rfl
  | some t =>
    simp only [Option.map_some, Option.elim_some, foldl_add_eq_sum, Nat.zero_add]
    rfl

/-- Whether dropping is allowed at all (R279). -/
def MayDrop (md : BitVec 26) (s1 : Word) (a : Array FVal) : Prop :=
  mxDrop md = true ∧ (∀ x ∈ a.toList, x.isFin = true) ∧
    (fdecode 10 (s1.toNat % 2 ^ 32) = .inf false ∨ ∃ mb eb, 0 < mb ∧ fdecode 10 (s1.toNat % 2 ^ 32) = .fin false mb eb)

/-- Whether the bound lets a mass of units of 2^`e0` go (R279). -/
def Within (s1 : Word) (e0 : Int) (l1 mass : Nat) : Prop :=
  fdecode 10 (s1.toNat % 2 ^ 32) = .inf false ∨
    ∃ mb eb, fdecode 10 (s1.toNat % 2 ^ 32) = .fin false mb eb ∧ (mass : ℝ) * 2 ^ e0 ≤ (mb : ℝ) * 2 ^ eb * ((l1 : ℝ) * 2 ^ e0)

theorem within_iff {a : Array FVal} {b : Option (Nat × Int)} {s1 : Word} (h : dropBound md s1 a = some b) (e0 : Int) (l1 mass : Nat) :
    Within s1 e0 l1 mass ↔ massAllowed b l1 mass = true := by
  obtain ⟨_, _, ⟨rfl, hinf⟩ | ⟨mb, eb, rfl, _, hfin⟩⟩ := dropBound_some h
  · exact iff_of_true (.inl hinf) rfl
  · rw [massAllowed_some_iff mb eb e0]
    refine ⟨fun hw => ?_, fun hle => .inr ⟨mb, eb, hfin, hle⟩⟩
    rcases hw with hinf | ⟨mb', eb', hfin', hle⟩
    · cases hinf.symm.trans hfin
    · cases hfin'.symm.trans hfin
      exact hle

/-- Entry `j` is dropped as long as dropping is allowed, an entry too many is left, and the mass stays within the bound. -/
theorem goes_iff (a : Array FVal) (t j : Nat) :
    MayDrop md s1 a ∧ 128 + j < (residueOf md k a t).length ∧
        Within s1 (leastExp a) (l1Of a) (massOf ((sortBy SipEl.mag (residueOf md k a t)).take (j + 1))) ↔
      ∃ b, dropBound md s1 a = some b ∧ GoesOn b (l1Of a) (residueOf md k a t).length 0 0 (sortBy SipEl.mag (residueOf md k a t)) j := by
  simp only [GoesOn, Nat.zero_add]
  constructor
  · rintro ⟨hmay, hlen, hw⟩
    cases hb : dropBound md s1 a with
    | none => exact absurd hmay (dropBound_none hb)
    | some b => exact ⟨b, rfl, hlen, (within_iff hb ..).mp hw⟩
  · rintro ⟨b, hb, hlen, hmass⟩
    obtain ⟨hd, hfin, hor⟩ := dropBound_some hb
    refine ⟨⟨hd, hfin, ?_⟩, hlen, (within_iff hb ..).mpr hmass⟩
    rcases hor with ⟨_, hinf⟩ | ⟨mb, eb, _, hpos, hval⟩
    · exact .inl hinf
    · exact .inr ⟨mb, eb, hpos, hval⟩

theorem dropAt_spec (a : Array FVal) (t : Nat) :
    let goes := fun j => MayDrop md s1 a ∧ 128 + j < (residueOf md k a t).length ∧
      Within s1 (leastExp a) (l1Of a) (massOf ((sortBy SipEl.mag (residueOf md k a t)).take (j + 1)))
    dropAt md s1 k a t = (sortBy SipEl.mag (residueOf md k a t)).take (dropAt md s1 k a t).length ∧
      (∀ j < (dropAt md s1 k a t).length, goes j) ∧ ¬ goes (dropAt md s1 k a t).length := by
  intro goes
  obtain ⟨htake, hgo, hstop⟩ := droppedOf_spec (dropBound md s1 a) (l1Of a) (residueOf md k a t)
  refine ⟨htake, fun j hj => (goes_iff s1 a t j).mpr (hgo j hj), fun h => ?_⟩
  obtain ⟨b, hb, hgoes⟩ := (goes_iff s1 a t _).mp h
  exact hstop b hb hgoes

theorem fitsAt_iff (a : Array FVal) (t : Nat) : fitsAt md s1 k a t = true ↔ (residueOf md k a t).length ≤ 128 + (dropAt md s1 k a t).length := by
  rw [fitsAt, decide_eq_true_eq]
  omega

/-- Every entry dropped names an element of the fragment. -/
theorem dropAt_lt {a : Array FVal} {t : Nat} {x : SipEl} (h : x ∈ dropAt md s1 k a t) : x.m * k + x.k < mxM md * k := by
  rw [(dropAt_spec s1 a t).1] at h
  exact residual_lt ((sortBy_perm SipEl.mag _).mem_iff.mp (List.mem_of_mem_take h))

end

end Sys2Proof.Machine.Siphon

/-! ## The matrix instructions (O36) -/

namespace Sys2Proof.Machine.Matrices

set_option Elab.async false

open Siphon

/-- MSPLIT's buffer (R277 to R280). -/
theorem splitBuffer_spec (md : BitVec 26) (s1 : Word) (words : List Lane) (k : Nat) (hk : mxK (mxTypeA md) = some k) :
     let ty := mxTypeA md
     let count := mxM md * k
     let y := splitBuffer md s1 words
     let a := valuesA words ty (mxM md) k
     let goes := fun (rising : List SipEl) (t j : Nat) => MayDrop md s1 a ∧ 128 + j < (residueOf md k a t).length ∧
       Within s1 (leastExp a) (l1Of a) (massOf (rising.take (j + 1)))
     y.valid = true ∧ y.typeA = ty ∧ y.m = mxM md ∧ y.k = k ∧ y.spat = mxSpat md ∧
     ∃ (rising : Nat → List SipEl) (n : Nat → Nat),
       (∀ t, (rising t).Perm (residueOf md k a t) ∧ (rising t).Pairwise (KeyThen SipEl.mag SipBefore) ∧
         (∀ j < n t, goes (rising t) t j) ∧ ¬ goes (rising t) t (n t)) ∧
       let fits := fun t => 1 ≤ t ∧ t ≤ mxTmaxm1 md + 1 ∧ (residueOf md k a t).length ≤ 128 + n t
       ((∀ t, ¬ fits t) → y.words = words ∧ y.stat = 2 ^ 3 + 2 ^ 4) ∧
       ∀ t, fits t → (∀ t' < t, ¬ fits t') →
         let dropped := (rising t).take (n t)
         y.stat = BitVec.ofNat 64 ((roundVal 10 { mode := 0 } (.fin false (massOf dropped) (leastExp a))).1 * 2 ^ 32 + n t * 2 ^ 16 +
           ((residueOf md k a t).length - n t) * 2 ^ 8 + 2 ^ 4 + t) ∧
         y.words.length = words.length ∧ (∀ j, elemWords ty count ≤ j → y.words.getD j 0 = words.getD j 0) ∧
         ∀ i < count, ((∃ x ∈ dropped, x.m * k + x.k = i) → fragCode y.words.toArray ty i = 0) ∧
           ((∀ x ∈ dropped, x.m * k + x.k ≠ i) → fragCode y.words.toArray ty i = fragCode words.toArray ty i) := by
  intro ty count y a goes
  have hbits : 0 < fragBits ty := by rcases fragBits_of_mxK hk with h | h | h | h <;> rw [h] <;> decide
  have hy : y = (((List.range (mxTmaxm1 md + 1)).map (· + 1)).find? (fitsAt md s1 k a)).elim (bufferOf md k words (2 ^ 3 + 2 ^ 4))
    (bufferAt md s1 k words a) := splitBuffer_eq s1 words hk
  have hfields : y.valid = true ∧ y.typeA = ty ∧ y.m = mxM md ∧ y.k = k ∧ y.spat = mxSpat md := by
    rw [hy]
    cases ((List.range (mxTmaxm1 md + 1)).map (· + 1)).find? (fitsAt md s1 k a) <;> exact ⟨rfl, rfl, rfl, rfl, rfl⟩
  obtain ⟨hvalid, hta, hm, hkk, hspat⟩ := hfields
  refine ⟨hvalid, hta, hm, hkk, hspat, fun t => sortBy SipEl.mag (residueOf md k a t), fun t => (dropAt md s1 k a t).length,
    fun t => ⟨sortBy_perm .., sortBy_pairwise _ (residual_pairwise ..), (dropAt_spec s1 a t).2⟩, ?_, ?_⟩
  · intro hnone
    have hfind : ((List.range (mxTmaxm1 md + 1)).map (· + 1)).find? (fitsAt md s1 k a) = none :=
      find_upTo_eq_none fun t h1 hle => Bool.eq_false_iff.mpr fun hfit => hnone t ⟨h1, hle, (fitsAt_iff s1 a t).mp hfit⟩
    rw [hy, hfind]
    exact ⟨rfl, rfl⟩
  · rintro t ⟨h1, hle, hfit⟩ hmin
    have hfind : ((List.range (mxTmaxm1 md + 1)).map (· + 1)).find? (fitsAt md s1 k a) = some t :=
      find_upTo_eq_some h1 hle ((fitsAt_iff s1 a t).mpr hfit) fun t' hlt h1' => Bool.eq_false_iff.mpr fun hfit' =>
        hmin t' hlt ⟨h1', by omega, (fitsAt_iff s1 a t').mp hfit'⟩
    rw [hy, hfind, ← (dropAt_spec s1 a t).1]
    exact ⟨rfl, length_clearAll .., fun j hj => clearAll_getD_scale words (fun x hx => dropAt_lt s1 hx) hbits hj,
      fun i _ => fragCode_clearAll hk k _ words i⟩

end Sys2Proof.Machine.Matrices

/-! ## Row ranges: MDRAIN, MXPORT and MXLOAD (R275, R276) -/

namespace Sys2Proof.Machine.Matrices

-- one proof after another: side by side they take more threads than the check's memory limit has stacks for
set_option Elab.async false

open Readiness Touching Accesses

/-! ### Row ranges (R275) -/

/-- The ranges R275 accepts: NROW rows from ROW0 on, within the tile's shape. -/
def RowsOk (x m : Nat) : Prop := x < 65536 ∧ x / 256 % 256 ≠ 0 ∧ x % 256 + x / 256 % 256 ≤ m

theorem rowRange_some {x : Word} {m : Nat} (h : RowsOk x.toNat m) : rowRange x m = some (x.toNat % 256, x.toNat / 256 % 256) := by
  obtain ⟨hx, hn, hle⟩ := h
  simp [rowRange, bits, hx, hn, hle]

theorem rowRange_none {x : Word} {m : Nat} (h : ¬ RowsOk x.toNat m) : rowRange x m = none := by
  unfold rowRange
  refine if_neg fun hc => h ?_
  obtain ⟨hxn, hle⟩ := Bool.and_eq_true_iff.mp hc
  obtain ⟨hx, hn⟩ := Bool.and_eq_true_iff.mp hxn
  have h0 : bits x.toNat 7 0 = x.toNat % 256 := by simp [bits]
  exact ⟨of_decide_eq_true hx, of_decide_eq_true hn, h0 ▸ of_decide_eq_true hle⟩

theorem mxN_pos (md : BitVec 26) : 0 < mxN md := by
  unfold mxN
  split <;> decide

section
variable {s : State} {v : View} {d : Fin 4} {x a b : Fin 64} {la : Fin 16}

theorem drainRegs_none (h : mxTypeD v.ctx.md ≤ 13 → ¬ RowsOk (v.ctx.getS b).toNat (mxM v.ctx.md)) : drainRegs v b = none := by
  unfold drainRegs
  by_cases hr : RowsOk (v.ctx.getS b).toNat (mxM v.ctx.md)
  · rw [rowRange_some hr]
    exact if_neg fun ht => h ht hr
  · rw [rowRange_none hr]

theorem drainRegs_some (ht : mxTypeD v.ctx.md ≤ 13) (hr : RowsOk (v.ctx.getS b).toNat (mxM v.ctx.md)) : drainRegs v b =
    some (regsFor v.team.nl (elemWords (mxTypeD v.ctx.md) ((v.ctx.getS b).toNat / 256 % 256 * mxN v.ctx.md))) := by
  unfold drainRegs
  rw [rowRange_some hr]
  exact if_pos ht

/-! ### MDRAIN (R275) -/

/-- A fragment of at least one register opens a window. -/
theorem openWindow_frag (op la base : Nat) {n : Nat} (hn : 0 < n) :
    openWindow op la (fragNames base n) = some { op := op, left := la, names := fragNames base n } := by
  have hkeep : pendingNames (fragNames base n) = fragNames base n := by
    refine List.filter_eq_self.mpr fun r hr => ?_
    obtain ⟨i, _, rfl⟩ := List.mem_map.mp hr
    rfl
  obtain ⟨r, rs, hcons⟩ := List.exists_cons_of_length_pos (l := fragNames base n) (by simpa [fragNames] using hn)
  rw [openWindow, hkeep, hcons]

/-- The elements of a row range take at least one word. -/
theorem regsFor_pos {nl ty count : Nat} (hty : ty ≤ 13) (hcount : 0 < count) (hnl : 0 < nl) : 0 < regsFor nl (elemWords ty count) := by
  have hbits : 0 < fragBits ty := by interval_cases ty <;> decide
  have hmul : 0 < count * fragBits ty := Nat.mul_pos hcount hbits
  have hwords : 0 < elemWords ty count := Nat.div_pos (by omega) (by decide)
  exact Nat.div_pos (by omega) hnl

section
variable (hd : d.val < v.team.nacc)
include hd

/-- A TYPED or an RND that is none, whatever register the fragment starts at. -/
theorem execMdrain_mode {names : List RegName} (h : MatrixReady s v names)
    (hnames : ∀ r ∈ RegName.acc d :: .s b :: fragNames x ((drainRegs v b).getD 0), r ∈ names)
    (hregs : (drainRegs v b).all (fun n => v.team.vRange x n) = true) (hmode : 13 < mxTypeD v.ctx.md ∨ 5 < mxRnd v.ctx.md) :
    execMdrain x d b la s = .next (park s v { code := .illegalMode } 0 []) := by
  refine instr_matrix_mode h rfl (by simp [hd, hregs]) ?_ hnames
  rcases hmode with hm | hm
  · simp [Nat.not_le.mpr hm]
  · simp [Nat.not_le.mpr hm]

theorem execMdrain_shape (h : MatrixReady s v [.acc d, .s b]) (ht : mxTypeD v.ctx.md ≤ 13) (hr : mxRnd v.ctx.md ≤ 5)
    (hrows : ¬ RowsOk (v.ctx.getS b).toNat (mxM v.ctx.md)) : execMdrain x d b la s = .next (park s v { code := .matrixShape } 0 []) := by
  have hnone : drainRegs v b = none := drainRegs_none fun _ => hrows
  refine instr_matrix_error h rfl (by simp [hd, hnone]) (by simp [ht, hr]) (by simp [hnone, fragNames]) ?_
  simp only [rowRange_none hrows]

theorem execMdrain_ready (h : MatrixReady s v (.acc d :: .s b :: fragNames x ((drainRegs v b).getD 0)))
    (hregs : (drainRegs v b).all (fun n => v.team.vRange x n) = true) (ht : mxTypeD v.ctx.md ≤ 13) (hr : mxRnd v.ctx.md ≤ 5)
    (hrows : RowsOk (v.ctx.getS b).toNat (mxM v.ctx.md)) (hbusy : tileBusy s v d = false) :
    execMdrain x d b la s =
      (let n := mxN v.ctx.md
       let row0 := (v.ctx.getS b).toNat % 256
       let drained := (List.range ((v.ctx.getS b).toNat / 256 % 256 * n)).map (fun i =>
         drainElem (v.team.tile d) ((row0 + i / n) * 64 + i % n) (mxTypeD v.ctx.md) (drainRnd s v (row0 + i / n) (i % n)))
       .next (s.retire v (writeWords v.team x (packWords (fragBits (mxTypeD v.ctx.md)) (drained.map (·.1))))
        ((v.ctx.raise (flagsOr (drained.map (·.2)))).advance (v.ctx.pc + 4) (openWindow 0 la (fragNames x ((drainRegs v b).getD 0)))))) := by
  refine instr_matrix h rfl (by simp [hd, hregs]) (by simp [ht, hr]) (fun _ hn => hn) ?_
  simp only [rowRange_some hrows, hbusy]
  rfl

end

/-! ### MXPORT and MXLOAD (R276) -/

/-- A number below `n` times 12, as a place and a unit. -/
theorem flatMap_range_units {α : Type} (f : Nat → Nat → α) (n : Nat) :
    (List.range n).flatMap (fun i => (List.range 12).map (f i)) = (List.range (n * 12)).map (fun c => f (c / 12) (c % 12)) := by
  induction n with
  | zero => rfl
  | succ n ih =>
    rw [List.range_succ (n := n), List.flatMap_append, ih, Nat.succ_mul, List.range_add, List.map_append, List.flatMap_singleton, List.map_map]
    congr 1
    refine List.map_congr_left fun u hu => ?_
    have hu : u < 12 := List.mem_range.mp hu
    rw [Function.comp_apply, show (n * 12 + u) / 12 = n by omega, show (n * 12 + u) % 12 = u by omega]

/-- The units MXPORT stores. -/
def exportUnits (es : List Xa) (row0 n count : Nat) (r : TeamRef) (off : Nat) : List StoreLane :=
  (List.range (count * 12)).map (fun c =>
    { lane := c, place := .stash r (off + 8 * c), stage := .issued
      bytes := ((es.getD ((row0 + c / 12 / n) * 64 + c / 12 % n) Xa.zero).record.drop (8 * (c % 12))).take 8 })

theorem recordRange_shape {write : Bool} (h : ¬ RowsOk (v.ctx.getS b).toNat (mxM v.ctx.md) ∨ (v.team.tile d).tag ≠ 0) :
    recordRange s v d a b write = .error { code := .matrixShape } := by
  unfold recordRange
  split
  next row0 nrow es hr ht =>
    rcases h with h | h
    · rw [rowRange_none h] at hr
      cases hr
    · rw [ht] at h
      exact absurd rfl h
  · rfl

theorem recordRange_ok {write : Bool} {es : List Xa} {r : TeamRef} {off : Nat} (hrows : RowsOk (v.ctx.getS b).toNat (mxM v.ctx.md))
    (ht : v.team.tile d = .exact es)
    (hs : stashTest s v.team none false (v.ctx.getS a) ((v.ctx.getS b).toNat / 256 % 256 * mxN v.ctx.md * 96) 32 write = .ok (.stash r off)) :
    recordRange s v d a b write = .ok (es, (v.ctx.getS b).toNat % 256, (v.ctx.getS b).toNat / 256 % 256, r, off) := by
  simp only [recordRange, rowRange_some hrows, ht, hs]

section
variable (h : MatrixReady s v [.acc d, .s a, .s b]) (hd : d.val < v.team.nacc)
include h hd

theorem execMxport_shape (hbad : ¬ RowsOk (v.ctx.getS b).toNat (mxM v.ctx.md) ∨ (v.team.tile d).tag ≠ 0) :
    execMxport d a b la s = .next (park s v { code := .matrixShape } 0 []) := by
  refine instr_matrix_error h rfl (by simp [hd]) rfl (fun _ hn => hn) ?_
  simp only [recordRange_shape hbad]

theorem execMxload_shape (hbad : ¬ RowsOk (v.ctx.getS b).toNat (mxM v.ctx.md) ∨ (v.team.tile d).tag ≠ 0) :
    execMxload d a b la s = .next (park s v { code := .matrixShape } 0 []) := by
  refine instr_matrix_error h rfl (by simp [hd]) rfl (fun _ hn => hn) ?_
  simp only [recordRange_shape hbad]

variable {es : List Xa} {r : TeamRef} {off : Nat} (hbusy : tileBusy s v d = false) (hrows : RowsOk (v.ctx.getS b).toNat (mxM v.ctx.md))
  (ht : v.team.tile d = .exact es)
include hbusy hrows ht

theorem execMxport_ready
    (hs : stashTest s v.team none false (v.ctx.getS a) ((v.ctx.getS b).toNat / 256 % 256 * mxN v.ctx.md * 96) 32 true = .ok (.stash r off)) :
    execMxport d a b la s =
      .next (if !s.roomFor v.team.ref .store [(.stash r off, (v.ctx.getS b).toNat / 256 % 256 * mxN v.ctx.md * 96)] then s
        else issueStore s v false (exportUnits es ((v.ctx.getS b).toNat % 256) (mxN v.ctx.md)
          ((v.ctx.getS b).toNat / 256 % 256 * mxN v.ctx.md) r off)) := by
  refine instr_matrix h rfl (by simp [hd]) rfl (fun _ hn => hn) ?_
  simp only [recordRange_ok hrows ht hs, hbusy, Bool.false_or, flatMap_range_units]
  split
  · rfl
  · refine congrArg (fun lanes => Except.ok (issueStore s v false lanes)) (List.map_congr_left fun c _ => ?_)
    rw [show 12 * (c / 12) + c % 12 = c by omega, show off + 96 * (c / 12) + 8 * (c % 12) = off + 8 * c by omega]
    simp [List.getD_eq_getElem?_getD]

theorem mxport_begins
    (hs : stashTest s v.team none false (v.ctx.getS a) ((v.ctx.getS b).toNat / 256 % 256 * mxN v.ctx.md * 96) 32 true = .ok (.stash r off))
    (hroom : RoomFor s v .store [(.stash r off, (v.ctx.getS b).toNat / 256 % 256 * mxN v.ctx.md * 96)]) :
    Begins s v (.mxport d a b la) .store (.store ((exportUnits es ((v.ctx.getS b).toNat % 256) (mxN v.ctx.md)
        ((v.ctx.getS b).toNat / 256 % 256 * mxN v.ctx.md) r off).flatMap (splitStore s)) false [])
      [(.stash r off, (v.ctx.getS b).toNat / 256 % 256 * mxN v.ctx.md * 96)] (fun _ => v.ctx.step4) := by
  have hcount : 0 < (v.ctx.getS b).toNat / 256 % 256 * mxN v.ctx.md := Nat.mul_pos (Nat.pos_of_ne_zero hrows.2.1) (mxN_pos _)
  refine begins_of_issueStore (execMxport_ready (la := la) h hd hbusy hrows ht hs) (roomFor_store hroom) ?_ fun hp l hl => ?_
  · simp only [exportUnits, ne_eq, List.map_eq_nil_iff, List.range_eq_nil]
    omega
  · obtain ⟨c, hc, rfl⟩ := List.mem_map.mp hl
    have hc := List.mem_range.mp hc
    have hlen := List.length_take_le 8 ((es.getD (((v.ctx.getS b).toNat % 256 + c / 12 / mxN v.ctx.md) * 64 + c / 12 % mxN v.ctx.md)
      Xa.zero).record.drop (8 * (c % 12)))
    refine inWindow_part (hp _ (List.mem_singleton_self _)) (by omega) ?_
    dsimp only
    omega

theorem mxload_begins
    (hs : stashTest s v.team none false (v.ctx.getS a) ((v.ctx.getS b).toNat / 256 % 256 * mxN v.ctx.md * 96) 32 false = .ok (.stash r off))
    (hroom : RoomFor s v .load [(.stash r off, (v.ctx.getS b).toNat / 256 % 256 * mxN v.ctx.md * 96)]) :
    Begins s v (.mxload d a b la) .load
      (.load (.tile d ((v.ctx.getS b).toNat % 256) ((v.ctx.getS b).toNat / 256 % 256) (mxN v.ctx.md))
        (((List.range ((v.ctx.getS b).toNat / 256 % 256 * mxN v.ctx.md * 12)).map (fun i =>
          ({ lane := i, place := .stash r (off + 8 * i), n := 8, val := none } : LoadLane))).flatMap (splitLoad s)) false)
      [(.stash r off, (v.ctx.getS b).toNat / 256 % 256 * mxN v.ctx.md * 96)]
      (fun _ => v.ctx.advance (v.ctx.pc + 4) (some { op := 0, left := la, names := [.acc d] })) := by
  obtain ⟨pre, ⟨heq, hops⟩, hplain⟩ := foldl_startTouch_touches (s := s) (v := v)
    ((List.range ((v.ctx.getS b).toNat / 256 % 256 * mxN v.ctx.md * 12)).map (fun i => (Place.stash r (off + 8 * i), 8))) false
  refine ⟨pre, hops, fun hp => hplain fun q hq => ?_, ?_⟩
  · obtain ⟨c, hc, rfl⟩ := List.mem_map.mp hq
    have hc := List.mem_range.mp hc
    exact inWindow_part (hp _ (List.mem_singleton_self _)) (by omega) (by omega)
  · refine instr_matrix h rfl (by simp [hd]) rfl (fun _ hn => hn) ?_
    rw [List.foldl_map] at heq
    simp only [recordRange_ok hrows ht hs, hbusy, Bool.false_or, roomFor_load hroom, Bool.not_true, Bool.false_eq_true, if_false,
      List.foldl_map, heq, mtxRetire, openWindow_acc]
    rfl

end

end

/-- Settles O36: each instruction by its own equation, a step of the semirings place by place, MSPLIT's buffer by what is dropped of
the residual lists, and the row ranges by the tests they pass. -/
theorem matrixInstructions : Obligations.MatrixInstructions := by
  unfold Obligations.MatrixInstructions
  refine ⟨fun s v d tb x a b la k => ?_, ?_, fun s v d x a b la => ?_⟩
  · refine ⟨fun h ⟨hd, hbusy⟩ hsemi => ?_, fun h ⟨hd, hbusy⟩ hk ha hb hrnd => ⟨fun ht => execMma_tag h hd hk ha hb hrnd ht, ?_, ?_⟩,
      fun h hsemi hk hspat ha => execMsplit_ready h hsemi hk hspat ha, fun h ⟨hd, hbusy⟩ hsemi hk hb es ht hlen => ?_,
      fun h => execMstat_ready h⟩
    · exact (execMzero_ready h hd hbusy hsemi).trans (by rw [tile_zero_eq hsemi])
    · intro es hsemi ht hlen
      exact ⟨_, (length_plusTimes ..).trans hlen, fun i hi => plusTimes_getD _ _ (hlen ▸ hi), execMma_exact h hd hk ha hb hrnd hbusy hsemi ht⟩
    · rintro _ es rfl h0 ht hlen
      exact execMma_steps h hd hk ha hb hrnd hbusy ht hlen (pairK_semiring h0 hk).1 fun i acc q => ringStep_eq_semiAt h0 hk
    · obtain ⟨hbad, hgood⟩ := execMmas_ready (la := la) h hd hsemi hk hb ht
      exact ⟨hbad, fun ⟨hvalid, hta, hm, hkk⟩ => ⟨_, (length_plusTimes ..).trans hlen, fun i hi => plusTimes_getD _ _ (hlen ▸ hi),
        hgood hbusy hvalid hta hm hkk⟩⟩
  · intro md s1 words k hk ty count _
    exact splitBuffer_spec md s1 words k hk
  · intro md n nl range row0 nrow rows words regs opened element drained hd hbusy hnl
    refine ⟨fun h ht hrows hregs => ?_, fun h => ⟨fun ht => ?_, fun ht hr hrows => execMdrain_shape hd h ht hr hrows⟩, fun h hbad i hi => ?_,
      fun h hrows es ht r off => ⟨mxport_begins h hd hbusy hrows ht, mxload_begins h hd hbusy hrows ht⟩⟩
    · have hdr : drainRegs v b = some regs := drainRegs_some ht hrows
      have hall : (drainRegs v b).all (fun n => v.team.vRange x n) = true := by simp [hdr, Team.vRange, hregs]
      have hpos : 0 < regs := regsFor_pos ht (Nat.mul_pos (Nat.pos_of_ne_zero hrows.2.1) (mxN_pos _)) hnl
      refine ⟨fun hr => ?_, fun hr => execMdrain_mode hd h (by simp [hdr]) hall (.inr hr)⟩
      refine (execMdrain_ready hd (by rwa [hdr]) hall ht hr hrows hbusy).trans ?_
      rw [hdr, Option.getD_some, openWindow_frag _ _ _ hpos]
      rfl
    · have hnone : drainRegs v b = none := drainRegs_none fun hle => absurd hle (Nat.not_le.mpr ht)
      exact execMdrain_mode hd h (by simp [hnone, fragNames]) (by simp [hnone]) (.inl ht)
    · simp only [List.mem_cons, List.not_mem_nil, or_false] at hi
      rcases hi with rfl | rfl
      · exact execMxport_shape (la := la) h hd hbad
      · exact execMxload_shape (la := la) h hd hbad

end Sys2Proof.Machine.Matrices

/-! ## The decision of a region is progress (O40) -/

namespace Sys2Proof.Machine.RegionProgress

-- one proof after another: side by side they take more threads than the check's memory limit has stacks for
set_option Elab.async false

/-- A region that has read a 1 where memory holds a 0. -/
def staleRegion : XendLane := { lane := 0, region := Tests.region0 1, res := none }

/-- An XEND of that region in flight, a unit of time after its team's last progress. -/
def decided : State := { Tests.flight .atom (.xend 3 2 [staleRegion]) with time := 1 }

/-- The time of a team's last progress. -/
def progressOf (s : State) (r : TeamRef) : Option Word := (s.team? r).map (·.progress)

/-- A team put in its place shows its own last progress. -/
theorem progressOf_putTeam {s : State} {t t' : Team} {op : Nat} (h : s.team? t.ref = some t') :
    progressOf ((s.putTeam t).finishOp op) t.ref = some t.progress :=
  congrArg (Option.map Team.progress) (State.team?_putTeam_self h)

/-- The model's decision counts as progress (R313). -/
theorem progressOf_decided : (match exec (.regionValidation 3 []) decided with
    | .next u => progressOf u Tests.r0
    | _ => none) = some 1 := by
  decide +kernel

/-- The sector that the region has read is at hand. -/
theorem decided_reads : ∃ u, eachSector decided (fun s g => s.readSector Tests.who0 placedLaunch g) [0x800] = .ok u ∧
    u.homeByte Tests.who0 0x20000 ≠ 1 ∧ u.team? Tests.r0 = some Tests.team1 :=
  ⟨_, rfl, by decide +kernel, rfl⟩

/-- Refutes O40: the decision of a region sets the time of its team's last progress (R313), which the statement keeps; here an XEND ends
with code 3 a unit of time later. -/
theorem not_atomicsComplete : ¬ Obligations.AtomicsComplete := by
  unfold Obligations.AtomicsComplete
  rintro ⟨hops, -⟩
  obtain ⟨-, -, -, hregion⟩ := hops decided 3 _ rfl rfl
  obtain ⟨u, hread, hbyte, hteam⟩ := decided_reads
  obtain ⟨hfails, -⟩ := hregion 3 2 staleRegion placedLaunch u Tests.team1 rfl rfl rfl (by decide) (by decide) hread
  have hexec := hfails ⟨(0x20000, 1), by decide, hbyte⟩ hteam
  have hmodel := progressOf_decided
  rw [hexec] at hmodel
  have hkept : some 1 = some (0 : Word) := hmodel.symm.trans (progressOf_putTeam (by exact hteam))
  exact absurd hkept (by decide)

end Sys2Proof.Machine.RegionProgress
